-- ==== Sys2Proof/Word.lean ====
section
/-! DEFINITION. The tagged word: 64 bits of datum and 8 bits of tag (R20), and the upsets that an access may meet (R267-R269, R407). -/

namespace Sys2Proof

/-- A 64-bit datum or register value. -/
abbrev W64 := BitVec 64

/-- One byte. -/
abbrev Byte := BitVec 8

/-- A tagged word (R20): an 8-bit tag (K, E, TYPE) and a 64-bit datum. -/
structure TWord where
  tag : BitVec 8
  datum : BitVec 64
  deriving DecidableEq, Repr, Inhabited

/-- An upset that an access meets: none; a parity error in a frame's address tag (R268); a single-bit or an uncorrectable error in
a word of a D-frame or of wings memory, or of an I-frame (R256, R267); an uncorrectable error in a register of the operand or control
stack (R20, R21); a flipped bit of a micro-word, nano-word or dispatch entry in the bank of the core's parity (R183); a correctable or an uncorrectable tag error, a single-bit or an uncorrectable word of a cluster cache
(R267, R269); a single-bit or an uncorrectable word read from memory, a command/address parity error of memory (R402, R407,
R408). `pa` is the word, or a word of the frame or line. -/
inductive Upset where
  | none
  | frameTag (pa : BitVec 48)
  | frameBit (pa : BitVec 48)
  | frameWord (pa : BitVec 48)
  | iframeBit (pa : BitVec 48)
  | iframeWord (pa : BitVec 48)
  | stackWord (i : Fin 8)
  | ctlWord (i : Fin 4)
  | storeBit (kind : Fin 3) (addr : BitVec 13) (bit : Fin 128)
  | ccTagBit (pa : BitVec 48)
  | ccTag (pa : BitVec 48)
  | ccBit (pa : BitVec 48)
  | ccWord (pa : BitVec 48)
  | memBit (pa : BitVec 48)
  | memWord (pa : BitVec 48)
  | memCommand (pa : BitVec 48)
  deriving DecidableEq, Repr, Inhabited

end Sys2Proof
end

