-- ==== Sys2Proof/Syntax.lean ====
section
/-! DEFINITION. The commands of the block: one constructor per row of spec/opcode_table.json. A command of an evaluator
core names the core `c` that issues the syllable at its PC and carries the syllable's operand fields (R65); an event
carries what the outside supplies. -/

namespace Sys2Proof

/-- One command (one row of spec/opcode_table.json). -/
inductive Instr where
  /-- NOP (R86). -/
  | nop (c : Fin 256)
  /-- DUP (R86). -/
  | dup (c : Fin 256)
  /-- DROP (R86). -/
  | drop (c : Fin 256)
  /-- SWAP (R86). -/
  | swap (c : Fin 256)
  /-- OVER (R86). -/
  | over (c : Fin 256)
  /-- ROT (R86). -/
  | rot (c : Fin 256)
  /-- NIP (R86). -/
  | nip (c : Fin 256)
  /-- TUCK (R86). -/
  | tuck (c : Fin 256)
  /-- TWO_DUP (R86). -/
  | twoDup (c : Fin 256)
  /-- TWO_DROP (R86). -/
  | twoDrop (c : Fin 256)
  /-- PICK (R86). -/
  | pick (c : Fin 256) (n : Fin 16)
  /-- PUT (R86). -/
  | put (c : Fin 256) (n : Fin 16)
  /-- TO_CONTROL (R86). -/
  | toControl (c : Fin 256)
  /-- FROM_CONTROL (R86). -/
  | fromControl (c : Fin 256)
  /-- COPY_CONTROL (R86). -/
  | copyControl (c : Fin 256)
  /-- LIT (R87). -/
  | lit (c : Fin 256) (imm : BitVec 12)
  /-- LITX (R87). -/
  | litx (c : Fin 256) (imm : BitVec 12)
  /-- ADD (R88). -/
  | add (c : Fin 256)
  /-- SUB (R88). -/
  | sub (c : Fin 256)
  /-- MUL (R88). -/
  | mul (c : Fin 256)
  /-- DIV (R88). -/
  | div (c : Fin 256)
  /-- QUO (R551). -/
  | quo (c : Fin 256)
  /-- MOD (R551). -/
  | mod (c : Fin 256)
  /-- REM (R551). -/
  | rem (c : Fin 256)
  /-- NEG (R88). -/
  | neg (c : Fin 256)
  /-- ABS (R88). -/
  | abs (c : Fin 256)
  /-- INC (R88). -/
  | inc (c : Fin 256)
  /-- DEC (R88). -/
  | dec (c : Fin 256)
  /-- AND (R88). -/
  | and (c : Fin 256)
  /-- OR (R88). -/
  | or (c : Fin 256)
  /-- XOR (R88). -/
  | xor (c : Fin 256)
  /-- NOT (R88). -/
  | not (c : Fin 256)
  /-- ASH (R89). -/
  | ash (c : Fin 256)
  /-- LSH (R89). -/
  | lsh (c : Fin 256)
  /-- MAX (R89). -/
  | max (c : Fin 256)
  /-- MIN (R89). -/
  | min (c : Fin 256)
  /-- FIX_ADD (R93). -/
  | fixAdd (c : Fin 256)
  /-- FIX_SUB (R93). -/
  | fixSub (c : Fin 256)
  /-- FIX_MUL (R93). -/
  | fixMul (c : Fin 256)
  /-- FIX_QUO (R93). -/
  | fixQuo (c : Fin 256)
  /-- FIX_REM (R93). -/
  | fixRem (c : Fin 256)
  /-- FIX_AND (R93). -/
  | fixAnd (c : Fin 256)
  /-- FIX_OR (R93). -/
  | fixOr (c : Fin 256)
  /-- FIX_XOR (R93). -/
  | fixXor (c : Fin 256)
  /-- FIX_SHL (R93). -/
  | fixShl (c : Fin 256)
  /-- FIX_SHR (R93). -/
  | fixShr (c : Fin 256)
  /-- FLO_ADD (R93). -/
  | floAdd (c : Fin 256)
  /-- FLO_SUB (R93). -/
  | floSub (c : Fin 256)
  /-- FLO_MUL (R93). -/
  | floMul (c : Fin 256)
  /-- FLO_DIV (R93). -/
  | floDiv (c : Fin 256)
  /-- FLO_SQRT (R93). -/
  | floSqrt (c : Fin 256)
  /-- FLO_FMA (R93). -/
  | floFma (c : Fin 256)
  /-- FLO_CVT (R93). -/
  | floCvt (c : Fin 256)
  /-- FLO_TRUNC (R93). -/
  | floTrunc (c : Fin 256)
  /-- EQ (R94). -/
  | eq (c : Fin 256)
  /-- EQL (R94). -/
  | eql (c : Fin 256)
  /-- NUM_EQUAL (R95). -/
  | numEqual (c : Fin 256)
  /-- NUM_LESS (R95). -/
  | numLess (c : Fin 256)
  /-- NUM_GREATER (R95). -/
  | numGreater (c : Fin 256)
  /-- NUM_LESS_EQUAL (R95). -/
  | numLessEqual (c : Fin 256)
  /-- NUM_GREATER_EQUAL (R95). -/
  | numGreaterEqual (c : Fin 256)
  /-- ZEROP (R94). -/
  | zerop (c : Fin 256)
  /-- TYPEP (R94). -/
  | typep (c : Fin 256) (t : BitVec 6)
  /-- CHECK (R94). -/
  | check (c : Fin 256) (t : BitVec 6)
  /-- CLASSP (R94). -/
  | classp (c : Fin 256) (k : Fin 8)
  /-- CAR (R102). -/
  | car (c : Fin 256)
  /-- CDR (R102). -/
  | cdr (c : Fin 256)
  /-- CONS (R104). -/
  | cons (c : Fin 256)
  /-- RPLACA (R102). -/
  | rplaca (c : Fin 256)
  /-- RPLACD (R102). -/
  | rplacd (c : Fin 256)
  /-- ALLOC (R103). -/
  | alloc (c : Fin 256)
  /-- VREF (R102). -/
  | vref (c : Fin 256)
  /-- VSET (R102). -/
  | vset (c : Fin 256)
  /-- VLEN (R102). -/
  | vlen (c : Fin 256)
  /-- COPYVEC (R107). -/
  | copyvec (c : Fin 256) (steps : Nat)
  /-- FILLVEC (R107). -/
  | fillvec (c : Fin 256) (steps : Nat)
  /-- EQUAL (R108). -/
  | equal (c : Fin 256) (steps : Nat)
  /-- ASSQ (R107). -/
  | assq (c : Fin 256) (steps : Nat)
  /-- MEMQ (R107). -/
  | memq (c : Fin 256) (steps : Nat)
  /-- NREVERSE (R111). -/
  | nreverse (c : Fin 256) (steps : Nat)
  /-- SYMVAL (R102). -/
  | symval (c : Fin 256)
  /-- SYMSET (R102). -/
  | symset (c : Fin 256)
  /-- SYMFN (R102). -/
  | symfn (c : Fin 256)
  /-- FETCH (R97). -/
  | fetch (c : Fin 256) (u : Upset)
  /-- STORE (R97). -/
  | store (c : Fin 256) (u : Upset)
  /-- FETCH2 (R97). -/
  | fetch2 (c : Fin 256)
  /-- STORE2 (R97). -/
  | store2 (c : Fin 256)
  /-- LOC (R98). -/
  | loc (c : Fin 256)
  /-- CAS (R99). -/
  | cas (c : Fin 256)
  /-- XCHG (R99). -/
  | xchg (c : Fin 256)
  /-- FADD (R99). -/
  | fadd (c : Fin 256)
  /-- FENCE_ACQ (R279). -/
  | fenceAcq (c : Fin 256)
  /-- FENCE_REL (R279). -/
  | fenceRel (c : Fin 256)
  /-- FENCE_FULL (R279). -/
  | fenceFull (c : Fin 256)
  /-- PFETCH (R100). -/
  | pfetch (c : Fin 256)
  /-- PSTORE (R100). -/
  | pstore (c : Fin 256)
  /-- GETTAG (R101). -/
  | gettag (c : Fin 256)
  /-- SETTAG (R45). -/
  | settag (c : Fin 256)
  /-- SATB_BUFFER_FLUSH (R320). -/
  | satbBufferFlush (c : Fin 256)
  /-- CLEAN (R270). -/
  | clean (c : Fin 256)
  /-- FLUSH (R270). -/
  | flush (c : Fin 256)
  /-- INVAL (R272). -/
  | inval (c : Fin 256)
  /-- IINVAL (R253). -/
  | iinval (c : Fin 256)
  /-- LOCK (R255). -/
  | lock (c : Fin 256)
  /-- UNLOCK (R255). -/
  | unlock (c : Fin 256)
  /-- CLEAN_ALL (R270). -/
  | cleanAll (c : Fin 256)
  /-- FLUSH_ALL (R270). -/
  | flushAll (c : Fin 256)
  /-- IINVAL_ALL (R270). -/
  | iinvalAll (c : Fin 256)
  /-- TLBI_VA (R239). -/
  | tlbiVa (c : Fin 256)
  /-- TLBI_VAW (R239). -/
  | tlbiVaw (c : Fin 256)
  /-- TLBI_ASID (R239). -/
  | tlbiAsid (c : Fin 256)
  /-- TLBI_VMID (R239). -/
  | tlbiVmid (c : Fin 256)
  /-- TLBI_ALL (R239). -/
  | tlbiAll (c : Fin 256)
  /-- TLBI_COMPLETE (R240). -/
  | tlbiComplete (c : Fin 256)
  /-- TLBW (R230). -/
  | tlbw (c : Fin 256)
  /-- TLBR (R232). -/
  | tlbr (c : Fin 256)
  /-- WALK (R228). -/
  | walk (c : Fin 256)
  /-- WALK_RESULT (R233). -/
  | walkResult (c : Fin 256)
  /-- BR (R113). -/
  | br (c : Fin 256) (off : BitVec 12)
  /-- BRNIL (R112). -/
  | brnil (c : Fin 256) (off : BitVec 10)
  /-- BRT (R112). -/
  | brt (c : Fin 256) (off : BitVec 10)
  /-- BRZ (R112). -/
  | brz (c : Fin 256) (off : BitVec 10)
  /-- BRNZ (R112). -/
  | brnz (c : Fin 256) (off : BitVec 10)
  /-- CALL (R117). -/
  | call (c : Fin 256)
  /-- TCALL (R121). -/
  | tcall (c : Fin 256)
  /-- RET (R120). -/
  | ret (c : Fin 256)
  /-- ENTER (R119). -/
  | enter (c : Fin 256) (n : BitVec 8)
  /-- LOCAL (R119). -/
  | localI (c : Fin 256) (n : BitVec 8)
  /-- SETLOCAL (R119). -/
  | setlocal (c : Fin 256) (n : BitVec 8)
  /-- ARG (R118). -/
  | arg (c : Fin 256) (n : BitVec 8)
  /-- GATE (R204). -/
  | gate (c : Fin 256)
  /-- GRET (R205). -/
  | gret (c : Fin 256)
  /-- REP (R122). -/
  | rep (c : Fin 256) (syl : BitVec 16) (steps : Nat)
  /-- LOOP (R124). -/
  | loop (c : Fin 256) (n : BitVec 8)
  /-- LEAVE (R126). -/
  | leave (c : Fin 256)
  /-- LCGET (R126). -/
  | lcget (c : Fin 256)
  /-- LCSET (R126). -/
  | lcset (c : Fin 256)
  /-- IN (R64). -/
  | in (c : Fin 256)
  /-- OUT (R64). -/
  | out (c : Fin 256)
  /-- INB (R64). -/
  | inb (c : Fin 256) (n : BitVec 10)
  /-- OUTB (R64). -/
  | outb (c : Fin 256) (n : BitVec 10)
  /-- REGISTER_WRITE (R548). -/
  | registerWrite (c : Fin 256) (w : Bool) (addr : BitVec 32) (v : BitVec 64)
  /-- TRAP (R129). -/
  | trap (c : Fin 256) (n : Fin 32)
  /-- RTE (R200). -/
  | rte (c : Fin 256)
  /-- RTQ (R198). -/
  | rtq (c : Fin 256)
  /-- HALT (R130). -/
  | halt (c : Fin 256)
  /-- MFSR (R56). -/
  | mfsr (c : Fin 256)
  /-- MTSR (R56). -/
  | mtsr (c : Fin 256)
  /-- SETIPL (R131). -/
  | setipl (c : Fin 256)
  /-- BRK (R132). -/
  | brk (c : Fin 256)
  /-- SYNC (R133). -/
  | sync (c : Fin 256)
  /-- TIME (R134). -/
  | time (c : Fin 256)
  /-- RAND (R134). -/
  | rand (c : Fin 256)
  /-- MCLOAD (R178). -/
  | mcload (c : Fin 256)
  /-- UNDEFINED_OPCODE (R74). -/
  | undefinedOpcode (c : Fin 256) (w : TWord)
  /-- CUSTOMER_OPCODE (R168). -/
  | customerOpcode (c : Fin 256) (u : BitVec 11)
  /-- MICRO_TIMEOUT (R165). -/
  | microTimeout (c : Fin 256)
  /-- SCENE (R283). -/
  | scene (c : Fin 256)
  /-- SCENE_S (R299). -/
  | sceneS (c : Fin 256)
  /-- CURTAIN (R300). -/
  | curtain (c : Fin 256)
  /-- CUT (R281). -/
  | cut (c : Fin 256)
  /-- SCSTAT (R287). -/
  | scstat (c : Fin 256)
  /-- RFETCH (R369). -/
  | rfetch (c : Fin 256)
  /-- RSTORE (R370). -/
  | rstore (c : Fin 256)
  /-- RINVOKE (R371). -/
  | rinvoke (c : Fin 256)
  /-- RSEND (R372). -/
  | rsend (c : Fin 256)
  /-- SCANSTACK (R332). -/
  | scanstack (c : Fin 256)
  /-- BARRIER (R324). -/
  | barrier (c : Fin 256)
  /-- CARD (R319). -/
  | card (c : Fin 256)
  /-- PACE (R318). -/
  | pace (c : Fin 256)
  /-- UNIFY (R345). -/
  | unify (c : Fin 256)
  /-- MATCH (R346). -/
  | matchI (c : Fin 256)
  /-- TRAILMARK (R349). -/
  | trailmark (c : Fin 256)
  /-- UNTRAIL (R349). -/
  | untrail (c : Fin 256)
  /-- BIND (R348). -/
  | bind (c : Fin 256)
  /-- DEREF (R342). -/
  | deref (c : Fin 256)
  /-- LPROBE (R353). -/
  | lprobe (c : Fin 256)
  /-- LINSERT (R353). -/
  | linsert (c : Fin 256)
  /-- LDELETE (R353). -/
  | ldelete (c : Fin 256)
  /-- COPROCESSOR_TURN (R341). -/
  | coprocessorTurn (cl : Fin 32) (look : Bool)
  /-- COPROCESSOR_RESPONSE (R338). -/
  | coprocessorResponse (c : Fin 256)
  /-- MISS_DATA_ARRIVES (R140). -/
  | missDataArrives (c : Fin 256)
  /-- STORE_QUEUE_DRAIN (R248). -/
  | storeQueueDrain (c : Fin 256) (k : Nat)
  /-- USHER_REQUEST (R264). -/
  | usherRequest (cl : Fin 32) (pa : BitVec 48) (own : Bool) (u : Upset)
  /-- CC_CTL_WAYDIS (R261). -/
  | ccCtlWaydis (cl : Fin 32) (ways : BitVec 16)
  /-- CC_CTL_FLUSH (R261). -/
  | ccCtlFlush (cl : Fin 32)
  /-- INTERRUPT_TAKEN (R190). -/
  | interruptTaken (c : Fin 256)
  /-- NMI_TAKEN (R189). -/
  | nmiTaken (c : Fin 256)
  /-- ASYNC_MACHINE_CHECK (R191). -/
  | asyncMachineCheck (c : Fin 256)
  /-- SINGLE_STEP_TRAP (R191). -/
  | singleStepTrap (c : Fin 256)
  /-- CUE_ROUTER_EVENT (R209). -/
  | cueRouterEvent (src : Fin 128)
  /-- LOCAL_TIMER_FIRE (R210). -/
  | localTimerFire (c : Fin 256) (t : Fin 2)
  /-- CUE_IPI (R210). -/
  | cueIpi (w : Bool) (v : BitVec 64)
  /-- CUE_NMI (R209). -/
  | cueNmi (v : BitVec 64)
  /-- CUE_SRC_WRITE (R209). -/
  | cueSrcWrite (w : Bool) (n : Fin 128) (v : BitVec 64)
  /-- CUE_LCTL_WRITE (R210). -/
  | cueLctlWrite (c : Fin 256) (w : Bool) (v : BitVec 64)
  /-- DEBUG_HALT_REQUEST (R298). -/
  | debugHaltRequest (c : Fin 256)
  /-- CONTROL_STORE_LOAD (R178). -/
  | controlStoreLoad
  /-- CONTROL_STORE_REFRESH (R184). -/
  | controlStoreRefresh
  /-- MCS_RFCTL_RFNOW (R184). -/
  | mcsRfctlRfnow (cl : Fin 32)
  /-- COL_HEAPBASE_WRITE (R310). -/
  | colHeapbaseWrite (v : BitVec 64)
  /-- COL_RSET (R315). -/
  | colRset (v : BitVec 64)
  /-- COL_ROOTQ (R327). -/
  | colRootq (va : BitVec 48)
  /-- MARK_FULL (R327). -/
  | markFull
  /-- MARK_YOUNG (R327). -/
  | markYoung
  /-- EVACUATE (R329). -/
  | evacuate (count : BitVec 16)
  /-- FINISH (R330). -/
  | finish
  /-- COL_IDLE (R326). -/
  | colIdle
  /-- COL_ABORT (R331). -/
  | colAbort
  /-- STAGEHAND_STEP (R325). -/
  | stagehandStep (cl : Fin 32)
  /-- STH_ERR_RESUME (R333). -/
  | sthErrResume (cl : Fin 32)
  /-- BARRIER_COPY_DONE (R322). -/
  | barrierCopyDone (c : Fin 256)
  /-- PACING_GRANT (R317). -/
  | pacingGrant (c : Fin 256)
  /-- PACELIM_EXPIRY (R317). -/
  | pacelimExpiry (c : Fin 256)
  /-- RDREQ (R374). -/
  | rdreq (p : Fin 12) (h0 h1 : BitVec 64) (units : List TWord)
  /-- RDRSP (R369). -/
  | rdrsp (p : Fin 12) (h0 h1 : BitVec 64) (units : List TWord)
  /-- WRREQ (R374). -/
  | wrreq (p : Fin 12) (h0 h1 : BitVec 64) (units : List TWord)
  /-- WRRSP (R370). -/
  | wrrsp (p : Fin 12) (h0 h1 : BitVec 64) (units : List TWord)
  /-- INVOKE (R371). -/
  | invoke (p : Fin 12) (h0 h1 : BitVec 64) (units : List TWord)
  /-- SEND (R372). -/
  | send (p : Fin 12) (h0 h1 : BitVec 64) (units : List TWord)
  /-- RESULT (R373). -/
  | result (p : Fin 12) (h0 h1 : BitVec 64) (units : List TWord)
  /-- WRET (R336). -/
  | wret (p : Fin 12) (h0 h1 : BitVec 64) (units : List TWord)
  /-- EACK (R376). -/
  | eack (p : Fin 12) (h0 h1 : BitVec 64) (units : List TWord)
  /-- PREPARE (R305). -/
  | prepare (p : Fin 12) (h0 h1 : BitVec 64) (units : List TWord)
  /-- VOTE (R305). -/
  | vote (p : Fin 12) (h0 h1 : BitVec 64) (units : List TWord)
  /-- COMMIT (R305). -/
  | commit (p : Fin 12) (h0 h1 : BitVec 64) (units : List TWord)
  /-- ABORT (R305). -/
  | abort (p : Fin 12) (h0 h1 : BitVec 64) (units : List TWord)
  /-- NOTICE (R304). -/
  | notice (p : Fin 12) (h0 h1 : BitVec 64) (units : List TWord)
  /-- OQUERY (R379). -/
  | oquery (p : Fin 12) (h0 h1 : BitVec 64) (units : List TWord)
  /-- OREPLY (R379). -/
  | oreply (p : Fin 12) (h0 h1 : BitVec 64) (units : List TWord)
  /-- MGMT (R378). -/
  | mgmt (p : Fin 12) (h0 h1 : BitVec 64) (units : List TWord)
  /-- PREPARE_TIMEOUT (R305). -/
  | prepareTimeout (c : Fin 256)
  /-- OQUERY_TIMER (R379). -/
  | oqueryTimer (slot : Fin 64)
  /-- ORIGIN_UNREACHABLE (R379). -/
  | originUnreachable (slot : Fin 64)
  /-- RETRANSMIT_TIMEOUT (R376). -/
  | retransmitTimeout (node : BitVec 14)
  /-- REQUEST_TIMEOUT (R375). -/
  | requestTimeout (tag : BitVec 32)
  /-- PORT_SIGNAL_DETECT (R358). -/
  | portSignalDetect (p : Fin 12) (lanes : BitVec 4)
  /-- LINK_TRAINING_DONE (R358). -/
  | linkTrainingDone (p : Fin 12) (w4 : Bool)
  /-- TRAIN_TIMEOUT (R358). -/
  | trainTimeout (p : Fin 12)
  /-- FLIT_LOCK_DONE (R358). -/
  | flitLockDone (p : Fin 12)
  /-- LOCK_TIMEOUT (R358). -/
  | lockTimeout (p : Fin 12)
  /-- HELLO (R359). -/
  | hello (p : Fin 12) (node : BitVec 14) (nport : BitVec 4) (w2 seal' : Bool) (sysid : BitVec 64) (idbad : Bool) (cert sig : List (BitVec 8))
  /-- FLIT_NAK (R361). -/
  | flitNak (p : Fin 12) (good : BitVec 12)
  /-- FLIT_IDLE (R360). -/
  | flitIdle (p : Fin 12) (ack : BitVec 12) (credits : BitVec 16) (crdl : Bool)
  /-- FLIT_TSYNC (R380). -/
  | flitTsync (p : Fin 12) (t1 t2 t3 t4 : BitVec 64) (degraded : Bool)
  /-- FLIT_ERROR (R361). -/
  | flitError (p : Fin 12) (tag : Bool)
  /-- ACK_TIMEOUT (R361). -/
  | ackTimeout (p : Fin 12)
  /-- KEY_ROLLOVER (R362). -/
  | keyRollover (p : Fin 12)
  /-- CREDIT_STALL (R378). -/
  | creditStall (p : Fin 12)
  /-- TSYNC_EXCHANGE (R380). -/
  | tsyncExchange
  /-- TOUR_PCTL_RETRAIN (R358). -/
  | tourPctlRetrain (p : Fin 12)
  /-- TOUR_PCTL_EN (R358). -/
  | tourPctlEn (p : Fin 12) (en : Bool)
  /-- TOUR_SCRES (R379). -/
  | tourScres (v : BitVec 64)
  /-- TOUR_INQH_WRITE (R377). -/
  | tourInqhWrite (v : BitVec 64)
  /-- SQ_TAIL_DOORBELL (R394). -/
  | sqTailDoorbell (q : Fin 64) (t : BitVec 16)
  /-- CQ_HEAD_DOORBELL (R394). -/
  | cqHeadDoorbell (q : Fin 64) (h : BitVec 16)
  /-- HOST_CQT_WRITE (R394). -/
  | hostCqtWrite (q : Fin 64) (v : BitVec 16)
  /-- MSIX_TABLE_WRITE (R394). -/
  | msixTableWrite (n : Fin 64) (addr : BitVec 64) (data : BitVec 32) (mask : Bool)
  /-- MAILBOX_GETSTATUS (R397). -/
  | mailboxGetstatus
  /-- MAILBOX_PROFSEL (R397). -/
  | mailboxProfsel (prof : BitVec 2)
  /-- MAILBOX_FLASHWR (R397). -/
  | mailboxFlashwr (off : BitVec 32) (data : List (BitVec 8))
  /-- MAILBOX_FLASHCHK (R397). -/
  | mailboxFlashchk (copyB : Bool)
  /-- MAILBOX_BBREAD (R397). -/
  | mailboxBbread (off : BitVec 16)
  /-- BAR2_ACCESS (R392). -/
  | bar2Access (off : BitVec 26) (wr : Bool) (v : BitVec 64)
  /-- HDM0_WRITE (R385). -/
  | hdm0Write (addr : BitVec 64) (data : List (BitVec 64)) (mask : BitVec 64) (poison : Bool)
  /-- HDM1_WRITE (R385). -/
  | hdm1Write (addr : BitVec 64) (tags : BitVec 64) (mask : BitVec 8)
  /-- HOST_MEM_READ (R386). -/
  | hostMemRead (addr : BitVec 64)
  /-- HOST_SNOOP (R266). -/
  | hostSnoop (addr : BitVec 64) (own : Bool)
  /-- HDM_DECODER_COMMIT (R384). -/
  | hdmDecoderCommit (second : Bool) (base : BitVec 64)
  /-- HOST_READ_COMPLETION (R390). -/
  | hostReadCompletion (pa : BitVec 48) (data : List (BitVec 64)) (poison err : Bool)
  /-- HOST_BIASCMD (R388). -/
  | hostBiascmd (v : BitVec 64)
  /-- HOST_BIASCMD_ABORT (R388). -/
  | hostBiascmdAbort
  /-- HOST_CTL_VIRAL (R400). -/
  | hostCtlViral
  /-- VIRAL_RECEIVED (R400). -/
  | viralReceived
  /-- LINK_DOWN (R390). -/
  | linkDown
  /-- PERST_N_ASSERT (R398). -/
  | perstNAssert
  /-- FLR (R398). -/
  | flr
  /-- CXL_RESET (R398). -/
  | cxlReset
  /-- CXL_RESET_MEM_CLR (R398). -/
  | cxlResetMemClr
  /-- IDE_INTEGRITY_FAILURE (R533). -/
  | ideIntegrityFailure (cm : Bool)
  /-- GET_VERSION (R531). -/
  | getVersion
  /-- GET_CAPABILITIES (R531). -/
  | getCapabilities
  /-- NEGOTIATE_ALGORITHMS (R531). -/
  | negotiateAlgorithms (ok : Bool)
  /-- GET_DIGESTS (R531). -/
  | getDigests
  /-- GET_CERTIFICATE (R531). -/
  | getCertificate (slot : Fin 8) (off len : BitVec 16)
  /-- CHALLENGE (R531). -/
  | challenge (slot : Fin 8) (nonce : BitVec 256)
  /-- GET_MEASUREMENTS (R531). -/
  | getMeasurements (blk : BitVec 8) (nonce : BitVec 256)
  /-- KEY_EXCHANGE (R531). -/
  | keyExchange (share : List (BitVec 8)) (wantMutual : Bool)
  /-- SPDM_FINISH (R531). -/
  | spdmFinish (ok : Bool)
  /-- KEY_PROG (R533). -/
  | keyProg (cm : Bool) (key : BitVec 256)
  /-- K_SET_GO (R533). -/
  | kSetGo (cm : Bool)
  /-- K_SET_STOP (R533). -/
  | kSetStop (cm : Bool)
  /-- SPDM_UNSUPPORTED_REQUEST (R531). -/
  | spdmUnsupportedRequest
  /-- CDAT_READ (R397). -/
  | cdatRead
  /-- PATROL_SCRUB (R409). -/
  | patrolScrub (pa : BitVec 48) (err : Fin 3) (shadow late : Bool)
  /-- HBM_REFRESH (R411). -/
  | hbmRefresh (m : Fin 4)
  /-- HBM_TEMPERATURE_READ (R411). -/
  | hbmTemperatureRead (m : Fin 4) (temp : BitVec 8)
  /-- PERIODIC_CALIBRATION (R412). -/
  | periodicCalibration (m : Fin 4) (chan : BitVec 4)
  /-- MC_CALCMD (R413). -/
  | mcCalcmd (m : Fin 4) (chan : BitVec 4)
  /-- FORCED_RECAL_COMPLETE (R413). -/
  | forcedRecalComplete (m : Fin 4) (chan : BitVec 4)
  /-- DEV_MODE_WRITE (R417). -/
  | devModeWrite (v : BitVec 8)
  /-- CLU_MODE_WRITE (R418). -/
  | cluModeWrite (cl : Fin 32) (v : BitVec 9)
  /-- MODE_CHANGE (R419). -/
  | modeChange
  /-- LOCKSTEP_DIVERGENCE (R424). -/
  | lockstepDivergence (c : Fin 256)
  /-- SELFTEST_WAY_ROTATION (R426). -/
  | selftestWayRotation (cl : Fin 32) (fail : Bool)
  /-- SELFTEST_IDLE_CORE (R426). -/
  | selftestIdleCore (c : Fin 256) (fail : Bool)
  /-- DEV_STREQ (R427). -/
  | devStreq (cls : Fin 16) (idx : BitVec 12)
  /-- SELFTEST_START (R427). -/
  | selftestStart
  /-- SELFTEST_DEADLINE (R427). -/
  | selftestDeadline
  /-- SELFTEST_RESULT (R428). -/
  | selftestResult (pass : Bool)
  /-- DEV_STREQ_ABORT (R428). -/
  | devStreqAbort
  /-- CHUNK_END (R434). -/
  | chunkEnd (a : Fin 288)
  /-- CHUNK_COMMIT (R437). -/
  | chunkCommit
  /-- SNAPSHOT_COMPLETE (R447). -/
  | snapshotComplete
  /-- HOSTPUSH_DRAIN (R444). -/
  | hostpushDrain
  /-- REH_CTL_ABORT (R448). -/
  | rehCtlAbort
  /-- REH_MARK (R438). -/
  | rehMark (c : Fin 256) (v : BitVec 64)
  /-- REH_RHEAD_WRITE (R445). -/
  | rehRheadWrite (v : BitVec 32)
  /-- REH_HHEAD_WRITE (R444). -/
  | rehHheadWrite (v : BitVec 32)
  /-- REPLAY_PREP (R449). -/
  | replayPrep (log : List (BitVec 64)) (image : Option (List (BitVec 48 × TWord))) (ctxs : List (List TWord))
  /-- REPLAY_READY (R449). -/
  | replayReady
  /-- REPLAY_CHUNK (R450). -/
  | replayChunk
  /-- REPLAY_RESUME (R452). -/
  | replayResume
  /-- REPLAY_ABORT (R452). -/
  | replayAbort
  /-- TRACE_LOSS_ENTRY (R456). -/
  | traceLossEntry
  /-- REH_TCTL_FROZEN_CLEAR (R456). -/
  | rehTctlFrozenClear
  /-- POR_N_ASSERT (R479). -/
  | porNAssert
  /-- POR_N_RELEASE (R461). -/
  | porNRelease (profile : BitVec 2) (paddr : BitVec 3) (recover : Bool)
  /-- AONRC_OK (R461). -/
  | aonrcOk
  /-- GREEN_ROOM_CLOCK_SWITCH (R461). -/
  | greenRoomClockSwitch
  /-- AON32_GOOD (R461). -/
  | aon32Good
  /-- AON32_TIMEOUT (R461). -/
  | aon32Timeout
  /-- PLL_LOSS (R462). -/
  | pllLoss (p : Fin 9)
  /-- PLL_RELOCK (R462). -/
  | pllRelock (p : Fin 9)
  /-- SYSREF_LOST (R463). -/
  | sysrefLost
  /-- SYSREF_RESTORED (R463). -/
  | sysrefRestored
  /-- FALLBACK_SLOW (R464). -/
  | fallbackSlow
  /-- CLK_TPLL_WRITE (R460). -/
  | clkTpllWrite (t : Fin 4) (core cch : BitVec 12)
  /-- TPLL_CHANGE_DONE (R460). -/
  | tpllChangeDone (t : Fin 4)
  /-- CLK_GREQ_GATE (R466). -/
  | clkGreqGate (cls : Fin 16) (idx : BitVec 12)
  /-- CLK_GREQ_UNGATE (R466). -/
  | clkGreqUngate (cls : Fin 16) (idx : BitVec 12)
  /-- GATE_ACK (R465). -/
  | gateAck
  /-- GATE_TIMEOUT (R465). -/
  | gateTimeout
  /-- PWR_CMD_DARK (R467). -/
  | pwrCmdDark
  /-- PWR_CMD_ABORT (R467). -/
  | pwrCmdAbort
  /-- DARK_COMMIT (R467). -/
  | darkCommit
  /-- DARK_WAKE (R469). -/
  | darkWake
  /-- AVS_FAILURE (R470). -/
  | avsFailure (t : Fin 4)
  /-- POWER_ESTIMATE (R471). -/
  | powerEstimate (watts : BitVec 16)
  /-- THERMAL_THROTTLE (R472). -/
  | thermalThrottle (tile : Fin 5) (temp : BitVec 8)
  /-- THERMTRIP (R473). -/
  | thermtrip (tile : Fin 5) (temp : BitVec 8)
  /-- TIME_ADJ_STEP (R476). -/
  | timeAdjStep (ns : BitVec 62)
  /-- TIME_ADJ_SLEW (R476). -/
  | timeAdjSlew (ns : BitVec 62)
  /-- TSYNC_IN_EDGE (R477). -/
  | tsyncInEdge
  /-- TSYNC_OUT_PULSE (R477). -/
  | tsyncOutPulse
  /-- LOAD_IN (R492). -/
  | loadIn (pllOk : Bool) (bistBad : BitVec 32) (sysBist : Bool)
  /-- HBM_TRAINING_DONE (R492). -/
  | hbmTrainingDone (ok : Bool)
  /-- MEMORY_CLEARING_DONE (R414). -/
  | memoryClearingDone
  /-- LOADIN_NEXT_WRITE (R491). -/
  | loadinNextWrite (v sticky : Bool) (prof : BitVec 2)
  /-- LOADIN_CMD_WARM (R499). -/
  | loadinCmdWarm
  /-- LOADIN_CMD_CRESET (R499). -/
  | loadinCmdCreset (cl : Fin 32)
  /-- LOADIN_START (R495). -/
  | loadinStart (c : Fin 256) (sa : BitVec 48)
  /-- WARM_N_EDGE (R540). -/
  | warmNEdge
  /-- WARM_RESET (R500). -/
  | warmReset
  /-- CLUSTER_RESET (R501). -/
  | clusterReset (cl : Fin 32)
  /-- VDD_AON_LOSS (R431). -/
  | vddAonLoss
  /-- KSU_FUSE (R520). -/
  | ksuFuse (k : Fin 8) (back : Bool)
  /-- KSU_REVOKE (R520). -/
  | ksuRevoke (k : Fin 8) (back : Bool)
  /-- KSU_PROVLOCK (R520). -/
  | ksuProvlock (k : Fin 8) (back : Bool)
  /-- KSU_ZEROIZE (R534). -/
  | ksuZeroize
  /-- KSU_RESEED (R522). -/
  | ksuReseed (ok : Bool)
  /-- DRBG_AUTO_RESEED (R522). -/
  | drbgAutoReseed
  /-- ENTROPY_HEALTH_FAILURE (R522). -/
  | entropyHealthFailure
  /-- PROMPTER_STATUS (R509). -/
  | prompterStatus
  /-- TELEM (R510). -/
  | telem
  /-- PROMPTER_BBREAD (R513). -/
  | prompterBbread (off : BitVec 32) (count : BitVec 16)
  /-- BBCLEAR (R513). -/
  | bbclear
  /-- PROMPTER_PROFSEL (R507). -/
  | prompterProfsel (v : BitVec 8)
  /-- MODESET (R507). -/
  | modeset (v : BitVec 8)
  /-- PROMPTER_RESET (R507). -/
  | prompterReset (kind cl : BitVec 8)
  /-- CALIB (R507). -/
  | calib (v : BitVec 8)
  /-- PROMPTER_WAKE (R507). -/
  | prompterWake
  /-- PROMPTER_DARK (R507). -/
  | prompterDark
  /-- CHAL (R506). -/
  | chal
  /-- PAUTH (R506). -/
  | pauth (sig : List (BitVec 8))
  /-- PEND (R506). -/
  | pend
  /-- DBGUNLOCK (R527). -/
  | dbgunlock (scope : BitVec 8) (sig : List (BitVec 8))
  /-- ATTEST (R530). -/
  | attest (nonce : BitVec 256) (blk : BitVec 8)
  /-- PROMPTER_ZEROIZE (R534). -/
  | prompterZeroize (magic : BitVec 32)
  /-- PROMPTER_FLASHWR (R507). -/
  | prompterFlashwr (off : BitVec 32) (data : List (BitVec 8))
  /-- PROMPTER_FLASHCHK (R507). -/
  | prompterFlashchk (copy : BitVec 8)
  /-- MBWRITE (R514). -/
  | mbwrite (msg : List (BitVec 8))
  /-- MBREAD (R514). -/
  | mbread
  /-- RESPONSE_READ (R504). -/
  | responseRead
  /-- ALERT_RESPONSE (R502). -/
  | alertResponse
  /-- SMBUS_TIMEOUT (R502). -/
  | smbusTimeout
  /-- SESSION_TIMEOUT (R506). -/
  | sessionTimeout
  /-- LOCKOUT_EXPIRY (R506). -/
  | lockoutExpiry
  /-- PROMPTER_MBCTL_WRITE (R514). -/
  | prompterMbctlWrite (clearIn setOut : Bool) (len : BitVec 7)
  /-- PERST_N_DEASSERT (R494). -/
  | perstNDeassert
  /-- HOST_LINK_UP (R382). -/
  | hostLinkUp (cxl : Bool) (width : Fin 3) (fast : Bool)
  /-- CONFIGURATION_REQUEST (R494). -/
  | configurationRequest (wr : Bool) (dword : BitVec 10) (v : BitVec 32)
  /-- PROMPTER_REJECTED_REQUEST (R503). -/
  | prompterRejectedRequest (kind : Fin 3) (opc : BitVec 8)
  /-- MAILBOX_UNKNOWN_OPCODE (R397). -/
  | mailboxUnknownOpcode (op : BitVec 8)
  /-- TOUR_RESERVED_MESSAGE (R364). -/
  | tourReservedMessage (p : Fin 12) (h0 h1 : BitVec 64) (units : List TWord)
  /-- DEBUG_RESUME (R527). -/
  | debugResume (c : Fin 256) (step : Bool)
  /-- DRBG_INSTANTIATED (R522). -/
  | drbgInstantiated
  /-- HOST_WRITE_REFUSED (R390). -/
  | hostWriteRefused
  deriving DecidableEq, Repr

end Sys2Proof
end

