-- ==== Sys2Proof/Config.lean ====
section
/-! DEFINITION. What the spec leaves open and what an implementation fixes: free values (opaque, no body) and the
cryptographic functions that the spec names by standard. Nothing can be proved of their values. -/

namespace Sys2Proof.Config

open Sys2Proof

/-- A free 64-bit value for the n-th use (log entry 5): results that the spec leaves undefined or unstated. -/
opaque freeValue : Nat → W64

/-- DRBG output for the n-th draw (R134, R522): no rule fixes it. -/
opaque drbg : Nat → W64

/-- Pseudo-LRU victim choice for the n-th choice (R247, R231, R260): the spec fixes only the set chosen from. -/
opaque victim : Nat → Nat

/-- SHA-384 of a byte string (R515, R523), as 384 bits. -/
opaque sha384 : List Byte → BitVec 384

/-- ECDSA P-384 verification of a signature over a digest under a public key (R515, R523). -/
opaque ecdsaVerify : List Byte → BitVec 384 → List Byte → Bool

/-- Verification of a signature over a digest by the KSU against a slot of which it holds the key hash (R506, R527). -/
opaque slotVerify : BitVec 384 → BitVec 384 → List Byte → Bool

/-- The hash in the VENDOR key slot, written at manufacture (R518). -/
opaque vendorKey : BitVec 384

/-- The key hash that the owner has fused into slot LOAD0 (R518, log entry 3, DESIGN CHOICE). -/
opaque ownerKey : BitVec 384

/-- ECDSA P-384 signature of a digest under the device key, for the n-th signature (R523, R530): 96 bytes. -/
opaque ecdsaSign : Nat → BitVec 384 → List Byte

/-- The device certificate chain as the fuses and the KSU hold it (R530, R531). -/
opaque certByte : Nat → Byte

/-- Contents of the vendor microcode stores that no rule of the spec writes out (R152, R155): area, address. -/
opaque vendorWord : Nat → Nat → BitVec 128

/-- The check bits of a word (R21): the spec names the kind of code and not the code. -/
opaque checkByte : TWord → Byte

/-- The proof of identity in a neighbour's HELLO verifies (R532): its certificate chain reaches the root, and its signature covers
both ends' node IDs and ports. Arguments: own node and port, the neighbour's, the chain, the signature. -/
opaque helloOk : List Nat → List Byte → List Byte → Bool

/-- Highest fused CORE frequency in MHz that a tile may run at a voltage in mV (R470): tile, voltage. -/
opaque fusedMhz : Nat → Nat → Nat

/-- The fused voltage in mV for a CORE frequency in MHz (R460): tile, frequency. -/
opaque fusedMv : Nat → Nat → Nat

/-- A tile's fused maximum CORE frequency in MHz (R459). -/
opaque fusedMax : Nat → Nat

/-- A dword of configuration space that the spec does not list (R383). -/
opaque cfgDword : Nat → BitVec 32

end Sys2Proof.Config
end

