-- ==== Sys2Proof/Machine/Bits.lean ====
section
/-! DEFINITION. Bit-field and tag helpers: the type codes of R24, dispatch classes, pointer class, field reads. -/

namespace Sys2Proof.Machine

open Sys2Proof

/-- Bits [hi:lo] of a datum as a natural number (R5). -/
def bits (w : W64) (hi lo : Nat) : Nat := (w.toNat >>> lo) % 2 ^ (hi + 1 - lo)

/-- One bit of a datum. -/
def bit (w : W64) (i : Nat) : Bool := w.toNat.testBit i

/-- A datum with bits [hi:lo] replaced. -/
def setBits (w : W64) (hi lo : Nat) (v : Nat) : W64 :=
  let m := 2 ^ (hi + 1 - lo)
  BitVec.ofNat 64 (w.toNat - bits w hi lo * 2 ^ lo + v % m * 2 ^ lo)

/-- The value of a Boolean as a bit. -/
def b2n (b : Bool) : Nat := if b then 1 else 0

/-- A 64-bit datum from a natural number. -/
def w64 (n : Nat) : W64 := BitVec.ofNat 64 n

/-- The type codes of R24. -/
def tRAW : Nat := 0x00
def tFIX : Nat := 0x01
def tFLO : Nat := 0x02
def tCHR : Nat := 0x03
def tNIL : Nat := 0x04
def tTRUE : Nat := 0x05
def tUNB : Nat := 0x06
def tVAR : Nat := 0x07
def tCONS : Nat := 0x08
def tSYM : Nat := 0x09
def tVEC : Nat := 0x0A
def tSTR : Nat := 0x0B
def tBVEC : Nat := 0x0C
def tBIG : Nat := 0x0D
def tRAT : Nat := 0x0E
def tCPX : Nat := 0x0F
def tFUN : Nat := 0x10
def tCODE : Nat := 0x11
def tLOC : Nat := 0x12
def tSTRUCT : Nat := 0x13
def tPROXY : Nat := 0x14
def tRREF : Nat := 0x15
def tCAP : Nat := 0x16
def tFRAME : Nat := 0x17
def tHDR : Nat := 0x18
def tFWD : Nat := 0x19
def tTTE : Nat := 0x1A
def tTRAIL : Nat := 0x1B
def tFUTURE : Nat := 0x1C
def tEMPTY : Nat := 0x1D
def tINS : Nat := 0x1E
def tPOISON : Nat := 0x1F

/-- TYPE, bits [5:0] of the tag. -/
def ty (w : TWord) : Nat := w.tag.toNat % 64

/-- K, bit 7 of the tag. -/
def kBit (w : TWord) : Bool := w.tag.toNat.testBit 7

/-- E, bit 6 of the tag. -/
def eBit (w : TWord) : Bool := w.tag.toNat.testBit 6

/-- A tag byte from K, E and TYPE. -/
def mkTag (k e : Bool) (t : Nat) : BitVec 8 := BitVec.ofNat 8 (b2n k * 128 + b2n e * 64 + t % 64)

/-- A word with E and K clear. -/
def word (t : Nat) (d : Nat) : TWord := ⟨BitVec.ofNat 8 t, w64 d⟩

/-- A FIX word holding an integer modulo 2^64. -/
def fixI (i : Int) : TWord := ⟨BitVec.ofNat 8 tFIX, BitVec.ofInt 64 i⟩

/-- A FIX word holding a natural number modulo 2^64. -/
def fixN (n : Nat) : TWord := word tFIX n

/-- A FIX word holding a datum. -/
def fixW (d : W64) : TWord := ⟨BitVec.ofNat 8 tFIX, d⟩

/-- A FLO word holding the bits of a binary64. -/
def floN (n : Nat) : TWord := word tFLO n

/-- NIL, TRUE, EMPTY, POISON and RAW 0 (R24, R29). -/
def wNIL : TWord := word tNIL 0
def wTRUE : TWord := word tTRUE 0
def wEMPTY : TWord := word tEMPTY 0
def wPOISON : TWord := word tPOISON 0
def wRAW0 : TWord := word tRAW 0

/-- The result of a predicate (R79). -/
def wBool (b : Bool) : TWord := if b then wTRUE else wNIL

/-- The address in datum [47:0]. -/
def adr (w : TWord) : Nat := w.datum.toNat % 2 ^ 48

/-- Bits [63:48] of a datum are zero (R26, R28). -/
def hiZero (w : TWord) : Bool := w.datum.toNat / 2 ^ 48 == 0

/-- Customer types CU0-CU15 (R24). -/
def isCustom (t : Nat) : Bool := 0x20 ≤ t && t ≤ 0x2F

/-- Reserved type codes 0x30-0x3F. -/
def isReserved (t : Nat) : Bool := 0x30 ≤ t

/-- Pointer class (R24, R25): `cuptr` is MCS.CUPTR. -/
def isPtr (cuptr : Nat) (t : Nat) : Bool :=
  t == tVAR || (tCONS ≤ t && t ≤ tFUN) || t == tLOC || t == tSTRUCT || t == tPROXY || t == tFWD || t == tFUTURE
    || (isCustom t && cuptr.testBit (t - 0x20))

/-- The headed types of R98. -/
def isHeaded (cuptr : Nat) (t : Nat) : Bool :=
  (tSYM ≤ t && t ≤ tFUN) || t == tSTRUCT || t == tPROXY || t == tFUTURE || (isCustom t && cuptr.testBit (t - 0x20))

/-- Dispatch class of a type code (R24): 0 IMMNUM, 1 FLONUM, 2 BOXNUM, 3 LIST, 4 SYMBOL, 5 OBJECT, 6 CUSTOM,
7 OTHER. -/
def dclass (t : Nat) : Nat :=
  if t == tFIX then 0
  else if t == tFLO then 1
  else if t == tBIG || t == tRAT || t == tCPX then 2
  else if t == tNIL || t == tCONS then 3
  else if t == tTRUE || t == tUNB || t == tSYM then 4
  else if t == tVEC || t == tSTR || t == tBVEC || t == tFUN || t == tSTRUCT || t == tPROXY || t == tFUTURE then 5
  else if isCustom t then 6
  else 7

/-- EQ (R22, R94): datum and TYPE equal, E and K ignored. -/
def eqWord (a b : TWord) : Bool := ty a == ty b && a.datum == b.datum

/-- HDR fields (R31). -/
def hdrLen (h : TWord) : Nat := bits h.datum 31 0
def hdrSub (h : TWord) : Nat := bits h.datum 39 32
def hdrAge (h : TWord) : Nat := bits h.datum 43 40

/-- A header as ALLOC writes it (R31). -/
def mkHdr (sub len : Nat) : TWord := word tHDR (sub % 256 * 2 ^ 32 + len % 2 ^ 32)

/-- FRAME word fields (R116). -/
def frameKind (w : TWord) : Nat := bits w.datum 63 60
def frameCount (w : TWord) : Nat := bits w.datum 55 48
def frameLsv (w : TWord) : Bool := bit w.datum 56
def mkFrame (kind : Nat) (lsv : Bool) (count addr : Nat) : TWord :=
  word tFRAME (kind * 2 ^ 60 + b2n lsv * 2 ^ 56 + count % 256 * 2 ^ 48 + addr % 2 ^ 48)

/-- Sign extension of an n-bit field. -/
def sext (n v : Nat) : Int := if v % 2 ^ n ≥ 2 ^ (n - 1) then (v % 2 ^ n : Int) - 2 ^ n else (v % 2 ^ n : Int)

/-- Addresses are 48 bits wide (R6); sums wrap. -/
def va48 (n : Int) : Nat := (n % (2 ^ 48 : Int)).toNat

/-- Sparse map: the value at a key, or the default of an unlisted key. -/
def smapGet {α : Type} (d : α) : List (Nat × α) → Nat → α
  | [], _ => d
  | (a, v) :: m, k => if k = a then v else if k < a then d else smapGet d m k

/-- Sparse map: remove a key. -/
def smapDel {α : Type} : List (Nat × α) → Nat → List (Nat × α)
  | [], _ => []
  | (a, v) :: m, k => if k = a then m else if k < a then (a, v) :: m else (a, v) :: smapDel m k

/-- Sparse map: insert a key that is listed afterwards. -/
def smapIns {α : Type} : List (Nat × α) → Nat → α → List (Nat × α)
  | [], k, x => [(k, x)]
  | (a, v) :: m, k, x =>
    if k = a then (k, x) :: m else if k < a then (k, x) :: (a, v) :: m else (a, v) :: smapIns m k x

/-- Sparse map: write a key, keeping the canonical form (the default is never listed). -/
def smapPut {α : Type} [DecidableEq α] (d : α) (m : List (Nat × α)) (k : Nat) (x : α) : List (Nat × α) :=
  if x = d then smapDel m k else smapIns m k x

/-- Keys strictly above a bound and strictly rising, no value equal to the default. -/
def smapWfFrom {α : Type} [DecidableEq α] (d : α) : List (Nat × α) → Nat → Bool
  | [], _ => true
  | (a, v) :: m, k => decide (k ≤ a) && decide (v ≠ d) && smapWfFrom d m (a + 1)

/-- The canonical form of a sparse map. -/
def smapWf {α : Type} [DecidableEq α] (d : α) (m : List (Nat × α)) : Bool := smapWfFrom d m 0

/-- Replace the element at an index. -/
def setAt {α : Type} (l : List α) (i : Nat) (x : α) : List α := l.set i x

/-- Apply a function at an index. -/
def modAt {α : Type} : List α → Nat → (α → α) → List α
  | [], _, _ => []
  | x :: l, 0, f => f x :: l
  | x :: l, i + 1, f => x :: modAt l i f

end Sys2Proof.Machine
end

