-- ==== Sys2Proof/Machine/Regs.lean ====
section
/-! DEFINITION. The I/O register map: every register of the spec's register tables (heading lines and
Bits | Field | Access | Reset tables, R7, R8, R10, R62, R63), its place in I/O space and its fields.
The rows follow the spec's tables in file order. -/

namespace Sys2Proof.Machine

/-- The name of a register (arrays are one name with an instance number). -/
inductive Reg where
  | CORE_ERR
  | CORE_SPILLS
  | CORE_FILLS
  | CORE_HALTS
  | CORE_HALTNS
  | CORE_DVINFO
  | CORE_DVPSA
  | CORE_DVCOUNT
  | MCS_STAT
  | MCS_CUPTR
  | MCS_LDSTAT
  | MCS_ERR
  | MCS_MFCOUNT
  | MCS_WDCOUNT
  | MCS_RFCTL
  | MCS_RFFIX
  | MCS_SRDA
  | MCS_SRDD0
  | MCS_SRDD1
  | MCS_PATCH
  | CORE_HALT
  | CORE_XSTAT
  | CORE_DBG
  | CORE_XCOUNT
  | CORE_QCOUNT
  | CUE_LCTL
  | CUE_PEND
  | CUE_SRC
  | CUE_IPI
  | CUE_NMI
  | CUE_ERR
  | CUE_DROPS
  | CORE_DMISS
  | CORE_IMISS
  | CORE_S2FIA
  | CORE_TLBWKILL
  | WALK_WALKS
  | WALK_CTLBHIT
  | WALK_WCHIT
  | WALK_READS
  | WALK_FAULTS
  | WALK_INVRX
  | WALK_KILLS
  | CORE_FCERR
  | CORE_FCTPAR
  | CORE_FCCORR
  | CORE_DFMISS
  | CORE_IFMISS
  | CORE_PFISSUE
  | CORE_WINGS
  | CC_CTL
  | CC_ERR
  | CC_CORR
  | CC_HIT
  | CC_MISS
  | CC_WB
  | MC_UREQ
  | MC_UBACK
  | HOST_UREQ
  | HOST_UBACK
  | HOST_USNOOP
  | CORE_SCAGE
  | CORE_SCFA
  | CORE_SCLINE
  | CORE_SCCOMMIT
  | CORE_SCABORT
  | CORE_SCCONF
  | CORE_SCDIST
  | STH_ERR
  | STH_MARKED
  | STH_COPIED
  | STH_FIXED
  | STH_POISON
  | STH_MQOVF
  | COL_CTL
  | COL_HEAPBASE
  | COL_CTX
  | COL_PHASE
  | COL_CMD
  | COL_STAT
  | COL_RSET
  | COL_ROOTQ
  | COL_PACE
  | COL_PACELIM
  | COL_FREE
  | COL_PACEWAIT
  | COL_PACEFAIL
  | COL_SATBHOLD
  | COL_WRETBAD
  | EXP_E0
  | EXP_E1
  | MATCH_CTL
  | MATCH_REQ
  | MATCH_STEPS
  | MATCH_SUSP
  | LOOK_CTL
  | LOOK_REQ
  | LOOK_PROBES
  | LOOK_HASHSET
  | TOUR_PCTL
  | TOUR_PSTAT
  | TOUR_CRC
  | TOUR_DOWNS
  | TOUR_CRWAIT
  | TOUR_NODE
  | TOUR_TOPO
  | TOUR_INQB
  | TOUR_INQH
  | TOUR_INQT
  | TOUR_RTMO
  | TOUR_TSYNC
  | TOUR_SCRES
  | TOUR_OUTHOLD
  | TOUR_INQHOLD
  | TOUR_UNDELIV
  | TOUR_NOROUTE
  | TOUR_RT
  | HOST_CTL
  | HOST_LINK
  | HOST_ERR
  | HOST_CACHEBASE
  | HOST_MMIOBASE
  | HOST_BIASCMD
  | HOST_PWIN
  | HOST_SQCFG
  | HOST_CQCFG
  | HOST_SQT
  | HOST_SQH
  | HOST_CQT
  | HOST_CQH
  | HOST_DBREJ
  | HOST_TAGWRDROP
  | HOST_PWREF
  | HOST_CORR
  | HOST_UNCORR
  | HOST_LOSTWB
  | HOST_CRWAIT
  | HOST_OUTHOLD
  | MC_CTL
  | MC_STAT
  | MC_SCRUB
  | MC_CAL
  | MC_CALCMD
  | MC_ERRLOG
  | MC_CE
  | MC_UE
  | MC_SCRUBUE
  | MC_CAPAR
  | MC_SHHIT
  | MC_SHMISS
  | MC_CALHOLD
  | MC_HOLD
  | DEV_ID
  | DEV_CLEN
  | DEV_PORTEN
  | DEV_MODE
  | DEV_MODESTAT
  | DEV_EVAL
  | DEV_STCFG
  | DEV_STREQ
  | DEV_STRES
  | DEV_STNOTRUN
  | DEV_ERR
  | CLU_MODE
  | CLU_STAT
  | CLU_LSSTAT
  | CLU_LSTIME
  | CLU_LSDIV
  | REH_CTL
  | REH_STAT
  | REH_RING
  | REH_TRING
  | REH_RHEAD
  | REH_RTAIL
  | REH_HHEAD
  | REH_HTAIL
  | REH_HBUF
  | REH_SNAP
  | REH_HBSIZE
  | REH_HASHINT
  | REH_MARK
  | REH_RPCTL
  | REH_RPSTAT
  | REH_TCTL
  | REH_TPTR
  | REH_ITB
  | REH_ETB
  | REH_RECORDS
  | REH_STALLNS
  | REH_GAPS
  | REH_TRUNC
  | REH_LIVEDROP
  | REH_TLOSS
  | CORE_RET
  | CORE_CYC
  | CORE_FRZ
  | CORE_CHUNKS
  | CLK_CTL
  | CLK_STAT
  | CLK_GATE_TMO
  | CLK_GREQ
  | CLK_GSTAT
  | CLK_TPLL
  | PWR_CMD
  | PWR_STAT
  | PWR_PLIM
  | PWR_THR
  | PWR_TEMP
  | PWR_AVS
  | PWR_ALSTAT
  | PWR_ALMASK
  | PWR_GATED
  | PWR_CLGATED
  | PWR_THROTNS
  | PWR_PLIMNS
  | PWR_AVSERR
  | PWR_DARKS
  | CLK_GREFUSE
  | TIME_NOW
  | TIME_STAT
  | TIME_CTL
  | TIME_ADJ
  | TIME_PPS
  | TIME_CAPT
  | LOADIN_STAT
  | LOADIN_NEXT
  | LOADIN_CMD
  | LOADIN_START
  | LOADIN_CLEN
  | LOADIN_BIST
  | LOADIN_PART
  | LOADIN_POLICY
  | LOADIN_ERR
  | LOADIN_SYSID
  | LOADIN_SN0
  | LOADIN_SN1
  | LOADIN_COLD
  | LOADIN_WARM
  | LOADIN_FAILA
  | PROMPTER_MBIN
  | PROMPTER_MBOUT
  | PROMPTER_MBCTL
  | PROMPTER_STAT
  | PROMPTER_CMDS
  | PROMPTER_PECERR
  | PROMPTER_AUTHFAIL
  | PROMPTER_NACKS
  | KSU_STATE
  | KSU_CMD
  | KSU_RES
  | KSU_DRBG
  | KSU_DATA
  | KSU_CERT
  | KSU_SIGFAIL
  | KSU_HEALTH
  deriving DecidableEq, Repr

/-- Which unit a register belongs to (R62, R63): one per core, per cluster, per port, per memory controller, or
one for the device (col: one register seen in every cluster view). -/
inductive RegUnit where
  | core | cluster | col | port | mc | dev
  deriving DecidableEq, Repr

/-- Access codes (R7). -/
inductive Access where
  | RW | RO | WO | W1C | W1S
  deriving DecidableEq, Repr

/-- Where a reset value comes from (R10). -/
inductive ResetSrc where
  | const | loadin | fuse | pin
  deriving DecidableEq, Repr

/-- The legal values of a field (R548); every other value is reserved. -/
inductive Legal where
  | any
  | le (v : Nat)
  | range (lo hi : Nat)
  | step (lo hi by' : Nat)
  deriving DecidableEq, Repr

/-- Whether a value is legal (R548). -/
def Legal.ok (l : Legal) (v : Nat) : Bool :=
  match l with
  | .any => true
  | .le m => v ≤ m
  | .range lo hi => lo ≤ v && v ≤ hi
  | .step lo hi d => lo ≤ v && v ≤ hi && v % d == 0

/-- One field of a register table. -/
structure Field where
  hi : Nat
  lo : Nat
  acc : Access
  rst : Nat
  src : ResetSrc := .const
  legal : Legal := .any
  backstage : Bool := false
  deriving DecidableEq, Repr

/-- One register heading: its unit, its address (own-core, own-cluster alias or device address), how many and at
what spacing, its suffixes (R8) and its fields. -/
structure RegRow where
  reg : Reg
  unit : RegUnit
  base : Nat
  count : Nat
  stride : Nat
  b : Bool
  u : Bool
  fields : List Field
  deriving Repr

/-- A named field of a register. -/
structure Fld where
  reg : Reg
  hi : Nat
  lo : Nat
  deriving DecidableEq, Repr

/-- Register rows, part 0. -/
def regRows0 : List RegRow := [
  { reg := .CORE_ERR, unit := .core, base := 0x8, count := 1, stride := 1, b := false, u := false,
    fields := [{ hi := 13, lo := 8, acc := .RO, rst := 0 },
      { hi := 1, lo := 1, acc := .W1C, rst := 0 },
      { hi := 0, lo := 0, acc := .W1C, rst := 0 }] },
  { reg := .CORE_SPILLS, unit := .core, base := 0x9, count := 1, stride := 1, b := false, u := false,
    fields := [{ hi := 63, lo := 0, acc := .RW, rst := 0 }] },
  { reg := .CORE_FILLS, unit := .core, base := 0xA, count := 1, stride := 1, b := false, u := false,
    fields := [{ hi := 63, lo := 0, acc := .RW, rst := 0 }] },
  { reg := .CORE_HALTS, unit := .core, base := 0xB, count := 1, stride := 1, b := false, u := false,
    fields := [{ hi := 63, lo := 0, acc := .RW, rst := 0 }] },
  { reg := .CORE_HALTNS, unit := .core, base := 0xC, count := 1, stride := 1, b := false, u := false,
    fields := [{ hi := 63, lo := 0, acc := .RW, rst := 0 }] },
  { reg := .CORE_DVINFO, unit := .core, base := 0x600, count := 1, stride := 1, b := false, u := true,
    fields := [{ hi := 63, lo := 63, acc := .W1C, rst := 0 },
      { hi := 51, lo := 48, acc := .RO, rst := 0 },
      { hi := 33, lo := 32, acc := .RO, rst := 0 },
      { hi := 15, lo := 0, acc := .RO, rst := 0 }] },
  { reg := .CORE_DVPSA, unit := .core, base := 0x601, count := 1, stride := 1, b := false, u := true,
    fields := [{ hi := 47, lo := 0, acc := .RO, rst := 0 }] },
  { reg := .CORE_DVCOUNT, unit := .core, base := 0x602, count := 1, stride := 1, b := false, u := true,
    fields := [{ hi := 63, lo := 0, acc := .RW, rst := 0 }] },
  { reg := .MCS_STAT, unit := .cluster, base := 0x13000, count := 1, stride := 1, b := false, u := true,
    fields := [{ hi := 2, lo := 2, acc := .RO, rst := 0 },
      { hi := 1, lo := 1, acc := .RO, rst := 0, src := .loadin },
      { hi := 0, lo := 0, acc := .RO, rst := 0, src := .loadin }] },
  { reg := .MCS_CUPTR, unit := .cluster, base := 0x13001, count := 1, stride := 1, b := false, u := true,
    fields := [{ hi := 15, lo := 0, acc := .RO, rst := 0, src := .loadin }] },
  { reg := .MCS_LDSTAT, unit := .cluster, base := 0x13002, count := 1, stride := 1, b := true, u := false,
    fields := [{ hi := 63, lo := 63, acc := .RO, rst := 0 },
      { hi := 59, lo := 56, acc := .RO, rst := 0 },
      { hi := 49, lo := 48, acc := .RO, rst := 0 },
      { hi := 31, lo := 30, acc := .RO, rst := 0 },
      { hi := 13, lo := 0, acc := .RO, rst := 0 }] },
  { reg := .MCS_ERR, unit := .cluster, base := 0x13003, count := 1, stride := 1, b := false, u := false,
    fields := [{ hi := 26, lo := 24, acc := .RO, rst := 0 },
      { hi := 11, lo := 8, acc := .RO, rst := 0 },
      { hi := 2, lo := 2, acc := .W1C, rst := 0 },
      { hi := 1, lo := 1, acc := .W1C, rst := 0 },
      { hi := 0, lo := 0, acc := .W1C, rst := 0 }] },
  { reg := .MCS_MFCOUNT, unit := .cluster, base := 0x13004, count := 1, stride := 1, b := false, u := false,
    fields := [{ hi := 63, lo := 0, acc := .RW, rst := 0 }] },
  { reg := .MCS_WDCOUNT, unit := .cluster, base := 0x13005, count := 1, stride := 1, b := false, u := false,
    fields := [{ hi := 63, lo := 0, acc := .RW, rst := 0 }] },
  { reg := .MCS_RFCTL, unit := .cluster, base := 0x13006, count := 1, stride := 1, b := true, u := false,
    fields := [{ hi := 63, lo := 63, acc := .W1S, rst := 0 },
      { hi := 31, lo := 0, acc := .RW, rst := 0, src := .loadin }] },
  { reg := .MCS_RFFIX, unit := .cluster, base := 0x13007, count := 1, stride := 1, b := true, u := false,
    fields := [{ hi := 63, lo := 0, acc := .RW, rst := 0 }] },
  { reg := .MCS_SRDA, unit := .cluster, base := 0x13008, count := 1, stride := 1, b := true, u := false,
    fields := [{ hi := 31, lo := 30, acc := .RW, rst := 0, legal := .le 2 },
      { hi := 29, lo := 29, acc := .RW, rst := 0 },
      { hi := 13, lo := 0, acc := .RW, rst := 0 }] },
  { reg := .MCS_SRDD0, unit := .cluster, base := 0x13009, count := 1, stride := 1, b := true, u := false,
    fields := [{ hi := 63, lo := 0, acc := .RO, rst := 0 }] },
  { reg := .MCS_SRDD1, unit := .cluster, base := 0x1300A, count := 1, stride := 1, b := true, u := false,
    fields := [{ hi := 63, lo := 0, acc := .RO, rst := 0 }] },
  { reg := .MCS_PATCH, unit := .cluster, base := 0x13100, count := 64, stride := 1, b := true, u := false,
    fields := [{ hi := 63, lo := 63, acc := .RO, rst := 0, src := .loadin },
      { hi := 45, lo := 32, acc := .RO, rst := 0, src := .loadin },
      { hi := 13, lo := 0, acc := .RO, rst := 0, src := .loadin }] },
  { reg := .CORE_HALT, unit := .core, base := 0x10, count := 1, stride := 1, b := false, u := false,
    fields := [{ hi := 63, lo := 63, acc := .RO, rst := 0 },
      { hi := 16, lo := 16, acc := .RO, rst := 0 },
      { hi := 15, lo := 8, acc := .RO, rst := 0 },
      { hi := 7, lo := 0, acc := .RO, rst := 0 }] },
  { reg := .CORE_XSTAT, unit := .core, base := 0x11, count := 1, stride := 1, b := false, u := false,
    fields := [{ hi := 1, lo := 1, acc := .RO, rst := 0 },
      { hi := 0, lo := 0, acc := .RO, rst := 0 }] },
  { reg := .CORE_DBG, unit := .core, base := 0x12, count := 1, stride := 1, b := false, u := false,
    fields := [{ hi := 1, lo := 1, acc := .RW, rst := 0, backstage := true },
      { hi := 0, lo := 0, acc := .RW, rst := 0 }] },
  { reg := .CORE_XCOUNT, unit := .core, base := 0x13, count := 1, stride := 1, b := false, u := false,
    fields := [{ hi := 63, lo := 0, acc := .RW, rst := 0 }] }]

/-- Register rows, part 1. -/
def regRows1 : List RegRow := [
  { reg := .CORE_QCOUNT, unit := .core, base := 0x14, count := 1, stride := 1, b := false, u := false,
    fields := [{ hi := 63, lo := 0, acc := .RW, rst := 0 }] },
  { reg := .CUE_LCTL, unit := .core, base := 0x400, count := 1, stride := 1, b := false, u := false,
    fields := [{ hi := 3, lo := 3, acc := .RW, rst := 1, backstage := true },
      { hi := 2, lo := 2, acc := .RW, rst := 1, backstage := true },
      { hi := 1, lo := 1, acc := .RW, rst := 0 },
      { hi := 0, lo := 0, acc := .RW, rst := 0 }] },
  { reg := .CUE_PEND, unit := .core, base := 0x401, count := 3, stride := 1, b := false, u := false,
    fields := [{ hi := 63, lo := 0, acc := .W1C, rst := 0 }] },
  { reg := .CUE_SRC, unit := .dev, base := 0x2500000, count := 128, stride := 1, b := false, u := false,
    fields := [{ hi := 63, lo := 63, acc := .RW, rst := 0 },
      { hi := 33, lo := 33, acc := .RW, rst := 1, backstage := true },
      { hi := 32, lo := 32, acc := .RW, rst := 1, backstage := true },
      { hi := 15, lo := 8, acc := .RW, rst := 0 },
      { hi := 7, lo := 0, acc := .RW, rst := 64, legal := .range 64 255 }] },
  { reg := .CUE_IPI, unit := .dev, base := 0x2501000, count := 1, stride := 1, b := false, u := false,
    fields := [{ hi := 32, lo := 32, acc := .WO, rst := 0 },
      { hi := 15, lo := 8, acc := .WO, rst := 0 },
      { hi := 7, lo := 0, acc := .WO, rst := 0 }] },
  { reg := .CUE_NMI, unit := .dev, base := 0x2501001, count := 1, stride := 1, b := true, u := false,
    fields := [{ hi := 7, lo := 0, acc := .WO, rst := 0 }] },
  { reg := .CUE_ERR, unit := .dev, base := 0x2501002, count := 1, stride := 1, b := false, u := false,
    fields := [{ hi := 0, lo := 0, acc := .W1C, rst := 0 }] },
  { reg := .CUE_DROPS, unit := .dev, base := 0x2501003, count := 1, stride := 1, b := false, u := false,
    fields := [{ hi := 63, lo := 0, acc := .RW, rst := 0 }] },
  { reg := .CORE_DMISS, unit := .core, base := 0x200, count := 1, stride := 1, b := false, u := false,
    fields := [{ hi := 63, lo := 0, acc := .RW, rst := 0 }] },
  { reg := .CORE_IMISS, unit := .core, base := 0x201, count := 1, stride := 1, b := false, u := false,
    fields := [{ hi := 63, lo := 0, acc := .RW, rst := 0 }] },
  { reg := .CORE_S2FIA, unit := .core, base := 0x202, count := 1, stride := 1, b := true, u := false,
    fields := [{ hi := 63, lo := 63, acc := .W1C, rst := 0 },
      { hi := 47, lo := 0, acc := .RO, rst := 0 }] },
  { reg := .CORE_TLBWKILL, unit := .core, base := 0x203, count := 1, stride := 1, b := false, u := false,
    fields := [{ hi := 63, lo := 0, acc := .RW, rst := 0 }] },
  { reg := .WALK_WALKS, unit := .cluster, base := 0x12000, count := 1, stride := 1, b := false, u := false,
    fields := [{ hi := 63, lo := 0, acc := .RW, rst := 0 }] },
  { reg := .WALK_CTLBHIT, unit := .cluster, base := 0x12001, count := 1, stride := 1, b := false, u := false,
    fields := [{ hi := 63, lo := 0, acc := .RW, rst := 0 }] },
  { reg := .WALK_WCHIT, unit := .cluster, base := 0x12002, count := 1, stride := 1, b := false, u := false,
    fields := [{ hi := 63, lo := 0, acc := .RW, rst := 0 }] },
  { reg := .WALK_READS, unit := .cluster, base := 0x12003, count := 1, stride := 1, b := false, u := false,
    fields := [{ hi := 63, lo := 0, acc := .RW, rst := 0 }] },
  { reg := .WALK_FAULTS, unit := .cluster, base := 0x12004, count := 1, stride := 1, b := false, u := false,
    fields := [{ hi := 63, lo := 0, acc := .RW, rst := 0 }] },
  { reg := .WALK_INVRX, unit := .cluster, base := 0x12005, count := 1, stride := 1, b := false, u := false,
    fields := [{ hi := 63, lo := 0, acc := .RW, rst := 0 }] },
  { reg := .WALK_KILLS, unit := .cluster, base := 0x12006, count := 1, stride := 1, b := false, u := false,
    fields := [{ hi := 63, lo := 0, acc := .RW, rst := 0 }] },
  { reg := .CORE_FCERR, unit := .core, base := 0x100, count := 1, stride := 1, b := false, u := false,
    fields := [{ hi := 63, lo := 63, acc := .W1C, rst := 0 },
      { hi := 7, lo := 7, acc := .RO, rst := 0 },
      { hi := 5, lo := 0, acc := .RO, rst := 0 }] },
  { reg := .CORE_FCTPAR, unit := .core, base := 0x101, count := 1, stride := 1, b := false, u := false,
    fields := [{ hi := 63, lo := 0, acc := .RW, rst := 0 }] },
  { reg := .CORE_FCCORR, unit := .core, base := 0x102, count := 1, stride := 1, b := false, u := false,
    fields := [{ hi := 63, lo := 0, acc := .RW, rst := 0 }] },
  { reg := .CORE_DFMISS, unit := .core, base := 0x103, count := 1, stride := 1, b := false, u := false,
    fields := [{ hi := 63, lo := 0, acc := .RW, rst := 0 }] },
  { reg := .CORE_IFMISS, unit := .core, base := 0x104, count := 1, stride := 1, b := false, u := false,
    fields := [{ hi := 63, lo := 0, acc := .RW, rst := 0 }] }]

/-- Register rows, part 2. -/
def regRows2 : List RegRow := [
  { reg := .CORE_PFISSUE, unit := .core, base := 0x105, count := 1, stride := 1, b := false, u := false,
    fields := [{ hi := 63, lo := 0, acc := .RW, rst := 0 }] },
  { reg := .CORE_WINGS, unit := .core, base := 0x106, count := 1, stride := 1, b := false, u := false,
    fields := [{ hi := 63, lo := 32, acc := .RO, rst := 0, backstage := true },
      { hi := 31, lo := 0, acc := .RO, rst := 0 }] },
  { reg := .CC_CTL, unit := .cluster, base := 0x11000, count := 1, stride := 1, b := false, u := false,
    fields := [{ hi := 17, lo := 17, acc := .W1S, rst := 0 },
      { hi := 16, lo := 16, acc := .RW, rst := 0, src := .loadin },
      { hi := 15, lo := 0, acc := .RW, rst := 0 }] },
  { reg := .CC_ERR, unit := .cluster, base := 0x11001, count := 1, stride := 1, b := false, u := false,
    fields := [{ hi := 63, lo := 63, acc := .W1C, rst := 0 },
      { hi := 47, lo := 44, acc := .RO, rst := 0 },
      { hi := 43, lo := 32, acc := .RO, rst := 0 },
      { hi := 0, lo := 0, acc := .W1C, rst := 0 }] },
  { reg := .CC_CORR, unit := .cluster, base := 0x11002, count := 1, stride := 1, b := false, u := false,
    fields := [{ hi := 63, lo := 0, acc := .RW, rst := 0 }] },
  { reg := .CC_HIT, unit := .cluster, base := 0x11003, count := 1, stride := 1, b := false, u := false,
    fields := [{ hi := 63, lo := 0, acc := .RW, rst := 0 }] },
  { reg := .CC_MISS, unit := .cluster, base := 0x11004, count := 1, stride := 1, b := false, u := false,
    fields := [{ hi := 63, lo := 0, acc := .RW, rst := 0 }] },
  { reg := .CC_WB, unit := .cluster, base := 0x11005, count := 1, stride := 1, b := false, u := false,
    fields := [{ hi := 63, lo := 0, acc := .RW, rst := 0 }] },
  { reg := .MC_UREQ, unit := .mc, base := 0x2108000, count := 1, stride := 1, b := false, u := false,
    fields := [{ hi := 63, lo := 0, acc := .RW, rst := 0 }] },
  { reg := .MC_UBACK, unit := .mc, base := 0x2108001, count := 1, stride := 1, b := false, u := false,
    fields := [{ hi := 63, lo := 0, acc := .RW, rst := 0 }] },
  { reg := .HOST_UREQ, unit := .dev, base := 0x2208000, count := 1, stride := 1, b := false, u := false,
    fields := [{ hi := 63, lo := 0, acc := .RW, rst := 0 }] },
  { reg := .HOST_UBACK, unit := .dev, base := 0x2208001, count := 1, stride := 1, b := false, u := false,
    fields := [{ hi := 63, lo := 0, acc := .RW, rst := 0 }] },
  { reg := .HOST_USNOOP, unit := .dev, base := 0x2208002, count := 1, stride := 1, b := false, u := false,
    fields := [{ hi := 63, lo := 0, acc := .RW, rst := 0 }] },
  { reg := .CORE_SCAGE, unit := .core, base := 0x20, count := 1, stride := 1, b := false, u := true,
    fields := [{ hi := 63, lo := 0, acc := .RO, rst := 0 }] },
  { reg := .CORE_SCFA, unit := .core, base := 0x21, count := 1, stride := 1, b := false, u := true,
    fields := [{ hi := 47, lo := 0, acc := .RO, rst := 0 }] },
  { reg := .CORE_SCLINE, unit := .core, base := 0x22, count := 1, stride := 1, b := true, u := false,
    fields := [{ hi := 63, lo := 63, acc := .W1C, rst := 0 },
      { hi := 47, lo := 0, acc := .RO, rst := 0 }] },
  { reg := .CORE_SCCOMMIT, unit := .core, base := 0x23, count := 1, stride := 1, b := false, u := false,
    fields := [{ hi := 63, lo := 0, acc := .RW, rst := 0 }] },
  { reg := .CORE_SCABORT, unit := .core, base := 0x24, count := 1, stride := 1, b := false, u := false,
    fields := [{ hi := 63, lo := 0, acc := .RW, rst := 0 }] },
  { reg := .CORE_SCCONF, unit := .core, base := 0x25, count := 1, stride := 1, b := false, u := false,
    fields := [{ hi := 63, lo := 0, acc := .RW, rst := 0 }] },
  { reg := .CORE_SCDIST, unit := .core, base := 0x26, count := 1, stride := 1, b := false, u := false,
    fields := [{ hi := 63, lo := 0, acc := .RW, rst := 0 }] },
  { reg := .STH_ERR, unit := .cluster, base := 0x14000, count := 1, stride := 1, b := true, u := false,
    fields := [{ hi := 63, lo := 63, acc := .W1C, rst := 0 },
      { hi := 62, lo := 62, acc := .WO, rst := 0 },
      { hi := 51, lo := 48, acc := .RO, rst := 0 },
      { hi := 47, lo := 0, acc := .RO, rst := 0 }] },
  { reg := .STH_MARKED, unit := .cluster, base := 0x14001, count := 1, stride := 1, b := false, u := false,
    fields := [{ hi := 63, lo := 0, acc := .RW, rst := 0 }] },
  { reg := .STH_COPIED, unit := .cluster, base := 0x14002, count := 1, stride := 1, b := false, u := false,
    fields := [{ hi := 63, lo := 0, acc := .RW, rst := 0 }] },
  { reg := .STH_FIXED, unit := .cluster, base := 0x14003, count := 1, stride := 1, b := false, u := false,
    fields := [{ hi := 63, lo := 0, acc := .RW, rst := 0 }] }]

/-- Register rows, part 3. -/
def regRows3 : List RegRow := [
  { reg := .STH_POISON, unit := .cluster, base := 0x14004, count := 1, stride := 1, b := false, u := false,
    fields := [{ hi := 63, lo := 0, acc := .RW, rst := 0 }] },
  { reg := .STH_MQOVF, unit := .cluster, base := 0x14005, count := 1, stride := 1, b := false, u := false,
    fields := [{ hi := 63, lo := 0, acc := .RW, rst := 0 }] },
  { reg := .COL_CTL, unit := .col, base := 0x14800, count := 1, stride := 1, b := true, u := false,
    fields := [{ hi := 63, lo := 63, acc := .RW, rst := 0, src := .loadin },
      { hi := 11, lo := 8, acc := .RW, rst := 0, src := .loadin },
      { hi := 5, lo := 0, acc := .RW, rst := 0, src := .loadin }] },
  { reg := .COL_HEAPBASE, unit := .col, base := 0x14801, count := 1, stride := 1, b := true, u := false,
    fields := [{ hi := 47, lo := 18, acc := .RW, rst := 0, src := .loadin }] },
  { reg := .COL_CTX, unit := .col, base := 0x14802, count := 1, stride := 1, b := true, u := false,
    fields := [{ hi := 24, lo := 24, acc := .RW, rst := 0, src := .loadin },
      { hi := 23, lo := 16, acc := .RW, rst := 0, src := .loadin },
      { hi := 15, lo := 0, acc := .RW, rst := 0, src := .loadin }] },
  { reg := .COL_PHASE, unit := .col, base := 0x14803, count := 1, stride := 1, b := false, u := true,
    fields := [{ hi := 63, lo := 32, acc := .RO, rst := 0 },
      { hi := 3, lo := 3, acc := .RO, rst := 0 },
      { hi := 2, lo := 0, acc := .RO, rst := 0 }] },
  { reg := .COL_CMD, unit := .col, base := 0x14804, count := 1, stride := 1, b := true, u := false,
    fields := [{ hi := 19, lo := 4, acc := .WO, rst := 0 },
      { hi := 3, lo := 0, acc := .WO, rst := 0 }] },
  { reg := .COL_STAT, unit := .col, base := 0x14805, count := 1, stride := 1, b := true, u := false,
    fields := [{ hi := 63, lo := 63, acc := .RO, rst := 0 },
      { hi := 4, lo := 4, acc := .W1C, rst := 0 },
      { hi := 3, lo := 3, acc := .W1C, rst := 0 },
      { hi := 2, lo := 2, acc := .W1C, rst := 0 },
      { hi := 1, lo := 0, acc := .RO, rst := 0 }] },
  { reg := .COL_RSET, unit := .col, base := 0x14806, count := 1, stride := 1, b := true, u := false,
    fields := [{ hi := 44, lo := 26, acc := .WO, rst := 0 },
      { hi := 18, lo := 16, acc := .WO, rst := 0 },
      { hi := 15, lo := 0, acc := .WO, rst := 0 }] },
  { reg := .COL_ROOTQ, unit := .col, base := 0x14807, count := 1, stride := 1, b := true, u := false,
    fields := [{ hi := 47, lo := 0, acc := .WO, rst := 0 }] },
  { reg := .COL_PACE, unit := .col, base := 0x14808, count := 1, stride := 1, b := true, u := false,
    fields := [{ hi := 47, lo := 32, acc := .RO, rst := 0 },
      { hi := 16, lo := 0, acc := .RW, rst := 0, src := .loadin }] },
  { reg := .COL_PACELIM, unit := .col, base := 0x14809, count := 1, stride := 1, b := true, u := false,
    fields := [{ hi := 63, lo := 0, acc := .RW, rst := 0, src := .loadin }] },
  { reg := .COL_FREE, unit := .col, base := 0x1480A, count := 1, stride := 1, b := false, u := true,
    fields := [{ hi := 16, lo := 0, acc := .RO, rst := 65536 }] },
  { reg := .COL_PACEWAIT, unit := .col, base := 0x14810, count := 1, stride := 1, b := false, u := false,
    fields := [{ hi := 63, lo := 0, acc := .RW, rst := 0 }] },
  { reg := .COL_PACEFAIL, unit := .col, base := 0x14811, count := 1, stride := 1, b := false, u := false,
    fields := [{ hi := 63, lo := 0, acc := .RW, rst := 0 }] },
  { reg := .COL_SATBHOLD, unit := .col, base := 0x14812, count := 1, stride := 1, b := false, u := false,
    fields := [{ hi := 63, lo := 0, acc := .RW, rst := 0 }] },
  { reg := .COL_WRETBAD, unit := .col, base := 0x14813, count := 1, stride := 1, b := false, u := false,
    fields := [{ hi := 63, lo := 0, acc := .RW, rst := 0 }] },
  { reg := .EXP_E0, unit := .dev, base := 0x4000000, count := 262144, stride := 2, b := true, u := false,
    fields := [{ hi := 63, lo := 63, acc := .RW, rst := 0 },
      { hi := 62, lo := 62, acc := .RW, rst := 0 },
      { hi := 55, lo := 48, acc := .RW, rst := 0 },
      { hi := 47, lo := 0, acc := .RW, rst := 0 }] },
  { reg := .EXP_E1, unit := .dev, base := 0x4000001, count := 262144, stride := 2, b := true, u := false,
    fields := [{ hi := 63, lo := 0, acc := .RW, rst := 0 }] },
  { reg := .MATCH_CTL, unit := .cluster, base := 0x15000, count := 1, stride := 1, b := false, u := false,
    fields := [{ hi := 0, lo := 0, acc := .RW, rst := 0, src := .loadin }] },
  { reg := .MATCH_REQ, unit := .cluster, base := 0x15001, count := 1, stride := 1, b := false, u := false,
    fields := [{ hi := 63, lo := 0, acc := .RW, rst := 0 }] },
  { reg := .MATCH_STEPS, unit := .cluster, base := 0x15002, count := 1, stride := 1, b := false, u := false,
    fields := [{ hi := 63, lo := 0, acc := .RW, rst := 0 }] },
  { reg := .MATCH_SUSP, unit := .cluster, base := 0x15003, count := 1, stride := 1, b := false, u := false,
    fields := [{ hi := 63, lo := 0, acc := .RW, rst := 0 }] },
  { reg := .LOOK_CTL, unit := .cluster, base := 0x16000, count := 1, stride := 1, b := false, u := false,
    fields := [{ hi := 0, lo := 0, acc := .RW, rst := 0, src := .loadin }] }]

/-- Register rows, part 4. -/
def regRows4 : List RegRow := [
  { reg := .LOOK_REQ, unit := .cluster, base := 0x16001, count := 1, stride := 1, b := false, u := false,
    fields := [{ hi := 63, lo := 0, acc := .RW, rst := 0 }] },
  { reg := .LOOK_PROBES, unit := .cluster, base := 0x16002, count := 1, stride := 1, b := false, u := false,
    fields := [{ hi := 63, lo := 0, acc := .RW, rst := 0 }] },
  { reg := .LOOK_HASHSET, unit := .cluster, base := 0x16003, count := 1, stride := 1, b := false, u := false,
    fields := [{ hi := 63, lo := 0, acc := .RW, rst := 0 }] },
  { reg := .TOUR_PCTL, unit := .port, base := 0x2300000, count := 1, stride := 1, b := true, u := false,
    fields := [{ hi := 63, lo := 63, acc := .WO, rst := 0 },
      { hi := 11, lo := 11, acc := .RW, rst := 0, src := .loadin },
      { hi := 10, lo := 10, acc := .RW, rst := 0, src := .loadin },
      { hi := 9, lo := 9, acc := .RW, rst := 0, src := .loadin },
      { hi := 8, lo := 8, acc := .RW, rst := 0, src := .loadin },
      { hi := 7, lo := 6, acc := .RW, rst := 0, src := .loadin },
      { hi := 0, lo := 0, acc := .RW, rst := 0, src := .loadin }] },
  { reg := .TOUR_PSTAT, unit := .port, base := 0x2300001, count := 1, stride := 1, b := false, u := false,
    fields := [{ hi := 43, lo := 40, acc := .RO, rst := 0 },
      { hi := 39, lo := 36, acc := .RO, rst := 0 },
      { hi := 29, lo := 16, acc := .RO, rst := 16383 },
      { hi := 5, lo := 5, acc := .RO, rst := 0 },
      { hi := 4, lo := 4, acc := .RO, rst := 0 },
      { hi := 2, lo := 0, acc := .RO, rst := 0 }] },
  { reg := .TOUR_CRC, unit := .port, base := 0x2300002, count := 1, stride := 1, b := false, u := false,
    fields := [{ hi := 63, lo := 0, acc := .RW, rst := 0 }] },
  { reg := .TOUR_DOWNS, unit := .port, base := 0x2300003, count := 1, stride := 1, b := false, u := false,
    fields := [{ hi := 63, lo := 0, acc := .RW, rst := 0 }] },
  { reg := .TOUR_CRWAIT, unit := .port, base := 0x2300004, count := 1, stride := 1, b := false, u := false,
    fields := [{ hi := 63, lo := 0, acc := .RW, rst := 0 }] },
  { reg := .TOUR_NODE, unit := .dev, base := 0x2300800, count := 1, stride := 1, b := false, u := false,
    fields := [{ hi := 13, lo := 0, acc := .RO, rst := 0, src := .loadin }] },
  { reg := .TOUR_TOPO, unit := .dev, base := 0x2300801, count := 1, stride := 1, b := true, u := false,
    fields := [{ hi := 26, lo := 24, acc := .RW, rst := 0, src := .loadin },
      { hi := 23, lo := 16, acc := .RW, rst := 0, src := .loadin },
      { hi := 15, lo := 8, acc := .RW, rst := 0, src := .loadin },
      { hi := 7, lo := 0, acc := .RW, rst := 0, src := .loadin }] },
  { reg := .TOUR_INQB, unit := .dev, base := 0x2300802, count := 1, stride := 1, b := true, u := false,
    fields := [{ hi := 55, lo := 52, acc := .RW, rst := 0, src := .loadin },
      { hi := 47, lo := 0, acc := .RW, rst := 0, src := .loadin }] },
  { reg := .TOUR_INQH, unit := .dev, base := 0x2300803, count := 1, stride := 1, b := false, u := false,
    fields := [{ hi := 31, lo := 0, acc := .RW, rst := 0 }] },
  { reg := .TOUR_INQT, unit := .dev, base := 0x2300804, count := 1, stride := 1, b := false, u := false,
    fields := [{ hi := 31, lo := 0, acc := .RO, rst := 0 }] },
  { reg := .TOUR_RTMO, unit := .dev, base := 0x2300805, count := 1, stride := 1, b := true, u := false,
    fields := [{ hi := 63, lo := 0, acc := .RW, rst := 1000000 }] },
  { reg := .TOUR_TSYNC, unit := .dev, base := 0x2300806, count := 1, stride := 1, b := true, u := false,
    fields := [{ hi := 63, lo := 63, acc := .RO, rst := 0 },
      { hi := 51, lo := 48, acc := .RO, rst := 0 },
      { hi := 47, lo := 32, acc := .RO, rst := 0 },
      { hi := 13, lo := 0, acc := .RW, rst := 0, src := .loadin }] },
  { reg := .TOUR_SCRES, unit := .dev, base := 0x2300807, count := 1, stride := 1, b := true, u := false,
    fields := [{ hi := 7, lo := 7, acc := .WO, rst := 0 },
      { hi := 5, lo := 0, acc := .WO, rst := 0 }] },
  { reg := .TOUR_OUTHOLD, unit := .dev, base := 0x2300808, count := 1, stride := 1, b := false, u := false,
    fields := [{ hi := 63, lo := 0, acc := .RW, rst := 0 }] },
  { reg := .TOUR_INQHOLD, unit := .dev, base := 0x2300809, count := 1, stride := 1, b := false, u := false,
    fields := [{ hi := 63, lo := 0, acc := .RW, rst := 0 }] },
  { reg := .TOUR_UNDELIV, unit := .dev, base := 0x230080A, count := 1, stride := 1, b := false, u := false,
    fields := [{ hi := 63, lo := 0, acc := .RW, rst := 0 }] },
  { reg := .TOUR_NOROUTE, unit := .dev, base := 0x230080B, count := 1, stride := 1, b := false, u := false,
    fields := [{ hi := 63, lo := 0, acc := .RW, rst := 0 }] },
  { reg := .TOUR_RT, unit := .dev, base := 0x2310000, count := 16384, stride := 1, b := true, u := false,
    fields := [{ hi := 63, lo := 63, acc := .RW, rst := 0, src := .loadin },
      { hi := 11, lo := 11, acc := .RW, rst := 0, src := .loadin },
      { hi := 10, lo := 10, acc := .RW, rst := 0, src := .loadin },
      { hi := 9, lo := 9, acc := .RW, rst := 0, src := .loadin },
      { hi := 7, lo := 4, acc := .RW, rst := 0, src := .loadin, legal := .le 11 },
      { hi := 3, lo := 0, acc := .RW, rst := 0, src := .loadin, legal := .le 11 }] },
  { reg := .HOST_CTL, unit := .dev, base := 0x2200000, count := 1, stride := 1, b := true, u := false,
    fields := [{ hi := 13, lo := 8, acc := .RW, rst := 0 },
      { hi := 4, lo := 4, acc := .W1S, rst := 0 },
      { hi := 2, lo := 2, acc := .RW, rst := 0 },
      { hi := 1, lo := 1, acc := .RW, rst := 0, src := .loadin },
      { hi := 0, lo := 0, acc := .RW, rst := 0, src := .loadin }] },
  { reg := .HOST_LINK, unit := .dev, base := 0x2200001, count := 1, stride := 1, b := false, u := true,
    fields := [{ hi := 13, lo := 13, acc := .RO, rst := 0 },
      { hi := 12, lo := 12, acc := .RO, rst := 0 },
      { hi := 11, lo := 11, acc := .RO, rst := 0 },
      { hi := 10, lo := 10, acc := .RO, rst := 0 },
      { hi := 9, lo := 8, acc := .RO, rst := 0 },
      { hi := 4, lo := 0, acc := .RO, rst := 0 }] },
  { reg := .HOST_ERR, unit := .dev, base := 0x2200002, count := 1, stride := 1, b := false, u := false,
    fields := [{ hi := 6, lo := 6, acc := .W1C, rst := 0 },
      { hi := 5, lo := 5, acc := .W1C, rst := 0 },
      { hi := 4, lo := 4, acc := .W1C, rst := 0 },
      { hi := 3, lo := 3, acc := .W1C, rst := 0 },
      { hi := 2, lo := 2, acc := .W1C, rst := 0 },
      { hi := 1, lo := 1, acc := .W1C, rst := 0 },
      { hi := 0, lo := 0, acc := .W1C, rst := 0 }] }]

/-- Register rows, part 5. -/
def regRows5 : List RegRow := [
  { reg := .HOST_CACHEBASE, unit := .dev, base := 0x2200003, count := 1, stride := 1, b := true, u := false,
    fields := [{ hi := 63, lo := 0, acc := .RW, rst := 0, src := .loadin }] },
  { reg := .HOST_MMIOBASE, unit := .dev, base := 0x2200004, count := 1, stride := 1, b := true, u := false,
    fields := [{ hi := 63, lo := 0, acc := .RW, rst := 0, src := .loadin }] },
  { reg := .HOST_BIASCMD, unit := .dev, base := 0x2200005, count := 1, stride := 1, b := true, u := false,
    fields := [{ hi := 63, lo := 63, acc := .RO, rst := 0 },
      { hi := 62, lo := 62, acc := .W1S, rst := 0 },
      { hi := 61, lo := 60, acc := .RO, rst := 0 },
      { hi := 59, lo := 59, acc := .RW, rst := 0 },
      { hi := 55, lo := 40, acc := .RW, rst := 0 },
      { hi := 24, lo := 0, acc := .RW, rst := 0 }] },
  { reg := .HOST_PWIN, unit := .dev, base := 0x2200010, count := 16, stride := 1, b := true, u := false,
    fields := [{ hi := 63, lo := 63, acc := .RW, rst := 0, src := .loadin },
      { hi := 62, lo := 62, acc := .RW, rst := 0, src := .loadin },
      { hi := 31, lo := 0, acc := .RW, rst := 0, src := .loadin }] },
  { reg := .HOST_SQCFG, unit := .dev, base := 0x2201000, count := 64, stride := 8, b := false, u := false,
    fields := [{ hi := 63, lo := 63, acc := .RW, rst := 0 },
      { hi := 62, lo := 62, acc := .RW, rst := 0 },
      { hi := 61, lo := 56, acc := .RW, rst := 0 },
      { hi := 51, lo := 48, acc := .RW, rst := 0, legal := .le 8 },
      { hi := 47, lo := 0, acc := .RW, rst := 0 }] },
  { reg := .HOST_CQCFG, unit := .dev, base := 0x2201001, count := 64, stride := 8, b := false, u := false,
    fields := [{ hi := 63, lo := 63, acc := .RW, rst := 0 },
      { hi := 62, lo := 62, acc := .RW, rst := 0 },
      { hi := 61, lo := 56, acc := .RW, rst := 0 },
      { hi := 51, lo := 48, acc := .RW, rst := 0, legal := .le 8 },
      { hi := 47, lo := 0, acc := .RW, rst := 0 }] },
  { reg := .HOST_SQT, unit := .dev, base := 0x2201002, count := 64, stride := 8, b := false, u := false,
    fields := [{ hi := 15, lo := 0, acc := .RO, rst := 0 }] },
  { reg := .HOST_SQH, unit := .dev, base := 0x2201003, count := 64, stride := 8, b := false, u := false,
    fields := [{ hi := 15, lo := 0, acc := .RW, rst := 0 }] },
  { reg := .HOST_CQT, unit := .dev, base := 0x2201004, count := 64, stride := 8, b := false, u := false,
    fields := [{ hi := 15, lo := 0, acc := .RW, rst := 0 }] },
  { reg := .HOST_CQH, unit := .dev, base := 0x2201005, count := 64, stride := 8, b := false, u := false,
    fields := [{ hi := 15, lo := 0, acc := .RO, rst := 0 }] },
  { reg := .HOST_DBREJ, unit := .dev, base := 0x2201006, count := 64, stride := 8, b := false, u := false,
    fields := [{ hi := 63, lo := 0, acc := .RW, rst := 0 }] },
  { reg := .HOST_TAGWRDROP, unit := .dev, base := 0x2200020, count := 1, stride := 1, b := false, u := false,
    fields := [{ hi := 63, lo := 0, acc := .RW, rst := 0 }] },
  { reg := .HOST_PWREF, unit := .dev, base := 0x2200021, count := 1, stride := 1, b := false, u := false,
    fields := [{ hi := 63, lo := 0, acc := .RW, rst := 0 }] },
  { reg := .HOST_CORR, unit := .dev, base := 0x2200022, count := 1, stride := 1, b := false, u := false,
    fields := [{ hi := 63, lo := 0, acc := .RW, rst := 0 }] },
  { reg := .HOST_UNCORR, unit := .dev, base := 0x2200023, count := 1, stride := 1, b := false, u := false,
    fields := [{ hi := 63, lo := 0, acc := .RW, rst := 0 }] },
  { reg := .HOST_LOSTWB, unit := .dev, base := 0x2200024, count := 1, stride := 1, b := false, u := false,
    fields := [{ hi := 63, lo := 0, acc := .RW, rst := 0 }] },
  { reg := .HOST_CRWAIT, unit := .dev, base := 0x2200025, count := 1, stride := 1, b := false, u := false,
    fields := [{ hi := 63, lo := 0, acc := .RW, rst := 0 }] },
  { reg := .HOST_OUTHOLD, unit := .dev, base := 0x2200026, count := 1, stride := 1, b := false, u := false,
    fields := [{ hi := 63, lo := 0, acc := .RW, rst := 0 }] },
  { reg := .MC_CTL, unit := .mc, base := 0x2100000, count := 1, stride := 1, b := true, u := false,
    fields := [{ hi := 32, lo := 32, acc := .RW, rst := 0, src := .loadin },
      { hi := 31, lo := 0, acc := .RW, rst := 0, src := .loadin }] },
  { reg := .MC_STAT, unit := .mc, base := 0x2100001, count := 1, stride := 1, b := false, u := false,
    fields := [{ hi := 9, lo := 2, acc := .RO, rst := 0 },
      { hi := 1, lo := 1, acc := .W1C, rst := 0 },
      { hi := 0, lo := 0, acc := .RO, rst := 0 }] },
  { reg := .MC_SCRUB, unit := .mc, base := 0x2100002, count := 1, stride := 1, b := true, u := false,
    fields := [{ hi := 15, lo := 0, acc := .RW, rst := 0, src := .loadin }] },
  { reg := .MC_CAL, unit := .mc, base := 0x2100003, count := 1, stride := 1, b := true, u := false,
    fields := [{ hi := 31, lo := 0, acc := .RW, rst := 0, src := .loadin, legal := .range 16 65536 }] },
  { reg := .MC_CALCMD, unit := .mc, base := 0x2100004, count := 1, stride := 1, b := true, u := false,
    fields := [{ hi := 5, lo := 4, acc := .RO, rst := 0 },
      { hi := 3, lo := 0, acc := .WO, rst := 0 }] },
  { reg := .MC_ERRLOG, unit := .mc, base := 0x2100005, count := 1, stride := 1, b := false, u := false,
    fields := [{ hi := 63, lo := 63, acc := .W1C, rst := 0 },
      { hi := 62, lo := 62, acc := .RO, rst := 0 },
      { hi := 61, lo := 61, acc := .RO, rst := 0 },
      { hi := 60, lo := 60, acc := .RO, rst := 0 },
      { hi := 55, lo := 52, acc := .RO, rst := 0 },
      { hi := 47, lo := 0, acc := .RO, rst := 0 }] }]

/-- Register rows, part 6. -/
def regRows6 : List RegRow := [
  { reg := .MC_CE, unit := .mc, base := 0x2100010, count := 1, stride := 1, b := false, u := false,
    fields := [{ hi := 63, lo := 0, acc := .RW, rst := 0 }] },
  { reg := .MC_UE, unit := .mc, base := 0x2100011, count := 1, stride := 1, b := false, u := false,
    fields := [{ hi := 63, lo := 0, acc := .RW, rst := 0 }] },
  { reg := .MC_SCRUBUE, unit := .mc, base := 0x2100012, count := 1, stride := 1, b := false, u := false,
    fields := [{ hi := 63, lo := 0, acc := .RW, rst := 0 }] },
  { reg := .MC_CAPAR, unit := .mc, base := 0x2100013, count := 1, stride := 1, b := false, u := false,
    fields := [{ hi := 63, lo := 0, acc := .RW, rst := 0 }] },
  { reg := .MC_SHHIT, unit := .mc, base := 0x2100014, count := 1, stride := 1, b := false, u := false,
    fields := [{ hi := 63, lo := 0, acc := .RW, rst := 0 }] },
  { reg := .MC_SHMISS, unit := .mc, base := 0x2100015, count := 1, stride := 1, b := false, u := false,
    fields := [{ hi := 63, lo := 0, acc := .RW, rst := 0 }] },
  { reg := .MC_CALHOLD, unit := .mc, base := 0x2100016, count := 1, stride := 1, b := false, u := false,
    fields := [{ hi := 63, lo := 0, acc := .RW, rst := 0 }] },
  { reg := .MC_HOLD, unit := .mc, base := 0x2100017, count := 1, stride := 1, b := false, u := false,
    fields := [{ hi := 63, lo := 0, acc := .RW, rst := 0 }] },
  { reg := .DEV_ID, unit := .dev, base := 0x2000400, count := 1, stride := 1, b := false, u := true,
    fields := [{ hi := 63, lo := 48, acc := .RO, rst := 0, src := .fuse },
      { hi := 47, lo := 40, acc := .RO, rst := 0, src := .fuse }] },
  { reg := .DEV_CLEN, unit := .dev, base := 0x2000401, count := 1, stride := 1, b := false, u := true,
    fields := [{ hi := 31, lo := 0, acc := .RO, rst := 0, src := .fuse }] },
  { reg := .DEV_PORTEN, unit := .dev, base := 0x2000402, count := 1, stride := 1, b := false, u := true,
    fields := [{ hi := 11, lo := 0, acc := .RO, rst := 0, src := .fuse }] },
  { reg := .DEV_MODE, unit := .dev, base := 0x2000403, count := 1, stride := 1, b := true, u := false,
    fields := [{ hi := 7, lo := 0, acc := .RW, rst := 0, src := .loadin }] },
  { reg := .DEV_MODESTAT, unit := .dev, base := 0x2000404, count := 1, stride := 1, b := true, u := false,
    fields := [{ hi := 63, lo := 63, acc := .RO, rst := 0 },
      { hi := 3, lo := 0, acc := .RO, rst := 0 }] },
  { reg := .DEV_EVAL, unit := .dev, base := 0x2000405, count := 1, stride := 1, b := false, u := true,
    fields := [{ hi := 4, lo := 4, acc := .RO, rst := 0 },
      { hi := 3, lo := 3, acc := .RO, rst := 0 },
      { hi := 2, lo := 2, acc := .RO, rst := 0 },
      { hi := 1, lo := 1, acc := .RO, rst := 0 },
      { hi := 0, lo := 0, acc := .RO, rst := 0, src := .loadin }] },
  { reg := .DEV_STCFG, unit := .dev, base := 0x2000406, count := 1, stride := 1, b := true, u := false,
    fields := [{ hi := 63, lo := 32, acc := .RW, rst := 0, src := .loadin },
      { hi := 31, lo := 0, acc := .RW, rst := 0, src := .loadin }] },
  { reg := .DEV_STREQ, unit := .dev, base := 0x2000407, count := 1, stride := 1, b := true, u := false,
    fields := [{ hi := 63, lo := 63, acc := .W1S, rst := 0 },
      { hi := 15, lo := 12, acc := .WO, rst := 0 },
      { hi := 11, lo := 0, acc := .WO, rst := 0 }] },
  { reg := .DEV_STRES, unit := .dev, base := 0x2000408, count := 1, stride := 1, b := true, u := false,
    fields := [{ hi := 63, lo := 63, acc := .RO, rst := 0 },
      { hi := 58, lo := 56, acc := .RO, rst := 0 },
      { hi := 15, lo := 0, acc := .RO, rst := 0 }] },
  { reg := .DEV_STNOTRUN, unit := .dev, base := 0x2000409, count := 1, stride := 1, b := true, u := false,
    fields := [{ hi := 63, lo := 0, acc := .RW, rst := 0 }] },
  { reg := .DEV_ERR, unit := .dev, base := 0x200040A, count := 1, stride := 1, b := true, u := false,
    fields := [{ hi := 1, lo := 1, acc := .W1C, rst := 0 },
      { hi := 0, lo := 0, acc := .W1C, rst := 0 }] },
  { reg := .CLU_MODE, unit := .cluster, base := 0x10000, count := 1, stride := 1, b := true, u := false,
    fields := [{ hi := 8, lo := 8, acc := .RW, rst := 0, src := .loadin },
      { hi := 7, lo := 6, acc := .RW, rst := 0, src := .loadin, legal := .le 2 },
      { hi := 5, lo := 4, acc := .RW, rst := 0, src := .loadin, legal := .le 2 },
      { hi := 3, lo := 2, acc := .RW, rst := 0, src := .loadin, legal := .le 2 },
      { hi := 1, lo := 0, acc := .RW, rst := 0, src := .loadin, legal := .le 2 }] },
  { reg := .CLU_STAT, unit := .cluster, base := 0x10001, count := 1, stride := 1, b := false, u := true,
    fields := [{ hi := 63, lo := 63, acc := .W1C, rst := 0 },
      { hi := 3, lo := 3, acc := .RO, rst := 0, src := .loadin },
      { hi := 2, lo := 2, acc := .RO, rst := 0, src := .loadin },
      { hi := 1, lo := 1, acc := .RO, rst := 0, src := .loadin },
      { hi := 0, lo := 0, acc := .RO, rst := 0, src := .loadin }] },
  { reg := .CLU_LSSTAT, unit := .cluster, base := 0x10002, count := 1, stride := 1, b := true, u := false,
    fields := [{ hi := 63, lo := 63, acc := .W1C, rst := 0 },
      { hi := 49, lo := 48, acc := .RO, rst := 0 },
      { hi := 47, lo := 0, acc := .RO, rst := 0 }] },
  { reg := .CLU_LSTIME, unit := .cluster, base := 0x10003, count := 1, stride := 1, b := true, u := false,
    fields := [{ hi := 63, lo := 0, acc := .RO, rst := 0 }] },
  { reg := .CLU_LSDIV, unit := .cluster, base := 0x10004, count := 1, stride := 1, b := false, u := false,
    fields := [{ hi := 63, lo := 0, acc := .RW, rst := 0 }] }]

/-- Register rows, part 7. -/
def regRows7 : List RegRow := [
  { reg := .REH_CTL, unit := .dev, base := 0x2400000, count := 1, stride := 1, b := true, u := false,
    fields := [{ hi := 63, lo := 63, acc := .W1S, rst := 0 },
      { hi := 3, lo := 3, acc := .RW, rst := 0, src := .loadin },
      { hi := 2, lo := 1, acc := .RW, rst := 0, src := .loadin, legal := .le 1 },
      { hi := 0, lo := 0, acc := .RW, rst := 0, src := .loadin }] },
  { reg := .REH_STAT, unit := .dev, base := 0x2400001, count := 1, stride := 1, b := true, u := false,
    fields := [{ hi := 63, lo := 63, acc := .RO, rst := 0 },
      { hi := 62, lo := 62, acc := .RO, rst := 0 },
      { hi := 61, lo := 61, acc := .RO, rst := 0 },
      { hi := 57, lo := 56, acc := .RO, rst := 0 },
      { hi := 39, lo := 0, acc := .RO, rst := 0 }] },
  { reg := .REH_RING, unit := .dev, base := 0x2400002, count := 1, stride := 1, b := true, u := false,
    fields := [{ hi := 61, lo := 48, acc := .RW, rst := 0, src := .loadin, legal := .le 1536 },
      { hi := 47, lo := 0, acc := .RW, rst := 0, src := .loadin }] },
  { reg := .REH_TRING, unit := .dev, base := 0x2400011, count := 1, stride := 1, b := true, u := false,
    fields := [{ hi := 61, lo := 48, acc := .RW, rst := 0, src := .loadin, legal := .le 1536 },
      { hi := 47, lo := 0, acc := .RW, rst := 0, src := .loadin }] },
  { reg := .REH_RHEAD, unit := .dev, base := 0x2400003, count := 1, stride := 1, b := true, u := false,
    fields := [{ hi := 31, lo := 0, acc := .RW, rst := 0 }] },
  { reg := .REH_RTAIL, unit := .dev, base := 0x2400004, count := 1, stride := 1, b := true, u := false,
    fields := [{ hi := 31, lo := 0, acc := .RO, rst := 0 }] },
  { reg := .REH_HHEAD, unit := .dev, base := 0x2400007, count := 1, stride := 1, b := true, u := false,
    fields := [{ hi := 31, lo := 0, acc := .RW, rst := 0 }] },
  { reg := .REH_HTAIL, unit := .dev, base := 0x2400008, count := 1, stride := 1, b := true, u := false,
    fields := [{ hi := 31, lo := 0, acc := .RW, rst := 0 }] },
  { reg := .REH_HBUF, unit := .dev, base := 0x2400005, count := 1, stride := 1, b := true, u := false,
    fields := [{ hi := 63, lo := 12, acc := .RW, rst := 0, src := .loadin }] },
  { reg := .REH_SNAP, unit := .dev, base := 0x240000B, count := 1, stride := 1, b := true, u := false,
    fields := [{ hi := 63, lo := 12, acc := .RW, rst := 0, src := .loadin }] },
  { reg := .REH_HBSIZE, unit := .dev, base := 0x2400006, count := 1, stride := 1, b := true, u := false,
    fields := [{ hi := 31, lo := 0, acc := .RW, rst := 0, src := .loadin }] },
  { reg := .REH_HASHINT, unit := .dev, base := 0x2400009, count := 1, stride := 1, b := true, u := false,
    fields := [{ hi := 15, lo := 0, acc := .RW, rst := 0, src := .loadin }] },
  { reg := .REH_MARK, unit := .dev, base := 0x240000A, count := 1, stride := 1, b := false, u := false,
    fields := [{ hi := 63, lo := 0, acc := .WO, rst := 0 }] },
  { reg := .REH_RPCTL, unit := .dev, base := 0x240000C, count := 1, stride := 1, b := true, u := false,
    fields := [{ hi := 63, lo := 63, acc := .W1S, rst := 0 },
      { hi := 62, lo := 62, acc := .W1S, rst := 0 },
      { hi := 61, lo := 61, acc := .W1S, rst := 0 },
      { hi := 60, lo := 60, acc := .RW, rst := 0 },
      { hi := 39, lo := 0, acc := .RW, rst := 0 }] },
  { reg := .REH_RPSTAT, unit := .dev, base := 0x240000D, count := 1, stride := 1, b := true, u := false,
    fields := [{ hi := 63, lo := 60, acc := .RO, rst := 0 },
      { hi := 59, lo := 56, acc := .RO, rst := 0 },
      { hi := 55, lo := 47, acc := .RO, rst := 0 },
      { hi := 39, lo := 0, acc := .RO, rst := 0 }] },
  { reg := .REH_TCTL, unit := .dev, base := 0x2400010, count := 1, stride := 1, b := true, u := false,
    fields := [{ hi := 63, lo := 63, acc := .W1C, rst := 0 },
      { hi := 11, lo := 8, acc := .RW, rst := 15 },
      { hi := 2, lo := 2, acc := .RW, rst := 0, src := .loadin },
      { hi := 1, lo := 1, acc := .RW, rst := 0, src := .loadin }] },
  { reg := .REH_TPTR, unit := .dev, base := 0x2400012, count := 1, stride := 1, b := true, u := false,
    fields := [{ hi := 63, lo := 32, acc := .RO, rst := 0 },
      { hi := 28, lo := 16, acc := .RO, rst := 0 },
      { hi := 12, lo := 0, acc := .RO, rst := 0 }] },
  { reg := .REH_ITB, unit := .dev, base := 0x2408000, count := 16384, stride := 1, b := true, u := false,
    fields := [{ hi := 63, lo := 0, acc := .RO, rst := 0 }] },
  { reg := .REH_ETB, unit := .dev, base := 0x240C000, count := 16384, stride := 1, b := true, u := false,
    fields := [{ hi := 63, lo := 0, acc := .RO, rst := 0 }] },
  { reg := .REH_RECORDS, unit := .dev, base := 0x2400020, count := 1, stride := 1, b := true, u := false,
    fields := [{ hi := 63, lo := 0, acc := .RW, rst := 0 }] },
  { reg := .REH_STALLNS, unit := .dev, base := 0x2400021, count := 1, stride := 1, b := true, u := false,
    fields := [{ hi := 63, lo := 0, acc := .RW, rst := 0 }] },
  { reg := .REH_GAPS, unit := .dev, base := 0x2400022, count := 1, stride := 1, b := true, u := false,
    fields := [{ hi := 63, lo := 0, acc := .RW, rst := 0 }] },
  { reg := .REH_TRUNC, unit := .dev, base := 0x2400023, count := 1, stride := 1, b := true, u := false,
    fields := [{ hi := 63, lo := 0, acc := .RW, rst := 0 }] },
  { reg := .REH_LIVEDROP, unit := .dev, base := 0x2400024, count := 1, stride := 1, b := true, u := false,
    fields := [{ hi := 63, lo := 0, acc := .RW, rst := 0 }] }]

/-- Register rows, part 8. -/
def regRows8 : List RegRow := [
  { reg := .REH_TLOSS, unit := .dev, base := 0x2400025, count := 1, stride := 1, b := true, u := false,
    fields := [{ hi := 63, lo := 0, acc := .RW, rst := 0 }] },
  { reg := .CORE_RET, unit := .core, base := 0x500, count := 1, stride := 1, b := false, u := true,
    fields := [{ hi := 63, lo := 0, acc := .RW, rst := 0 }] },
  { reg := .CORE_CYC, unit := .core, base := 0x501, count := 1, stride := 1, b := false, u := true,
    fields := [{ hi := 63, lo := 0, acc := .RW, rst := 0 }] },
  { reg := .CORE_FRZ, unit := .core, base := 0x502, count := 1, stride := 1, b := false, u := true,
    fields := [{ hi := 63, lo := 0, acc := .RW, rst := 0 }] },
  { reg := .CORE_CHUNKS, unit := .core, base := 0x503, count := 1, stride := 1, b := false, u := true,
    fields := [{ hi := 63, lo := 0, acc := .RW, rst := 0 }] },
  { reg := .CLK_CTL, unit := .dev, base := 0x2000000, count := 1, stride := 1, b := true, u := false,
    fields := [{ hi := 8, lo := 8, acc := .RW, rst := 0, src := .loadin },
      { hi := 0, lo := 0, acc := .RW, rst := 0, src := .loadin }] },
  { reg := .CLK_STAT, unit := .dev, base := 0x2000001, count := 1, stride := 1, b := true, u := false,
    fields := [{ hi := 63, lo := 63, acc := .W1C, rst := 0 },
      { hi := 62, lo := 62, acc := .RO, rst := 0 },
      { hi := 61, lo := 61, acc := .RO, rst := 0 },
      { hi := 60, lo := 60, acc := .RO, rst := 0 },
      { hi := 43, lo := 40, acc := .RO, rst := 0 },
      { hi := 8, lo := 0, acc := .RO, rst := 0 }] },
  { reg := .CLK_GATE_TMO, unit := .dev, base := 0x2000002, count := 1, stride := 1, b := true, u := false,
    fields := [{ hi := 15, lo := 0, acc := .RW, rst := 4096, legal := .range 1 65535 }] },
  { reg := .CLK_GREQ, unit := .dev, base := 0x2000003, count := 1, stride := 1, b := true, u := false,
    fields := [{ hi := 20, lo := 20, acc := .WO, rst := 0 },
      { hi := 19, lo := 16, acc := .WO, rst := 0 },
      { hi := 11, lo := 0, acc := .WO, rst := 0 }] },
  { reg := .CLK_GSTAT, unit := .dev, base := 0x2000004, count := 1, stride := 1, b := true, u := false,
    fields := [{ hi := 63, lo := 63, acc := .RO, rst := 0 },
      { hi := 58, lo := 56, acc := .RO, rst := 0 },
      { hi := 20, lo := 0, acc := .RO, rst := 0 }] },
  { reg := .CLK_TPLL, unit := .dev, base := 0x2000010, count := 4, stride := 1, b := true, u := false,
    fields := [{ hi := 63, lo := 63, acc := .RO, rst := 0 },
      { hi := 43, lo := 32, acc := .RO, rst := 0, src := .loadin },
      { hi := 27, lo := 16, acc := .RW, rst := 0, src := .loadin, legal := .step 200 2000 25 },
      { hi := 11, lo := 0, acc := .RW, rst := 0, src := .loadin, legal := .step 400 3000 25 }] },
  { reg := .PWR_CMD, unit := .dev, base := 0x2000100, count := 1, stride := 1, b := true, u := false,
    fields := [{ hi := 63, lo := 63, acc := .W1S, rst := 0 },
      { hi := 3, lo := 0, acc := .WO, rst := 0 }] },
  { reg := .PWR_STAT, unit := .dev, base := 0x2000101, count := 1, stride := 1, b := true, u := false,
    fields := [{ hi := 63, lo := 63, acc := .RO, rst := 0 },
      { hi := 62, lo := 60, acc := .RO, rst := 0 },
      { hi := 51, lo := 48, acc := .RO, rst := 0 }] },
  { reg := .PWR_PLIM, unit := .dev, base := 0x2000102, count := 1, stride := 1, b := true, u := false,
    fields := [{ hi := 47, lo := 32, acc := .RO, rst := 0 },
      { hi := 15, lo := 0, acc := .RW, rst := 0, src := .loadin }] },
  { reg := .PWR_THR, unit := .dev, base := 0x2000103, count := 1, stride := 1, b := true, u := false,
    fields := [{ hi := 19, lo := 16, acc := .RO, rst := 0 },
      { hi := 15, lo := 0, acc := .RO, rst := 0 }] },
  { reg := .PWR_TEMP, unit := .dev, base := 0x2000104, count := 1, stride := 1, b := false, u := true,
    fields := [{ hi := 39, lo := 32, acc := .RO, rst := 0 },
      { hi := 31, lo := 0, acc := .RO, rst := 0 }] },
  { reg := .PWR_AVS, unit := .dev, base := 0x2000105, count := 1, stride := 1, b := true, u := false,
    fields := [{ hi := 63, lo := 63, acc := .W1C, rst := 0 },
      { hi := 41, lo := 40, acc := .RO, rst := 0 },
      { hi := 39, lo := 0, acc := .RO, rst := 0 }] },
  { reg := .PWR_ALSTAT, unit := .dev, base := 0x2000106, count := 1, stride := 1, b := true, u := false,
    fields := [{ hi := 4, lo := 0, acc := .W1C, rst := 0 }] },
  { reg := .PWR_ALMASK, unit := .dev, base := 0x2000107, count := 1, stride := 1, b := true, u := false,
    fields := [{ hi := 4, lo := 0, acc := .RW, rst := 0 }] },
  { reg := .PWR_GATED, unit := .dev, base := 0x2000110, count := 4, stride := 1, b := true, u := false,
    fields := [{ hi := 63, lo := 0, acc := .RO, rst := 0 }] },
  { reg := .PWR_CLGATED, unit := .dev, base := 0x2000114, count := 1, stride := 1, b := true, u := false,
    fields := [{ hi := 63, lo := 0, acc := .RO, rst := 0 }] },
  { reg := .PWR_THROTNS, unit := .dev, base := 0x2000120, count := 1, stride := 1, b := true, u := false,
    fields := [{ hi := 63, lo := 0, acc := .RW, rst := 0 }] },
  { reg := .PWR_PLIMNS, unit := .dev, base := 0x2000121, count := 1, stride := 1, b := true, u := false,
    fields := [{ hi := 63, lo := 0, acc := .RW, rst := 0 }] },
  { reg := .PWR_AVSERR, unit := .dev, base := 0x2000122, count := 1, stride := 1, b := true, u := false,
    fields := [{ hi := 63, lo := 0, acc := .RW, rst := 0 }] }]

/-- Register rows, part 9. -/
def regRows9 : List RegRow := [
  { reg := .PWR_DARKS, unit := .dev, base := 0x2000123, count := 1, stride := 1, b := true, u := false,
    fields := [{ hi := 63, lo := 0, acc := .RW, rst := 0 }] },
  { reg := .CLK_GREFUSE, unit := .dev, base := 0x2000124, count := 1, stride := 1, b := true, u := false,
    fields := [{ hi := 63, lo := 0, acc := .RW, rst := 0 }] },
  { reg := .TIME_NOW, unit := .dev, base := 0x2000200, count := 1, stride := 1, b := false, u := true,
    fields := [{ hi := 63, lo := 0, acc := .RO, rst := 0 }] },
  { reg := .TIME_STAT, unit := .dev, base := 0x2000201, count := 1, stride := 1, b := false, u := true,
    fields := [{ hi := 63, lo := 63, acc := .W1C, rst := 0 },
      { hi := 62, lo := 62, acc := .RO, rst := 0 },
      { hi := 61, lo := 61, acc := .RO, rst := 0 }] },
  { reg := .TIME_CTL, unit := .dev, base := 0x2000202, count := 1, stride := 1, b := true, u := false,
    fields := [{ hi := 63, lo := 63, acc := .RW, rst := 0, src := .loadin }] },
  { reg := .TIME_ADJ, unit := .dev, base := 0x2000203, count := 1, stride := 1, b := true, u := false,
    fields := [{ hi := 63, lo := 62, acc := .WO, rst := 0 },
      { hi := 61, lo := 0, acc := .WO, rst := 0 }] },
  { reg := .TIME_PPS, unit := .dev, base := 0x2000204, count := 1, stride := 1, b := true, u := false,
    fields := [{ hi := 63, lo := 32, acc := .RW, rst := 0, src := .loadin },
      { hi := 31, lo := 0, acc := .RW, rst := 0, src := .loadin }] },
  { reg := .TIME_CAPT, unit := .dev, base := 0x2000205, count := 1, stride := 1, b := true, u := false,
    fields := [{ hi := 63, lo := 0, acc := .RO, rst := 0 }] },
  { reg := .LOADIN_STAT, unit := .dev, base := 0x2000300, count := 1, stride := 1, b := false, u := true,
    fields := [{ hi := 25, lo := 24, acc := .RO, rst := 0 },
      { hi := 23, lo := 20, acc := .RO, rst := 0 },
      { hi := 19, lo := 16, acc := .RO, rst := 0 },
      { hi := 11, lo := 8, acc := .RO, rst := 0 },
      { hi := 6, lo := 6, acc := .RO, rst := 0 },
      { hi := 5, lo := 4, acc := .RO, rst := 0 },
      { hi := 2, lo := 2, acc := .RO, rst := 0 },
      { hi := 1, lo := 0, acc := .RO, rst := 0 }] },
  { reg := .LOADIN_NEXT, unit := .dev, base := 0x2000301, count := 1, stride := 1, b := true, u := false,
    fields := [{ hi := 63, lo := 63, acc := .RW, rst := 0 },
      { hi := 62, lo := 62, acc := .RW, rst := 0 },
      { hi := 1, lo := 0, acc := .RW, rst := 0 }] },
  { reg := .LOADIN_CMD, unit := .dev, base := 0x2000302, count := 1, stride := 1, b := true, u := false,
    fields := [{ hi := 12, lo := 8, acc := .WO, rst := 0 },
      { hi := 3, lo := 0, acc := .WO, rst := 0 }] },
  { reg := .LOADIN_START, unit := .dev, base := 0x2000303, count := 1, stride := 1, b := true, u := false,
    fields := [{ hi := 63, lo := 56, acc := .WO, rst := 0 },
      { hi := 47, lo := 0, acc := .WO, rst := 0 }] },
  { reg := .LOADIN_CLEN, unit := .dev, base := 0x2000304, count := 1, stride := 1, b := false, u := true,
    fields := [{ hi := 31, lo := 0, acc := .RO, rst := 0, src := .loadin }] },
  { reg := .LOADIN_BIST, unit := .dev, base := 0x2000305, count := 1, stride := 1, b := true, u := false,
    fields := [{ hi := 31, lo := 0, acc := .RO, rst := 0 }] },
  { reg := .LOADIN_PART, unit := .dev, base := 0x2000306, count := 1, stride := 1, b := false, u := true,
    fields := [{ hi := 47, lo := 0, acc := .RO, rst := 0, src := .loadin }] },
  { reg := .LOADIN_POLICY, unit := .dev, base := 0x2000307, count := 1, stride := 1, b := true, u := false,
    fields := [{ hi := 4, lo := 4, acc := .RO, rst := 0, src := .loadin },
      { hi := 3, lo := 0, acc := .RO, rst := 0, src := .loadin }] },
  { reg := .LOADIN_ERR, unit := .dev, base := 0x2000308, count := 1, stride := 1, b := true, u := false,
    fields := [{ hi := 1, lo := 1, acc := .W1C, rst := 0 },
      { hi := 0, lo := 0, acc := .W1C, rst := 0 }] },
  { reg := .LOADIN_SYSID, unit := .dev, base := 0x2000309, count := 1, stride := 1, b := false, u := true,
    fields := [{ hi := 63, lo := 0, acc := .RO, rst := 0, src := .loadin }] },
  { reg := .LOADIN_SN0, unit := .dev, base := 0x200030A, count := 1, stride := 1, b := false, u := true,
    fields := [{ hi := 63, lo := 0, acc := .RO, rst := 0, src := .loadin }] },
  { reg := .LOADIN_SN1, unit := .dev, base := 0x200030B, count := 1, stride := 1, b := false, u := true,
    fields := [{ hi := 63, lo := 0, acc := .RO, rst := 0, src := .loadin }] },
  { reg := .LOADIN_COLD, unit := .dev, base := 0x2000310, count := 1, stride := 1, b := true, u := false,
    fields := [{ hi := 63, lo := 0, acc := .RW, rst := 0 }] },
  { reg := .LOADIN_WARM, unit := .dev, base := 0x2000311, count := 1, stride := 1, b := true, u := false,
    fields := [{ hi := 63, lo := 0, acc := .RW, rst := 0 }] },
  { reg := .LOADIN_FAILA, unit := .dev, base := 0x2000312, count := 1, stride := 1, b := true, u := false,
    fields := [{ hi := 63, lo := 0, acc := .RW, rst := 0 }] },
  { reg := .PROMPTER_MBIN, unit := .dev, base := 0x2000500, count := 8, stride := 1, b := true, u := false,
    fields := [{ hi := 63, lo := 0, acc := .RO, rst := 0 }] }]

/-- Register rows, part 10. -/
def regRows10 : List RegRow := [
  { reg := .PROMPTER_MBOUT, unit := .dev, base := 0x2000508, count := 8, stride := 1, b := true, u := false,
    fields := [{ hi := 63, lo := 0, acc := .RW, rst := 0 }] },
  { reg := .PROMPTER_MBCTL, unit := .dev, base := 0x2000510, count := 1, stride := 1, b := true, u := false,
    fields := [{ hi := 63, lo := 63, acc := .W1C, rst := 0 },
      { hi := 62, lo := 62, acc := .W1S, rst := 0 },
      { hi := 14, lo := 8, acc := .RW, rst := 0, legal := .range 1 64 },
      { hi := 6, lo := 0, acc := .RO, rst := 0 }] },
  { reg := .PROMPTER_STAT, unit := .dev, base := 0x2000511, count := 1, stride := 1, b := true, u := false,
    fields := [{ hi := 9, lo := 9, acc := .RO, rst := 0 },
      { hi := 8, lo := 8, acc := .RO, rst := 0 },
      { hi := 6, lo := 0, acc := .RO, rst := 0, src := .pin }] },
  { reg := .PROMPTER_CMDS, unit := .dev, base := 0x2000520, count := 1, stride := 1, b := true, u := false,
    fields := [{ hi := 63, lo := 0, acc := .RW, rst := 0 }] },
  { reg := .PROMPTER_PECERR, unit := .dev, base := 0x2000521, count := 1, stride := 1, b := true, u := false,
    fields := [{ hi := 63, lo := 0, acc := .RW, rst := 0 }] },
  { reg := .PROMPTER_AUTHFAIL, unit := .dev, base := 0x2000522, count := 1, stride := 1, b := true, u := false,
    fields := [{ hi := 63, lo := 0, acc := .RW, rst := 0 }] },
  { reg := .PROMPTER_NACKS, unit := .dev, base := 0x2000523, count := 1, stride := 1, b := true, u := false,
    fields := [{ hi := 63, lo := 0, acc := .RW, rst := 0 }] },
  { reg := .KSU_STATE, unit := .dev, base := 0x2000600, count := 1, stride := 1, b := true, u := false,
    fields := [{ hi := 16, lo := 16, acc := .RO, rst := 0, src := .fuse },
      { hi := 15, lo := 8, acc := .RO, rst := 0, src := .fuse },
      { hi := 7, lo := 0, acc := .RO, rst := 0, src := .fuse }] },
  { reg := .KSU_CMD, unit := .dev, base := 0x2000601, count := 1, stride := 1, b := true, u := false,
    fields := [{ hi := 7, lo := 4, acc := .WO, rst := 0 },
      { hi := 2, lo := 0, acc := .WO, rst := 0 }] },
  { reg := .KSU_RES, unit := .dev, base := 0x2000602, count := 1, stride := 1, b := true, u := false,
    fields := [{ hi := 63, lo := 63, acc := .RO, rst := 0 },
      { hi := 2, lo := 0, acc := .RO, rst := 0 }] },
  { reg := .KSU_DRBG, unit := .dev, base := 0x2000603, count := 1, stride := 1, b := true, u := false,
    fields := [{ hi := 1, lo := 0, acc := .RO, rst := 0 }] },
  { reg := .KSU_DATA, unit := .dev, base := 0x2000608, count := 6, stride := 1, b := true, u := false,
    fields := [{ hi := 63, lo := 0, acc := .WO, rst := 0 }] },
  { reg := .KSU_CERT, unit := .dev, base := 0x2000700, count := 256, stride := 1, b := true, u := false,
    fields := [{ hi := 63, lo := 0, acc := .RO, rst := 0, src := .fuse }] },
  { reg := .KSU_SIGFAIL, unit := .dev, base := 0x2000610, count := 1, stride := 1, b := true, u := false,
    fields := [{ hi := 63, lo := 0, acc := .RW, rst := 0 }] },
  { reg := .KSU_HEALTH, unit := .dev, base := 0x2000611, count := 1, stride := 1, b := true, u := false,
    fields := [{ hi := 63, lo := 0, acc := .RW, rst := 0 }] }]

/-- Every register row. -/
def regRows : List RegRow :=
  regRows0 ++ regRows1 ++ regRows2 ++ regRows3 ++ regRows4 ++ regRows5 ++ regRows6 ++ regRows7 ++ regRows8 ++ regRows9 ++ regRows10

/-- CORE.ERR.RSVIDX. -/
def f_CORE_ERR_RSVIDX : Fld := ⟨.CORE_ERR, 13, 8⟩
/-- CORE.ERR.RSVW. -/
def f_CORE_ERR_RSVW : Fld := ⟨.CORE_ERR, 1, 1⟩
/-- CORE.ERR.RSVSR. -/
def f_CORE_ERR_RSVSR : Fld := ⟨.CORE_ERR, 0, 0⟩
/-- CORE.SPILLS.COUNT. -/
def f_CORE_SPILLS_COUNT : Fld := ⟨.CORE_SPILLS, 63, 0⟩
/-- CORE.FILLS.COUNT. -/
def f_CORE_FILLS_COUNT : Fld := ⟨.CORE_FILLS, 63, 0⟩
/-- CORE.HALTS.COUNT. -/
def f_CORE_HALTS_COUNT : Fld := ⟨.CORE_HALTS, 63, 0⟩
/-- CORE.HALTNS.TIME. -/
def f_CORE_HALTNS_TIME : Fld := ⟨.CORE_HALTNS, 63, 0⟩
/-- CORE.DVINFO.VALID. -/
def f_CORE_DVINFO_VALID : Fld := ⟨.CORE_DVINFO, 63, 63⟩
/-- CORE.DVINFO.GAP. -/
def f_CORE_DVINFO_GAP : Fld := ⟨.CORE_DVINFO, 51, 48⟩
/-- CORE.DVINFO.KIND. -/
def f_CORE_DVINFO_KIND : Fld := ⟨.CORE_DVINFO, 33, 32⟩
/-- CORE.DVINFO.PRODSYL. -/
def f_CORE_DVINFO_PRODSYL : Fld := ⟨.CORE_DVINFO, 15, 0⟩
/-- CORE.DVPSA.SA. -/
def f_CORE_DVPSA_SA : Fld := ⟨.CORE_DVPSA, 47, 0⟩
/-- CORE.DVCOUNT.COUNT. -/
def f_CORE_DVCOUNT_COUNT : Fld := ⟨.CORE_DVCOUNT, 63, 0⟩
/-- MCS.STAT.HOLD. -/
def f_MCS_STAT_HOLD : Fld := ⟨.MCS_STAT, 2, 2⟩
/-- MCS.STAT.CUST. -/
def f_MCS_STAT_CUST : Fld := ⟨.MCS_STAT, 1, 1⟩
/-- MCS.STAT.PATCH. -/
def f_MCS_STAT_PATCH : Fld := ⟨.MCS_STAT, 0, 0⟩
/-- MCS.CUPTR.MASK. -/
def f_MCS_CUPTR_MASK : Fld := ⟨.MCS_CUPTR, 15, 0⟩
/-- MCS.LDSTAT.BUSY. -/
def f_MCS_LDSTAT_BUSY : Fld := ⟨.MCS_LDSTAT, 63, 63⟩
/-- MCS.LDSTAT.CODE. -/
def f_MCS_LDSTAT_CODE : Fld := ⟨.MCS_LDSTAT, 59, 56⟩
/-- MCS.LDSTAT.OP. -/
def f_MCS_LDSTAT_OP : Fld := ⟨.MCS_LDSTAT, 49, 48⟩
/-- MCS.LDSTAT.AREA. -/
def f_MCS_LDSTAT_AREA : Fld := ⟨.MCS_LDSTAT, 31, 30⟩
/-- MCS.LDSTAT.ADDR. -/
def f_MCS_LDSTAT_ADDR : Fld := ⟨.MCS_LDSTAT, 13, 0⟩
/-- MCS.ERR.CORE. -/
def f_MCS_ERR_CORE : Fld := ⟨.MCS_ERR, 26, 24⟩
/-- MCS.ERR.MFCAUSE. -/
def f_MCS_ERR_MFCAUSE : Fld := ⟨.MCS_ERR, 11, 8⟩
/-- MCS.ERR.RSVW. -/
def f_MCS_ERR_RSVW : Fld := ⟨.MCS_ERR, 2, 2⟩
/-- MCS.ERR.WDOG. -/
def f_MCS_ERR_WDOG : Fld := ⟨.MCS_ERR, 1, 1⟩
/-- MCS.ERR.MFAULT. -/
def f_MCS_ERR_MFAULT : Fld := ⟨.MCS_ERR, 0, 0⟩
/-- MCS.MFCOUNT.COUNT. -/
def f_MCS_MFCOUNT_COUNT : Fld := ⟨.MCS_MFCOUNT, 63, 0⟩
/-- MCS.WDCOUNT.COUNT. -/
def f_MCS_WDCOUNT_COUNT : Fld := ⟨.MCS_WDCOUNT, 63, 0⟩
/-- MCS.RFCTL.RFNOW. -/
def f_MCS_RFCTL_RFNOW : Fld := ⟨.MCS_RFCTL, 63, 63⟩
/-- MCS.RFCTL.RFINT. -/
def f_MCS_RFCTL_RFINT : Fld := ⟨.MCS_RFCTL, 31, 0⟩
/-- MCS.RFFIX.COUNT. -/
def f_MCS_RFFIX_COUNT : Fld := ⟨.MCS_RFFIX, 63, 0⟩
/-- MCS.SRDA.AREA. -/
def f_MCS_SRDA_AREA : Fld := ⟨.MCS_SRDA, 31, 30⟩
/-- MCS.SRDA.BANK. -/
def f_MCS_SRDA_BANK : Fld := ⟨.MCS_SRDA, 29, 29⟩
/-- MCS.SRDA.ADDR. -/
def f_MCS_SRDA_ADDR : Fld := ⟨.MCS_SRDA, 13, 0⟩
/-- MCS.SRDD0.DATA. -/
def f_MCS_SRDD0_DATA : Fld := ⟨.MCS_SRDD0, 63, 0⟩
/-- MCS.SRDD1.DATA. -/
def f_MCS_SRDD1_DATA : Fld := ⟨.MCS_SRDD1, 63, 0⟩
/-- MCS.PATCH.EN. -/
def f_MCS_PATCH_EN : Fld := ⟨.MCS_PATCH, 63, 63⟩
/-- MCS.PATCH.ROMADDR. -/
def f_MCS_PATCH_ROMADDR : Fld := ⟨.MCS_PATCH, 45, 32⟩
/-- MCS.PATCH.TARGET. -/
def f_MCS_PATCH_TARGET : Fld := ⟨.MCS_PATCH, 13, 0⟩
/-- CORE.HALT.HALT. -/
def f_CORE_HALT_HALT : Fld := ⟨.CORE_HALT, 63, 63⟩
/-- CORE.HALT.W. -/
def f_CORE_HALT_W : Fld := ⟨.CORE_HALT, 16, 16⟩
/-- CORE.HALT.VECTOR. -/
def f_CORE_HALT_VECTOR : Fld := ⟨.CORE_HALT, 15, 8⟩
/-- CORE.HALT.SUBCODE. -/
def f_CORE_HALT_SUBCODE : Fld := ⟨.CORE_HALT, 7, 0⟩
/-- CORE.XSTAT.NMIACT. -/
def f_CORE_XSTAT_NMIACT : Fld := ⟨.CORE_XSTAT, 1, 1⟩
/-- CORE.XSTAT.DF. -/
def f_CORE_XSTAT_DF : Fld := ⟨.CORE_XSTAT, 0, 0⟩
/-- CORE.DBG.BSS. -/
def f_CORE_DBG_BSS : Fld := ⟨.CORE_DBG, 1, 1⟩
/-- CORE.DBG.HSS. -/
def f_CORE_DBG_HSS : Fld := ⟨.CORE_DBG, 0, 0⟩
/-- CORE.XCOUNT.COUNT. -/
def f_CORE_XCOUNT_COUNT : Fld := ⟨.CORE_XCOUNT, 63, 0⟩
/-- CORE.QCOUNT.COUNT. -/
def f_CORE_QCOUNT_COUNT : Fld := ⟨.CORE_QCOUNT, 63, 0⟩
/-- CUE.LCTL.T1W. -/
def f_CUE_LCTL_T1W : Fld := ⟨.CUE_LCTL, 3, 3⟩
/-- CUE.LCTL.T0W. -/
def f_CUE_LCTL_T0W : Fld := ⟨.CUE_LCTL, 2, 2⟩
/-- CUE.LCTL.T1EN. -/
def f_CUE_LCTL_T1EN : Fld := ⟨.CUE_LCTL, 1, 1⟩
/-- CUE.LCTL.T0EN. -/
def f_CUE_LCTL_T0EN : Fld := ⟨.CUE_LCTL, 0, 0⟩
/-- CUE.PEND.PEND. -/
def f_CUE_PEND_PEND : Fld := ⟨.CUE_PEND, 63, 0⟩
/-- CUE.SRC.EN. -/
def f_CUE_SRC_EN : Fld := ⟨.CUE_SRC, 63, 63⟩
/-- CUE.SRC.OWN. -/
def f_CUE_SRC_OWN : Fld := ⟨.CUE_SRC, 33, 33⟩
/-- CUE.SRC.W. -/
def f_CUE_SRC_W : Fld := ⟨.CUE_SRC, 32, 32⟩
/-- CUE.SRC.CORE. -/
def f_CUE_SRC_CORE : Fld := ⟨.CUE_SRC, 15, 8⟩
/-- CUE.SRC.VECTOR. -/
def f_CUE_SRC_VECTOR : Fld := ⟨.CUE_SRC, 7, 0⟩
/-- CUE.IPI.W. -/
def f_CUE_IPI_W : Fld := ⟨.CUE_IPI, 32, 32⟩
/-- CUE.IPI.CORE. -/
def f_CUE_IPI_CORE : Fld := ⟨.CUE_IPI, 15, 8⟩
/-- CUE.IPI.VECTOR. -/
def f_CUE_IPI_VECTOR : Fld := ⟨.CUE_IPI, 7, 0⟩
/-- CUE.NMI.CORE. -/
def f_CUE_NMI_CORE : Fld := ⟨.CUE_NMI, 7, 0⟩
/-- CUE.ERR.RSVW. -/
def f_CUE_ERR_RSVW : Fld := ⟨.CUE_ERR, 0, 0⟩
/-- CUE.DROPS.COUNT. -/
def f_CUE_DROPS_COUNT : Fld := ⟨.CUE_DROPS, 63, 0⟩
/-- CORE.DMISS.COUNT. -/
def f_CORE_DMISS_COUNT : Fld := ⟨.CORE_DMISS, 63, 0⟩
/-- CORE.IMISS.COUNT. -/
def f_CORE_IMISS_COUNT : Fld := ⟨.CORE_IMISS, 63, 0⟩
/-- CORE.S2FIA.V. -/
def f_CORE_S2FIA_V : Fld := ⟨.CORE_S2FIA, 63, 63⟩
/-- CORE.S2FIA.IA. -/
def f_CORE_S2FIA_IA : Fld := ⟨.CORE_S2FIA, 47, 0⟩
/-- CORE.TLBWKILL.COUNT. -/
def f_CORE_TLBWKILL_COUNT : Fld := ⟨.CORE_TLBWKILL, 63, 0⟩
/-- WALK.WALKS.COUNT. -/
def f_WALK_WALKS_COUNT : Fld := ⟨.WALK_WALKS, 63, 0⟩
/-- WALK.CTLBHIT.COUNT. -/
def f_WALK_CTLBHIT_COUNT : Fld := ⟨.WALK_CTLBHIT, 63, 0⟩
/-- WALK.WCHIT.COUNT. -/
def f_WALK_WCHIT_COUNT : Fld := ⟨.WALK_WCHIT, 63, 0⟩
/-- WALK.READS.COUNT. -/
def f_WALK_READS_COUNT : Fld := ⟨.WALK_READS, 63, 0⟩
/-- WALK.FAULTS.COUNT. -/
def f_WALK_FAULTS_COUNT : Fld := ⟨.WALK_FAULTS, 63, 0⟩
/-- WALK.INVRX.COUNT. -/
def f_WALK_INVRX_COUNT : Fld := ⟨.WALK_INVRX, 63, 0⟩
/-- WALK.KILLS.COUNT. -/
def f_WALK_KILLS_COUNT : Fld := ⟨.WALK_KILLS, 63, 0⟩
/-- CORE.FCERR.DTP. -/
def f_CORE_FCERR_DTP : Fld := ⟨.CORE_FCERR, 63, 63⟩
/-- CORE.FCERR.I. -/
def f_CORE_FCERR_I : Fld := ⟨.CORE_FCERR, 7, 7⟩
/-- CORE.FCERR.FRAME. -/
def f_CORE_FCERR_FRAME : Fld := ⟨.CORE_FCERR, 5, 0⟩
/-- CORE.FCTPAR.COUNT. -/
def f_CORE_FCTPAR_COUNT : Fld := ⟨.CORE_FCTPAR, 63, 0⟩
/-- CORE.FCCORR.COUNT. -/
def f_CORE_FCCORR_COUNT : Fld := ⟨.CORE_FCCORR, 63, 0⟩
/-- CORE.DFMISS.COUNT. -/
def f_CORE_DFMISS_COUNT : Fld := ⟨.CORE_DFMISS, 63, 0⟩
/-- CORE.IFMISS.COUNT. -/
def f_CORE_IFMISS_COUNT : Fld := ⟨.CORE_IFMISS, 63, 0⟩
/-- CORE.PFISSUE.COUNT. -/
def f_CORE_PFISSUE_COUNT : Fld := ⟨.CORE_PFISSUE, 63, 0⟩
/-- CORE.WINGS.BW. -/
def f_CORE_WINGS_BW : Fld := ⟨.CORE_WINGS, 63, 32⟩
/-- CORE.WINGS.LOCKED. -/
def f_CORE_WINGS_LOCKED : Fld := ⟨.CORE_WINGS, 31, 0⟩
/-- CC.CTL.FLUSH. -/
def f_CC_CTL_FLUSH : Fld := ⟨.CC_CTL, 17, 17⟩
/-- CC.CTL.EN. -/
def f_CC_CTL_EN : Fld := ⟨.CC_CTL, 16, 16⟩
/-- CC.CTL.WAYDIS. -/
def f_CC_CTL_WAYDIS : Fld := ⟨.CC_CTL, 15, 0⟩
/-- CC.ERR.TAGUE. -/
def f_CC_ERR_TAGUE : Fld := ⟨.CC_ERR, 63, 63⟩
/-- CC.ERR.WAY. -/
def f_CC_ERR_WAY : Fld := ⟨.CC_ERR, 47, 44⟩
/-- CC.ERR.SET. -/
def f_CC_ERR_SET : Fld := ⟨.CC_ERR, 43, 32⟩
/-- CC.ERR.RSVW. -/
def f_CC_ERR_RSVW : Fld := ⟨.CC_ERR, 0, 0⟩
/-- CC.CORR.COUNT. -/
def f_CC_CORR_COUNT : Fld := ⟨.CC_CORR, 63, 0⟩
/-- CC.HIT.COUNT. -/
def f_CC_HIT_COUNT : Fld := ⟨.CC_HIT, 63, 0⟩
/-- CC.MISS.COUNT. -/
def f_CC_MISS_COUNT : Fld := ⟨.CC_MISS, 63, 0⟩
/-- CC.WB.COUNT. -/
def f_CC_WB_COUNT : Fld := ⟨.CC_WB, 63, 0⟩
/-- MC.UREQ.COUNT. -/
def f_MC_UREQ_COUNT : Fld := ⟨.MC_UREQ, 63, 0⟩
/-- MC.UBACK.COUNT. -/
def f_MC_UBACK_COUNT : Fld := ⟨.MC_UBACK, 63, 0⟩
/-- HOST.UREQ.COUNT. -/
def f_HOST_UREQ_COUNT : Fld := ⟨.HOST_UREQ, 63, 0⟩
/-- HOST.UBACK.COUNT. -/
def f_HOST_UBACK_COUNT : Fld := ⟨.HOST_UBACK, 63, 0⟩
/-- HOST.USNOOP.COUNT. -/
def f_HOST_USNOOP_COUNT : Fld := ⟨.HOST_USNOOP, 63, 0⟩
/-- CORE.SCAGE.BEGIN. -/
def f_CORE_SCAGE_BEGIN : Fld := ⟨.CORE_SCAGE, 63, 0⟩
/-- CORE.SCFA.ADDR. -/
def f_CORE_SCFA_ADDR : Fld := ⟨.CORE_SCFA, 47, 0⟩
/-- CORE.SCLINE.V. -/
def f_CORE_SCLINE_V : Fld := ⟨.CORE_SCLINE, 63, 63⟩
/-- CORE.SCLINE.PA. -/
def f_CORE_SCLINE_PA : Fld := ⟨.CORE_SCLINE, 47, 0⟩
/-- CORE.SCCOMMIT.COUNT. -/
def f_CORE_SCCOMMIT_COUNT : Fld := ⟨.CORE_SCCOMMIT, 63, 0⟩
/-- CORE.SCABORT.COUNT. -/
def f_CORE_SCABORT_COUNT : Fld := ⟨.CORE_SCABORT, 63, 0⟩
/-- CORE.SCCONF.COUNT. -/
def f_CORE_SCCONF_COUNT : Fld := ⟨.CORE_SCCONF, 63, 0⟩
/-- CORE.SCDIST.COUNT. -/
def f_CORE_SCDIST_COUNT : Fld := ⟨.CORE_SCDIST, 63, 0⟩
/-- STH.ERR.STOP. -/
def f_STH_ERR_STOP : Fld := ⟨.STH_ERR, 63, 63⟩
/-- STH.ERR.RESUME. -/
def f_STH_ERR_RESUME : Fld := ⟨.STH_ERR, 62, 62⟩
/-- STH.ERR.CAUSE. -/
def f_STH_ERR_CAUSE : Fld := ⟨.STH_ERR, 51, 48⟩
/-- STH.ERR.VA. -/
def f_STH_ERR_VA : Fld := ⟨.STH_ERR, 47, 0⟩
/-- STH.MARKED.COUNT. -/
def f_STH_MARKED_COUNT : Fld := ⟨.STH_MARKED, 63, 0⟩
/-- STH.COPIED.COUNT. -/
def f_STH_COPIED_COUNT : Fld := ⟨.STH_COPIED, 63, 0⟩
/-- STH.FIXED.COUNT. -/
def f_STH_FIXED_COUNT : Fld := ⟨.STH_FIXED, 63, 0⟩
/-- STH.POISON.COUNT. -/
def f_STH_POISON_COUNT : Fld := ⟨.STH_POISON, 63, 0⟩
/-- STH.MQOVF.COUNT. -/
def f_STH_MQOVF_COUNT : Fld := ⟨.STH_MQOVF, 63, 0⟩
/-- COL.CTL.EN. -/
def f_COL_CTL_EN : Fld := ⟨.COL_CTL, 63, 63⟩
/-- COL.CTL.TENURE. -/
def f_COL_CTL_TENURE : Fld := ⟨.COL_CTL, 11, 8⟩
/-- COL.CTL.WSEND. -/
def f_COL_CTL_WSEND : Fld := ⟨.COL_CTL, 5, 0⟩
/-- COL.HEAPBASE.BASE. -/
def f_COL_HEAPBASE_BASE : Fld := ⟨.COL_HEAPBASE, 47, 18⟩
/-- COL.CTX.W. -/
def f_COL_CTX_W : Fld := ⟨.COL_CTX, 24, 24⟩
/-- COL.CTX.VMID. -/
def f_COL_CTX_VMID : Fld := ⟨.COL_CTX, 23, 16⟩
/-- COL.CTX.ASID. -/
def f_COL_CTX_ASID : Fld := ⟨.COL_CTX, 15, 0⟩
/-- COL.PHASE.CYCLE. -/
def f_COL_PHASE_CYCLE : Fld := ⟨.COL_PHASE, 63, 32⟩
/-- COL.PHASE.YOUNG. -/
def f_COL_PHASE_YOUNG : Fld := ⟨.COL_PHASE, 3, 3⟩
/-- COL.PHASE.PHASE. -/
def f_COL_PHASE_PHASE : Fld := ⟨.COL_PHASE, 2, 0⟩
/-- COL.CMD.COUNT. -/
def f_COL_CMD_COUNT : Fld := ⟨.COL_CMD, 19, 4⟩
/-- COL.CMD.OP. -/
def f_COL_CMD_OP : Fld := ⟨.COL_CMD, 3, 0⟩
/-- COL.STAT.BUSY. -/
def f_COL_STAT_BUSY : Fld := ⟨.COL_STAT, 63, 63⟩
/-- COL.STAT.BASEERR. -/
def f_COL_STAT_BASEERR : Fld := ⟨.COL_STAT, 4, 4⟩
/-- COL.STAT.CMDERR. -/
def f_COL_STAT_CMDERR : Fld := ⟨.COL_STAT, 3, 3⟩
/-- COL.STAT.RSETERR. -/
def f_COL_STAT_RSETERR : Fld := ⟨.COL_STAT, 2, 2⟩
/-- COL.STAT.ABRES. -/
def f_COL_STAT_ABRES : Fld := ⟨.COL_STAT, 1, 0⟩
/-- COL.RSET.TOP. -/
def f_COL_RSET_TOP : Fld := ⟨.COL_RSET, 44, 26⟩
/-- COL.RSET.STATE. -/
def f_COL_RSET_STATE : Fld := ⟨.COL_RSET, 18, 16⟩
/-- COL.RSET.REGION. -/
def f_COL_RSET_REGION : Fld := ⟨.COL_RSET, 15, 0⟩
/-- COL.ROOTQ.VA. -/
def f_COL_ROOTQ_VA : Fld := ⟨.COL_ROOTQ, 47, 0⟩
/-- COL.PACE.GRANTS. -/
def f_COL_PACE_GRANTS : Fld := ⟨.COL_PACE, 47, 32⟩
/-- COL.PACE.RESERVE. -/
def f_COL_PACE_RESERVE : Fld := ⟨.COL_PACE, 16, 0⟩
/-- COL.PACELIM.NS. -/
def f_COL_PACELIM_NS : Fld := ⟨.COL_PACELIM, 63, 0⟩
/-- COL.FREE.COUNT. -/
def f_COL_FREE_COUNT : Fld := ⟨.COL_FREE, 16, 0⟩
/-- COL.PACEWAIT.COUNT. -/
def f_COL_PACEWAIT_COUNT : Fld := ⟨.COL_PACEWAIT, 63, 0⟩
/-- COL.PACEFAIL.COUNT. -/
def f_COL_PACEFAIL_COUNT : Fld := ⟨.COL_PACEFAIL, 63, 0⟩
/-- COL.SATBHOLD.COUNT. -/
def f_COL_SATBHOLD_COUNT : Fld := ⟨.COL_SATBHOLD, 63, 0⟩
/-- COL.WRETBAD.COUNT. -/
def f_COL_WRETBAD_COUNT : Fld := ⟨.COL_WRETBAD, 63, 0⟩
/-- EXP.E0.V. -/
def f_EXP_E0_V : Fld := ⟨.EXP_E0, 63, 63⟩
/-- EXP.E0.IND. -/
def f_EXP_E0_IND : Fld := ⟨.EXP_E0, 62, 62⟩
/-- EXP.E0.GEN. -/
def f_EXP_E0_GEN : Fld := ⟨.EXP_E0, 55, 48⟩
/-- EXP.E0.OBJ. -/
def f_EXP_E0_OBJ : Fld := ⟨.EXP_E0, 47, 0⟩
/-- EXP.E1.OUT. -/
def f_EXP_E1_OUT : Fld := ⟨.EXP_E1, 63, 0⟩
/-- MATCH.CTL.EN. -/
def f_MATCH_CTL_EN : Fld := ⟨.MATCH_CTL, 0, 0⟩
/-- MATCH.REQ.COUNT. -/
def f_MATCH_REQ_COUNT : Fld := ⟨.MATCH_REQ, 63, 0⟩
/-- MATCH.STEPS.COUNT. -/
def f_MATCH_STEPS_COUNT : Fld := ⟨.MATCH_STEPS, 63, 0⟩
/-- MATCH.SUSP.COUNT. -/
def f_MATCH_SUSP_COUNT : Fld := ⟨.MATCH_SUSP, 63, 0⟩
/-- LOOK.CTL.EN. -/
def f_LOOK_CTL_EN : Fld := ⟨.LOOK_CTL, 0, 0⟩
/-- LOOK.REQ.COUNT. -/
def f_LOOK_REQ_COUNT : Fld := ⟨.LOOK_REQ, 63, 0⟩
/-- LOOK.PROBES.COUNT. -/
def f_LOOK_PROBES_COUNT : Fld := ⟨.LOOK_PROBES, 63, 0⟩
/-- LOOK.HASHSET.COUNT. -/
def f_LOOK_HASHSET_COUNT : Fld := ⟨.LOOK_HASHSET, 63, 0⟩
/-- TOUR.PCTL.RETRAIN. -/
def f_TOUR_PCTL_RETRAIN : Fld := ⟨.TOUR_PCTL, 63, 63⟩
/-- TOUR.PCTL.ARRIE. -/
def f_TOUR_PCTL_ARRIE : Fld := ⟨.TOUR_PCTL, 11, 11⟩
/-- TOUR.PCTL.SEAL. -/
def f_TOUR_PCTL_SEAL : Fld := ⟨.TOUR_PCTL, 10, 10⟩
/-- TOUR.PCTL.PAR. -/
def f_TOUR_PCTL_PAR : Fld := ⟨.TOUR_PCTL, 9, 9⟩
/-- TOUR.PCTL.DIR. -/
def f_TOUR_PCTL_DIR : Fld := ⟨.TOUR_PCTL, 8, 8⟩
/-- TOUR.PCTL.DIM. -/
def f_TOUR_PCTL_DIM : Fld := ⟨.TOUR_PCTL, 7, 6⟩
/-- TOUR.PCTL.EN. -/
def f_TOUR_PCTL_EN : Fld := ⟨.TOUR_PCTL, 0, 0⟩
/-- TOUR.PSTAT.CAUSE. -/
def f_TOUR_PSTAT_CAUSE : Fld := ⟨.TOUR_PSTAT, 43, 40⟩
/-- TOUR.PSTAT.NPORT. -/
def f_TOUR_PSTAT_NPORT : Fld := ⟨.TOUR_PSTAT, 39, 36⟩
/-- TOUR.PSTAT.NNODE. -/
def f_TOUR_PSTAT_NNODE : Fld := ⟨.TOUR_PSTAT, 29, 16⟩
/-- TOUR.PSTAT.SEALED. -/
def f_TOUR_PSTAT_SEALED : Fld := ⟨.TOUR_PSTAT, 5, 5⟩
/-- TOUR.PSTAT.W2. -/
def f_TOUR_PSTAT_W2 : Fld := ⟨.TOUR_PSTAT, 4, 4⟩
/-- TOUR.PSTAT.STATE. -/
def f_TOUR_PSTAT_STATE : Fld := ⟨.TOUR_PSTAT, 2, 0⟩
/-- TOUR.CRC.COUNT. -/
def f_TOUR_CRC_COUNT : Fld := ⟨.TOUR_CRC, 63, 0⟩
/-- TOUR.DOWNS.COUNT. -/
def f_TOUR_DOWNS_COUNT : Fld := ⟨.TOUR_DOWNS, 63, 0⟩
/-- TOUR.CRWAIT.COUNT. -/
def f_TOUR_CRWAIT_COUNT : Fld := ⟨.TOUR_CRWAIT, 63, 0⟩
/-- TOUR.NODE.NODE. -/
def f_TOUR_NODE_NODE : Fld := ⟨.TOUR_NODE, 13, 0⟩
/-- TOUR.TOPO.TORUS. -/
def f_TOUR_TOPO_TORUS : Fld := ⟨.TOUR_TOPO, 26, 24⟩
/-- TOUR.TOPO.SZ. -/
def f_TOUR_TOPO_SZ : Fld := ⟨.TOUR_TOPO, 23, 16⟩
/-- TOUR.TOPO.SY. -/
def f_TOUR_TOPO_SY : Fld := ⟨.TOUR_TOPO, 15, 8⟩
/-- TOUR.TOPO.SX. -/
def f_TOUR_TOPO_SX : Fld := ⟨.TOUR_TOPO, 7, 0⟩
/-- TOUR.INQB.SIZE. -/
def f_TOUR_INQB_SIZE : Fld := ⟨.TOUR_INQB, 55, 52⟩
/-- TOUR.INQB.BASE. -/
def f_TOUR_INQB_BASE : Fld := ⟨.TOUR_INQB, 47, 0⟩
/-- TOUR.INQH.INDEX. -/
def f_TOUR_INQH_INDEX : Fld := ⟨.TOUR_INQH, 31, 0⟩
/-- TOUR.INQT.INDEX. -/
def f_TOUR_INQT_INDEX : Fld := ⟨.TOUR_INQT, 31, 0⟩
/-- TOUR.RTMO.NS. -/
def f_TOUR_RTMO_NS : Fld := ⟨.TOUR_RTMO, 63, 0⟩
/-- TOUR.TSYNC.ALIGNED. -/
def f_TOUR_TSYNC_ALIGNED : Fld := ⟨.TOUR_TSYNC, 63, 63⟩
/-- TOUR.TSYNC.PARENT. -/
def f_TOUR_TSYNC_PARENT : Fld := ⟨.TOUR_TSYNC, 51, 48⟩
/-- TOUR.TSYNC.OFFSET. -/
def f_TOUR_TSYNC_OFFSET : Fld := ⟨.TOUR_TSYNC, 47, 32⟩
/-- TOUR.TSYNC.MASTER. -/
def f_TOUR_TSYNC_MASTER : Fld := ⟨.TOUR_TSYNC, 13, 0⟩
/-- TOUR.SCRES.COMMIT. -/
def f_TOUR_SCRES_COMMIT : Fld := ⟨.TOUR_SCRES, 7, 7⟩
/-- TOUR.SCRES.SLOT. -/
def f_TOUR_SCRES_SLOT : Fld := ⟨.TOUR_SCRES, 5, 0⟩
/-- TOUR.OUTHOLD.COUNT. -/
def f_TOUR_OUTHOLD_COUNT : Fld := ⟨.TOUR_OUTHOLD, 63, 0⟩
/-- TOUR.INQHOLD.COUNT. -/
def f_TOUR_INQHOLD_COUNT : Fld := ⟨.TOUR_INQHOLD, 63, 0⟩
/-- TOUR.UNDELIV.COUNT. -/
def f_TOUR_UNDELIV_COUNT : Fld := ⟨.TOUR_UNDELIV, 63, 0⟩
/-- TOUR.NOROUTE.COUNT. -/
def f_TOUR_NOROUTE_COUNT : Fld := ⟨.TOUR_NOROUTE, 63, 0⟩
/-- TOUR.RT.V. -/
def f_TOUR_RT_V : Fld := ⟨.TOUR_RT, 63, 63⟩
/-- TOUR.RT.ALTV. -/
def f_TOUR_RT_ALTV : Fld := ⟨.TOUR_RT, 11, 11⟩
/-- TOUR.RT.ADL. -/
def f_TOUR_RT_ADL : Fld := ⟨.TOUR_RT, 10, 10⟩
/-- TOUR.RT.PDL. -/
def f_TOUR_RT_PDL : Fld := ⟨.TOUR_RT, 9, 9⟩
/-- TOUR.RT.ALT. -/
def f_TOUR_RT_ALT : Fld := ⟨.TOUR_RT, 7, 4⟩
/-- TOUR.RT.PORT. -/
def f_TOUR_RT_PORT : Fld := ⟨.TOUR_RT, 3, 0⟩
/-- HOST.CTL.MBIV. -/
def f_HOST_CTL_MBIV : Fld := ⟨.HOST_CTL, 13, 8⟩
/-- HOST.CTL.VIRAL. -/
def f_HOST_CTL_VIRAL : Fld := ⟨.HOST_CTL, 4, 4⟩
/-- HOST.CTL.MBAUTH. -/
def f_HOST_CTL_MBAUTH : Fld := ⟨.HOST_CTL, 2, 2⟩
/-- HOST.CTL.TAGWR. -/
def f_HOST_CTL_TAGWR : Fld := ⟨.HOST_CTL, 1, 1⟩
/-- HOST.CTL.DPRESERVE. -/
def f_HOST_CTL_DPRESERVE : Fld := ⟨.HOST_CTL, 0, 0⟩
/-- HOST.LINK.IDECM. -/
def f_HOST_LINK_IDECM : Fld := ⟨.HOST_LINK, 13, 13⟩
/-- HOST.LINK.IDEIO. -/
def f_HOST_LINK_IDEIO : Fld := ⟨.HOST_LINK, 12, 12⟩
/-- HOST.LINK.UP. -/
def f_HOST_LINK_UP : Fld := ⟨.HOST_LINK, 11, 11⟩
/-- HOST.LINK.CXL. -/
def f_HOST_LINK_CXL : Fld := ⟨.HOST_LINK, 10, 10⟩
/-- HOST.LINK.SPEED. -/
def f_HOST_LINK_SPEED : Fld := ⟨.HOST_LINK, 9, 8⟩
/-- HOST.LINK.WIDTH. -/
def f_HOST_LINK_WIDTH : Fld := ⟨.HOST_LINK, 4, 0⟩
/-- HOST.ERR.BIASBUSY. -/
def f_HOST_ERR_BIASBUSY : Fld := ⟨.HOST_ERR, 6, 6⟩
/-- HOST.ERR.CQOVR. -/
def f_HOST_ERR_CQOVR : Fld := ⟨.HOST_ERR, 5, 5⟩
/-- HOST.ERR.DBREJ. -/
def f_HOST_ERR_DBREJ : Fld := ⟨.HOST_ERR, 4, 4⟩
/-- HOST.ERR.UNCORR. -/
def f_HOST_ERR_UNCORR : Fld := ⟨.HOST_ERR, 3, 3⟩
/-- HOST.ERR.VIRALIN. -/
def f_HOST_ERR_VIRALIN : Fld := ⟨.HOST_ERR, 2, 2⟩
/-- HOST.ERR.LINKDOWN. -/
def f_HOST_ERR_LINKDOWN : Fld := ⟨.HOST_ERR, 1, 1⟩
/-- HOST.ERR.RSVW. -/
def f_HOST_ERR_RSVW : Fld := ⟨.HOST_ERR, 0, 0⟩
/-- HOST.CACHEBASE.BASE. -/
def f_HOST_CACHEBASE_BASE : Fld := ⟨.HOST_CACHEBASE, 63, 0⟩
/-- HOST.MMIOBASE.BASE. -/
def f_HOST_MMIOBASE_BASE : Fld := ⟨.HOST_MMIOBASE, 63, 0⟩
/-- HOST.BIASCMD.BUSY. -/
def f_HOST_BIASCMD_BUSY : Fld := ⟨.HOST_BIASCMD, 63, 63⟩
/-- HOST.BIASCMD.ABORT. -/
def f_HOST_BIASCMD_ABORT : Fld := ⟨.HOST_BIASCMD, 62, 62⟩
/-- HOST.BIASCMD.STATUS. -/
def f_HOST_BIASCMD_STATUS : Fld := ⟨.HOST_BIASCMD, 61, 60⟩
/-- HOST.BIASCMD.DEV. -/
def f_HOST_BIASCMD_DEV : Fld := ⟨.HOST_BIASCMD, 59, 59⟩
/-- HOST.BIASCMD.COUNT. -/
def f_HOST_BIASCMD_COUNT : Fld := ⟨.HOST_BIASCMD, 55, 40⟩
/-- HOST.BIASCMD.PAGE. -/
def f_HOST_BIASCMD_PAGE : Fld := ⟨.HOST_BIASCMD, 24, 0⟩
/-- HOST.PWIN.EN. -/
def f_HOST_PWIN_EN : Fld := ⟨.HOST_PWIN, 63, 63⟩
/-- HOST.PWIN.RO. -/
def f_HOST_PWIN_RO : Fld := ⟨.HOST_PWIN, 62, 62⟩
/-- HOST.PWIN.IOBASE. -/
def f_HOST_PWIN_IOBASE : Fld := ⟨.HOST_PWIN, 31, 0⟩
/-- HOST.SQCFG.EN. -/
def f_HOST_SQCFG_EN : Fld := ⟨.HOST_SQCFG, 63, 63⟩
/-- HOST.SQCFG.IE. -/
def f_HOST_SQCFG_IE : Fld := ⟨.HOST_SQCFG, 62, 62⟩
/-- HOST.SQCFG.IV. -/
def f_HOST_SQCFG_IV : Fld := ⟨.HOST_SQCFG, 61, 56⟩
/-- HOST.SQCFG.SZ. -/
def f_HOST_SQCFG_SZ : Fld := ⟨.HOST_SQCFG, 51, 48⟩
/-- HOST.SQCFG.BASE. -/
def f_HOST_SQCFG_BASE : Fld := ⟨.HOST_SQCFG, 47, 0⟩
/-- HOST.CQCFG.EN. -/
def f_HOST_CQCFG_EN : Fld := ⟨.HOST_CQCFG, 63, 63⟩
/-- HOST.CQCFG.IE. -/
def f_HOST_CQCFG_IE : Fld := ⟨.HOST_CQCFG, 62, 62⟩
/-- HOST.CQCFG.IV. -/
def f_HOST_CQCFG_IV : Fld := ⟨.HOST_CQCFG, 61, 56⟩
/-- HOST.CQCFG.SZ. -/
def f_HOST_CQCFG_SZ : Fld := ⟨.HOST_CQCFG, 51, 48⟩
/-- HOST.CQCFG.BASE. -/
def f_HOST_CQCFG_BASE : Fld := ⟨.HOST_CQCFG, 47, 0⟩
/-- HOST.SQT.INDEX. -/
def f_HOST_SQT_INDEX : Fld := ⟨.HOST_SQT, 15, 0⟩
/-- HOST.SQH.INDEX. -/
def f_HOST_SQH_INDEX : Fld := ⟨.HOST_SQH, 15, 0⟩
/-- HOST.CQT.INDEX. -/
def f_HOST_CQT_INDEX : Fld := ⟨.HOST_CQT, 15, 0⟩
/-- HOST.CQH.INDEX. -/
def f_HOST_CQH_INDEX : Fld := ⟨.HOST_CQH, 15, 0⟩
/-- HOST.DBREJ.COUNT. -/
def f_HOST_DBREJ_COUNT : Fld := ⟨.HOST_DBREJ, 63, 0⟩
/-- HOST.TAGWRDROP.COUNT. -/
def f_HOST_TAGWRDROP_COUNT : Fld := ⟨.HOST_TAGWRDROP, 63, 0⟩
/-- HOST.PWREF.COUNT. -/
def f_HOST_PWREF_COUNT : Fld := ⟨.HOST_PWREF, 63, 0⟩
/-- HOST.CORR.COUNT. -/
def f_HOST_CORR_COUNT : Fld := ⟨.HOST_CORR, 63, 0⟩
/-- HOST.UNCORR.COUNT. -/
def f_HOST_UNCORR_COUNT : Fld := ⟨.HOST_UNCORR, 63, 0⟩
/-- HOST.LOSTWB.COUNT. -/
def f_HOST_LOSTWB_COUNT : Fld := ⟨.HOST_LOSTWB, 63, 0⟩
/-- HOST.CRWAIT.COUNT. -/
def f_HOST_CRWAIT_COUNT : Fld := ⟨.HOST_CRWAIT, 63, 0⟩
/-- HOST.OUTHOLD.COUNT. -/
def f_HOST_OUTHOLD_COUNT : Fld := ⟨.HOST_OUTHOLD, 63, 0⟩
/-- MC.CTL.UEMC. -/
def f_MC_CTL_UEMC : Fld := ⟨.MC_CTL, 32, 32⟩
/-- MC.CTL.CETHR. -/
def f_MC_CTL_CETHR : Fld := ⟨.MC_CTL, 31, 0⟩
/-- MC.STAT.TEMP. -/
def f_MC_STAT_TEMP : Fld := ⟨.MC_STAT, 9, 2⟩
/-- MC.STAT.SCRLATE. -/
def f_MC_STAT_SCRLATE : Fld := ⟨.MC_STAT, 1, 1⟩
/-- MC.STAT.SREF. -/
def f_MC_STAT_SREF : Fld := ⟨.MC_STAT, 0, 0⟩
/-- MC.SCRUB.PERIOD. -/
def f_MC_SCRUB_PERIOD : Fld := ⟨.MC_SCRUB, 15, 0⟩
/-- MC.CAL.INT. -/
def f_MC_CAL_INT : Fld := ⟨.MC_CAL, 31, 0⟩
/-- MC.CALCMD.STATUS. -/
def f_MC_CALCMD_STATUS : Fld := ⟨.MC_CALCMD, 5, 4⟩
/-- MC.CALCMD.CHAN. -/
def f_MC_CALCMD_CHAN : Fld := ⟨.MC_CALCMD, 3, 0⟩
/-- MC.ERRLOG.V. -/
def f_MC_ERRLOG_V : Fld := ⟨.MC_ERRLOG, 63, 63⟩
/-- MC.ERRLOG.SCRUB. -/
def f_MC_ERRLOG_SCRUB : Fld := ⟨.MC_ERRLOG, 62, 62⟩
/-- MC.ERRLOG.RECOV. -/
def f_MC_ERRLOG_RECOV : Fld := ⟨.MC_ERRLOG, 61, 61⟩
/-- MC.ERRLOG.SHADOW. -/
def f_MC_ERRLOG_SHADOW : Fld := ⟨.MC_ERRLOG, 60, 60⟩
/-- MC.ERRLOG.CHAN. -/
def f_MC_ERRLOG_CHAN : Fld := ⟨.MC_ERRLOG, 55, 52⟩
/-- MC.ERRLOG.PA. -/
def f_MC_ERRLOG_PA : Fld := ⟨.MC_ERRLOG, 47, 0⟩
/-- MC.CE.COUNT. -/
def f_MC_CE_COUNT : Fld := ⟨.MC_CE, 63, 0⟩
/-- MC.UE.COUNT. -/
def f_MC_UE_COUNT : Fld := ⟨.MC_UE, 63, 0⟩
/-- MC.SCRUBUE.COUNT. -/
def f_MC_SCRUBUE_COUNT : Fld := ⟨.MC_SCRUBUE, 63, 0⟩
/-- MC.CAPAR.COUNT. -/
def f_MC_CAPAR_COUNT : Fld := ⟨.MC_CAPAR, 63, 0⟩
/-- MC.SHHIT.COUNT. -/
def f_MC_SHHIT_COUNT : Fld := ⟨.MC_SHHIT, 63, 0⟩
/-- MC.SHMISS.COUNT. -/
def f_MC_SHMISS_COUNT : Fld := ⟨.MC_SHMISS, 63, 0⟩
/-- MC.CALHOLD.COUNT. -/
def f_MC_CALHOLD_COUNT : Fld := ⟨.MC_CALHOLD, 63, 0⟩
/-- MC.HOLD.COUNT. -/
def f_MC_HOLD_COUNT : Fld := ⟨.MC_HOLD, 63, 0⟩
/-- DEV.ID.PART. -/
def f_DEV_ID_PART : Fld := ⟨.DEV_ID, 63, 48⟩
/-- DEV.ID.STEP. -/
def f_DEV_ID_STEP : Fld := ⟨.DEV_ID, 47, 40⟩
/-- DEV.CLEN.MASK. -/
def f_DEV_CLEN_MASK : Fld := ⟨.DEV_CLEN, 31, 0⟩
/-- DEV.PORTEN.MASK. -/
def f_DEV_PORTEN_MASK : Fld := ⟨.DEV_PORTEN, 11, 0⟩
/-- DEV.MODE.MODES. -/
def f_DEV_MODE_MODES : Fld := ⟨.DEV_MODE, 7, 0⟩
/-- DEV.MODESTAT.BUSY. -/
def f_DEV_MODESTAT_BUSY : Fld := ⟨.DEV_MODESTAT, 63, 63⟩
/-- DEV.MODESTAT.CODE. -/
def f_DEV_MODESTAT_CODE : Fld := ⟨.DEV_MODESTAT, 3, 0⟩
/-- DEV.EVAL.UNSEAL. -/
def f_DEV_EVAL_UNSEAL : Fld := ⟨.DEV_EVAL, 4, 4⟩
/-- DEV.EVAL.HOSTTAG. -/
def f_DEV_EVAL_HOSTTAG : Fld := ⟨.DEV_EVAL, 3, 3⟩
/-- DEV.EVAL.DEBUG. -/
def f_DEV_EVAL_DEBUG : Fld := ⟨.DEV_EVAL, 2, 2⟩
/-- DEV.EVAL.MCODE. -/
def f_DEV_EVAL_MCODE : Fld := ⟨.DEV_EVAL, 1, 1⟩
/-- DEV.EVAL.EVAL. -/
def f_DEV_EVAL_EVAL : Fld := ⟨.DEV_EVAL, 0, 0⟩
/-- DEV.STCFG.DEADLINE. -/
def f_DEV_STCFG_DEADLINE : Fld := ⟨.DEV_STCFG, 63, 32⟩
/-- DEV.STCFG.ROTINT. -/
def f_DEV_STCFG_ROTINT : Fld := ⟨.DEV_STCFG, 31, 0⟩
/-- DEV.STREQ.ABORT. -/
def f_DEV_STREQ_ABORT : Fld := ⟨.DEV_STREQ, 63, 63⟩
/-- DEV.STREQ.CLASS. -/
def f_DEV_STREQ_CLASS : Fld := ⟨.DEV_STREQ, 15, 12⟩
/-- DEV.STREQ.INDEX. -/
def f_DEV_STREQ_INDEX : Fld := ⟨.DEV_STREQ, 11, 0⟩
/-- DEV.STRES.PEND. -/
def f_DEV_STRES_PEND : Fld := ⟨.DEV_STRES, 63, 63⟩
/-- DEV.STRES.CODE. -/
def f_DEV_STRES_CODE : Fld := ⟨.DEV_STRES, 58, 56⟩
/-- DEV.STRES.UNIT. -/
def f_DEV_STRES_UNIT : Fld := ⟨.DEV_STRES, 15, 0⟩
/-- DEV.STNOTRUN.COUNT. -/
def f_DEV_STNOTRUN_COUNT : Fld := ⟨.DEV_STNOTRUN, 63, 0⟩
/-- DEV.ERR.STBUSY. -/
def f_DEV_ERR_STBUSY : Fld := ⟨.DEV_ERR, 1, 1⟩
/-- DEV.ERR.RSVW. -/
def f_DEV_ERR_RSVW : Fld := ⟨.DEV_ERR, 0, 0⟩
/-- CLU.MODE.DEVHALT. -/
def f_CLU_MODE_DEVHALT : Fld := ⟨.CLU_MODE, 8, 8⟩
/-- CLU.MODE.ECONOMY. -/
def f_CLU_MODE_ECONOMY : Fld := ⟨.CLU_MODE, 7, 6⟩
/-- CLU.MODE.TRACE. -/
def f_CLU_MODE_TRACE : Fld := ⟨.CLU_MODE, 5, 4⟩
/-- CLU.MODE.STRICT. -/
def f_CLU_MODE_STRICT : Fld := ⟨.CLU_MODE, 3, 2⟩
/-- CLU.MODE.LOCKSTEP. -/
def f_CLU_MODE_LOCKSTEP : Fld := ⟨.CLU_MODE, 1, 0⟩
/-- CLU.STAT.RSVW. -/
def f_CLU_STAT_RSVW : Fld := ⟨.CLU_STAT, 63, 63⟩
/-- CLU.STAT.ECONOMY. -/
def f_CLU_STAT_ECONOMY : Fld := ⟨.CLU_STAT, 3, 3⟩
/-- CLU.STAT.TRACE. -/
def f_CLU_STAT_TRACE : Fld := ⟨.CLU_STAT, 2, 2⟩
/-- CLU.STAT.STRICT. -/
def f_CLU_STAT_STRICT : Fld := ⟨.CLU_STAT, 1, 1⟩
/-- CLU.STAT.LOCKSTEP. -/
def f_CLU_STAT_LOCKSTEP : Fld := ⟨.CLU_STAT, 0, 0⟩
/-- CLU.LSSTAT.V. -/
def f_CLU_LSSTAT_V : Fld := ⟨.CLU_LSSTAT, 63, 63⟩
/-- CLU.LSSTAT.PAIR. -/
def f_CLU_LSSTAT_PAIR : Fld := ⟨.CLU_LSSTAT, 49, 48⟩
/-- CLU.LSSTAT.SA. -/
def f_CLU_LSSTAT_SA : Fld := ⟨.CLU_LSSTAT, 47, 0⟩
/-- CLU.LSTIME.TIME. -/
def f_CLU_LSTIME_TIME : Fld := ⟨.CLU_LSTIME, 63, 0⟩
/-- CLU.LSDIV.COUNT. -/
def f_CLU_LSDIV_COUNT : Fld := ⟨.CLU_LSDIV, 63, 0⟩
/-- REH.CTL.ABORT. -/
def f_REH_CTL_ABORT : Fld := ⟨.REH_CTL, 63, 63⟩
/-- REH.CTL.SNAP. -/
def f_REH_CTL_SNAP : Fld := ⟨.REH_CTL, 3, 3⟩
/-- REH.CTL.DRAIN. -/
def f_REH_CTL_DRAIN : Fld := ⟨.REH_CTL, 2, 1⟩
/-- REH.CTL.OVF. -/
def f_REH_CTL_OVF : Fld := ⟨.REH_CTL, 0, 0⟩
/-- REH.STAT.ACTIVE. -/
def f_REH_STAT_ACTIVE : Fld := ⟨.REH_STAT, 63, 63⟩
/-- REH.STAT.STOPPED. -/
def f_REH_STAT_STOPPED : Fld := ⟨.REH_STAT, 62, 62⟩
/-- REH.STAT.SNAPHOLD. -/
def f_REH_STAT_SNAPHOLD : Fld := ⟨.REH_STAT, 61, 61⟩
/-- REH.STAT.ABRES. -/
def f_REH_STAT_ABRES : Fld := ⟨.REH_STAT, 57, 56⟩
/-- REH.STAT.SEQ. -/
def f_REH_STAT_SEQ : Fld := ⟨.REH_STAT, 39, 0⟩
/-- REH.RING.SIZE. -/
def f_REH_RING_SIZE : Fld := ⟨.REH_RING, 61, 48⟩
/-- REH.RING.BASE. -/
def f_REH_RING_BASE : Fld := ⟨.REH_RING, 47, 0⟩
/-- REH.TRING.SIZE. -/
def f_REH_TRING_SIZE : Fld := ⟨.REH_TRING, 61, 48⟩
/-- REH.TRING.BASE. -/
def f_REH_TRING_BASE : Fld := ⟨.REH_TRING, 47, 0⟩
/-- REH.RHEAD.INDEX. -/
def f_REH_RHEAD_INDEX : Fld := ⟨.REH_RHEAD, 31, 0⟩
/-- REH.RTAIL.INDEX. -/
def f_REH_RTAIL_INDEX : Fld := ⟨.REH_RTAIL, 31, 0⟩
/-- REH.HHEAD.INDEX. -/
def f_REH_HHEAD_INDEX : Fld := ⟨.REH_HHEAD, 31, 0⟩
/-- REH.HTAIL.INDEX. -/
def f_REH_HTAIL_INDEX : Fld := ⟨.REH_HTAIL, 31, 0⟩
/-- REH.HBUF.BASE. -/
def f_REH_HBUF_BASE : Fld := ⟨.REH_HBUF, 63, 12⟩
/-- REH.SNAP.BASE. -/
def f_REH_SNAP_BASE : Fld := ⟨.REH_SNAP, 63, 12⟩
/-- REH.HBSIZE.SIZE. -/
def f_REH_HBSIZE_SIZE : Fld := ⟨.REH_HBSIZE, 31, 0⟩
/-- REH.HASHINT.CHUNKS. -/
def f_REH_HASHINT_CHUNKS : Fld := ⟨.REH_HASHINT, 15, 0⟩
/-- REH.MARK.VALUE. -/
def f_REH_MARK_VALUE : Fld := ⟨.REH_MARK, 63, 0⟩
/-- REH.RPCTL.ABORT. -/
def f_REH_RPCTL_ABORT : Fld := ⟨.REH_RPCTL, 63, 63⟩
/-- REH.RPCTL.RESUME. -/
def f_REH_RPCTL_RESUME : Fld := ⟨.REH_RPCTL, 62, 62⟩
/-- REH.RPCTL.PREP. -/
def f_REH_RPCTL_PREP : Fld := ⟨.REH_RPCTL, 61, 61⟩
/-- REH.RPCTL.RESTORE. -/
def f_REH_RPCTL_RESTORE : Fld := ⟨.REH_RPCTL, 60, 60⟩
/-- REH.RPCTL.STOPSEQ. -/
def f_REH_RPCTL_STOPSEQ : Fld := ⟨.REH_RPCTL, 39, 0⟩
/-- REH.RPSTAT.CODE. -/
def f_REH_RPSTAT_CODE : Fld := ⟨.REH_RPSTAT, 63, 60⟩
/-- REH.RPSTAT.CAUSE. -/
def f_REH_RPSTAT_CAUSE : Fld := ⟨.REH_RPSTAT, 59, 56⟩
/-- REH.RPSTAT.AGENT. -/
def f_REH_RPSTAT_AGENT : Fld := ⟨.REH_RPSTAT, 55, 47⟩
/-- REH.RPSTAT.SEQ. -/
def f_REH_RPSTAT_SEQ : Fld := ⟨.REH_RPSTAT, 39, 0⟩
/-- REH.TCTL.FROZEN. -/
def f_REH_TCTL_FROZEN : Fld := ⟨.REH_TCTL, 63, 63⟩
/-- REH.TCTL.TRIG. -/
def f_REH_TCTL_TRIG : Fld := ⟨.REH_TCTL, 11, 8⟩
/-- REH.TCTL.STREAM. -/
def f_REH_TCTL_STREAM : Fld := ⟨.REH_TCTL, 2, 2⟩
/-- REH.TCTL.EEN. -/
def f_REH_TCTL_EEN : Fld := ⟨.REH_TCTL, 1, 1⟩
/-- REH.TPTR.STREAM. -/
def f_REH_TPTR_STREAM : Fld := ⟨.REH_TPTR, 63, 32⟩
/-- REH.TPTR.ETB. -/
def f_REH_TPTR_ETB : Fld := ⟨.REH_TPTR, 28, 16⟩
/-- REH.TPTR.ITB. -/
def f_REH_TPTR_ITB : Fld := ⟨.REH_TPTR, 12, 0⟩
/-- REH.ITB.DATA. -/
def f_REH_ITB_DATA : Fld := ⟨.REH_ITB, 63, 0⟩
/-- REH.ETB.DATA. -/
def f_REH_ETB_DATA : Fld := ⟨.REH_ETB, 63, 0⟩
/-- REH.RECORDS.COUNT. -/
def f_REH_RECORDS_COUNT : Fld := ⟨.REH_RECORDS, 63, 0⟩
/-- REH.STALLNS.COUNT. -/
def f_REH_STALLNS_COUNT : Fld := ⟨.REH_STALLNS, 63, 0⟩
/-- REH.GAPS.COUNT. -/
def f_REH_GAPS_COUNT : Fld := ⟨.REH_GAPS, 63, 0⟩
/-- REH.TRUNC.COUNT. -/
def f_REH_TRUNC_COUNT : Fld := ⟨.REH_TRUNC, 63, 0⟩
/-- REH.LIVEDROP.COUNT. -/
def f_REH_LIVEDROP_COUNT : Fld := ⟨.REH_LIVEDROP, 63, 0⟩
/-- REH.TLOSS.COUNT. -/
def f_REH_TLOSS_COUNT : Fld := ⟨.REH_TLOSS, 63, 0⟩
/-- CORE.RET.COUNT. -/
def f_CORE_RET_COUNT : Fld := ⟨.CORE_RET, 63, 0⟩
/-- CORE.CYC.COUNT. -/
def f_CORE_CYC_COUNT : Fld := ⟨.CORE_CYC, 63, 0⟩
/-- CORE.FRZ.COUNT. -/
def f_CORE_FRZ_COUNT : Fld := ⟨.CORE_FRZ, 63, 0⟩
/-- CORE.CHUNKS.COUNT. -/
def f_CORE_CHUNKS_COUNT : Fld := ⟨.CORE_CHUNKS, 63, 0⟩
/-- CLK.CTL.LRACT. -/
def f_CLK_CTL_LRACT : Fld := ⟨.CLK_CTL, 8, 8⟩
/-- CLK.CTL.AUTOCG. -/
def f_CLK_CTL_AUTOCG : Fld := ⟨.CLK_CTL, 0, 0⟩
/-- CLK.STAT.LOSTREF. -/
def f_CLK_STAT_LOSTREF : Fld := ⟨.CLK_STAT, 63, 63⟩
/-- CLK.STAT.FALLBACK. -/
def f_CLK_STAT_FALLBACK : Fld := ⟨.CLK_STAT, 62, 62⟩
/-- CLK.STAT.ON32. -/
def f_CLK_STAT_ON32 : Fld := ⟨.CLK_STAT, 61, 61⟩
/-- CLK.STAT.NO32. -/
def f_CLK_STAT_NO32 : Fld := ⟨.CLK_STAT, 60, 60⟩
/-- CLK.STAT.CAUSE. -/
def f_CLK_STAT_CAUSE : Fld := ⟨.CLK_STAT, 43, 40⟩
/-- CLK.STAT.PLLLOST. -/
def f_CLK_STAT_PLLLOST : Fld := ⟨.CLK_STAT, 8, 0⟩
/-- CLK.GATE_TMO.CYCLES. -/
def f_CLK_GATE_TMO_CYCLES : Fld := ⟨.CLK_GATE_TMO, 15, 0⟩
/-- CLK.GREQ.OP. -/
def f_CLK_GREQ_OP : Fld := ⟨.CLK_GREQ, 20, 20⟩
/-- CLK.GREQ.CLASS. -/
def f_CLK_GREQ_CLASS : Fld := ⟨.CLK_GREQ, 19, 16⟩
/-- CLK.GREQ.INDEX. -/
def f_CLK_GREQ_INDEX : Fld := ⟨.CLK_GREQ, 11, 0⟩
/-- CLK.GSTAT.PEND. -/
def f_CLK_GSTAT_PEND : Fld := ⟨.CLK_GSTAT, 63, 63⟩
/-- CLK.GSTAT.CODE. -/
def f_CLK_GSTAT_CODE : Fld := ⟨.CLK_GSTAT, 58, 56⟩
/-- CLK.GSTAT.UNIT. -/
def f_CLK_GSTAT_UNIT : Fld := ⟨.CLK_GSTAT, 20, 0⟩
/-- CLK.TPLL.BUSY. -/
def f_CLK_TPLL_BUSY : Fld := ⟨.CLK_TPLL, 63, 63⟩
/-- CLK.TPLL.EFFMHZ. -/
def f_CLK_TPLL_EFFMHZ : Fld := ⟨.CLK_TPLL, 43, 32⟩
/-- CLK.TPLL.CCHMHZ. -/
def f_CLK_TPLL_CCHMHZ : Fld := ⟨.CLK_TPLL, 27, 16⟩
/-- CLK.TPLL.COREMHZ. -/
def f_CLK_TPLL_COREMHZ : Fld := ⟨.CLK_TPLL, 11, 0⟩
/-- PWR.CMD.ABORT. -/
def f_PWR_CMD_ABORT : Fld := ⟨.PWR_CMD, 63, 63⟩
/-- PWR.CMD.OP. -/
def f_PWR_CMD_OP : Fld := ⟨.PWR_CMD, 3, 0⟩
/-- PWR.STAT.BUSY. -/
def f_PWR_STAT_BUSY : Fld := ⟨.PWR_STAT, 63, 63⟩
/-- PWR.STAT.RES. -/
def f_PWR_STAT_RES : Fld := ⟨.PWR_STAT, 62, 60⟩
/-- PWR.STAT.WAKE. -/
def f_PWR_STAT_WAKE : Fld := ⟨.PWR_STAT, 51, 48⟩
/-- PWR.PLIM.POWER. -/
def f_PWR_PLIM_POWER : Fld := ⟨.PWR_PLIM, 47, 32⟩
/-- PWR.PLIM.LIMIT. -/
def f_PWR_PLIM_LIMIT : Fld := ⟨.PWR_PLIM, 15, 0⟩
/-- PWR.THR.FCAP. -/
def f_PWR_THR_FCAP : Fld := ⟨.PWR_THR, 19, 16⟩
/-- PWR.THR.SUPPR. -/
def f_PWR_THR_SUPPR : Fld := ⟨.PWR_THR, 15, 0⟩
/-- PWR.TEMP.IO. -/
def f_PWR_TEMP_IO : Fld := ⟨.PWR_TEMP, 39, 32⟩
/-- PWR.TEMP.TILE. -/
def f_PWR_TEMP_TILE : Fld := ⟨.PWR_TEMP, 31, 0⟩
/-- PWR.AVS.ERR. -/
def f_PWR_AVS_ERR : Fld := ⟨.PWR_AVS, 63, 63⟩
/-- PWR.AVS.RAIL. -/
def f_PWR_AVS_RAIL : Fld := ⟨.PWR_AVS, 41, 40⟩
/-- PWR.AVS.MV. -/
def f_PWR_AVS_MV : Fld := ⟨.PWR_AVS, 39, 0⟩
/-- PWR.ALSTAT.ALERT. -/
def f_PWR_ALSTAT_ALERT : Fld := ⟨.PWR_ALSTAT, 4, 0⟩
/-- PWR.ALMASK.ALERT. -/
def f_PWR_ALMASK_ALERT : Fld := ⟨.PWR_ALMASK, 4, 0⟩
/-- PWR.GATED.MASK. -/
def f_PWR_GATED_MASK : Fld := ⟨.PWR_GATED, 63, 0⟩
/-- PWR.CLGATED.MASK. -/
def f_PWR_CLGATED_MASK : Fld := ⟨.PWR_CLGATED, 63, 0⟩
/-- PWR.THROTNS.COUNT. -/
def f_PWR_THROTNS_COUNT : Fld := ⟨.PWR_THROTNS, 63, 0⟩
/-- PWR.PLIMNS.COUNT. -/
def f_PWR_PLIMNS_COUNT : Fld := ⟨.PWR_PLIMNS, 63, 0⟩
/-- PWR.AVSERR.COUNT. -/
def f_PWR_AVSERR_COUNT : Fld := ⟨.PWR_AVSERR, 63, 0⟩
/-- PWR.DARKS.COUNT. -/
def f_PWR_DARKS_COUNT : Fld := ⟨.PWR_DARKS, 63, 0⟩
/-- CLK.GREFUSE.COUNT. -/
def f_CLK_GREFUSE_COUNT : Fld := ⟨.CLK_GREFUSE, 63, 0⟩
/-- TIME.NOW.NS. -/
def f_TIME_NOW_NS : Fld := ⟨.TIME_NOW, 63, 0⟩
/-- TIME.STAT.DEGRADED. -/
def f_TIME_STAT_DEGRADED : Fld := ⟨.TIME_STAT, 63, 63⟩
/-- TIME.STAT.ON32. -/
def f_TIME_STAT_ON32 : Fld := ⟨.TIME_STAT, 62, 62⟩
/-- TIME.STAT.EXTLOCK. -/
def f_TIME_STAT_EXTLOCK : Fld := ⟨.TIME_STAT, 61, 61⟩
/-- TIME.CTL.EXTAL. -/
def f_TIME_CTL_EXTAL : Fld := ⟨.TIME_CTL, 63, 63⟩
/-- TIME.ADJ.OP. -/
def f_TIME_ADJ_OP : Fld := ⟨.TIME_ADJ, 63, 62⟩
/-- TIME.ADJ.AMOUNT. -/
def f_TIME_ADJ_AMOUNT : Fld := ⟨.TIME_ADJ, 61, 0⟩
/-- TIME.PPS.OFS. -/
def f_TIME_PPS_OFS : Fld := ⟨.TIME_PPS, 63, 32⟩
/-- TIME.PPS.INT. -/
def f_TIME_PPS_INT : Fld := ⟨.TIME_PPS, 31, 0⟩
/-- TIME.CAPT.NS. -/
def f_TIME_CAPT_NS : Fld := ⟨.TIME_CAPT, 63, 0⟩
/-- LOADIN.STAT.ABRES. -/
def f_LOADIN_STAT_ABRES : Fld := ⟨.LOADIN_STAT, 25, 24⟩
/-- LOADIN.STAT.ACAUSE. -/
def f_LOADIN_STAT_ACAUSE : Fld := ⟨.LOADIN_STAT, 23, 20⟩
/-- LOADIN.STAT.CAUSE. -/
def f_LOADIN_STAT_CAUSE : Fld := ⟨.LOADIN_STAT, 19, 16⟩
/-- LOADIN.STAT.STAGE. -/
def f_LOADIN_STAT_STAGE : Fld := ⟨.LOADIN_STAT, 11, 8⟩
/-- LOADIN.STAT.IDBAD. -/
def f_LOADIN_STAT_IDBAD : Fld := ⟨.LOADIN_STAT, 6, 6⟩
/-- LOADIN.STAT.SRC. -/
def f_LOADIN_STAT_SRC : Fld := ⟨.LOADIN_STAT, 5, 4⟩
/-- LOADIN.STAT.COPY. -/
def f_LOADIN_STAT_COPY : Fld := ⟨.LOADIN_STAT, 2, 2⟩
/-- LOADIN.STAT.PROF. -/
def f_LOADIN_STAT_PROF : Fld := ⟨.LOADIN_STAT, 1, 0⟩
/-- LOADIN.NEXT.V. -/
def f_LOADIN_NEXT_V : Fld := ⟨.LOADIN_NEXT, 63, 63⟩
/-- LOADIN.NEXT.STICKY. -/
def f_LOADIN_NEXT_STICKY : Fld := ⟨.LOADIN_NEXT, 62, 62⟩
/-- LOADIN.NEXT.PROF. -/
def f_LOADIN_NEXT_PROF : Fld := ⟨.LOADIN_NEXT, 1, 0⟩
/-- LOADIN.CMD.CLUSTER. -/
def f_LOADIN_CMD_CLUSTER : Fld := ⟨.LOADIN_CMD, 12, 8⟩
/-- LOADIN.CMD.OP. -/
def f_LOADIN_CMD_OP : Fld := ⟨.LOADIN_CMD, 3, 0⟩
/-- LOADIN.START.CORE. -/
def f_LOADIN_START_CORE : Fld := ⟨.LOADIN_START, 63, 56⟩
/-- LOADIN.START.SA. -/
def f_LOADIN_START_SA : Fld := ⟨.LOADIN_START, 47, 0⟩
/-- LOADIN.CLEN.MASK. -/
def f_LOADIN_CLEN_MASK : Fld := ⟨.LOADIN_CLEN, 31, 0⟩
/-- LOADIN.BIST.MASK. -/
def f_LOADIN_BIST_MASK : Fld := ⟨.LOADIN_BIST, 31, 0⟩
/-- LOADIN.PART.BKLIM. -/
def f_LOADIN_PART_BKLIM : Fld := ⟨.LOADIN_PART, 47, 0⟩
/-- LOADIN.POLICY.BISTDROP. -/
def f_LOADIN_POLICY_BISTDROP : Fld := ⟨.LOADIN_POLICY, 4, 4⟩
/-- LOADIN.POLICY.CUSTSLOT. -/
def f_LOADIN_POLICY_CUSTSLOT : Fld := ⟨.LOADIN_POLICY, 3, 0⟩
/-- LOADIN.ERR.STERR. -/
def f_LOADIN_ERR_STERR : Fld := ⟨.LOADIN_ERR, 1, 1⟩
/-- LOADIN.ERR.RSVW. -/
def f_LOADIN_ERR_RSVW : Fld := ⟨.LOADIN_ERR, 0, 0⟩
/-- LOADIN.SYSID.VALUE. -/
def f_LOADIN_SYSID_VALUE : Fld := ⟨.LOADIN_SYSID, 63, 0⟩
/-- LOADIN.SN0.VALUE. -/
def f_LOADIN_SN0_VALUE : Fld := ⟨.LOADIN_SN0, 63, 0⟩
/-- LOADIN.SN1.VALUE. -/
def f_LOADIN_SN1_VALUE : Fld := ⟨.LOADIN_SN1, 63, 0⟩
/-- LOADIN.COLD.COUNT. -/
def f_LOADIN_COLD_COUNT : Fld := ⟨.LOADIN_COLD, 63, 0⟩
/-- LOADIN.WARM.COUNT. -/
def f_LOADIN_WARM_COUNT : Fld := ⟨.LOADIN_WARM, 63, 0⟩
/-- LOADIN.FAILA.COUNT. -/
def f_LOADIN_FAILA_COUNT : Fld := ⟨.LOADIN_FAILA, 63, 0⟩
/-- PROMPTER.MBIN.DATA. -/
def f_PROMPTER_MBIN_DATA : Fld := ⟨.PROMPTER_MBIN, 63, 0⟩
/-- PROMPTER.MBOUT.DATA. -/
def f_PROMPTER_MBOUT_DATA : Fld := ⟨.PROMPTER_MBOUT, 63, 0⟩
/-- PROMPTER.MBCTL.INFULL. -/
def f_PROMPTER_MBCTL_INFULL : Fld := ⟨.PROMPTER_MBCTL, 63, 63⟩
/-- PROMPTER.MBCTL.OUTFULL. -/
def f_PROMPTER_MBCTL_OUTFULL : Fld := ⟨.PROMPTER_MBCTL, 62, 62⟩
/-- PROMPTER.MBCTL.OUTLEN. -/
def f_PROMPTER_MBCTL_OUTLEN : Fld := ⟨.PROMPTER_MBCTL, 14, 8⟩
/-- PROMPTER.MBCTL.INLEN. -/
def f_PROMPTER_MBCTL_INLEN : Fld := ⟨.PROMPTER_MBCTL, 6, 0⟩
/-- PROMPTER.STAT.LOCKOUT. -/
def f_PROMPTER_STAT_LOCKOUT : Fld := ⟨.PROMPTER_STAT, 9, 9⟩
/-- PROMPTER.STAT.SESSION. -/
def f_PROMPTER_STAT_SESSION : Fld := ⟨.PROMPTER_STAT, 8, 8⟩
/-- PROMPTER.STAT.ADDR. -/
def f_PROMPTER_STAT_ADDR : Fld := ⟨.PROMPTER_STAT, 6, 0⟩
/-- PROMPTER.CMDS.COUNT. -/
def f_PROMPTER_CMDS_COUNT : Fld := ⟨.PROMPTER_CMDS, 63, 0⟩
/-- PROMPTER.PECERR.COUNT. -/
def f_PROMPTER_PECERR_COUNT : Fld := ⟨.PROMPTER_PECERR, 63, 0⟩
/-- PROMPTER.AUTHFAIL.COUNT. -/
def f_PROMPTER_AUTHFAIL_COUNT : Fld := ⟨.PROMPTER_AUTHFAIL, 63, 0⟩
/-- PROMPTER.NACKS.COUNT. -/
def f_PROMPTER_NACKS_COUNT : Fld := ⟨.PROMPTER_NACKS, 63, 0⟩
/-- KSU.STATE.PROVLOCK. -/
def f_KSU_STATE_PROVLOCK : Fld := ⟨.KSU_STATE, 16, 16⟩
/-- KSU.STATE.REVOKED. -/
def f_KSU_STATE_REVOKED : Fld := ⟨.KSU_STATE, 15, 8⟩
/-- KSU.STATE.FUSED. -/
def f_KSU_STATE_FUSED : Fld := ⟨.KSU_STATE, 7, 0⟩
/-- KSU.CMD.OP. -/
def f_KSU_CMD_OP : Fld := ⟨.KSU_CMD, 7, 4⟩
/-- KSU.CMD.SLOT. -/
def f_KSU_CMD_SLOT : Fld := ⟨.KSU_CMD, 2, 0⟩
/-- KSU.RES.BUSY. -/
def f_KSU_RES_BUSY : Fld := ⟨.KSU_RES, 63, 63⟩
/-- KSU.RES.CODE. -/
def f_KSU_RES_CODE : Fld := ⟨.KSU_RES, 2, 0⟩
/-- KSU.DRBG.STATE. -/
def f_KSU_DRBG_STATE : Fld := ⟨.KSU_DRBG, 1, 0⟩
/-- KSU.DATA.HASH. -/
def f_KSU_DATA_HASH : Fld := ⟨.KSU_DATA, 63, 0⟩
/-- KSU.CERT.DATA. -/
def f_KSU_CERT_DATA : Fld := ⟨.KSU_CERT, 63, 0⟩
/-- KSU.SIGFAIL.COUNT. -/
def f_KSU_SIGFAIL_COUNT : Fld := ⟨.KSU_SIGFAIL, 63, 0⟩
/-- KSU.HEALTH.COUNT. -/
def f_KSU_HEALTH_COUNT : Fld := ⟨.KSU_HEALTH, 63, 0⟩

/-- The RSVW bit that records a reserved value written to a register of this name (R548), and whether it is kept
per unit (the unit's own register) or in DEV.ERR. -/
def Reg.rsvw (r : Reg) : Fld :=
  match r with
  | .CORE_ERR => f_CORE_ERR_RSVW
  | .CORE_SPILLS => f_CORE_ERR_RSVW
  | .CORE_FILLS => f_CORE_ERR_RSVW
  | .CORE_HALTS => f_CORE_ERR_RSVW
  | .CORE_HALTNS => f_CORE_ERR_RSVW
  | .CORE_DVINFO => f_CORE_ERR_RSVW
  | .CORE_DVPSA => f_CORE_ERR_RSVW
  | .CORE_DVCOUNT => f_CORE_ERR_RSVW
  | .MCS_STAT => f_MCS_ERR_RSVW
  | .MCS_CUPTR => f_MCS_ERR_RSVW
  | .MCS_LDSTAT => f_MCS_ERR_RSVW
  | .MCS_ERR => f_MCS_ERR_RSVW
  | .MCS_MFCOUNT => f_MCS_ERR_RSVW
  | .MCS_WDCOUNT => f_MCS_ERR_RSVW
  | .MCS_RFCTL => f_MCS_ERR_RSVW
  | .MCS_RFFIX => f_MCS_ERR_RSVW
  | .MCS_SRDA => f_MCS_ERR_RSVW
  | .MCS_SRDD0 => f_MCS_ERR_RSVW
  | .MCS_SRDD1 => f_MCS_ERR_RSVW
  | .MCS_PATCH => f_MCS_ERR_RSVW
  | .CORE_HALT => f_CORE_ERR_RSVW
  | .CORE_XSTAT => f_CORE_ERR_RSVW
  | .CORE_DBG => f_CORE_ERR_RSVW
  | .CORE_XCOUNT => f_CORE_ERR_RSVW
  | .CORE_QCOUNT => f_CORE_ERR_RSVW
  | .CUE_LCTL => f_CUE_ERR_RSVW
  | .CUE_PEND => f_CUE_ERR_RSVW
  | .CUE_SRC => f_CUE_ERR_RSVW
  | .CUE_IPI => f_CUE_ERR_RSVW
  | .CUE_NMI => f_CUE_ERR_RSVW
  | .CUE_ERR => f_CUE_ERR_RSVW
  | .CUE_DROPS => f_CUE_ERR_RSVW
  | .CORE_DMISS => f_CORE_ERR_RSVW
  | .CORE_IMISS => f_CORE_ERR_RSVW
  | .CORE_S2FIA => f_CORE_ERR_RSVW
  | .CORE_TLBWKILL => f_CORE_ERR_RSVW
  | .CORE_FCERR => f_CORE_ERR_RSVW
  | .CORE_FCTPAR => f_CORE_ERR_RSVW
  | .CORE_FCCORR => f_CORE_ERR_RSVW
  | .CORE_DFMISS => f_CORE_ERR_RSVW
  | .CORE_IFMISS => f_CORE_ERR_RSVW
  | .CORE_PFISSUE => f_CORE_ERR_RSVW
  | .CORE_WINGS => f_CORE_ERR_RSVW
  | .CC_CTL => f_CC_ERR_RSVW
  | .CC_ERR => f_CC_ERR_RSVW
  | .CC_CORR => f_CC_ERR_RSVW
  | .CC_HIT => f_CC_ERR_RSVW
  | .CC_MISS => f_CC_ERR_RSVW
  | .CC_WB => f_CC_ERR_RSVW
  | .HOST_UREQ => f_HOST_ERR_RSVW
  | .HOST_UBACK => f_HOST_ERR_RSVW
  | .HOST_USNOOP => f_HOST_ERR_RSVW
  | .CORE_SCAGE => f_CORE_ERR_RSVW
  | .CORE_SCFA => f_CORE_ERR_RSVW
  | .CORE_SCLINE => f_CORE_ERR_RSVW
  | .CORE_SCCOMMIT => f_CORE_ERR_RSVW
  | .CORE_SCABORT => f_CORE_ERR_RSVW
  | .CORE_SCCONF => f_CORE_ERR_RSVW
  | .CORE_SCDIST => f_CORE_ERR_RSVW
  | .HOST_CTL => f_HOST_ERR_RSVW
  | .HOST_LINK => f_HOST_ERR_RSVW
  | .HOST_ERR => f_HOST_ERR_RSVW
  | .HOST_CACHEBASE => f_HOST_ERR_RSVW
  | .HOST_MMIOBASE => f_HOST_ERR_RSVW
  | .HOST_BIASCMD => f_HOST_ERR_RSVW
  | .HOST_PWIN => f_HOST_ERR_RSVW
  | .HOST_SQCFG => f_HOST_ERR_RSVW
  | .HOST_CQCFG => f_HOST_ERR_RSVW
  | .HOST_SQT => f_HOST_ERR_RSVW
  | .HOST_SQH => f_HOST_ERR_RSVW
  | .HOST_CQT => f_HOST_ERR_RSVW
  | .HOST_CQH => f_HOST_ERR_RSVW
  | .HOST_DBREJ => f_HOST_ERR_RSVW
  | .HOST_TAGWRDROP => f_HOST_ERR_RSVW
  | .HOST_PWREF => f_HOST_ERR_RSVW
  | .HOST_CORR => f_HOST_ERR_RSVW
  | .HOST_UNCORR => f_HOST_ERR_RSVW
  | .HOST_LOSTWB => f_HOST_ERR_RSVW
  | .HOST_CRWAIT => f_HOST_ERR_RSVW
  | .HOST_OUTHOLD => f_HOST_ERR_RSVW
  | .CLU_MODE => f_CLU_STAT_RSVW
  | .CLU_STAT => f_CLU_STAT_RSVW
  | .CLU_LSSTAT => f_CLU_STAT_RSVW
  | .CLU_LSTIME => f_CLU_STAT_RSVW
  | .CLU_LSDIV => f_CLU_STAT_RSVW
  | .CORE_RET => f_CORE_ERR_RSVW
  | .CORE_CYC => f_CORE_ERR_RSVW
  | .CORE_FRZ => f_CORE_ERR_RSVW
  | .CORE_CHUNKS => f_CORE_ERR_RSVW
  | .LOADIN_STAT => f_LOADIN_ERR_RSVW
  | .LOADIN_NEXT => f_LOADIN_ERR_RSVW
  | .LOADIN_CMD => f_LOADIN_ERR_RSVW
  | .LOADIN_START => f_LOADIN_ERR_RSVW
  | .LOADIN_CLEN => f_LOADIN_ERR_RSVW
  | .LOADIN_BIST => f_LOADIN_ERR_RSVW
  | .LOADIN_PART => f_LOADIN_ERR_RSVW
  | .LOADIN_POLICY => f_LOADIN_ERR_RSVW
  | .LOADIN_ERR => f_LOADIN_ERR_RSVW
  | .LOADIN_SYSID => f_LOADIN_ERR_RSVW
  | .LOADIN_SN0 => f_LOADIN_ERR_RSVW
  | .LOADIN_SN1 => f_LOADIN_ERR_RSVW
  | .LOADIN_COLD => f_LOADIN_ERR_RSVW
  | .LOADIN_WARM => f_LOADIN_ERR_RSVW
  | .LOADIN_FAILA => f_LOADIN_ERR_RSVW
  | _ => f_DEV_ERR_RSVW

end Sys2Proof.Machine
end

