-- ==== Sys2Proof/Machine/State.lean ====
section
/-! DEFINITION. The state of the block as plain data, the fault and refusal reasons, and the state after cold reset.
Every field's docstring names the rule of spec/ that gives it; INVENTORY.md lists them with their reset values. -/

namespace Sys2Proof.Machine

open Sys2Proof

/-- Processor status word (R59) without STRICT, which follows the effective mode (R58). -/
structure Psw where
  depth : Nat := 0
  tr : Bool := false
  qt : Bool := false
  repp : Bool := false
  lp : Bool := false
  ds : Bool := false
  step : Bool := false
  ss : Bool := false
  sc : Bool := false
  ipl : Nat := 15
  l : Bool := true
  w : Bool := true
  deriving DecidableEq, Repr

/-- The world-banked registers (R55, R57): VBR, TSBR, FTSBR, ASID, ITBR, DTBR. -/
structure Bank where
  vbr : W64 := 0
  tsbr : W64 := 0
  ftsbr : W64 := 0
  asid : W64 := 0
  itbr : W64 := 0
  dtbr : W64 := 0
  deriving DecidableEq, Repr

/-- The two stacks (R48, R52): `regs` holds positions 0 to N-1 (N is its length), `cregs` positions 0 to M-1. -/
structure Stacks where
  sp : Nat := 8
  regs : List TWord := []
  csp : Nat := 0
  cregs : List TWord := []
  sbase : W64 := 0xFFFFFFFFFFFF
  slim : W64 := 0
  clim : W64 := 0
  deriving DecidableEq, Repr

/-- The unbanked special registers of R55 that have no home elsewhere. -/
structure Sregs where
  lc : W64 := 0
  ls : W64 := 0
  le : W64 := 0
  pkr : W64 := 0
  vmid : W64 := 0
  s2tbr : W64 := 0
  ab : W64 := 0
  al : W64 := 0
  pg0 : TWord := word tFIX 0
  pg1 : TWord := word tFIX 0
  pg2 : TWord := word tFIX 0
  pg3 : TWord := word tFIX 0
  iob : W64 := 0
  trb : W64 := 0
  trl : W64 := 0
  cctl : W64 := 0
  timecmp0 : W64 := 0x7FFFFFFFFFFFFFFF
  timecmp1 : W64 := 0x7FFFFFFFFFFFFFFF
  deriving DecidableEq, Repr

/-- The quick-trap registers (R55, R197) and the values the core keeps until RTQ (R199). -/
structure Quick where
  qpc : W64 := 0
  qpsw : W64 := 0
  qs0 : TWord := word tFIX 0
  qs1 : TWord := word tFIX 0
  vec : Nat := 0
  sub : Nat := 0
  syl : Nat := 0
  addr : Nat := 0
  deriving DecidableEq, Repr

/-- A result that has not landed (R139, R140): its home slot, its value, whether the data has arrived, the syllables
still to issue before it lands, how many have issued, and its producer. -/
structure PendRes where
  slot : Nat
  val : TWord
  arrived : Bool
  remain : Nat
  gone : Nat
  sa : Nat
  syl : Nat
  deriving DecidableEq, Repr

/-- A store window of R144: the word's place (pa), what it held, how many load slots it still covers, its
producer. -/
structure StoreWin where
  pa : Nat
  old : TWord
  remain : Nat
  sa : Nat
  syl : Nat
  deriving DecidableEq, Repr

/-- Where the walker got a leaf (R233): its region's intermediate address, the stage-1 leaf's level and the stage-1 memory type,
which a fault found after the walk reports (R223, R226 check 4). -/
structure Origin where
  ia : Nat := 0
  lv : Nat := 0
  mt1 : Nat := 0
  deriving DecidableEq, Repr

/-- A µTLB entry (R221, R225, R232): the µTLB form, its region's base, its tags and WIRE, and its origin where the walker gave it. -/
structure Utlb where
  tte : W64
  base : Nat
  world : Bool
  asid : Nat
  vmid : Nat
  wire : Bool
  org : Option Origin := none
  deriving DecidableEq, Repr

/-- The change that a shadow writer makes when its shadow ends (R147, R148). A µTLB entry under AUTO carries the free choice of its
victim (R231). -/
inductive ShadowUpd where
  | sr (world : Bool) (idx : Nat) (v : TWord)
  | ipl (v : Nat)
  | tlb (isI : Bool) (idx : Nat) (auto : Option Nat) (e : Utlb)
  | none
  deriving DecidableEq, Repr

/-- An open mode-change shadow (R147): the syllables that still run in it, the writer, the change, and whether the syllable in
progress has made a data-space access (R148). -/
structure Shadow where
  remain : Nat
  sa : Nat
  syl : Nat
  upd : ShadowUpd
  used : Bool := false
  deriving DecidableEq, Repr

/-- The walk-result latch (R229), with the result's origin (R233). -/
inductive Latch where
  | empty
  | valid (tte fix : TWord) (org : Origin)
  | killed (tte fix : TWord)
  deriving DecidableEq, Repr

/-- MESI states of a line (R245). -/
inductive Mesi where
  | inv | shr | exc | mod
  deriving DecidableEq, Repr

/-- A D-frame (R247): its index, the frame address (pa div 32) and the state of its four sectors. -/
structure DFrame where
  idx : Nat
  base : Nat
  st : List Mesi
  deriving DecidableEq, Repr

/-- An I-frame (R251): its index, the frame address, and for each filled sector the words as filled. -/
structure IFrame where
  idx : Nat
  base : Nat
  sect : List (List TWord)
  deriving DecidableEq, Repr

/-- A locked wings slot (R254, R255): slot, frame, owner world (true Backstage) and its 32 words. -/
structure Wing where
  slot : Nat
  frame : Nat
  world : Bool
  words : List TWord
  deriving DecidableEq, Repr

/-- A store in the store queue (R248): where, what (`more` is the odd word of a STORE2, whose two words are one access, R97), the
number of release fences before it, and how it is placed. -/
structure QStore where
  pa : Nat
  val : TWord
  more : List TWord := []
  epoch : Nat
  strict : Bool
  alloc : Bool
  nc : Bool
  dev : Bool := false
  deriving DecidableEq, Repr

/-- A trained stride stream (R258). -/
structure Stream where
  last : Nat
  stride : Int
  runs : Nat
  deriving DecidableEq, Repr

/-- A Rehearsal record (R440): Q0, Q1 and its payload as 64-bit words, two per unit. -/
structure Recd where
  q0 : Nat
  q1 : Nat
  units : List Nat := []
  deriving DecidableEq, Repr

/-- The open chunk of a recorded agent (R433-R435): the lines read and written, its events, its records so far, step
boundaries passed in the instruction in progress, events retired since BEGIN, chunks ended since BEGIN, whether the
syllable in progress makes an unsafe access, and the END cause that is due. Under REPLAY: the records still to deliver
and the events still to run, then the step boundaries still to pass in the next one (R450). -/
structure Chunk where
  reads : List Nat := []
  writes : List Nat := []
  len : Nat := 0
  recs : List Recd := []
  steps : Nat := 0
  ret : Nat := 0
  num : Nat := 0
  isUnsafe : Bool := false
  due : Option Nat := none
  vals : List Recd := []
  left : Nat := 0
  goal : Nat := 0
  stepGoal : Nat := 0
  deriving DecidableEq, Repr

/-- The checkpoint of a Scene (R283). -/
structure Checkpoint where
  handler : Nat
  stk : Stacks
  sr : Sregs
  lp : Bool
  deriving DecidableEq, Repr

/-- The Scene engine's state of one core (R283-R301): checkpoint, the status left by the last Scene, the read set
(lines), the write set (pa and new value), the syllable count of a short Scene, the participant nodes, the phase of
a distributed commit (0 none, 1 PREPARE sent) and the nodes that have answered YES. -/
structure Scene where
  ck : Option Checkpoint := none
  stat : W64 := 0
  av : Bool := false
  reads : List Nat := []
  wbuf : List (Nat × TWord) := []
  count : Nat := 0
  nodes : List Nat := []
  phase : Nat := 0
  yes : List Nat := []
  prepAt : Nat := 0
  prepTag : Nat := 0
  hideWin : Bool := false
  deriving DecidableEq, Repr

/-- A request a core waits on while frozen (R138): what will complete its syllable. -/
inductive Wait where
  | miss
  | line (l : Nat)
  | hostRead (pa va : Nat)
  | walk (addr : Nat) (kind : Nat) (probe : Bool) (killed : Bool)
  | coproc (port op : Nat) (done : Option (List TWord))
  | rfetch (rid : Nat)
  | rstore (rid : Nat)
  | outHold
  | barrierCopy (base : Nat)
  | tlbi (syl takes scope : Nat)
  | curtain
  | satb
  | pacing (since : Nat)
  | replay
  deriving DecidableEq, Repr

/-- How a core stands (R202, R549, R424, R527): held in reset, issuing, waiting in HALT, halted in Curtain, halted by
a divergence. -/
inductive Run where
  | held | run | halt | curtain | diverged
  deriving DecidableEq, Repr

/-- Events that wait for an instruction boundary of the core (R189, R191, R209): interrupts per world (vectors
64-255), NMI, asynchronous machine checks (subcode), remote failures of asynchronous requests, single step, armed
timers. -/
structure Events where
  house : List Nat := []
  back : List Nat := []
  nmi : Bool := false
  mc : List Nat := []
  remote : List (Bool × Nat) := []
  stepDue : Bool := false
  stepWorld : Bool := false
  arm0 : Bool := true
  arm1 : Bool := true
  deriving DecidableEq, Repr

/-- The memory side of a core: µTLBs with recency order, walk-result latch, frames (most recent first), wings,
store queue, stride streams (latest used first), region lookaside, SATB buffer, an unmet fence condition, a frame miss of the
syllable in progress, and the one-line fetch buffer (R250): its line and the words as fetched. -/
structure CoreMem where
  dtlb : List (Option Utlb) := List.replicate 32 none
  itlb : List (Option Utlb) := List.replicate 16 none
  dlru : List Nat := []
  ilru : List Nat := []
  latch : Latch := .empty
  dframes : List DFrame := []
  iframes : List IFrame := []
  wings : List Wing := []
  sq : List QStore := []
  epoch : Nat := 0
  streams : List Stream := []
  look : List (Nat × W64) := []
  satb : List TWord := []
  fence : Bool := false
  miss : Bool := false
  fbuf : Option (Nat × List TWord) := none
  deriving DecidableEq, Repr

/-- The micro-state of a running customer routine (R154, R157, R159): uPC, micro-stack, MCT, carry, micro-cycles since
the last STEP, X0-X3, MAR, MDR and SRV; the line that RMWRD holds (R160), a WAIT for earlier writes in progress, and the world and
level that WLD saved (R158). Faults, traps and END discard it. -/
structure MicroSt where
  upc : Nat
  stack : List Nat := []
  mct : Nat := 0
  carry : Bool := false
  cycles : Nat := 0
  x : List TWord := []
  mar : TWord
  mdr : TWord
  srv : TWord
  hold : Option Nat := none
  waiting : Bool := false
  saved : Option (Bool × Bool) := none
  deriving DecidableEq, Repr

/-- One evaluator core (R48-R210). -/
structure Core where
  run : Run := .held
  debug : Bool := false
  stepOnce : Bool := false
  gated : Bool := false
  wait : Option Wait := none
  pc : Nat := 0
  psw : Psw := {}
  dst : Nat := 0
  stk : Stacks := {}
  house : Bank := {}
  back : Bank := {}
  sr : Sregs := {}
  quick : Quick := {}
  pend : List PendRes := []
  wins : List StoreWin := []
  newWins : List StoreWin := []
  hostBuf : List (Nat × W64) := []
  spills : List (Nat × TWord) := []
  micro : Option MicroSt := none
  shadow : Option Shadow := none
  ev : Events := {}
  mem : CoreMem := {}
  scene : Scene := {}
  haltAt : Nat := 0
  chunk : Chunk := {}
  traceN : Nat := 0
  nmiAt : Option Nat := none
  syl : Nat := 0
  unit : Bool := false
  deriving DecidableEq, Repr

/-- A line of a cluster cache (R260): its line number, MESI state and way. -/
structure CcLine where
  line : Nat
  st : Mesi
  way : Nat
  deriving DecidableEq, Repr

/-- A combined leaf translation of the cluster TLB (R236): µTLB form, region base, tags, space and origin. -/
structure CtlbE where
  u : Utlb
  isI : Bool
  org : Origin
  deriving DecidableEq, Repr

/-- A stage-2 leaf translation of the cluster TLB (R236): VMID, region base, size code, entry. -/
structure S2E where
  vmid : Nat
  base : Nat
  size : Nat
  tte : W64
  deriving DecidableEq, Repr

/-- A walk-cache entry (R236): stage, context, space, granule, level, its coverage as a power of two, and the input bits above it;
`oa` is the table it names. -/
structure WcE where
  stage : Nat
  world : Bool
  vmid : Nat
  asid : Nat
  isI : Bool
  gran : Bool
  level : Nat
  sh : Nat
  key : Nat
  oa : Nat
  deriving DecidableEq, Repr

/-- A directory entry of a home slice (R263): the line, the owner cluster of an E or M line, the sharers, the age of
the oldest Scene that has requested it (R291). -/
structure DirE where
  line : Nat
  owner : Option Nat
  sharers : List Nat
  oldest : Option Nat
  deriving DecidableEq, Repr

/-- The two parts of R1. -/
inductive Part where
  | xpr3610 | xpr3604
  deriving DecidableEq, Repr

/-- One stored I/O register value; a register without a cell holds its reset value. -/
structure RegCell where
  reg : Reg
  inst : Nat
  val : W64
  deriving DecidableEq, Repr

/-- A piece of work of a Stagehand engine (R325-R336): mark an object as a root, scan a card, trace an object, copy or
fix the object at an offset of a region, fix an export entry or a registry entry, settle a registry entry, make the
flip. -/
inductive Job where
  | root (va : Nat)
  | card (n : Nat)
  | trace (va : Nat)
  | copy (r off : Nat)
  | fix (r off : Nat)
  | fixExport (i : Nat)
  | fixProxy (va : Nat)
  | settle (va : Nat)
  | flip
  deriving DecidableEq, Repr

/-- A Stagehand engine (R325, R327): its work in order, and its rescan list. -/
structure Engine where
  jobs : List Job := []
  rescan : List Nat := []
  deriving DecidableEq, Repr

/-- One bank of the RAM regions of the control stores (R152, R153): micro-words, nano-words and dispatch entries that loads have
written. -/
structure StoreBank where
  ustore : List (Nat × Nat) := []
  nstore : List (Nat × Nat) := []
  dstore : List (Nat × Nat) := []
  deriving DecidableEq, Repr

/-- One cluster (R12): cluster cache lines (R260), cluster TLB and walk cache (R236), current regions (R316, R322), and
the two banks of its control store, A for the even cores and B for the odd ones (R153); when it was last refreshed (R184); the owned lines that a tag error has dropped and no home slice has handled since (R269); the way that self-test has out, the next one, and when it was rotated out (R426). -/
structure Cluster where
  lines : List CcLine := []
  ctlb : List CtlbE := []
  s2tlb : List S2E := []
  wc : List WcE := []
  nursery : Option Nat := none
  evacN : Option Nat := none
  evacO : Option Nat := none
  bankA : StoreBank := {}
  bankB : StoreBank := {}
  patchLevel : Nat := 0
  custId : Nat := 0
  chunk : Chunk := {}
  engine : Engine := {}
  turnM : Nat := 7
  turnL : Nat := 7
  refreshed : Nat := 0
  lost : List Nat := []
  rot : Option Nat := none
  rotNext : Nat := 0
  rotAt : Nat := 0
  deriving DecidableEq, Repr

/-- The collector's device-wide hidden state (R317, R320, R327-R336): grant pool, cores waiting for grants in order of
arrival, words in the SATB queue, proxy registry entries, words found live in each region by the running marking, the
word 0 of each region that an EVACUATE in progress has selected, the type of each exported pointer, and the dead objects queued for
their finalisers (R31). -/
structure Collector where
  grants : Nat := 0
  pacing : List Nat := []
  satbCount : Nat := 0
  proxies : List Nat := []
  live : List (Nat × Nat) := []
  sel : List (Nat × W64) := []
  expType : List (Nat × Nat) := []
  finals : List Nat := []
  deriving DecidableEq, Repr

/-- A message of the tour fabric (R363, R364). Its VC and LEN follow from its type and units. -/
structure Msg where
  type : Nat
  dest : Nat
  src : Nat
  ttl : Nat := 63
  dl : Bool := false
  dist : Bool := false
  tag : Nat := 0
  arg : Nat := 0
  units : List TWord := []
  deriving DecidableEq, Repr

/-- What an outstanding remote request will complete (R369-R373). -/
inductive ReqKind where
  | fetch
  | store
  | future (entry : Nat)
  deriving DecidableEq, Repr

/-- An outstanding remote request (R369, R375): tag, core, what it completes, its target node, FAULTADDR of a failure,
when it was sent, and whether it belongs to a Scene. -/
structure OutReq where
  tag : Nat
  core : Nat
  kind : ReqKind
  node : Nat
  addr : Nat
  since : Nat
  dist : Bool
  deriving DecidableEq, Repr

/-- A reliable message that is not acknowledged (R376): when it was last sent, how often it was retransmitted, the core
and world that issued it. -/
structure Flight where
  msg : Msg
  sent : Nat
  tries : Nat
  core : Option (Nat × Bool)
  deriving DecidableEq, Repr

/-- Sequence state for a peer (R376). -/
structure Peer where
  node : Nat
  nextTx : Nat := 0
  nextRx : Option Nat := none
  flights : List Flight := []
  deriving DecidableEq, Repr

/-- A slot of the participant table (R304, R305, R379): its Scene ID, the lines read, the buffered writes, whether it has
voted YES, when it last voted or asked, when it voted, and whether its outcome is left to software. -/
structure Slot where
  slot : Nat
  id : W64
  reads : List Nat := []
  writes : List (Nat × TWord) := []
  voted : Bool := false
  asked : Nat := 0
  askTag : Nat := 0
  votedAt : Nat := 0
  orphan : Bool := false
  deriving DecidableEq, Repr

/-- The link layer of a tour port (R358-R362, R368, R378): when its state was entered, its own and the received sequence,
the replay buffer (SEQ, message, part), replays of the oldest flit, tag failures in succession, flits sent under the
key, credits of the eight lanes, messages waiting for credit, when an acknowledgement and a credit of each VC last came, whether
the neighbour reports DEGRADED, and the latest offset from it in tenths of a nanosecond (R380). -/
structure PortSt where
  since : Nat := 0
  seq : Nat := 0
  good : Nat := 4095
  replay : List (Nat × Msg × Nat) := []
  tries : Nat := 0
  tagFails : Nat := 0
  keyed : Nat := 0
  credit : List Nat := [64, 64, 64, 64, 32, 32, 32, 32]
  queue : List Msg := []
  ackAt : Nat := 0
  creditAt : List Nat := [0, 0, 0, 0]
  degraded : Bool := false
  offset : Option Int := none
  deriving DecidableEq, Repr

/-- The tour fabric's own state (R356-R381): ports, messages to this node that are not yet delivered, VC 3 arrivals held
by a full ring with the port they came on, reliable messages waiting for sequence state, outstanding requests, peers
(latest used first), participant slots, outcomes of distributed Scenes (latest first), the next request tag. -/
structure Tour where
  ports : List PortSt := []
  loop : List Msg := []
  held : List (Option Nat × Msg) := []
  wait : List Flight := []
  reqs : List OutReq := []
  peers : List Peer := []
  slots : List Slot := []
  outcomes : List (W64 × Nat) := []
  nextTag : Nat := 0
  deriving DecidableEq, Repr

/-- What the block has sent to the outside (to the host, to other devices, on its pins), newest first: a write to host
memory, a request for a host word or line, a flit, its HELLO, its TSYNC flit, credits and an
acknowledgement in an IDLE flit, a completion for the host (status 0 success, 1 unsupported request, 2
Configuration Request Retry Status, 3 poisoned data), the answer to a host snoop, a line flush asked of the host, an
MSI-X message, a DOE response, viral, the snapshot image, a pulse on TSYNC_OUT, the Prompter's alert answer, its
response to a read. -/
inductive Wire where
  | hostWrite (pa : Nat) (w : TWord)
  | ask (pa : Nat) (own : Bool)
  | flit (port kind seq ack : Nat) (m : Option (Msg × Nat))
  | hello (port node own width : Nat) (wantSeal : Bool)
  | tsync (port time : Nat)
  | credit (port lane flits ack : Nat)
  | completion (status : Nat) (data : List Nat)
  | snoop (line : Nat) (held : Bool) (data : List TWord)
  | flush (line : Nat)
  | msix (addr data : Nat)
  | doe (code : Nat) (data : List Nat)
  | viral
  | image (addr : Nat) (begin : List Nat) (mem : List (Nat × TWord)) (emptied : List (Nat × Nat)) (contexts : List (List TWord))
  | tsyncOut (time : Nat)
  | alert (addr : Nat)
  | response (rst ropc : Nat) (data : List Nat)
  deriving DecidableEq, Repr

/-- One event of the black box's ring (R513). -/
structure BbEvent where
  time : Nat
  code : Nat
  unit : Nat
  detail : Nat
  deriving DecidableEq, Repr

/-- The black box's event ring (R513): its latest events, newest first, and how many have been written since it was
cleared. -/
structure BlackBox where
  events : List BbEvent := []
  count : Nat := 0
  deriving DecidableEq, Repr

/-- A chunk that has ended and waits to commit (R437, R442): its agent, END cause, events, retired count, records, STEPS,
and the INTR record that follows it. -/
structure Ended where
  agent : Nat
  cause : Nat
  len : Nat
  ret : Nat
  num : Nat
  recs : List Recd
  steps : Option Nat
  after : List Recd
  deriving DecidableEq, Repr

/-- The Rehearsal and trace unit (R433-R457): ended chunks in commit order, trace entries lost since the last LOSS entry
(instruction, event), the black box's mirror of the latest records and their count, live Cue sources held back under
REPLAY; the preparation's hold, and of a log that is replayed: the payload of BEGIN, the records that are left,
the records already consumed, the agent whose chunk runs with its CHUNK record, whether
END has been consumed. -/
structure Reh where
  queue : List Ended := []
  lossI : Nat := 0
  lossE : Nat := 0
  mirror : List (Nat × Nat) := []
  mirrored : Nat := 0
  live : List Nat := []
  hold : Bool := false
  log : List Recd := []
  old : List Recd := []
  beginW : List Nat := []
  cur : Option (Nat × Recd) := none
  ended : Bool := false
  deriving DecidableEq, Repr

/-- An MSI-X table entry with its pending bit (R382, R394). -/
structure Msix where
  addr : Nat := 0
  data : Nat := 0
  masked : Bool := true
  pend : Bool := false
  deriving DecidableEq, Repr

/-- A CXL or PCIe IDE stream (R533): the key written and the key in use. -/
structure Ide where
  prog : Option Nat := none
  live : Option Nat := none
  deriving DecidableEq, Repr

/-- The SPDM responder (R531): how far negotiation has come (1 version, 2 capabilities, 3 algorithms), a key exchange that
waits for FINISH, whether a session is established. -/
structure Spdm where
  stage : Nat := 0
  keyx : Bool := false
  session : Bool := false
  deriving DecidableEq, Repr

/-- The host interface beside its registers (R382-R401): PERST_N, when it was released, the committed HDM bases, viral
received, CXL.cache and CXL.mem stopped by CXL Reset, the MSI-X table, the mailbox, the writable dwords of configuration
space, the running bias command (next page, pages left, to device bias, aborted), SPDM and IDE. -/
structure HostIf where
  perst : Bool := true
  perstAt : Nat := 0
  hdm0 : Option Nat := none
  hdm1 : Option Nat := none
  viralIn : Bool := false
  cxlOff : Bool := false
  msix : List Msix := List.replicate 64 {}
  mbOp : Nat := 0
  mbStatus : Nat := 0
  mbData : List Nat := []
  cfg : List (Nat × Nat) := []
  bias : Option (Nat × Nat × Bool × Bool) := none
  spdm : Spdm := {}
  ideIo : Ide := {}
  ideCm : Ide := {}
  deriving DecidableEq, Repr

/-- A control-store load that MCLOAD has handed over (R178): its operation, the copied image, the next cluster to load,
whether its checks have passed. -/
structure McsJob where
  op : Nat
  image : List Nat
  next : Nat := 0
  passed : Bool := false
  deriving DecidableEq, Repr

/-- The Green Room's copy of the active images (R180), the load in progress, and the clusters whose refresh is
requested (R184), and the clusters under a hold (R179). -/
structure Mcs where
  vendor : Option (List Nat) := none
  cust : Option (List Nat) := none
  job : Option McsJob := none
  want : List Nat := []
  hold : List Nat := []
  deriving DecidableEq, Repr

/-- A mode request (R419): a new DEV.MODE, from the supervisor or from the Prompter, or a new CLU.MODE of a cluster. -/
inductive ModeReq where
  | dev (v : Nat)
  | prompter (v : Nat)
  | clu (cl : Nat) (v : Nat)
  deriving DecidableEq, Repr

/-- A requested self-test (R427): class, index, when it was requested, whether it runs. -/
structure SelfTest where
  cls : Nat
  idx : Nat
  since : Nat
  running : Bool := false
  deriving DecidableEq, Repr

/-- A gate request in progress (R465). -/
structure Gate where
  cls : Nat
  idx : Nat
  since : Nat
  deriving DecidableEq, Repr

/-- A forced recalibration of a memory channel (R413): controller, channel, when it was requested, whether the stack is in
self-refresh. -/
structure Recal where
  mc : Nat
  chan : Nat
  since : Nat
  deferred : Bool
  deriving DecidableEq, Repr

/-- Clocks, power and time beside their registers (R458-R477): VDD_AON present, POR_N asserted and when it was released, the
latched straps, whether AONRC runs and when it was restarted, whether AON32 is good, the tile PLL changes in progress and the
writes that wait for them, the gate request, gated Match and Lookup units, engines, ports, the gated Rehearsal unit, a Dark entry
in progress and the source that wakes, thermal suppression and the tiles that are hot, power suppression, the highest
frequencies in MHz that AVSBus and temperature allow, the MHz taken off for power, whether the time base runs, the slew still to be made and the part of a nanosecond already slewed, in units of
10^-4 ns, the latest pulse on TSYNC_OUT, THERMTRIP_N, FALLBACK-SLOW. -/
structure Clk where
  aon : Bool := true
  por : Bool := true
  porAt : Nat := 0
  profile : Nat := 0
  paddr : Nat := 0
  recover : Bool := false
  aonrc : Bool := false
  rcAt : Nat := 0
  good32 : Bool := false
  tpll : List (Option W64) := [none, none, none, none]
  tpllNext : List (Option W64) := [none, none, none, none]
  gate : Option Gate := none
  noMl : List Nat := []
  noSth : List Nat := []
  noPort : List Nat := []
  noReh : Bool := false
  dark : Bool := false
  wake : Option Nat := none
  thSup : List Nat := [0, 0, 0, 0]
  thHot : List Bool := [false, false, false, false]
  pwSup : Nat := 0
  avsCap : List Nat := [3000, 3000, 3000, 3000]
  pwCut : Nat := 0
  thCap : List Nat := [3000, 3000, 3000, 3000]
  timeOn : Bool := false
  slew : Int := 0
  slewAcc : Int := 0
  pulsed : Nat := 0
  trip : Bool := false
  slow : Bool := false
  deriving DecidableEq, Repr

/-- The attached flash as the Green Room reads it (R480): its size in bytes as a power of two, and the bytes that are not
erased. -/
structure Flash where
  log2 : Nat := 24
  bytes : List (Nat × Nat) := []
  deriving DecidableEq, Repr

/-- Load-in beside its registers (R478-R501): the flash, HBM trained, memory cleared, Load-in waiting in MEMWAIT, HBM training
failed, the clusters whose BIST failed, KEYSLOT and the sections of the active profile (type and bytes), the digest of the profile
bytes that SIG covers, the identity block's first 64 bytes, the opening program's entry; a warm reset that is requested
(its requester: 0 pin, 1 Prompter, 2 host, 3 Backstage) and cluster resets that are requested (cluster, requester; R499); the clusters
that SELFCHECK has removed (R497). -/
structure LoadIn where
  flash : Flash := {}
  trained : Bool := false
  cleared : Bool := false
  waiting : Bool := false
  hbmBad : Bool := false
  bist : Nat := 0
  keyslot : Nat := 0
  secs : List (Nat × List Nat) := []
  digest : Nat := 0
  ident : List Nat := []
  start : Nat := 0
  warm : Option Nat := none
  creset : List (Nat × Nat) := []
  failed : Nat := 0
  deriving DecidableEq, Repr

/-- The key store unit beside its registers (R518-R523): the hash of each slot, and signatures made. -/
structure Ksu where
  hash : List Nat := List.replicate 8 0
  signed : Nat := 0
  deriving DecidableEq, Repr

/-- The Prompter beside its registers (R502-R514): the latest response (RST, ROPC, payload), the nonce of the latest CHAL,
when the latest request came, AUTHFAIL results in succession, when the lockout began, when an accepted cold reset begins, a request that waits for a wake. -/
structure Prompter where
  rst : Nat := 9
  ropc : Nat := 0
  data : List Nat := []
  nonce : Option (List Nat) := none
  last : Nat := 0
  fails : Nat := 0
  lockAt : Nat := 0
  coldAt : Option Nat := none
  wait : Option (Nat × List Nat) := none
  deriving DecidableEq, Repr

/-- A request that waits at its home slice for a line that a distributed commit holds (R264, R305), or for room in the log: of a
cluster, a host snoop, a host write with its record. -/
inductive Parked where
  | usher (cl line : Nat) (own : Bool)
  | snoop (line : Nat) (own : Bool)
  | write (line : Nat) (words : List (Nat × TWord)) (r : Recd)
  deriving DecidableEq, Repr

/-- The line of a waiting request. -/
def Parked.line (p : Parked) : Nat := match p with | .usher _ l _ => l | .snoop l _ => l | .write l _ _ => l

/-- The state of the block. -/
structure State where
  pending : List Instr
  free : Nat
  time : Nat
  part : Part
  mem : List (Nat × TWord)
  emptied : List (Nat × Nat)
  home : List (Nat × TWord)
  held : List Nat
  asked : List Nat
  parked : List Parked
  regs : List RegCell
  cores : List Core
  clusters : List Cluster
  dir : List DirE
  col : Collector
  reh : Reh
  tour : Tour
  host : HostIf
  mcs : Mcs
  modes : List ModeReq
  test : Option SelfTest
  recal : List Recal
  clk : Clk
  load : LoadIn
  ksu : Ksu
  pm : Prompter
  drbg : Nat
  debugScope : Nat
  wire : List Wire
  status : Nat
  bb : BlackBox
  deriving DecidableEq, Repr

/-- The registers whose reset value the fuses give (R1-R3, R10, R518; log entry 3, DESIGN CHOICE), and TOUR.NODE without a node ID (R15): the part's
number and stepping B1 with every cluster and port of R1, slots LOAD0, VENDOR and DEVKEY fused. -/
def resetCells (p : Part) : List RegCell := [
  { reg := .DEV_ID, inst := 0, val := match p with | .xpr3610 => 0x3610B10000000000 | .xpr3604 => 0x3604B10000000000 },
  { reg := .DEV_CLEN, inst := 0, val := match p with | .xpr3610 => 0xFFFFFFFF | .xpr3604 => 0xFFFF },
  { reg := .DEV_PORTEN, inst := 0, val := match p with | .xpr3610 => 0xFFF | .xpr3604 => 0xF },
  { reg := .KSU_STATE, inst := 0, val := 0x91 },
  { reg := .TOUR_NODE, inst := 0, val := 0x3FFF }]

/-- A part of R1 right after reset (R10, R58, R479): POR_N asserted, STATUS 0, every core held in reset, memory with nothing listed, an
erased flash attached; slot LOAD0 holds the owner's key hash. -/
def State.resetPart (p : Part) : State :=
  { pending := [], free := 0, time := 0, part := p, mem := [], emptied := [], home := [], held := [], asked := [], parked := [], regs := resetCells p
    cores := List.replicate 256 {}, clusters := List.replicate 32 {}, dir := [], col := {}, reh := {}
    tour := { ports := List.replicate 12 {} }, host := {}, mcs := {}, modes := [], test := none, recal := [], clk := {}, load := {}
    ksu := { hash := [Config.ownerKey.toNat, 0, 0, 0, 0, 0, 0, 0] }, pm := {}, drbg := 0, debugScope := 0, wire := []
    status := 0, bb := {} }

/-- The block right after reset: an XPR-3610-B1 (log entry 3). -/
def State.reset : State := State.resetPart .xpr3610

/-- No command ends in a fault of the model: exceptions, halts and errors of the block are next states. -/
inductive Fault where
  /-- Reserved; no meaning raises it (safe). -/
  | none
  deriving DecidableEq, Repr

/-- Why a command has no meaning. -/
inductive Refusal where
  /-- The command's meaning is not written (safe): only refused arms of exec answer it. -/
  | notModelled (mnemonic : String)
  deriving DecidableEq, Repr

end Sys2Proof.Machine
end

