-- ==== Sys2Proof/Machine/Access.lean ====
section
/-! DEFINITION. Named access to the parts of the state: cores, registers and counters, free values, raw memory, the
physical memory map (R222, R389, R403), the modes that other units read (R417, R418), and running cores (R549). -/

namespace Sys2Proof.Machine

open Sys2Proof

/-- Core n. -/
def State.core (s : State) (c : Nat) : Core := s.cores.getD c {}

/-- Change core n. -/
def State.modCore (s : State) (c : Nat) (f : Core → Core) : State := { s with cores := modAt s.cores c f }

/-- Cluster n. -/
def State.cluster (s : State) (cl : Nat) : Cluster := s.clusters.getD cl {}

/-- Change cluster n. -/
def State.modCluster (s : State) (cl : Nat) (f : Cluster → Cluster) : State :=
  { s with clusters := modAt s.clusters cl f }

/-- The row of a register. -/
def rowOf (r : Reg) : Option RegRow := regRows.find? (fun x => decide (x.reg = r))

/-- The reset value of a register whose fields have the given reset values (R10). -/
def resetOfFields (l : List Field) : W64 := l.foldl (fun v f => setBits v f.hi f.lo f.rst) 0

/-- The cold-reset value of a register (R10); Load-in, fuse and pin fields are 0 here and are listed by State.reset
or set by Load-in. -/
def resetOf (r : Reg) : W64 :=
  match rowOf r with
  | some x => resetOfFields x.fields
  | none => 0

/-- The stored value of a register in a list of cells. -/
def cellGet (l : List RegCell) (r : Reg) (i : Nat) : Option W64 :=
  match l with
  | [] => none
  | x :: l => if x.reg = r ∧ x.inst = i then some x.val else cellGet l r i

/-- Store a register value in a list of cells. -/
def cellSet (l : List RegCell) (r : Reg) (i : Nat) (v : W64) : List RegCell :=
  match l with
  | [] => [⟨r, i, v⟩]
  | x :: l => if x.reg = r ∧ x.inst = i then ⟨r, i, v⟩ :: l else x :: cellSet l r i v

/-- The current value of register r, instance i. -/
def State.reg (s : State) (r : Reg) (i : Nat) : W64 := (cellGet s.regs r i).getD (resetOf r)

/-- Set register r, instance i. -/
def State.setReg (s : State) (r : Reg) (i : Nat) (v : W64) : State := { s with regs := cellSet s.regs r i v }

/-- Back to the reset value. -/
def State.clearReg (s : State) (r : Reg) (i : Nat) : State :=
  { s with regs := s.regs.filter (fun x => !(decide (x.reg = r) && x.inst == i)) }

/-- A field of a register. -/
def State.fld (s : State) (f : Fld) (i : Nat) : Nat := bits (s.reg f.reg i) f.hi f.lo

/-- A one-bit field of a register. -/
def State.flag (s : State) (f : Fld) (i : Nat) : Bool := s.fld f i == 1

/-- Set a field of a register. -/
def State.setFld (s : State) (f : Fld) (i : Nat) (v : Nat) : State :=
  s.setReg f.reg i (setBits (s.reg f.reg i) f.hi f.lo v)

/-- Raise a counter register by n, wrapping at 2^64. -/
def State.bump (s : State) (r : Reg) (i : Nat) (n : Nat) : State := s.setReg r i (s.reg r i + w64 n)

/-- Draw a free value (log entry 5). -/
def State.fresh (s : State) : W64 × State := (Config.freeValue s.free, { s with free := s.free + 1 })

/-- One request to the DRBG (R134, R522): its output is free; requests since the last reseed are counted. -/
def State.drawDrbg (s : State) : W64 × State := (Config.drbg s.free, { s with free := s.free + 1, drbg := s.drbg + 1 })

/-- Number of cores and clusters and ports of the part (R1, R2). -/
def State.nCores (s : State) : Nat := match s.part with | .xpr3610 => 256 | .xpr3604 => 128
def State.nClusters (s : State) : Nat := match s.part with | .xpr3610 => 32 | .xpr3604 => 16
def State.nPorts (s : State) : Nat := match s.part with | .xpr3610 => 12 | .xpr3604 => 4

/-- Cluster and tile of a core (R12). -/
def clusterOf (c : Nat) : Nat := c / 8
def tileOf (c : Nat) : Nat := c / 64

/-- Device mode bits (R417). -/
def State.mode (s : State) (k : Nat) : Bool := bit (s.reg .DEV_MODE 0) k
def mLOCKSTEP : Nat := 0
def mRECORD : Nat := 1
def mREPLAY : Nat := 2
def mSTRICT : Nat := 3
def mTRACE : Nat := 4
def mECONOMY : Nat := 5
def mSELFTEST : Nat := 6
def mSEALED : Nat := 7

/-- A cluster's effective setting: FOLLOW, OFF or ON (R418). -/
def State.effMode (s : State) (f : Fld) (k cl : Nat) : Bool :=
  match s.fld f cl with
  | 2 => true
  | 1 => false
  | _ => s.mode k

/-- PSW.STRICT of a core (R418). -/
def State.strict (s : State) (c : Nat) : Bool := s.effMode f_CLU_MODE_STRICT mSTRICT (clusterOf c)

/-- LOCKSTEP in force in the core's cluster (R418). -/
def State.lockstep (s : State) (c : Nat) : Bool := s.effMode f_CLU_MODE_LOCKSTEP mLOCKSTEP (clusterOf c)

/-- The core is a checker (R14): odd, under LOCKSTEP. -/
def State.checker (s : State) (c : Nat) : Bool := s.lockstep c && c % 2 == 1

/-- Present and in an enabled cluster (R1, R2, R3). -/
def State.present (s : State) (c : Nat) : Bool :=
  decide (c < s.nCores) && bit (s.reg .DEV_CLEN 0) (clusterOf c)

/-- A dispatch entry that customer images write (R167). -/
def custDisp (i : Nat) : Bool :=
  if i < 0x800 then i / 8 % 8 == 6 || i % 8 == 6
  else if i < 0x1000 then true
  else if i < 0x1800 then 24 ≤ (i - 0x1000) / 64
  else 6 ≤ (i - 0x1800) / 256

/-- The bank that serves a core (R153), by the parity of its number. -/
def Cluster.bank (k : Cluster) (odd : Bool) : StoreBank := if odd then k.bankB else k.bankA

/-- Change one bank. -/
def Cluster.modBank (k : Cluster) (odd : Bool) (f : StoreBank → StoreBank) : Cluster :=
  if odd then { k with bankB := f k.bankB } else { k with bankA := f k.bankA }

/-- Change both banks (R153). -/
def Cluster.modBanks (k : Cluster) (f : StoreBank → StoreBank) : Cluster := { k with bankA := f k.bankA, bankB := f k.bankB }

/-- The words of the stores: of the mask ROM, whose contents no rule writes out (log entry 5), or a RAM word, 0 where no load has
written it. -/
def StoreBank.uword (b : StoreBank) (a : Nat) : Nat :=
  if a < 0x2800 then (Config.vendorWord 0 a).toNat % 2 ^ 24 else smapGet 0 b.ustore a
def StoreBank.nword (b : StoreBank) (a : Nat) : Nat := if a < 0xA00 then (Config.vendorWord 1 a).toNat else smapGet 0 b.nstore a

/-- A dispatch entry: as loaded, the vendor default copied from ROM (R152), or 0. -/
def StoreBank.dword (b : StoreBank) (i : Nat) : Nat :=
  if b.dstore.any (fun x => x.1 == i) then smapGet 0 b.dstore i
  else if custDisp i then 0
  else (Config.vendorWord 2 i).toNat % 2 ^ 16

/-- The entry of a customer opcode that the loaded image leaves undefined (R168): V = 1, NIN = 0, and the routine UNDEFOP, whose place
in [11:0] no rule gives (log entry 5). -/
def undefEntry : Nat := 0x8000 + (Config.vendorWord 3 0).toNat % 2 ^ 12

/-- A customer opcode's entry is defined by an image. -/
def StoreBank.defines (b : StoreBank) (i : Nat) : Bool := b.dstore.any (fun x => x.1 == i)

/-- Running, as R549 defines it. -/
def State.running (s : State) (c : Nat) : Bool :=
  s.present c && !(s.checker c) &&
    (match (s.core c).run with
     | .run => true
     | .halt => true
     | _ => false)

/-- The core is held: the device is not in Run (R431) or enters Dark (R467), its tile's PLL changes (R460), a snapshot is written
(R447), a replay is prepared (R449). -/
def State.holds (s : State) (c : Nat) : Bool :=
  s.status != 4 || s.clk.dark || s.flag f_REH_STAT_SNAPHOLD 0 || s.reh.hold || (s.clk.tpll.getD (tileOf c) none).isSome

/-- The lowest-numbered core for which p holds. -/
def State.lowest (s : State) (p : Nat → Bool) : Option Nat := (List.range s.nCores).find? p

/-- The node id (R15): 0x3FFF while none is assigned. -/
def State.node (s : State) : Nat := s.fld f_TOUR_NODE_NODE 0

/-- The kinds of place in physical memory (R222, R389, R403, R254). -/
inductive Place where
  | loc | priv | host | mmio | wings | none
  deriving DecidableEq, Repr

/-- The physical memory map. -/
def place (pa : Nat) : Place :=
  if pa ≤ 0x00023FFFFFFF then .loc
  else if 0x000400000000 ≤ pa && pa ≤ 0x000423FFFFFF then .priv
  else if 0x001000000000 ≤ pa && pa ≤ 0x001FFFFFFFFF then .host
  else if 0x002000000000 ≤ pa && pa ≤ 0x0020FFFFFFFF then .mmio
  else if 0x003000000000 ≤ pa && pa ≤ 0x0030000003FF then .wings
  else .none

/-- What an unlisted pa reads as: EMPTY in the ranges that hardware has cleared to EMPTY (R552), RAW 0 elsewhere
(R414, log entry 2, DESIGN CHOICE). -/
def dfltIn (emptied : List (Nat × Nat)) (pa : Nat) : TWord :=
  if emptied.any (fun r => r.1 ≤ pa && pa < r.1 + r.2) then wEMPTY else wRAW0

/-- The word at a pa: the current value in coherence order. -/
def State.rd (s : State) (pa : Nat) : TWord := smapGet (dfltIn s.emptied pa) s.mem pa

/-- Write the word at a pa. -/
def State.wr (s : State) (pa : Nat) (w : TWord) : State :=
  { s with mem := smapPut (dfltIn s.emptied pa) s.mem pa w }

/-- Clear a range of words to EMPTY (R552). -/
def State.clearEmpty (s : State) (pa len : Nat) : State :=
  { s with mem := s.mem.filter (fun x => !(pa ≤ x.1 && x.1 < pa + len)),
           emptied := (pa, len) :: s.emptied.filter (fun r => !(pa ≤ r.1 && r.1 + r.2 ≤ pa + len)) }

/-- Canonical memory: keys strictly rising, no entry equal to what the unlisted address reads as. -/
def memWfFrom (emptied : List (Nat × Nat)) : List (Nat × TWord) → Nat → Bool
  | [], _ => true
  | (a, v) :: m, k => decide (k ≤ a) && decide (v ≠ dfltIn emptied a) && memWfFrom emptied m (a + 1)

/-- The memory of a state is in canonical form. -/
def Memory.wf (s : State) : Bool := memWfFrom s.emptied s.mem 0

/-- Line and controller of a pa (R244, R404). -/
def lineOf (pa : Nat) : Nat := pa / 8
def mcOf (pa : Nat) : Nat := ((pa >>> 5) % 4) ^^^ ((pa >>> 15) % 4) ^^^ ((pa >>> 25) % 4)
def chanOf (pa : Nat) : Nat := ((pa >>> 7) % 16) ^^^ ((pa >>> 17) % 16)

/-- The home slice of a line (R262): 0-3 for the controllers, 4 for the host interface. -/
def sliceOf (line : Nat) : Nat := match place (line * 8) with | .host => 4 | _ => mcOf (line * 8)

/-- The directory set of a line (R263, R405). -/
def dirSet (line : Nat) : Nat :=
  let pa := line * 8
  match place pa with
  | .host => ((pa >>> 3) % 2 ^ 15) ^^^ ((pa >>> 18) % 2 ^ 15)
  | _ => (((pa >>> 7) % 2 ^ 15) * 4 + (pa >>> 3) % 4) ^^^ ((pa >>> 22) % 2 ^ 17)

/-- The image bit MCS.STAT.CUST: a customer image is loaded in the core's cluster. -/
def State.custLoaded (s : State) (c : Nat) : Bool := s.flag f_MCS_STAT_CUST (clusterOf c)

/-- MCS.CUPTR of the core's cluster (R25). -/
def State.cuptr (s : State) (c : Nat) : Nat := (s.reg .MCS_CUPTR (clusterOf c)).toNat % 2 ^ 16

/-- The bank of the current world (R57). -/
def Core.bank (k : Core) : Bank := if k.psw.w then k.back else k.house

/-- Occupancies N and M (R48, R52). -/
def Core.occN (k : Core) : Nat := k.stk.regs.length
def Core.occM (k : Core) : Nat := k.stk.cregs.length

end Sys2Proof.Machine
end

