-- ==== Sys2Proof/Machine/IoMap.lean ====
section
/-! DEFINITION. Which register an io address names (R62, R63). -/

namespace Sys2Proof.Machine

open Sys2Proof

/-- A row covers an address of its own unit: the index within the row. -/
def RegRow.index (r : RegRow) (a : Nat) : Option Nat :=
  if r.base ≤ a && a < r.base + r.count * r.stride && (a - r.base) % r.stride == 0 then some ((a - r.base) / r.stride)
  else none

/-- The first row of given units that covers an address. -/
def findRow (u : RegUnit → Bool) (a : Nat) (rows : List RegRow) : Option (RegRow × Nat) :=
  rows.findSome? (fun r => if u r.unit then (r.index a).map (fun i => (r, i)) else none)

/-- A cluster's view of an alias address 0x1xxxx (R63). -/
def ioCluster (cl a : Nat) : Option (RegRow × Nat) :=
  (findRow (fun u => u == .cluster || u == .col) a regRows).map (fun x =>
    match x.1.unit with
    | .col => (x.1, x.2)
    | _ => (x.1, cl * x.1.count + x.2))

/-- The register an io address names (R62, R63): the issuing core's own ranges, the cluster views and the device
ranges; none where it is unassigned or its unit is absent (R2). -/
def State.ioFind (s : State) (c : Option Nat) (a : Nat) : Option (RegRow × Nat) :=
  if a < 0x10000 then
    match c with
    | some c => (findRow (fun u => u == .core) a regRows).map (fun x => (x.1, c * x.1.count + x.2))
    | none => none
  else if a < 0x20000 then
    match c with
    | some c => ioCluster (clusterOf c) a
    | none => none
  else if 0x1000000 ≤ a && a < 0x1200000 then
    let cl := (a - 0x1000000) / 0x10000
    if cl < s.nClusters then ioCluster cl (0x10000 + a % 0x10000) else none
  else if 0x2300000 ≤ a && a < 0x230C000 then
    let p := (a - 0x2300000) / 0x1000
    let port := if p < s.nPorts then
        (findRow (fun u => u == .port) (0x2300000 + a % 0x1000) regRows).map (fun x => (x.1, p * x.1.count + x.2))
      else none
    match port with
    | some x => some x
    | none => findRow (fun u => u == .dev) a regRows
  else if 0x2100000 ≤ a && a < 0x2140000 then
    let m := (a - 0x2100000) / 0x10000
    (findRow (fun u => u == .mc) (0x2100000 + a % 0x10000) regRows).map (fun x => (x.1, m * x.1.count + x.2))
  else findRow (fun u => u == .dev) a regRows

end Sys2Proof.Machine
end

