-- ==== Sys2Proof/Machine/Shadow.lean ====
section
/-! DEFINITION. The changes of the shadow writers MTSR, SETIPL, LCSET and TLBW (R147, R231), made when their shadow ends. -/

namespace Sys2Proof.Machine

open Sys2Proof

/-- Power of two of a SIZE code (R218). -/
def sizeShift (code : Nat) : Nat :=
  match code with | 0 => 9 | 1 => 12 | 2 => 18 | 3 => 24 | 4 => 27 | _ => 36

/-- The walk-result latch becomes EMPTY (R229). -/
def Core.noLatch (k : Core) : Core := { k with mem := { k.mem with latch := .empty } }

/-- Entry u matches an address of entry e's region in e's world, VMID and ASID, or in any ASID where either is global: two entries
never match one access (R225, R231). -/
def Utlb.clashes (u e : Utlb) : Bool :=
  let size (x : Utlb) : Nat := 2 ^ sizeShift (bits x.tte 20 17)
  u.world == e.world && (e.world || u.vmid == e.vmid) && (bit u.tte 15 || bit e.tte 15 || u.asid == e.asid)
    && decide (u.base < e.base + size e) && decide (e.base < u.base + size u)

/-- The µTLB index TLBW chooses under AUTO (R231): the lowest invalid entry, else one of the unwired entries, else INDEX. -/
def autoIndex (l : List (Option Utlb)) (victim index : Nat) : Nat :=
  let ix := List.range l.length
  match ix.find? (fun i => (l.getD i none).isNone) with
  | some i => i
  | none =>
    let un := ix.filter (fun i => (l.getD i none).all (fun u => !u.wire))
    un.getD (victim % Nat.max un.length 1) index

/-- TLBW's entry goes into a µTLB (R231): what it clashes with is removed, then its place is chosen. -/
def tlbLoad (l : List (Option Utlb)) (index : Nat) (auto : Option Nat) (e : Utlb) : Nat × List (Option Utlb) :=
  let l := l.map (fun x => x.filter (fun u => !(u.clashes e)))
  let i := match auto with
    | some v => autoIndex l v index
    | none => index
  (i, l.set i (some e))

/-- The change a shadow writer has made (R147), applied when its shadow ends. -/
def Core.applyShadow (k : Core) : Core :=
  match k.shadow with
  | none => k
  | some sh =>
    let k := { k with shadow := none }
    match sh.upd with
    | .none => k
    | .ipl v => { k with psw := { k.psw with ipl := v } }
    | .tlb isI i auto e =>
      let r := tlbLoad (if isI then k.mem.itlb else k.mem.dtlb) i auto e
      if isI then { k with mem := { k.mem with itlb := r.2, ilru := r.1 :: k.mem.ilru.erase r.1 } }
      else { k with mem := { k.mem with dtlb := r.2, dlru := r.1 :: k.mem.dlru.erase r.1 } }
    | .sr w i v =>
      let d := v.datum
      let bk (f : Bank → Bank) : Core := if w then { k with back := f k.back } else { k with house := f k.house }
      match i with
      | 0 => { k with psw := { k.psw with ipl := bits d 5 2, tr := bit d 15 } }
      | 1 => { k with stk := { k.stk with sp := bits d 47 0, regs := [] } }
      | 2 => { k with stk := { k.stk with slim := d } }
      | 3 => { k with stk := { k.stk with sbase := d } }
      | 4 => { k with stk := { k.stk with csp := bits d 47 0, cregs := [] } }
      | 5 => { k with stk := { k.stk with clim := d } }
      | 6 => { k with sr := { k.sr with lc := d } }
      | 7 => { k with sr := { k.sr with ls := d } }
      | 8 => { k with sr := { k.sr with le := d } }
      | 9 => bk (fun b => { b with vbr := d })
      | 10 => bk (fun b => { b with tsbr := d })
      | 11 => bk (fun b => { b with ftsbr := d })
      | 12 => { k with sr := { k.sr with pkr := d } }
      | 13 => bk (fun b => { b with asid := d })
      | 14 => bk (fun b => { b with itbr := d })
      | 15 => bk (fun b => { b with dtbr := d })
      | 16 => { k with sr := { k.sr with vmid := d } }
      | 17 => { k with sr := { k.sr with s2tbr := d } }
      | 18 => { k with sr := { k.sr with ab := d } }
      | 19 => { k with sr := { k.sr with al := d } }
      | 20 => { k with sr := { k.sr with pg0 := v } }
      | 21 => { k with sr := { k.sr with pg1 := v } }
      | 22 => { k with sr := { k.sr with pg2 := v } }
      | 23 => { k with sr := { k.sr with pg3 := v } }
      | 24 => { k with sr := { k.sr with iob := d } }
      | 25 => { k with sr := { k.sr with trb := d } }
      | 26 => { k with sr := { k.sr with trl := d } }
      | 27 => { k with quick := { k.quick with qpc := d } }
      | 28 => { k with quick := { k.quick with qpsw := d } }
      | 29 => { k with quick := { k.quick with qs0 := v } }
      | 30 => { k with quick := { k.quick with qs1 := v } }
      | 31 => { k with sr := { k.sr with cctl := d }, mem := { k.mem with streams := if bits d 5 4 = bits k.sr.cctl 5 4 then k.mem.streams else [] } }
      | 32 => { k with sr := { k.sr with timecmp0 := d }, ev := { k.ev with arm0 := true } }
      | 33 => { k with sr := { k.sr with timecmp1 := d }, ev := { k.ev with arm1 := true } }
      | _ => k

end Sys2Proof.Machine
end

