-- ==== Sys2Proof/Machine/Flags.lean ====
section
/-! DEFINITION. The status word: PSW as software reads, saves and restores it (R58, R59), and SCENESTAT (R286, R287). -/

namespace Sys2Proof.Machine

open Sys2Proof

/-- PSW in the layout of R59; `strict` is the effective STRICT of the core's cluster (R58). -/
def Psw.pack (p : Psw) (strict : Bool) : W64 :=
  w64 (p.depth % 16 * 2 ^ 16 + b2n p.tr * 2 ^ 15 + b2n p.qt * 2 ^ 14 + b2n p.repp * 2 ^ 13 + b2n p.lp * 2 ^ 12
    + b2n p.ds * 2 ^ 11 + b2n p.step * 2 ^ 10 + b2n p.ss * 2 ^ 9 + b2n p.sc * 2 ^ 8 + b2n strict * 2 ^ 7
    + p.ipl % 16 * 4 + b2n p.l * 2 + b2n p.w)

/-- PSW from the layout of R59. -/
def Psw.unpack (v : W64) : Psw :=
  { depth := bits v 19 16, tr := bit v 15, qt := bit v 14, repp := bit v 13, lp := bit v 12, ds := bit v 11,
    step := bit v 10, ss := bit v 9, sc := bit v 8, ipl := bits v 5 2, l := bit v 1, w := bit v 0 }

/-- A saved PSW has a reserved bit set (R59, R200). -/
def pswReserved (v : W64) : Bool := bits v 63 20 ≠ 0 || bit v 6

/-- The core's PSW as read. -/
def State.pswOf (s : State) (c : Nat) : W64 := (s.core c).psw.pack (s.strict c)

/-- SCENESTAT fields (R286). -/
structure SceneStat where
  node : Nat := 0
  arg : Nat := 0
  detail : Nat := 0
  depth : Nat := 0
  dist : Bool := false
  short : Bool := false
  forced : Bool := false
  active : Bool := false
  av : Bool := false
  code : Nat := 0
  deriving DecidableEq, Repr

/-- SCENESTAT in the layout of R286. -/
def SceneStat.pack (x : SceneStat) : W64 :=
  w64 (x.node % 2 ^ 14 * 2 ^ 50 + x.arg % 2 ^ 16 * 2 ^ 32 + x.detail % 16 * 2 ^ 28 + x.depth % 16 * 2 ^ 24
    + b2n x.dist * 2 ^ 21 + b2n x.short * 2 ^ 20 + b2n x.forced * 2 ^ 19 + b2n x.active * 2 ^ 17
    + b2n x.av * 2 ^ 16 + x.code % 16)

/-- SCENESTAT as SCSTAT and exception entry see it (R287): the active form while a Scene is active, otherwise the last
status, with NODE and ARG zero for a House reader when the winner ran in Backstage. -/
def Core.sceneStat (k : Core) : W64 :=
  if k.psw.sc then
    SceneStat.pack { depth := k.psw.depth, dist := !k.scene.nodes.isEmpty, short := k.psw.ss, active := true,
                     av := k.scene.av }
  else
    let v := setBits k.scene.stat 16 16 (b2n k.scene.av)
    if !k.psw.w && k.scene.hideWin then setBits (setBits v 63 50 0) 47 32 0 else v

end Sys2Proof.Machine
end

