-- ==== Sys2Proof/Machine/Record.lean ====
section
/-! DEFINITION. Interrupts made pending (R209, R210), the black box's events (R513), and the Rehearsal unit's logger and
trace (R433-R457): records, chunks, their order, the ring, trace entries. -/

namespace Sys2Proof.Machine

open Sys2Proof

/-! ### Trace -/

/-- TRACE is in effect for the core's cluster (R454). -/
def State.tracing (s : State) (c : Nat) : Bool := s.effMode f_CLU_MODE_TRACE mTRACE (clusterOf c)

/-- Q1 of a trace entry (R454). -/
def traceQ1 (time info : Nat) : Nat := time % 2 ^ 40 * 2 ^ 24 + info % 2 ^ 24

/-- Entries of the trace ring (R443, R454): 2^17 in each 2 MiB. -/
def State.tringCap (s : State) : Nat := s.fld f_REH_TRING_SIZE 0 * 2 ^ 17

/-- Write a trace entry into its on-chip buffer, or into the trace ring (R454). An entry that meets frozen buffers is lost
and counted (R456). -/
def State.putTrace (s : State) (instr : Bool) (q0 q1 : Nat) : State :=
  if s.flag f_REH_TCTL_STREAM 0 && s.tringCap != 0 then
    let i := s.fld f_REH_TPTR_STREAM 0
    let pa := s.fld f_REH_TRING_BASE 0 + i % s.tringCap * 2
    ((s.wr pa (word tRAW q0)).wr (pa + 1) (word tRAW q1)).setFld f_REH_TPTR_STREAM 0 (i + 1)
  else if s.flag f_REH_TCTL_FROZEN 0 then
    let s := s.bump .REH_TLOSS 0 1
    { s with reh := if instr then { s.reh with lossI := s.reh.lossI + 1 } else { s.reh with lossE := s.reh.lossE + 1 } }
  else if instr then
    let i := s.fld f_REH_TPTR_ITB 0
    ((s.setReg .REH_ITB (2 * i) (w64 q0)).setReg .REH_ITB (2 * i + 1) (w64 q1)).setFld f_REH_TPTR_ITB 0 ((i + 1) % 8192)
  else
    let i := s.fld f_REH_TPTR_ETB 0
    ((s.setReg .REH_ETB (2 * i) (w64 q0)).setReg .REH_ETB (2 * i + 1) (w64 q1)).setFld f_REH_TPTR_ETB 0 ((i + 1) % 8192)

/-- Write an instruction-trace entry of a core (R454, R455), its cluster under TRACE. -/
def State.traceI (s : State) (c kind a info : Nat) : State :=
  if s.tracing c then
    s.putTrace true (kind % 16 * 2 ^ 60 + c % 2 ^ 9 * 2 ^ 51 + a % 2 ^ 48) (traceQ1 s.time info)
  else s

/-- Write an event-trace entry (R454, R455); an entry of the trigger's kind freezes the buffers (R456). -/
def State.traceE (s : State) (kind agent a info : Nat) : State :=
  if s.flag f_REH_TCTL_EEN 0 then
    let s := s.putTrace false (kind % 16 * 2 ^ 60 + agent % 2 ^ 9 * 2 ^ 51 + a % 2 ^ 48) (traceQ1 s.time info)
    if kind == s.fld f_REH_TCTL_TRIG 0 && kind != 15 then s.setFld f_REH_TCTL_FROZEN 0 1 else s
  else s

/-- The SYNC entry at the start of a core's trace and after every 4,096 events (R455): the next syllable and the retired
count. -/
def State.traceSync (s : State) (c : Nat) : State :=
  if s.tracing c then
    if (s.core c).traceN % 4096 == 0 then s.traceI c 0 (s.core c).pc (s.reg .CORE_RET c).toNat else s
  else s.modCore c (fun k => { k with traceN := 0 })

/-! ### Interrupts made pending -/

/-- Make a vector pending on a core in a world; an absent, Curtain or held core discards it, counted (R209). -/
def State.raiseVec (s : State) (c vec : Nat) (w : Bool) : State :=
  let ok := s.present c && (match (s.core c).run with | .held => false | .curtain => false | _ => true)
  if !ok then s.bump .CUE_DROPS 0 1
  else
    let add (l : List Nat) : List Nat := if l.contains vec then l else vec :: l
    s.modCore c (fun k => if w then { k with ev := { k.ev with back := add k.ev.back } }
      else { k with ev := { k.ev with house := add k.ev.house } })

/-- A source event: its routed vector becomes pending (R209). Under REPLAY live events are held until it ends (R451). -/
def State.cueEvent (s : State) (src : Nat) : State :=
  if s.mode mREPLAY then { s with reh := { s.reh with live := s.reh.live ++ [src] } }
  else if s.flag f_CUE_SRC_EN src then
    let core := s.fld f_CUE_SRC_CORE src
    let vec := s.fld f_CUE_SRC_VECTOR src
    let s := s.traceE 0 src 0 (core * 256 + vec)
    s.raiseVec core vec (s.flag f_CUE_SRC_OWN src && s.flag f_CUE_SRC_W src)
  else s

/-- Timer t of a core fires if it is armed, enabled and due (R210): its vector becomes pending once and it is disarmed.
TIMECMP compares as the FIX it is. Under REPLAY it stays armed (R451). -/
def State.fireTimer (s : State) (c t : Nat) : State :=
  let k := s.core c
  let armed := if t = 0 then k.ev.arm0 else k.ev.arm1
  let cmp := if t = 0 then k.sr.timecmp0 else k.sr.timecmp1
  let en := if t = 0 then s.flag f_CUE_LCTL_T0EN c else s.flag f_CUE_LCTL_T1EN c
  let w := if t = 0 then s.flag f_CUE_LCTL_T0W c else s.flag f_CUE_LCTL_T1W c
  if armed && en && decide (cmp.toInt ≤ (s.time : Int)) && !(s.mode mREPLAY) then
    let s := s.modCore c (fun k => { k with ev := if t = 0 then { k.ev with arm0 := false } else { k.ev with arm1 := false } })
    if (s.core c).run == .curtain then s else s.raiseVec c (0xE0 + t) w
  else s

/-- Both timers of a core (R210). -/
def State.fireTimers (s : State) (c : Nat) : State := (s.fireTimer c 0).fireTimer c 1

/-- NMI raised on a core (R209): discarded and counted for an absent, Curtain or held core. -/
def State.raiseNmi (s : State) (c : Nat) : State :=
  let ok := s.present c && (match (s.core c).run with | .held => false | .curtain => false | _ => true)
  if ok then s.modCore c (fun k => { k with ev := { k.ev with nmi := true } }) else s.bump .CUE_DROPS 0 1

/-- A write to CUE.IPI (R210): bit 32 is honoured only from Backstage; a vector below 64 is a reserved value. -/
def State.cueIpi (s : State) (back : Bool) (v : W64) : State :=
  if bits v 7 0 < 64 then s.setFld f_CUE_ERR_RSVW 0 1
  else s.raiseVec (bits v 15 8) (bits v 7 0) (bit v 32 && back)

/-- A write to CUE.NMI (R209). -/
def State.cueNmi (s : State) (v : W64) : State := s.raiseNmi (bits v 7 0)

/-- A write to a router entry (R209): OWN and W only from Backstage, nothing from House while OWN=1, W zero while OWN=0, a
VECTOR below 64 left and recorded. -/
def State.cueSrcWrite (s : State) (back : Bool) (i : Nat) (old v : W64) : State :=
  let own := if back then bit v 33 else bit old 33
  if !back && bit old 33 then s.setReg .CUE_SRC i old
  else
    let vec := bits v 7 0
    let w := own && (if back then bit v 32 else false)
    let new := w64 (b2n (bit v 63) * 2 ^ 63 + b2n own * 2 ^ 33 + b2n w * 2 ^ 32 + bits v 15 8 * 256
      + (if vec < 64 then bits old 7 0 else vec))
    let s := s.setReg .CUE_SRC i new
    if vec < 64 then s.setFld f_CUE_ERR_RSVW 0 1 else s

/-- A write to a core's CUE.LCTL (R210): House reaches TiEN only while TiW=0; an armed timer that is due fires at once. -/
def State.cueLctlWrite (s : State) (back : Bool) (c : Nat) (old v : W64) : State :=
  let t1w := if back then bit v 3 else bit old 3
  let t0w := if back then bit v 2 else bit old 2
  let t1e := if back || !(bit old 3) then bit v 1 else bit old 1
  let t0e := if back || !(bit old 2) then bit v 0 else bit old 0
  (s.setReg .CUE_LCTL c (w64 (b2n t1w * 8 + b2n t0w * 4 + b2n t1e * 2 + b2n t0e))).fireTimers c

/-- The bits of CUE.PENDi that a world reads (R209). -/
def Core.pendBits (k : Core) (back : Bool) (i : Nat) : W64 :=
  let l := if back then k.ev.back else k.ev.house
  w64 (((List.range 64).map (fun j => if l.contains (64 + 64 * i + j) then 2 ^ j else 0)).sum)

/-- A write of ones to CUE.PENDi clears those bits in the writing world. -/
def State.clearPend (s : State) (c i : Nat) (back : Bool) (v : W64) : State :=
  let keep (x : Nat) : Bool := !(64 + 64 * i ≤ x && x < 128 + 64 * i && bit v (x - 64 - 64 * i))
  s.modCore c (fun k => if back then { k with ev := { k.ev with back := k.ev.back.filter keep } }
    else { k with ev := { k.ev with house := k.ev.house.filter keep } })

/-- An open shadow holds a write of TIMECMP. -/
def Core.timerShadow (k : Core) : Bool :=
  match k.shadow with
  | some sh => (match sh.upd with | .sr _ i _ => i == 32 || i == 33 | _ => false)
  | none => false

/-- Raise an asynchronous machine check on a core (R191, R196). -/
def State.raiseMc (s : State) (c sub : Nat) : State :=
  s.modCore c (fun k => { k with ev := { k.ev with mc := k.ev.mc ++ [sub] } })

/-- Raise an asynchronous machine check to the Backstage world: the lowest running core in Backstage, or the lowest
running core (R549). -/
def State.backstageMc (s : State) (sub : Nat) : State :=
  match s.lowest (fun c => s.running c && (s.core c).psw.w) with
  | some c => s.raiseMc c sub
  | none =>
    match s.lowest s.running with
    | some c => s.raiseMc c sub
    | none => s

/-- Record an event in the black box (R513). -/
def State.logBb (s : State) (code unit detail : Nat) : State :=
  let e : BbEvent := { time := s.time, code := code, unit := unit % 2 ^ 16, detail := detail % 2 ^ 40 }
  { s with bb := { events := (e :: s.bb.events).take 2048, count := s.bb.count + 1 } }

/-! ### Events that qualify -/

/-- A pending vector of a world qualifies on a core (R190). -/
def Psw.qualifies (p : Psw) (back : Bool) (vec : Nat) : Bool :=
  if back then decide ((if p.w then p.ipl else 0) < vec / 16) else !p.w && decide (p.ipl < vec / 16)

/-- The qualifying interrupt that is taken first (R191): Backstage before House, then the highest vector. -/
def Core.topInterrupt (k : Core) : Option (Bool × Nat) :=
  let best (back : Bool) (l : List Nat) : Option Nat := (l.filter (k.psw.qualifies back)).max?
  match best true k.ev.back with
  | some v => some (true, v)
  | none => (best false k.ev.house).map (fun v => (false, v))

/-- An NMI that may be taken: no NMI handler is active (R189). -/
def State.nmiReady (s : State) (c : Nat) : Bool := (s.core c).ev.nmi && !(s.flag f_CORE_XSTAT_NMIACT c)

/-- What ends a HALT, or keeps it from waiting (R130): a pending NMI does, even while another is being handled. -/
def State.haltEnds (s : State) (c : Nat) : Bool :=
  let k := s.core c
  k.topInterrupt.isSome || k.ev.nmi || !k.ev.mc.isEmpty

/-- A boundary at which the core may take events (R115, R147): not between a branch and its slot, though at a step boundary of the
slot's own, not inside a shadow, and not between the two words of one access. -/
def Core.boundary (k : Core) : Bool := (!k.psw.ds || k.psw.step) && k.shadow.isNone && k.hostBuf.isEmpty

/-- Every pending result has arrived: an exception may land them (R142). -/
def Core.landable (k : Core) : Bool := k.pend.all (fun p => p.arrived)

/-- A core has reached a boundary at which a cluster hold stops it (R179): outside a branch and its slot, outside a shadow, with
no outstanding miss. -/
def State.atHold (s : State) (c : Nat) : Bool :=
  let k := s.core c
  match k.run with
  | .run => !k.psw.ds && k.boundary && (match k.wait with
    | some .miss => false
    | some (.line _) => false
    | some (.hostRead _ _) => false
    | some (.walk _ _ _ _) => false
    | _ => true)
  | _ => true

/-- A hold of the core's cluster has stopped it (R179). -/
def State.mcsHeld (s : State) (c : Nat) : Bool := s.mcs.hold.contains (clusterOf c) && s.atHold c

/-- An interrupt that the core takes at this boundary; a short Scene defers it (R299). -/
def Core.interruptDue (k : Core) : Bool := k.topInterrupt.isSome && !(k.psw.sc && k.psw.ss)

/-- An event is taken at this boundary before another syllable issues (R191); live events wait while REPLAY is in force
(R451). -/
def State.eventDue (s : State) (c : Nat) : Bool :=
  let k := s.core c
  k.boundary && (k.ev.stepDue || (!(s.mode mREPLAY) && (!k.ev.mc.isEmpty || s.nmiReady c || k.interruptDue)))

/-! ### Records -/

/-- A recording session runs and has not stopped (R446, R445). -/
def State.recording (s : State) : Bool :=
  s.mode mRECORD && s.flag f_REH_STAT_ACTIVE 0 && !(s.flag f_REH_STAT_STOPPED 0)

/-- Q0 of a record (R440). -/
def recQ0 (type agent plen : Nat) (ext : Bool) (sub low : Nat) : Nat :=
  type % 16 * 2 ^ 60 + agent % 2 ^ 9 * 2 ^ 51 + plen % 2 ^ 7 * 2 ^ 44 + b2n ext * 2 ^ 43 + sub % 8 * 2 ^ 40 + low % 2 ^ 40

/-- A record of an agent without payload. -/
def mkRec (type agent sub low q1 : Nat) : Recd := { q0 := recQ0 type agent 0 false sub low, q1 := q1 }

/-- Units a record occupies in the ring. -/
def Recd.size (r : Recd) : Nat := 1 + (r.units.length + 1) / 2

/-- Agent numbers of Stagehand engines start at 256 (R16). -/
def isEngine (a : Nat) : Bool := 256 ≤ a && a < 288

/-- The open chunk of an agent. -/
def State.chunkOf (s : State) (a : Nat) : Chunk := if a < 256 then (s.core a).chunk else (s.cluster (a - 256)).chunk

/-- Change an agent's open chunk. -/
def State.modChunk (s : State) (a : Nat) (f : Chunk → Chunk) : State :=
  if a < 256 then s.modCore a (fun k => { k with chunk := f k.chunk })
  else s.modCluster (a - 256) (fun k => { k with chunk := f k.chunk })

/-- Add a record to an agent's stream (R438). -/
def State.note (s : State) (a : Nat) (r : Recd) : State :=
  if s.recording then s.modChunk a (fun k => { k with recs := k.recs ++ [r] }) else s

/-- Units that the ring holds: 2^17 in each 2 MiB (R443). -/
def State.ringCap (s : State) : Nat := s.fld f_REH_RING_SIZE 0 * 2 ^ 17

/-- The ring has room for n units and, beyond them, one record's space for a GAP (R443). -/
def State.ringRoom (s : State) (n : Nat) : Bool :=
  let used := (s.fld f_REH_RTAIL_INDEX 0 + 2 ^ 32 - s.fld f_REH_RHEAD_INDEX 0) % 2 ^ 32
  decide (used + n + 1 ≤ s.ringCap)

/-- Write 64-bit words into the ring from a unit index on, as RAW words (R440). -/
def State.ringWords (s : State) (i : Nat) : List Nat → State
  | [] => s
  | w :: l =>
    let n := Nat.max 1 (s.ringCap * 2)
    State.ringWords (s.wr (s.fld f_REH_RING_BASE 0 + i % n) (word tRAW w)) (i + 1) l

/-- The logger writes one record (R443, R457): the ring, RTAIL, the count and the black box's mirror. -/
def State.putRecord (s : State) (r : Recd) : State :=
  let t := s.fld f_REH_RTAIL_INDEX 0
  let pad := if r.units.length % 2 = 0 then r.units else r.units ++ [0]
  let s := s.ringWords (t * 2) (r.q0 :: r.q1 :: pad)
  let s := s.setFld f_REH_RTAIL_INDEX 0 ((t + r.size) % 2 ^ 32)
  let s := { s with reh := { s.reh with mirror := ((r.q0, r.q1) :: s.reh.mirror).take 1024, mirrored := s.reh.mirrored + 1 } }
  s.bump .REH_RECORDS 0 1

/-- The next value of the sequence (R437). -/
def State.seq (s : State) : Nat := s.fld f_REH_STAT_SEQ 0

/-- Discard every agent's open chunk: no chunks run any more (R445, R448). -/
def State.dropChunks (s : State) : State :=
  { s with cores := s.cores.map (fun k => { k with chunk := {} }),
           clusters := s.clusters.map (fun k => { k with chunk := {} }), reh := { s.reh with queue := [] } }

/-- A full ring under DROP (R445): a GAP record, STOPPED, source 112, and no more chunks. -/
def State.ringDrop (s : State) : State :=
  let s := s.putRecord { q0 := recQ0 8 0 0 false 0 (s.seq - 1), q1 := s.time % 2 ^ 64 }
  let s := (s.setFld f_REH_STAT_STOPPED 0 1).setFld f_REH_STAT_ACTIVE 0 0
  let s := s.bump .REH_GAPS 0 1
  s.dropChunks.cueEvent 112

/-- End an agent's chunk (R434): it joins the chunks that wait to commit. `after` is the INTR record that its event
adds (R442). A chunk with no event and no record is not written. -/
def State.endChunk (s : State) (a cause : Nat) (after : List Recd) : State :=
  if !s.recording then s
  else
    let k := s.chunkOf a
    let stepped := a < 256 && (s.core a).psw.step
    let e : Ended := { agent := a, cause := cause, len := k.len, ret := k.ret, num := k.num + 1, recs := k.recs,
                       steps := if stepped then some k.steps else none, after := after }
    let s := s.modChunk a (fun k => { k with reads := [], writes := [], len := 0, recs := [], due := none,
                                             isUnsafe := false, num := k.num + 1 })
    { s with reh := { s.reh with queue := s.reh.queue ++ [e] } }

/-- The records of an ended chunk in order (R442): its own, CHUNK, INTR, HASH when one is due (R441). -/
def Ended.records (e : Ended) (seq hashInt : Nat) (hash : W64) : List Recd :=
  let st := match e.steps with | some n => [n, 0] | none => []
  let chunk : Recd := { q0 := recQ0 0 e.agent (st.length / 2) false 0 seq,
                        q1 := e.cause % 16 * 2 ^ 60 + (e.len + 4095) % 4096 * 2 ^ 48 + e.ret % 2 ^ 48, units := st }
  let body := if e.len = 0 && e.recs.isEmpty then [] else e.recs ++ [chunk]
  let h := if hashInt != 0 && e.num % hashInt == 0 then [mkRec 6 e.agent 0 seq hash.toNat] else []
  body ++ e.after ++ h

/-- Replay stops (R452): every agent is held, RPSTAT shows why, Cue source 112 and an event-trace entry. -/
def State.replayStop (s : State) (code cause agent seq : Nat) : State :=
  let s := match s.reh.cur with
    | some (a, _) => s.modChunk a (fun k => { k with left := 0, stepGoal := 0 })
    | none => s
  let s := s.setFld f_REH_RPSTAT_CODE 0 code
  let s := s.setFld f_REH_RPSTAT_CAUSE 0 cause
  let s := s.setFld f_REH_RPSTAT_AGENT 0 agent
  let s := s.setFld f_REH_RPSTAT_SEQ 0 seq
  (s.traceE 3 112 0 (code * 16 + cause)).cueEvent 112

/-- Under RECORD and REPLAY a new CHUNK or HASH record must equal the record of its SEQ in the old log (R453). -/
def State.verifyRec (s : State) (r : Recd) : State :=
  let type := r.q0 / 2 ^ 60 % 16
  if !(s.mode mREPLAY) || !(type == 0 || type == 6) then s
  else
    match s.reh.old.find? (fun x => x.q0 / 2 ^ 60 % 16 == type && x.q0 % 2 ^ 40 == r.q0 % 2 ^ 40) with
    | some x => if x = r then s else s.replayStop 6 3 (r.q0 / 2 ^ 51 % 512) (r.q0 % 2 ^ 40)
    | none => s.replayStop 6 3 (r.q0 / 2 ^ 51 % 512) (r.q0 % 2 ^ 40)

/-- The first ended chunk commits (R437, R445): its records are logged with the next SEQ. With a full ring it waits under
STALL, and the session stops under DROP. The running hash of R441 is a free value (log entry 5). -/
def State.commitChunk (s : State) : State :=
  match s.reh.queue with
  | [] => s
  | e :: rest =>
    let (h, s1) := s.fresh
    let rs := e.records s.seq (s.fld f_REH_HASHINT_CHUNKS 0) h
    let n := (rs.map Recd.size).sum
    if s.ringRoom n then
      let s := if (s.fld f_REH_HASHINT_CHUNKS 0) = 0 then s else s1
      let s := rs.foldl (fun (s : State) r => (s.putRecord r).verifyRec r) s
      let s := if e.len = 0 && e.recs.isEmpty then s else s.setFld f_REH_STAT_SEQ 0 ((s.seq + 1) % 2 ^ 40)
      let s := if e.agent < 256 then s.bump .CORE_CHUNKS e.agent 1 else s
      { s with reh := { s.reh with queue := rest } }
    else if s.flag f_REH_CTL_OVF 0 then s.ringDrop
    else s

/-- Commit ended chunks while the ring takes them. -/
def State.commitAll (fuel : Nat) (s : State) : State :=
  match fuel with
  | 0 => s
  | fuel + 1 =>
    match s.reh.queue with
    | [] => s
    | _ :: _ => State.commitAll fuel s.commitChunk

/-- Under REPLAY an agent waits for its next chunk: its events and step boundaries have run (R450). -/
def State.replayHeld (s : State) (k : Chunk) : Bool := s.mode mREPLAY && k.left == 0 && k.stepGoal ≤ k.steps

/-- An agent may issue under RECORD: no chunk of it is due to end or waits to commit. -/
def State.chunkFree (s : State) (a : Nat) : Bool :=
  !s.recording || ((s.chunkOf a).due.isNone && !(s.reh.queue.any (fun e => e.agent == a)))

/-- END of the chunk that is replayed. -/
def State.curEnd (s : State) : Nat := match s.reh.cur with | some (_, r) => r.q1 / 2 ^ 60 % 16 | none => 0

/-- SEQ of the chunk that is replayed. -/
def State.curSeq (s : State) : Nat := match s.reh.cur with | some (_, r) => r.q0 % 2 ^ 40 | none => 0

/-- Under REPLAY one of the events to run has run (R450); one that the records place elsewhere stops the replay, CAUSE STREAM
(R452). -/
def State.replayEvent (s : State) (a : Nat) (halts : Bool) : State :=
  let k := s.chunkOf a
  let last := k.left == 1 && k.stepGoal == 0
  let e := s.curEnd
  let bad := k.left == 0 || (k.isUnsafe != (last && e == 4)) || (halts != (last && e == 5))
  let s := s.modChunk a (fun k => { k with left := k.left - 1, isUnsafe := k.isUnsafe && s.recording, steps := 0 })
  if bad then s.replayStop 6 2 a s.curSeq else s

/-- An event has retired in an agent's chunk (R434): its length and the END cause then due. -/
def State.chunkEvent (s : State) (a : Nat) (halts : Bool) : State :=
  let s := if s.mode mREPLAY then s.replayEvent a halts else s
  if !s.recording then s
  else s.modChunk a (fun k =>
    let n := k.len + 1
    { k with len := n, ret := k.ret + 1, steps := 0,
             due := if 4096 ≤ n then some 0 else if k.isUnsafe then some 4 else if halts then some 5 else none })

/-- Agents, other than one, whose chunk holds a line in conflict with an access (R435, R293). -/
def State.chunkHolders (s : State) (a line : Nat) (write : Bool) : List Nat :=
  let hits (k : Chunk) : Bool := k.writes.contains line || (write && k.reads.contains line)
  ((List.range s.nCores).filter (fun c => c != a && hits (s.core c).chunk)) ++
    ((List.range s.nClusters).filter (fun q => 256 + q != a && hits (s.cluster q).chunk)).map (fun q => 256 + q)

/-- Truncate the chunks that conflict with an access of agent `a` (512 for one that is not recorded) (R435). -/
def State.truncate (s : State) (a line : Nat) (write : Bool) : State :=
  if !s.recording then s
  else (s.chunkHolders a line write).foldl (fun s h => (s.endChunk h 1 []).bump .REH_TRUNC 0 1) s

/-- A recorded agent's access to a line (R433-R435): conflicting chunks are truncated, a chunk that would exceed the limits
of R290 ends with cause CAPACITY, and the line joins the chunk's sets. -/
def State.noteChunk (s : State) (a line : Nat) (write : Bool) : State :=
  if !s.recording then s
  else
    let s := s.truncate a line write
    let k := s.chunkOf a
    let full := if write then !(k.writes.contains line) && decide (1024 ≤ k.writes.length)
      else !(k.reads.contains line) && decide (4096 ≤ k.reads.length)
    let s := if full then s.endChunk a 2 [] else s
    s.modChunk a (fun k => if write
      then { k with writes := if k.writes.contains line then k.writes else line :: k.writes }
      else { k with reads := if k.reads.contains line then k.reads else line :: k.reads })

/-- A cluster cache gives up a line that chunks of its cluster hold: they end with cause CAPACITY (R434). -/
def State.chunkGive (s : State) (cl line : Nat) : State :=
  if !s.recording then s
  else ((List.range 8).map (fun i => 8 * cl + i) ++ [256 + cl]).foldl (fun s a =>
    if (s.chunkOf a).writes.contains line || (s.chunkOf a).reads.contains line then s.endChunk a 2 [] else s) s

/-- An external event that changes device memory or a doorbell (R437, R438, R445): ended chunks commit first, then its
record is logged at the next SEQ. None where it must wait for room under STALL. `f` builds the record from SEQ. -/
def State.external (s : State) (f : Nat → Recd) : Option State :=
  if !s.recording then some s
  else
    let s := s.commitAll (s.reh.queue.length)
    let r := f s.seq
    if !s.recording then some s
    else if s.reh.queue.isEmpty && s.ringRoom r.size then
      some ((s.putRecord r).setFld f_REH_STAT_SEQ 0 ((s.seq + 1) % 2 ^ 40))
    else if s.flag f_REH_CTL_OVF 0 then some s.ringDrop
    else none

/-- The outcome of a Scene is logged and traced (R308, R436, R438, R455). -/
def State.noteScene (s : State) (c : Nat) (stat : W64) : State :=
  let s := s.note c (mkRec 5 c 0 ((s.core c).chunk.len % 2 ^ 13) stat.toNat)
  s.traceI c 6 (s.core c).pc (bits stat 31 28 * 16 + bits stat 3 0)

end Sys2Proof.Machine
end

