-- ==== Sys2Proof/Machine/Tour.lean ====
section
/-! DEFINITION. Sending on the tour fabric: routing (R366, R367), lanes and credits (R360, R368), the replay buffer (R361) and
reliable messages (R376). -/

namespace Sys2Proof.Machine

open Sys2Proof

/-- The VC of a message type (R364). -/
def msgVc (t : Nat) : Nat :=
  if t == 1 || t == 3 then 0
  else if t == 2 || t == 4 || t == 8 || t == 9 then 1
  else if 0x10 ≤ t && t ≤ 0x16 then 2
  else 3

/-- Types that are sequenced end to end (R364). -/
def reliable (t : Nat) : Bool := (5 ≤ t && t ≤ 8) || (0x12 ≤ t && t ≤ 0x14) || t == 0x20

/-- H0 of a message (R363). -/
def Msg.h0 (m : Msg) : Nat :=
  m.type % 256 * 2 ^ 56 + m.ttl % 64 * 2 ^ 50 + m.dest % 2 ^ 14 * 2 ^ 36 + m.src % 2 ^ 14 * 2 ^ 22 + msgVc m.type * 2 ^ 20
    + b2n m.dl * 2 ^ 19 + b2n m.dist * 2 ^ 18 + m.units.length % 32 * 2 ^ 13

/-- H1 of a message (R363). -/
def Msg.h1 (m : Msg) : Nat := m.tag % 2 ^ 32 * 2 ^ 32 + m.arg % 2 ^ 32

/-- A message from its header and units (R363). -/
def Msg.ofWords (h0 h1 : W64) (units : List TWord) : Msg :=
  { type := bits h0 63 56, dest := bits h0 49 36, src := bits h0 35 22, ttl := bits h0 55 50, dl := bit h0 19, dist := bit h0 18,
    tag := bits h1 63 32, arg := bits h1 31 0, units := units }

/-- A wake event (R467, R469): in Dark the device wakes for it; a Dark entry before its commit point is abandoned. -/
def State.wakeEvent (s : State) (cause : Nat) : State :=
  if s.status == 5 then
    if s.clk.wake.isNone then { s with clk := { s.clk with wake := some cause, rcAt := s.time } } else s
  else if s.clk.dark then
    (({ s with clk := { s.clk with dark := false } } : State).setFld f_PWR_STAT_BUSY 0 0).setFld f_PWR_STAT_RES 0 2
  else s

/-- The link layer of port p. -/
def State.port (s : State) (p : Nat) : PortSt := s.tour.ports.getD p {}

/-- Change the link layer of port p. -/
def State.modPort (s : State) (p : Nat) (f : PortSt → PortSt) : State :=
  { s with tour := { s.tour with ports := modAt s.tour.ports p f } }

/-- Port p is UP (R358). -/
def State.portUp (s : State) (p : Nat) : Bool := decide (p < s.nPorts) && s.fld f_TOUR_PSTAT_STATE p == 5

/-- Flits of a message (R363): units beyond the first flit's 10, or 8 when sealed, need a second. -/
def State.flitsOf (s : State) (p : Nat) (m : Msg) : Nat :=
  if (if s.flag f_TOUR_PSTAT_SEALED p then 8 else 10) < m.units.length then 2 else 1

/-- The lane of a message among the eight of a port: VC, then lower or upper (R368). -/
def Msg.lane (m : Msg) : Nat := msgVc m.type * 2 + b2n m.dl

/-- Put the flits of a message on the link (R360, R361): they stay in the replay buffer until acknowledged. -/
def State.putFlits (s : State) (p : Nat) (m : Msg) : State :=
  (List.range (s.flitsOf p m)).foldl (fun s i =>
    let q := s.port p
    let s := s.modPort p (fun q => { q with
      seq := (q.seq + 1) % 4096
      keyed := q.keyed + 1
      replay := q.replay ++ [(q.seq, m, i)]
      credit := q.credit.set m.lane (q.credit.getD m.lane 0 - 1)
      ackAt := if q.replay.isEmpty then s.time else q.ackAt })
    { s with wire := .flit p (1 + i) q.seq q.good (some (m, i)) :: s.wire }) s

/-- Send what the credits and the replay buffer allow, in order within each lane (R361, R368). -/
def State.pumpPort (s : State) (p : Nat) : State :=
  let go (a : State × List Msg × List Nat) (m : Msg) : State × List Msg × List Nat :=
    let (s, kept, shut) := a
    let n := s.flitsOf p m
    let q := s.port p
    if shut.contains m.lane || q.credit.getD m.lane 0 < n || 256 < q.replay.length + n then (s, kept ++ [m], m.lane :: shut)
    else (s.putFlits p m, kept, shut)
  let (s', kept, _) := (s.port p).queue.foldl go (s, [], [])
  s'.modPort p (fun q => { q with queue := kept })

/-- Hand a message to a port; flits that find no credit are counted (R377). -/
def State.portSend (s : State) (p : Nat) (m : Msg) : State :=
  let s := s.modPort p (fun q => { q with
    queue := q.queue ++ [m]
    creditAt := if q.queue.any (fun x => msgVc x.type == msgVc m.type) then q.creditAt else q.creditAt.set (msgVc m.type) s.time })
  let s := s.pumpPort p
  if (s.port p).queue.contains m then s.bump .TOUR_CRWAIT p (s.flitsOf p m) else s

/-- The port and its wrap bit that the routing table gives a destination (R367). -/
def State.route (s : State) (dest : Nat) : Option (Nat × Bool) :=
  let r := s.reg .TOUR_RT dest
  if !(bit r 63) then none
  else if s.portUp (bits r 3 0) then some (bits r 3 0, bit r 9)
  else if bit r 11 && s.portUp (bits r 7 4) then some (bits r 7 4, bit r 10)
  else none

/-- The lane after crossing into a port (R368): upper over a wrap link, back to lower on a turn into another dimension. -/
def State.laneInto (s : State) (inp : Option Nat) (out : Nat) (wrap old : Bool) : Bool :=
  match inp with
  | none => wrap
  | some p => if s.fld f_TOUR_PCTL_DIM p == s.fld f_TOUR_PCTL_DIM out then old || wrap else wrap

/-- A message waits to be delivered to this node. -/
def State.toSelf (s : State) (m : Msg) : State := { s with tour := { s.tour with loop := s.tour.loop ++ [m] } }

/-- Forward a message (R366, R367): `inp` is the port it came on. Without a route a request is answered NOROUTE, a reliable
message is left to its origin's retransmission, and any other message is discarded and counted. -/
def State.forward (s : State) (inp : Option Nat) (m : Msg) : State :=
  let m' := if inp.isSome then { m with ttl := m.ttl - 1 } else m
  let bad (s : State) : State :=
    if msgVc m.type == 0 then
      let r : Msg := { type := m.type + 1, dest := m.src, src := s.node, dist := m.dist, tag := m.tag, arg := 6 }
      if m.src == s.node then s.toSelf r
      else
        match s.route m.src with
        | some (p, w) => s.portSend p { r with dl := w }
        | none => s.bump .TOUR_NOROUTE 0 1
    else if reliable m.type then s
    else s.bump .TOUR_NOROUTE 0 1
  if inp.isSome && m.ttl == 0 then bad s
  else
    match s.route m.dest with
    | some (p, w) => s.portSend p { m' with dl := s.laneInto inp p w m.dl }
    | none => bad s

/-- Send an unreliable message from this node (R369 for its own node, R451 under REPLAY). -/
def State.sendMsg (s : State) (m : Msg) : State :=
  if s.mode mREPLAY then s.bump .REH_LIVEDROP 0 1
  else if m.dest == s.node then s.toSelf m
  else s.forward none m

/-- The peer's sequence state becomes the latest used. -/
def State.putPeer (s : State) (p : Peer) : State :=
  { s with tour := { s.tour with peers := p :: s.tour.peers.filter (fun x => x.node != p.node) } }

/-- Sequence state for a node (R376): its own, a free one, or that of the least recently used peer that has no
unacknowledged message. -/
def State.peerFor (s : State) (node : Nat) : Option (Peer × State) :=
  match s.tour.peers.find? (fun p => p.node == node) with
  | some p => some (p, s)
  | none =>
    if s.tour.peers.length < 1024 then some ({ node := node }, s)
    else
      match (s.tour.peers.filter (fun p => p.flights.isEmpty)).getLast? with
      | some v => some ({ node := node }, { s with tour := { s.tour with peers := s.tour.peers.filter (fun x => x.node != v.node) } })
      | none => none

/-- A reliable message can be taken at once (R376, R377). -/
def State.peerFree (s : State) (node : Nat) : Bool := node == s.node || (s.peerFor node).isSome

/-- Send a reliable message (R376): it takes the next sequence of its destination and stays until acknowledged; without
sequence state it waits (R377). -/
def State.sendReliable (s : State) (m : Msg) (core : Option (Nat × Bool)) : State :=
  if s.mode mREPLAY then s.bump .REH_LIVEDROP 0 1
  else if m.dest == s.node then s.toSelf m
  else
    match s.peerFor m.dest with
    | none => { s with tour := { s.tour with wait := s.tour.wait ++ [{ msg := m, sent := s.time, tries := 0, core := core }] } }
    | some (p, s) =>
      let m := { m with tag := p.nextTx }
      let s := s.putPeer { p with nextTx := (p.nextTx + 1) % 2 ^ 32,
                                  flights := p.flights ++ [{ msg := m, sent := s.time, tries := 0, core := core }] }
      s.forward none m

/-- Reliable messages that waited for sequence state are sent where there is some now. -/
def State.retryWaiting (s : State) : State :=
  let l := s.tour.wait
  l.foldl (fun (s : State) (f : Flight) => s.sendReliable f.msg f.core) { s with tour := { s.tour with wait := [] } }

/-- Record the outcome of a distributed Scene (R379): the latest 1,024 are kept. 0 pending, 1 committed, 2 aborted. -/
def State.logOutcome (s : State) (id : W64) (res : Nat) : State :=
  { s with tour := { s.tour with outcomes := ((id, res) :: s.tour.outcomes.filter (fun x => x.1 != id)).take 1024 } }

/-- Cores that wait for a held line issue again (R305, R306). -/
def State.wakeLines (s : State) : State :=
  { s with cores := s.cores.map (fun k => match k.wait with
      | some (.line _) => { k with wait := none }
      | _ => k) }

/-- The participant slot with a Scene ID (R304). -/
def State.slotOf (s : State) (id : W64) : Option Slot := s.tour.slots.find? (fun x => x.id == id)

/-- Replace or add a slot. -/
def State.putSlot (s : State) (x : Slot) : State :=
  { s with tour := { s.tour with slots := x :: s.tour.slots.filter (fun y => y.slot != x.slot) } }

/-- Free a slot; requests that waited on its lines go on. -/
def State.freeSlot (s : State) (x : Slot) : State :=
  ({ s with tour := { s.tour with slots := s.tour.slots.filter (fun y => y.slot != x.slot) } } : State).wakeLines

/-- Lines a slot has read or written (R304). -/
def Slot.lines (x : Slot) : List Nat := (x.reads ++ x.writes.map (fun w => lineOf w.1)).dedup

/-- Origin node, core and age of a Scene ID (R364). -/
def idNode (id : W64) : Nat := bits id 63 50
def idCore (id : W64) : Nat := bits id 49 42
def idAge (id : W64) : Nat := bits id 41 0

/-- A participant slot loses (R304): it is discarded and an abort notice goes to the origin. -/
def State.slotLoses (s : State) (x : Slot) (kind : Nat) : State :=
  let s := s.freeSlot x
  s.sendReliable { type := 0x14, dest := idNode x.id, src := s.node, units := [fixW x.id, fixN kind] } none

end Sys2Proof.Machine
end

