-- ==== Sys2Proof/Machine/Cache.lean ====
section
/-! DEFINITION. Scene abort and arbitration (R285, R290-R296), frame caches, cluster caches and the Usher (R244-R269).
Memory holds the current value of every word; `home` holds the older value of a word whose line is dirty in a cache. -/

namespace Sys2Proof.Machine

open Sys2Proof

/-- The kinds of agent that make coherent accesses (R246, R286, R295). -/
inductive Agent where
  | core (c : Nat)
  | engine (cl : Nat)
  | host
  | tour (node : Nat)
  | slot (i : Nat)
  | unit (cl : Nat) (c : Nat)
  | chunk (c : Nat)
  deriving DecidableEq, Repr

/-- Cluster of an agent, through whose cluster cache it works (R246). -/
def Agent.cluster (a : Agent) : Option Nat :=
  match a with
  | .core c => some (clusterOf c)
  | .engine cl => some cl
  | .unit cl _ => some cl
  | .chunk c => some (clusterOf c)
  | .host => none
  | .tour _ => none
  | .slot _ => none

/-- Who holds lines in a Scene's name: a core of this device, or a participant slot that serves a remote Scene (R304). -/
inductive Holder where
  | core (c : Nat)
  | slot (i : Nat)
  deriving DecidableEq, Repr

/-- The Scene in which an agent's access is made, if any: a core in a Scene, a unit serving one (R288), or a slot. -/
def State.inScene (s : State) (a : Agent) : Option Holder :=
  match a with
  | .core c => if (s.core c).psw.sc then some (.core c) else none
  | .unit _ c => if (s.core c).psw.sc then some (.core c) else none
  | .slot i => some (.slot i)
  | _ => none

/-- The slot with a number. -/
def State.slotNo (s : State) (i : Nat) : Option Slot := s.tour.slots.find? (fun x => x.slot == i)

/-- KIND and number of a winner (R286). -/
def winner (inSc : Bool) (a : Agent) : Nat × Nat :=
  match a with
  | .core c => (if inSc then 0 else 1, c)
  | .engine cl => (2, cl)
  | .host => (3, 0)
  | .tour _ => (4, 0)
  | .slot _ => (0, 0)
  | .unit _ _ => (if inSc then 0 else 5, 0)
  | .chunk _ => (6, 0)

/-- Why a Scene aborts: code, DETAIL, NODE, ARG (R286, R298), CORE.SCFA, the line for CORE.SCLINE, and whether the
winner runs in the Backstage world (R287). -/
structure Doom where
  code : Nat
  detail : Nat := 0
  node : Nat := 0
  arg : Nat := 0
  fa : Nat := 0
  line : Option Nat := none
  hide : Bool := false
  deriving DecidableEq, Repr

/-- AV after an abort (R296). -/
def Doom.av (d : Doom) : Bool := d.code == 1 || ((d.code == 2 || d.code == 3) && d.detail != 0)

/-- The age of the core's active Scene (CORE.SCAGE, R296). -/
def State.sceneAge (s : State) (c : Nat) : Nat := (s.reg .CORE_SCAGE c).toNat

/-- The Scene ID of a core's Scene (R364). -/
def State.sceneId (s : State) (c : Nat) : W64 :=
  w64 (s.node % 2 ^ 14 * 2 ^ 50 + c % 256 * 2 ^ 42 + s.sceneAge c % 2 ^ 42)

/-- A distributed Scene has aborted (R305 step 6, R379): ABORT goes to every participant, its outcome is kept, and requests
that waited on its lines go on. -/
def State.abandon (s : State) (id : W64) (nodes : List Nat) : State :=
  if nodes.isEmpty then s
  else
    let s := nodes.foldl (fun s n => s.sendReliable { type := 0x13, dest := n, src := s.node, units := [fixW id] } none) s
    (s.logOutcome id 2).wakeLines

/-- Complete the abort of the core's active Scene (R285 steps 1-4): the change of a shadow writer that has retired stands (R147),
pending results and the write set are dropped, the checkpoint is restored, PSW.SC, SS, STEP, DS, REPP and the depth are cleared, SCENESTAT, CORE.SCFA, CORE.SCLINE and the
counters are written, and the core continues at the handler. -/
def State.abortScene (s : State) (c : Nat) (d : Doom) (forced : Bool) : State :=
  let k := (s.core c).applyShadow
  match k.psw.sc, k.scene.ck with
  | true, some ck =>
    let st := SceneStat.pack { node := d.node, arg := d.arg, detail := d.detail, depth := k.psw.depth,
                               dist := !k.scene.nodes.isEmpty, short := k.psw.ss, forced := forced, code := d.code }
    let k' : Core := { k with
      pc := ck.handler
      psw := { k.psw with sc := false, ss := false, step := false, ds := false, repp := false, depth := 0, lp := ck.lp }
      stk := ck.stk
      sr := { k.sr with lc := ck.sr.lc, ls := ck.sr.ls, le := ck.sr.le, ab := ck.sr.ab, al := ck.sr.al,
                        pg0 := ck.sr.pg0, pg1 := ck.sr.pg1, pg2 := ck.sr.pg2, pg3 := ck.sr.pg3,
                        iob := ck.sr.iob, trb := ck.sr.trb, trl := ck.sr.trl }
      pend := []
      wins := []
      newWins := []
      hostBuf := []
      spills := []
      wait := none
      micro := none
      ev := { k.ev with stepDue := false }
      scene := { k.scene with ck := none, stat := st, av := d.av, reads := [], wbuf := [], count := 0, nodes := [],
                              phase := 0, yes := [], hideWin := d.hide } }
    let s := s.modCore c (fun _ => k')
    let s := s.setReg .CORE_SCFA c (w64 (d.fa % 2 ^ 48))
    let s := match d.line with
      | some l => s.setReg .CORE_SCLINE c (w64 (2 ^ 63 + l * 8 % 2 ^ 48))
      | none => s
    let s := s.bump .CORE_SCABORT c 1
    let s := if d.code == 1 then s.bump .CORE_SCCONF c 1 else s
    let s := s.abandon (s.sceneId c) k.scene.nodes
    let s := { s with col := { s.col with pacing := if k.psw.step then s.col.pacing.filter (fun x => x != c) else s.col.pacing } }
    s.noteScene c st
  | _, _ => s

/-- Core a's Scene is older than core b's on this device (R294): smaller age, then lower core number. -/
def State.older (s : State) (a b : Nat) : Bool :=
  s.sceneAge a < s.sceneAge b || (s.sceneAge a == s.sceneAge b && a < b)

/-- Age, node and core by which a Scene is ordered (R294); a Scene ID carries its age modulo 2^42 ns (R364). -/
def State.rank (s : State) (h : Holder) : Nat × Nat × Nat :=
  match h with
  | .core c => (s.sceneAge c % 2 ^ 42, s.node, c)
  | .slot i => match s.slotNo i with
    | some x => (idAge x.id, idNode x.id, idCore x.id)
    | none => (2 ^ 42, 0, 0)

/-- Holder a's Scene is older than b's (R294). -/
def State.olderH (s : State) (a b : Holder) : Bool :=
  match a, b with
  | .core x, .core y => s.older x y
  | _, _ =>
    let (p, q, r) := s.rank a
    let (u, v, w) := s.rank b
    p < u || (p == u && (q < v || (q == v && r < w)))

/-- Lines written by a core's Scene (R288). -/
def Core.wlines (k : Core) : List Nat := (k.scene.wbuf.map (fun x => lineOf x.1)).dedup

/-- The Scenes that conflict with an access to a line (R293, R304). -/
def State.conflicting (s : State) (me : Option Holder) (line : Nat) (write : Bool) : List Holder :=
  let cores := (List.range s.nCores).filter fun h =>
    let k := s.core h
    k.psw.sc && !(me == some (.core h)) &&
      ((k.wlines.contains line && (write || me.isSome)) || (write && k.scene.reads.contains line))
  let slots := s.tour.slots.filter fun x =>
    !(me == some (.slot x.slot)) &&
      ((x.writes.any (fun w => lineOf w.1 == line) && (write || me.isSome)) || (write && x.reads.contains line))
  cores.map Holder.core ++ slots.map (fun x => Holder.slot x.slot)

/-- The oldest of a list of Scenes. -/
def State.oldest (s : State) : List Holder → Option Holder
  | [] => none
  | h :: l => match s.oldest l with
    | none => some h
    | some g => if s.olderH g h then some g else some h

/-- A Scene holds its lines for a distributed commit (R305 step 3). -/
def State.holding (s : State) (h : Holder) : Bool :=
  match h with
  | .core c => (s.core c).scene.phase == 1
  | .slot i => (s.slotNo i).any (fun x => x.voted)

/-- Doom a Scene by a conflict (R294, R295, R304): `kind` is the winner's. -/
def State.loseTo (s : State) (d : Doom) (kind : Nat) (h : Holder) : State :=
  match h with
  | .core c => s.abortScene c d false
  | .slot i => match s.slotNo i with
    | some x => s.slotLoses x kind
    | none => s

/-- NODE and ARG that name a Scene as the winner (R286). -/
def State.nameScene (s : State) (h : Holder) : Nat × Nat × Bool :=
  match h with
  | .core c => (s.node, c % 256, (s.core c).psw.w)
  | .slot i => match s.slotNo i with
    | some x => (idNode x.id, idCore x.id, false)
    | none => (s.node, 0, false)

/-- Outcome of arbitration: the access proceeds, the requester's own Scene is doomed, or the line is held by a
distributed commit and the request waits (R294, R295, R305). -/
inductive Verdict where
  | go (s : State)
  | lose (d : Doom)
  | waitOn (line : Nat)

/-- Microcode of another core holds the line between RMWRD and RMWWR (R160). -/
def State.microHeld (s : State) (a : Agent) (line : Nat) : Bool :=
  s.cores.any (fun k => k.micro.any (fun u => u.hold == some line)) &&
    !(match a with | .core c => (s.core c).micro.any (fun u => u.hold == some line) | _ => false)

/-- Arbitration of one request for a line against the Scenes (R293-R295, R304, R305 step 3); under REPLAY Scenes are not
arbitrated (R308). -/
def State.arbitrate (s : State) (a : Agent) (line : Nat) (write : Bool) : Verdict :=
  let me := s.inScene a
  let hs := if s.mode mREPLAY then [] else s.conflicting me line write
  if hs.any s.holding || (write && s.microHeld a line) then .waitOn line
  else
    match me with
    | none =>
      let (kind, n) := winner false (match a with | .core c => if s.recording then .chunk c else .core c | a => a)
      let node := match a with | .tour nd => nd | _ => s.node
      let hide := match a with | .core c => (s.core c).psw.w | .unit _ c => (s.core c).psw.w | _ => false
      .go (hs.foldl (fun s h => s.loseTo { code := 1, node := node, arg := kind * 256 + n, line := some line, hide := hide } kind h) s)
    | some m =>
      match s.oldest (hs.filter (fun h => s.olderH h m)) with
      | some h =>
        let (nd, n, hide) := s.nameScene h
        .lose { code := 1, node := nd, arg := n, line := some line, hide := hide }
      | none =>
        let (nd, n, hide) := s.nameScene m
        .go (hs.foldl (fun s h => s.loseTo { code := 1, node := nd, arg := n, line := some line, hide := hide } 0 h) s)

/-- State of a line in a core's D-frames (R245, R247). -/
def Core.dstate (k : Core) (line : Nat) : Mesi :=
  match k.mem.dframes.find? (fun f => f.base == line / 4) with
  | some f => f.st.getD (line % 4) .inv
  | none => .inv

/-- Set the state of a line in the core's D-frames where a frame holds it. -/
def Core.setDstate (k : Core) (line : Nat) (m : Mesi) : Core :=
  { k with mem := { k.mem with dframes := (k.mem.dframes.map (fun f =>
      if f.base == line / 4 then { f with st := f.st.set (line % 4) m } else f)) |>.filter (fun f =>
        f.st.any (fun x => x != .inv)) } }

/-- State of a line in a cluster cache (R260). -/
def Cluster.cstate (k : Cluster) (line : Nat) : Mesi :=
  match k.lines.find? (fun x => x.line == line) with
  | some x => x.st
  | none => .inv

/-- The cores of a cluster. -/
def coresOf (cl : Nat) : List Nat := (List.range 8).map (fun i => 8 * cl + i)

/-- Some cache of the cluster holds the line (R260 duplicate tags). -/
def State.clHolds (s : State) (cl line : Nat) : Bool :=
  (s.cluster cl).cstate line != .inv || (coresOf cl).any (fun c => (s.core c).dstate line != .inv)

/-- Some cache of the cluster holds the line dirty. -/
def State.clDirty (s : State) (cl line : Nat) : Bool :=
  (s.cluster cl).cstate line == .mod || (coresOf cl).any (fun c => (s.core c).dstate line == .mod)

/-- The eight words of a line. -/
def lineWords (line : Nat) : List Nat := (List.range 8).map (fun i => line * 8 + i)

/-- The line's current value becomes its home value: a dirty line is written home (R245), for a host line by writes of its
dirty words to the host (R389). -/
def State.writeHome (s : State) (cl line : Nat) : State :=
  let out : List Wire := match place (line * 8) with
    | .host => (s.home.filter (fun x => lineOf x.1 == line)).map (fun x => Wire.hostWrite x.1 (s.rd x.1))
    | _ => []
  let s := { s with home := s.home.filter (fun x => lineOf x.1 != line), wire := out ++ s.wire }
  s.bump .CC_WB cl 1

/-- The home value replaces the current value: dirty data is lost (R272). -/
def State.dropDirty (s : State) (line : Nat) : State :=
  let olds := s.home.filter (fun x => lineOf x.1 == line)
  let s := olds.foldl (fun s x => s.wr x.1 x.2) s
  { s with home := s.home.filter (fun x => lineOf x.1 != line) }

/-- Set a line's state in a cluster cache where it holds the line. -/
def Cluster.setC (k : Cluster) (line : Nat) (m : Mesi) : Cluster :=
  { k with lines := (k.lines.map (fun x => if x.line == line then { x with st := m } else x)) |>.filter (fun x =>
      x.st != .inv) }

/-- Every copy of a line in a cluster takes a state (S on a downgrade, I on an invalidation). -/
def State.clSet (s : State) (cl line : Nat) (m : Mesi) : State :=
  let s := s.modCluster cl (fun k => k.setC line m)
  (coresOf cl).foldl (fun s c => s.modCore c (fun k => if k.dstate line == .inv then k else k.setDstate line m)) s

/-- A clean line is in no cache any more: its home value stands, where an uncorrectable error had put POISON into a cache alone
(R267). -/
def State.homeAgain (s : State) (line : Nat) : State :=
  if s.home.any (fun x => lineOf x.1 == line) && !((List.range s.nClusters).any (fun q => s.clHolds q line)) then s.dropDirty line
  else s

/-- The cluster gives a line up, dirty data first written home. -/
def State.clGiveUp (s : State) (cl line : Nat) : State :=
  if s.clDirty cl line then (s.writeHome cl line).clSet cl line .inv else (s.clSet cl line .inv).homeAgain line

/-- The cluster keeps a line read-only, dirty data first written home. -/
def State.clDemote (s : State) (cl line : Nat) : State :=
  let s := if s.clDirty cl line then s.writeHome cl line else s
  s.clSet cl line .shr

/-- The home slice handles a line that its owner has lost by a tag error (R269): it goes home as POISON, and the machine check MEMORY
is raised. -/
def State.foundLost (s : State) (line : Nat) : State :=
  if s.clusters.any (fun k => k.lost.contains line) then
    let s := { s with clusters := s.clusters.map (fun k => { k with lost := k.lost.filter (fun x => x != line) })
                      home := s.home.filter (fun x => lineOf x.1 != line)
                      dir := s.dir.filter (fun e => e.line != line) }
    ((lineWords line).foldl (fun (s : State) p =>
      let s := match place p with | .host => { s with wire := .hostWrite p wPOISON :: s.wire } | _ => s
      s.wr p wPOISON) s).backstageMc 6
  else s

/-- A home slice handles a request for a line (R264): MC.UREQ or HOST.UREQ counts it. -/
def State.countUreq (s : State) (line : Nat) : State :=
  let s := s.foundLost line
  match sliceOf line with
  | 4 => s.bump .HOST_UREQ 0 1
  | m => s.bump .MC_UREQ m 1

/-- A home slice has made a back-invalidation (R263). -/
def State.countUback (s : State) (line : Nat) : State :=
  match sliceOf line with
  | 4 => s.bump .HOST_UBACK 0 1
  | m => s.bump .MC_UBACK m 1

/-- Doom, for capacity, every Scene that holds a line: code 3 for a write-set line and code 2 for a read-set line
(R263, R291). -/
def State.doomHolders (s : State) (line detail : Nat) (p : Nat → Bool) : State :=
  (List.range s.nCores).foldl (fun s h =>
    let k := s.core h
    if p h && k.psw.sc then
      if k.wlines.contains line then s.abortScene h { code := 3, detail := detail, line := some line } false
      else if k.scene.reads.contains line then s.abortScene h { code := 2, detail := detail, line := some line } false
      else s
    else s) s

/-- A line is marked by a Scene of the given cores (R288). -/
def State.marked (s : State) (line : Nat) (p : Nat → Bool) : Bool :=
  (List.range s.nCores).any fun h => p h && (s.core h).psw.sc &&
    ((s.core h).wlines.contains line || (s.core h).scene.reads.contains line)

/-- The directory entry of a line. -/
def State.dirOf (s : State) (line : Nat) : Option DirE := s.dir.find? (fun e => e.line == line)

/-- Replace or add a directory entry; an entry with no holder is removed (R263), and a host line is then held no longer. -/
def State.setDir (s : State) (e : DirE) : State :=
  let rest := s.dir.filter (fun x => x.line != e.line)
  if e.owner.isNone && e.sharers.isEmpty then { s with dir := rest, held := s.held.erase e.line }
  else { s with dir := e :: rest }

/-- The bias table (R387): one bit for each page of 512 words of local datum storage, 1 in host bias. -/
def biasTable : Nat := 0x000423F00000

/-- A page is in host bias (R266, R387). -/
def State.hostBias (s : State) (p : Nat) : Bool := bit (s.rd (biasTable + p / 64)).datum (p % 64)

/-- A line that the host interface must first obtain from the host (R266): of the host window, or of a page in host bias that no
cluster caches. -/
def State.needsHost (s : State) (line : Nat) : Bool :=
  match place (line * 8) with
  | .host => !(s.held.contains line)
  | .loc => (s.dirOf line).isNone && s.hostBias (line / 64) && !(s.held.contains line)
  | _ => false

/-- The host interface asks the host for a line (R266, R389), once: the answer is HOST_READ_COMPLETION. -/
def State.askHost (s : State) (line : Nat) (own : Bool) : State :=
  if s.needsHost line && !(s.asked.contains line) then
    { s with asked := line :: s.asked, wire := .ask (line * 8) own :: s.wire }
  else s

/-- Words of a host line as the host gives them to an agent that cannot wait for its answer: free values (log entry 84, DESIGN
CHOICE). -/
def State.hostGives (n : Nat) (s : State) (pa : Nat) : State :=
  match n with
  | 0 => s
  | n + 1 =>
    let (v, s) := s.fresh
    State.hostGives n (s.wr pa (word tRAW v.toNat)) (pa + 1)

/-- The host interface obtains a line for an agent that cannot wait: the walker, an agent of the I/O tile (R266, R389). -/
def State.obtain (s : State) (line : Nat) : State :=
  if s.needsHost line then
    let s := s.askHost line false
    let s := match place (line * 8) with | .host => State.hostGives 8 s (line * 8) | _ => s
    { s with held := line :: s.held, asked := s.asked.filter (fun x => x != line) }
  else s

/-- Recall a line from every cluster but one, writing dirty data home (R245, R265). -/
def State.recall (s : State) (line : Nat) (except : Option Nat) : State :=
  match s.dirOf line with
  | none => s
  | some e =>
    let holders := (e.owner.toList ++ e.sharers).filter (fun x => some x != except)
    let s := holders.foldl (fun s cl => s.clGiveUp cl line) s
    s.setDir { e with owner := e.owner.filter (fun x => some x == except),
                      sharers := e.sharers.filter (fun x => some x == except) }

/-- The lines that a core's Scene marks (R288). -/
def Core.marks (k : Core) : List Nat := if k.psw.sc then (k.wlines ++ k.scene.reads).dedup else []

/-- The lines that the Scenes of a cluster mark. -/
def State.marks (s : State) (cl : Nat) : List Nat := ((coresOf cl).flatMap (fun h => (s.core h).marks)).dedup

/-- The lines that the Scenes of the device mark. -/
def State.allMarks (s : State) : List Nat := ((List.range s.nCores).flatMap (fun h => (s.core h).marks)).dedup

/-- The youngest Scene of a cluster that marks one of some lines (R291). -/
def State.youngest (s : State) (cl : Nat) (l : List Nat) : Option Nat :=
  ((coresOf cl).filter (fun h => (s.core h).marks.any (fun x => l.contains x))).foldl (fun (v : Option Nat) h =>
    match v with
    | none => some h
    | some x => if s.older x h then some h else some x) none

/-- How a Scene that gives up its lines among `l` is doomed (R291): code 3 with a write-set line among them, else 2. -/
def Core.gives (k : Core) (l : List Nat) (detail : Nat) : Doom :=
  let w := k.wlines.filter (fun x => l.contains x)
  { code := if w.isEmpty then 2 else 3, detail := detail,
    line := (w ++ k.scene.reads.filter (fun x => l.contains x)).head? }

/-- The marked directory entry with the youngest record (R291), among some lines. -/
def State.youngEntry (s : State) (l : List Nat) : Nat :=
  let rec1 (x : Nat) : Nat := ((s.dirOf x).bind (fun e => e.oldest)).getD 0
  l.foldl (fun v x => if rec1 v < rec1 x then x else v) (l.headD 0)

/-- While every line of `l` is marked by Scenes of the cluster, its youngest Scene that marks one of them gives them up
(R291). -/
def State.freeMarks (fuel : Nat) (s : State) (cl : Nat) (l : List Nat) (detail : Nat) : State :=
  match fuel with
  | 0 => s
  | fuel + 1 =>
    if l.all (fun x => s.marked x (fun h => clusterOf h == cl)) then
      match s.youngest cl l with
      | none => s
      | some h => State.freeMarks fuel (s.abortScene h ((s.core h).gives l detail) false) cl l detail
    else s

/-- Make room for a new entry in its directory set (R263, R291): when 16 entries of the set are in use, a victim is
back-invalidated: the youngest-marked of a set whose entries are all marked, otherwise one chosen among the unmarked. -/
def State.dirRoom (s : State) (line : Nat) : State :=
  let peers := s.dir.filter (fun e => sliceOf e.line == sliceOf line && dirSet e.line == dirSet line)
  if peers.length < 16 then s
  else
    let free := peers.filter (fun e => !(s.marked e.line (fun _ => true)))
    let young := peers.foldl (fun (v : Option DirE) e => match v with
      | none => some e
      | some x => if x.oldest.getD 0 < e.oldest.getD 0 then some e else some x) none
    let victim := if free.isEmpty then young else free[Config.victim s.free % free.length]?
    match victim with
    | none => s
    | some e =>
      let s := { s with free := s.free + 1 }
      let s := s.doomHolders e.line 3 (fun _ => true)
      let s := s.recall e.line none
      s.countUback e.line

/-- Serve a request of a cluster at the line's home slice (R264): for a read the line becomes shared, or exclusive when
no other cluster holds it; for ownership every other holder gives it up, and its dirty data passes to the new owner, not home
(R245, R273). `age` is the requesting Scene's age (R291). -/
def State.usher (s : State) (cl line : Nat) (own : Bool) (age : Option Nat) : State :=
  let s := s.countUreq line
  let rec1 (o : Option Nat) : Option Nat := match o, age with
    | none, x => x
    | some a, none => some a
    | some a, some b => some (Nat.min a b)
  match s.dirOf line with
  | none =>
    let s := s.dirRoom line
    s.setDir { line := line, owner := some cl, sharers := [], oldest := age }
  | some e =>
    if own then
      let l := (e.owner.toList ++ e.sharers).filter (fun x => x != cl)
      let dirty := l.any (fun x => s.clDirty x line)
      let s := l.foldl (fun s x => s.clSet x line .inv) s
      let s := if dirty then s else s.homeAgain line
      s.setDir { line := line, owner := some cl, sharers := [], oldest := rec1 e.oldest }
    else
      match e.owner with
      | some o =>
        if o == cl then s.setDir { e with oldest := rec1 e.oldest }
        else
          let s := s.clDemote o line
          s.setDir { line := line, owner := none, sharers := [o, cl], oldest := rec1 e.oldest }
      | none =>
        s.setDir { e with sharers := if e.sharers.contains cl then e.sharers else cl :: e.sharers,
                          oldest := rec1 e.oldest }

/-- The cluster-cache set of a line (R290): pa bits [14:3]. -/
def ccSet (line : Nat) : Nat := line % 4096

/-- Ways that may be allocated: not disabled, and not rotated out by self-test (R261). -/
def State.ccWays (s : State) (cl : Nat) : List Nat :=
  (List.range 16).filter (fun w => !(bit (s.reg .CC_CTL cl) w) && (s.cluster cl).rot != some w)

/-- Allocate a line in a cluster cache (R260): a free way, or the victim's way: unmarked lines first, those held in no
frame first among them; only when every way is marked is the youngest Scene of the cluster that holds a line of the set
doomed (R291, DETAIL 1). A dirty victim is written home. A line that is held already stays as it is, or becomes dirty. Nothing is
allocated while CC.CTL.EN is 0 (R261). -/
def State.ccAlloc (s : State) (cl line : Nat) (m : Mesi) : State :=
  let k := s.cluster cl
  if k.cstate line != .inv then (if m == .mod then s.modCluster cl (fun k => k.setC line .mod) else s)
  else if !(s.flag f_CC_CTL_EN cl) then s
  else
    let peers := k.lines.filter (fun x => ccSet x.line == ccSet line)
    let ways := s.ccWays cl
    match ways.find? (fun w => !(peers.any (fun x => x.way == w))) with
    | some w => s.modCluster cl (fun k => { k with lines := { line := line, st := m, way := w } :: k.lines })
    | none =>
      let mine := fun h => clusterOf h == cl
      let cand := peers.filter (fun x => ways.contains x.way)
      let unm := cand.filter (fun x => !(s.marked x.line mine))
      let s := if unm.isEmpty then State.freeMarks 8 s cl (cand.map (fun x => x.line)) 1 else s
      let unm := cand.filter (fun x => !(s.marked x.line mine))
      let cold := unm.filter (fun x => !((coresOf cl).any (fun c => (s.core c).dstate x.line != .inv)))
      let pool := if !cold.isEmpty then cold else if !unm.isEmpty then unm else cand
      match pool[Config.victim s.free % (Nat.max pool.length 1)]? with
      | none => s
      | some v =>
        let s := { s with free := s.free + 1 }
        let s := s.chunkGive cl v.line
        let dirty := (s.cluster cl).cstate v.line == .mod
        let s := if dirty then s.writeHome cl v.line else s
        let s := s.modCluster cl (fun k =>
          { k with lines := { line := line, st := m, way := v.way } :: (k.lines.filter fun x => x.line != v.line) })
        if dirty then s else s.homeAgain v.line

/-- A cluster cache takes a line that leaves a frame in state m (R247, R260); dirty data that it cannot take is written home
(R250, R261). -/
def State.takeSector (s : State) (cl line : Nat) (m : Mesi) : State :=
  match m with
  | .inv => s
  | .mod =>
    let s := s.ccAlloc cl line .mod
    if (s.cluster cl).cstate line == .mod then s else s.writeHome cl line
  | m => s.ccAlloc cl line m

/-- Give up a D-frame (R247): its sectors go to the cluster cache. -/
def State.evictFrame (s : State) (c : Nat) (f : DFrame) : State :=
  let s := (List.range 4).foldl (fun s i => s.takeSector (clusterOf c) (f.base * 4 + i) (f.st.getD i .inv)) s
  s.modCore c (fun k => { k with mem := { k.mem with dframes := k.mem.dframes.filter (fun x => x.idx != f.idx) } })

/-- The lowest frame index neither holding a frame nor locked. -/
def Core.freeFrame (k : Core) : Option Nat :=
  (List.range 48).find? (fun i => !(k.mem.dframes.any (fun f => f.idx == i)) && !(k.mem.wings.any (fun w => w.frame == i)))

/-- Fill a line into the core's D-frames (R247): the frame is allocated whole, only the sector is filled. -/
def State.fillFrame (s : State) (c line : Nat) (m : Mesi) : State :=
  let k := s.core c
  match k.mem.dframes.find? (fun f => f.base == line / 4) with
  | some f =>
    let f' : DFrame := { f with st := f.st.set (line % 4) m }
    s.modCore c (fun k =>
      { k with mem := { k.mem with dframes := f' :: (k.mem.dframes.filter fun x => x.idx != f.idx) } })
  | none =>
    let new (i : Nat) : DFrame := { idx := i, base := line / 4, st := (List.replicate 4 Mesi.inv).set (line % 4) m }
    match k.freeFrame with
    | some i => s.modCore c (fun k => { k with mem := { k.mem with dframes := new i :: k.mem.dframes } })
    | none =>
      match k.mem.dframes[Config.victim s.free % (Nat.max k.mem.dframes.length 1)]? with
      | none => s
      | some v =>
        let s := { s with free := s.free + 1 }
        let s := s.evictFrame c v
        s.modCore c (fun k => { k with mem := { k.mem with dframes := new v.idx :: k.mem.dframes } })

/-- The cluster is recorded as the owner of a line (R263). -/
def State.owns (s : State) (cl line : Nat) : Bool := (s.dirOf line).any (fun e => e.owner == some cl)

/-- How a cluster's only copy of a clean line is held: E where the cluster owns the line, else S (R245). -/
def State.clean1 (s : State) (cl line : Nat) : Mesi := if s.owns cl line then .exc else .shr

/-- Every copy of a line in core c's cluster outside its own frames is given up; dirty data passes to the core (R245). -/
def State.othersGone (s : State) (c line : Nat) : State :=
  let cl := clusterOf c
  let s := s.modCluster cl (fun k => k.setC line .inv)
  (coresOf cl).foldl (fun s x => if x == c || (s.core x).dstate line == .inv then s
    else s.modCore x (fun k => k.setDstate line .inv)) s

/-- Place a line that a read has brought to a core (R245, R260): into its frame, every copy of the cluster then S, or E where no
other copy is left; a line that fills no frame stays in the cluster cache. `hit` says that the cluster held it. -/
def State.lineFill (s : State) (c line : Nat) (hit fill : Bool) : State :=
  let cl := clusterOf c
  if fill then
    let s := if hit then s.clDemote cl line else s.ccAlloc cl line .shr
    s.fillFrame c line (if s.clHolds cl line then .shr else s.clean1 cl line)
  else if hit then s
  else s.ccAlloc cl line (s.clean1 cl line)

/-- Bring a line to the core for reading (R245-R250, R260): a hit, or a miss served by the cluster or the home slice.
`alloc` is false for PFETCH; nothing fills a frame while CCTL.EN=0. The Boolean says whether it missed the frames. -/
def State.lineRead (s : State) (c line : Nat) (alloc : Bool) (age : Option Nat) : State × Bool :=
  let k := s.core c
  if k.dstate line != .inv then (s.fillFrame c line (k.dstate line), false)
  else
    let cl := clusterOf c
    let s := s.bump .CORE_DFMISS c 1
    let hit := s.clHolds cl line
    let s := if hit then s.bump .CC_HIT cl 1
      else (s.usher cl line false age).bump .CC_MISS cl 1
    (s.lineFill c line hit (alloc && bit (s.core c).sr.cctl 0), true)

/-- Bring a line to the core for writing (R245, R248, R260): M in its frame, every other copy given up, or M in the cluster
cache when it does not allocate. A fill from outside the cluster first takes a way of the cluster cache. -/
def State.lineOwn (s : State) (c line : Nat) (alloc : Bool) (age : Option Nat) : State × Bool :=
  let k := s.core c
  let cl := clusterOf c
  if k.dstate line == .mod then (s, false)
  else
    let had := k.dstate line != .inv
    let s := if had then s else s.bump .CORE_DFMISS c 1
    let hit := s.clHolds cl line
    let s := if hit && s.owns cl line then (if had then s else s.bump .CC_HIT cl 1)
      else (s.usher cl line true age).bump .CC_MISS cl 1
    let fill := had || (alloc && bit (s.core c).sr.cctl 0)
    let s := if fill && !hit then s.ccAlloc cl line .shr else s
    let s := s.othersGone c line
    (if fill then s.fillFrame c line .mod else s.ccAlloc cl line .mod, !had)

/-- Bring a line to a cluster cache for an agent of the cluster that has no frames: the walker, the Stagehand engine, the Match
and Lookup units (R246). -/
def State.clRead (s : State) (cl line : Nat) : State :=
  if s.clHolds cl line then s.bump .CC_HIT cl 1
  else
    let s := (s.usher cl line false none).bump .CC_MISS cl 1
    s.ccAlloc cl line (s.clean1 cl line)

/-- The same for writing: M in the cluster cache, no other copy left (R245, R246). -/
def State.clOwn (s : State) (cl line : Nat) : State :=
  let s := if s.clHolds cl line && s.owns cl line then s.bump .CC_HIT cl 1
    else (s.usher cl line true none).bump .CC_MISS cl 1
  let s := (coresOf cl).foldl (fun s x => if (s.core x).dstate line == .inv then s
    else s.modCore x (fun k => k.setDstate line .inv)) s
  s.ccAlloc cl line .mod

/-- Ownership of a line for a cluster cache that has asked for it (R245, R264): M where another cluster's dirty data is taken over, else E,
and no other copy. -/
def State.clOwned (s : State) (cl line : Nat) : State :=
  let dirty := (List.range s.nClusters).any (fun q => s.clDirty q line)
  let s := (s.usher cl line true none).bump .CC_MISS cl 1
  let s := (coresOf cl).foldl (fun s x => if (s.core x).dstate line == .inv then s
    else s.modCore x (fun k => k.setDstate line .inv)) s
  let s := s.ccAlloc cl line .exc
  if dirty then (if (s.cluster cl).cstate line == .inv then s.writeHome cl line else s.modCluster cl (fun k => k.setC line .mod))
  else s.modCluster cl (fun k => k.setC line .exc)

/-- Words of a wings slot replaced (R256). -/
def Core.wingWrite (k : Core) (l : List (Nat × TWord)) : Core :=
  l.foldl (fun k x => { k with mem := { k.mem with wings := k.mem.wings.map (fun g =>
    if g.slot == x.1 % 1024 / 32 then { g with words := g.words.set (x.1 % 32) x.2 } else g) } }) k

/-- Core c's frames or its cluster cache hold a line dirty. -/
def State.dirtyFor (s : State) (c line : Nat) : Bool :=
  (s.core c).dstate line == .mod || (s.cluster (clusterOf c)).cstate line == .mod

/-- Perform a store in memory: the old value is kept as the home value while the line is dirty and not yet written
home (R245, R272). One that is not cached and names host memory goes to the host (R389). -/
def State.storeWord (s : State) (pa : Nat) (w : TWord) (dirty : Bool) : State :=
  let s := if dirty && !(s.home.any (fun x => x.1 == pa)) then { s with home := (pa, s.rd pa) :: s.home } else s
  let s := if !dirty && place pa == .host then { s with wire := .hostWrite pa w :: s.wire } else s
  s.wr pa w

/-- A word as a place holds it: the host windows drop the tag, and keep POISON (R389, R399). -/
def asStored (pa : Nat) (w : TWord) : TWord :=
  match place pa with
  | .host => if ty w == tPOISON then w else ⟨0, w.datum⟩
  | .mmio => if ty w == tPOISON then w else ⟨0, w.datum⟩
  | _ => w

/-- The line is dirty in some cache of the core's cluster. -/
def State.isDirty (s : State) (c line : Nat) : Bool := s.clDirty (clusterOf c) line

/-- Every dirty copy of a line in the device is written home; the copies stay valid and clean (R270). -/
def State.cleanLine (s : State) (line : Nat) : State :=
  (List.range s.nClusters).foldl (fun s cl =>
    if s.clDirty cl line then
      let s := s.writeHome cl line
      let fix (m : Mesi) : Mesi := if m == .mod then .exc else m
      let s := s.modCluster cl (fun k => k.setC line (fix (k.cstate line)))
      (coresOf cl).foldl (fun s c => s.modCore c (fun k => if k.dstate line == .mod then k.setDstate line .exc else k)) s
    else s) s

/-- Every copy of a line in every frame and cluster cache is invalidated, dirty data first written home (R270). -/
def State.flushLine (s : State) (line : Nat) : State := (s.cleanLine line).recall line none

/-- A cluster loses a line without writeback (R272): dirty data is lost and the home keeps its older value. -/
def State.dropLine (s : State) (cl line : Nat) : State :=
  let s := if s.clDirty cl line then s.dropDirty line else s
  let s := s.clSet cl line .inv
  match s.dirOf line with
  | none => s
  | some e => s.setDir { e with owner := e.owner.filter (fun x => x != cl), sharers := e.sharers.filter (fun x => x != cl) }

/-- The host has a snoop of a line answered (R266, R295): the holding clusters give it up, or keep it shared, with dirty data. -/
def State.snoopLine (s : State) (line : Nat) (own : Bool) : State :=
  let s := (s.bump .HOST_USNOOP 0 1).truncate 512 line own
  let dirty := (List.range s.nClusters).any (fun cl => s.clDirty cl line)
  let had := s.held.contains line
  let data := if dirty then (lineWords line).map s.rd else []
  let s : State := { s with home := s.home.filter (fun x => lineOf x.1 != line) }
  let s := if own then { s.recall line none with held := s.held.erase line }
    else
      match s.dirOf line with
      | some e => (match e.owner with
        | some o => (s.clDemote o line).setDir { e with owner := none, sharers := [o] }
        | none => s)
      | none => s
  { s with wire := .snoop line had data :: s.wire }

/-- Write words of a line as the host (R266, R386): every device copy of the line goes first. -/
def State.hostWords (s : State) (line : Nat) (l : List (Nat × TWord)) : State :=
  l.foldl (fun (s : State) x => s.storeWord x.1 (asStored x.1 x.2) false) ((s.countUreq line).recall line none)

/-- A cluster's request has its effect in the cluster cache too: the line arrives there shared, or owned with the dirty data of the
other holders (R245, R264). -/
def State.usherLine (s : State) (cl line : Nat) (own : Bool) : State :=
  let s := s.obtain line
  if own then s.clOwned cl line
  else
    let held := s.clHolds cl line
    let s := (s.usher cl line false none).bump .CC_MISS cl 1
    if held then s else s.ccAlloc cl line (s.clean1 cl line)

/-- Serve a request at its home slice (R264): arbitrated against the Scenes, logged where it is a host write (R438), completed towards
the host. None where the line is held by a distributed commit, or the log has no room. -/
def State.serveOne (s : State) (p : Parked) : Option State :=
  match p with
  | .usher cl line own => match s.arbitrate (.engine cl) line own with
    | .go s => some (s.usherLine cl line own)
    | _ => none
  | .snoop line own => match s.arbitrate .host line own with
    | .go s => some (s.snoopLine line own)
    | _ => none
  | .write line ws r => match s.arbitrate .host line true with
    | .go s => ((s.truncate 512 line true).external (fun seq => { r with q0 := r.q0 + seq % 2 ^ 40 })).map (fun s =>
        let s := s.hostWords line ws
        { s with wire := .completion 0 [] :: s.wire })
    | _ => none

/-- Serve requests in order of arrival; one that must wait stays parked, and with it the later ones for its line. -/
def State.serveAll (s : State) : List Parked → State
  | [] => s
  | p :: l =>
    match (if s.parked.any (fun x => x.line == p.line) then none else s.serveOne p) with
    | some t => State.serveAll t l
    | none => State.serveAll { s with parked := s.parked ++ [p] } l

/-- Serve the parked requests that need wait no longer (R264). -/
def State.serveParked (s : State) : State := if s.parked.isEmpty then s else State.serveAll { s with parked := [] } s.parked

/-- A request arrives at its home slice, after those that wait there. -/
def State.atHome (s : State) (p : Parked) : State := State.serveAll { s with parked := [] } (s.parked ++ [p])

/-- A line leaves a core's I-frames and its fetch buffer (R253). -/
def Core.dropI (k : Core) (line : Nat) : Core :=
  { k with mem := { k.mem with fbuf := k.mem.fbuf.filter (fun x => x.1 != line), iframes := k.mem.iframes.map (fun (f : IFrame) =>
      if f.base == line / 4 then { f with sect := f.sect.set (line % 4) [] } else f) } }

/-- The lines of a core's D-frames. -/
def Core.frameLines (k : Core) : List Nat :=
  k.mem.dframes.flatMap (fun f => ((List.range 4).filter (fun i => f.st.getD i .inv != .inv)).map (fun i => f.base * 4 + i))

/-- Every dirty sector of a core's unlocked D-frames is written back and stays valid and clean (R270). -/
def State.cleanAll (s : State) (c : Nat) : State :=
  (s.core c).frameLines.foldl (fun s line =>
    if (s.core c).dstate line == .mod then
      let s := s.writeHome (clusterOf c) line
      let s := s.modCluster (clusterOf c) (fun k => if k.cstate line == .mod then k.setC line .exc else k)
      s.modCore c (fun k => k.setDstate line .exc)
    else s) s

/-- Clean and invalidate the lines of a cluster cache that a predicate picks; marked lines are given up with their Scenes
doomed (R261, R291). -/
def State.ccClean (s : State) (cl : Nat) (p : CcLine → Bool) : State :=
  ((s.cluster cl).lines.filter p).foldl (fun s x =>
    let mine := fun h => clusterOf h == cl
    let s := if (coresOf cl).any (fun c => (s.core c).dstate x.line != .inv) then s else s.doomHolders x.line 1 mine
    let s := s.chunkGive cl x.line
    let s := if x.st == .mod then s.writeHome cl x.line else s
    s.modCluster cl (fun k => { k with lines := k.lines.filter (fun y => y.line != x.line) })) s

/-- A write of CC.CTL.WAYDIS (R261): the ways newly disabled are cleaned and invalidated. -/
def State.ccWaydis (s : State) (cl old new : Nat) : State :=
  let s := s.setFld f_CC_CTL_WAYDIS cl new
  s.ccClean cl (fun x => new.testBit x.way && !(old.testBit x.way))

/-- CC_CTL_FLUSH (R261): every line is cleaned and invalidated once, and FLUSH reads 0 again. -/
def State.ccFlush (s : State) (cl : Nat) : State := (s.ccClean cl (fun _ => true)).setFld f_CC_CTL_FLUSH cl 0

end Sys2Proof.Machine
end

