-- ==== Sys2Proof/Machine/Walk.lean ====
section
/-! DEFINITION. The walker (R211-R224, R233-R237): table geometry, entry checks, the two stages, cluster TLB and walk
cache. -/

namespace Sys2Proof.Machine

open Sys2Proof

/-- Kinds of access. -/
inductive Acc where
  | read | write | fetch
  deriving DecidableEq, Repr

/-- Kind as WALK and the subcodes number it (R228, R226). -/
def Acc.num (a : Acc) : Nat := match a with | .read => 0 | .write => 1 | .fetch => 2

/-- A root register (R213). -/
structure Root where
  en : Bool
  is : Nat
  g9 : Bool
  root : Nat
  deriving DecidableEq, Repr

/-- Fields of ITBR, DTBR or S2TBR (R213). -/
def rootOf (v : W64) : Root :=
  { en := bit v 63, is := bits v 57 52, g9 := bits v 49 48 == 1, root := bits v 47 9 * 512 }

/-- Number of levels (R217). -/
def Root.levels (r : Root) : Nat := if r.g9 then (if r.is ≤ 45 then 4 else 5) else 3

/-- Words covered by an entry at level k, as a power of two (R217, R218). -/
def Root.shift (r : Root) (k : Nat) : Nat := if r.g9 then (if r.is ≤ 45 then 36 - 9 * k else 45 - 9 * k) else 36 - 12 * k

/-- Index width below the root. -/
def Root.width (r : Root) : Nat := if r.g9 then 9 else 12

/-- Table alignment below the root (R217). -/
def Root.tabSize (r : Root) : Nat := 2 ^ r.width

/-- The root table's address, its low bits taken as zero (R214, R217). -/
def Root.base (r : Root) : Nat :=
  let sz := Nat.max 512 (2 ^ (r.is - r.shift 0))
  r.root / sz * sz

/-- The index into the table at level k (R217). -/
def Root.index (r : Root) (input k : Nat) : Nat :=
  if k = 0 then input / 2 ^ r.shift 0 else input / 2 ^ r.shift k % 2 ^ r.width

/-- SIZE code of a power of two (R218). -/
def sizeCode (sh : Nat) : Nat :=
  if sh ≤ 9 then 0 else if sh ≤ 12 then 1 else if sh ≤ 18 then 2 else if sh ≤ 24 then 3 else if sh ≤ 27 then 4 else 5

/-- Entry fields (R219). -/
def oaOf (d : W64) : Nat := bits d 63 25 * 512
def mtOf (d : W64) : Nat := bits d 14 13
def kindOf (d : W64) : Nat := bits d 2 1

/-- A walk fault (R233): stage, LEVEL, cause, FINAL, and for stage 2 the intermediate address that failed. -/
structure WFault where
  stage : Nat
  level : Nat
  cause : Nat
  final : Bool := false
  ia : Nat := 0
  deriving DecidableEq, Repr

/-- Cause codes (R233). -/
def cINVALID : Nat := 0
def cRANGE : Nat := 1
def cENTRY : Nat := 2
def cPERM : Nat := 3
def cBKSTG : Nat := 4
def cMTYPE : Nat := 5
def cWDEVICE : Nat := 6
def cWNOTARGET : Nat := 7
def cWBUS : Nat := 8
def cWTAG : Nat := 9

/-- The context a translation is made in (R211): world, VMID, ASID, stage-1 root, stage-2 root. -/
structure Ctx where
  world : Bool
  vmid : Nat
  asid : Nat
  s1 : Root
  s2 : Root
  isI : Bool
  deriving DecidableEq, Repr

/-- A core's context for data or fetch (R57, R211). -/
def Core.ctx (k : Core) (isI : Bool) : Ctx :=
  { world := k.psw.w, vmid := bits k.sr.vmid 7 0, asid := bits k.bank.asid 15 0,
    s1 := rootOf (if isI then k.bank.itbr else k.bank.dtbr), s2 := rootOf k.sr.s2tbr, isI := isI }

/-- Why a table word at a pa may not be read (R234): 6 DEVICE, 7 no target. -/
def tablePlace (pa : Nat) : Option Nat :=
  match place pa with
  | .mmio => some cWDEVICE
  | .wings => some cWNOTARGET
  | .none => some cWNOTARGET
  | _ => none

/-- The host link carries window accesses (R390, R400): trained, in CXL mode, not viral, not stopped by CXL Reset. -/
def State.hostUp (s : State) : Bool :=
  s.flag f_HOST_LINK_UP 0 && s.flag f_HOST_LINK_CXL 0 && !s.host.viralIn && !s.host.cxlOff

/-- One coherent table read through the cluster cache (R235): the word, or cause 8 for a bus error or POISON, 9 for a tag other
than TTE. A host word, which has no tag (R389), is read as an entry, since tables may lie in host memory (R234; log entry 19,
DEDUCED). -/
def State.tableRead (s : State) (cl pa : Nat) : State × (Nat ⊕ W64) :=
  let s := s.bump .WALK_READS cl 1
  let host := place pa == .host
  if host && !s.hostUp then (s, .inl cWBUS)
  else
    let s := (s.obtain (lineOf pa)).clRead cl (lineOf pa)
    let w := s.rd pa
    if ty w == tPOISON then (s, .inl cWBUS) else if host || ty w == tTTE then (s, .inr w.datum) else (s, .inl cWTAG)

/-- The cluster TLB's 4,096 entries serve both kinds of translation (R236): a full one gives up an entry before it takes another.
Which entry goes is a free choice (log entry 97, DESIGN CHOICE). -/
def State.ctlbRoom (s : State) (cl : Nat) : State :=
  let q := s.cluster cl
  let n := q.ctlb.length
  if n + q.s2tlb.length < 4096 then s
  else
    let v := Config.victim s.free % 4096
    ({ s with free := s.free + 1 } : State).modCluster cl (fun q =>
      if v < n then { q with ctlb := q.ctlb.eraseIdx v } else { q with s2tlb := q.s2tlb.eraseIdx (v - n) })

/-- A translation whose later check fails caches no leaf (R236): the cluster TLB is as it stood in `before`. -/
def State.leafDropped (s before : State) (cl : Nat) : State :=
  s.modCluster cl (fun q => { q with ctlb := (before.cluster cl).ctlb, s2tlb := (before.cluster cl).s2tlb })

/-- A table entry at a level is well formed as a table (R219): bits [16:3] zero, OA aligned. -/
def tableOk (r : Root) (d : W64) : Bool := bits d 16 3 == 0 && oaOf d % r.tabSize == 0

/-- A leaf permitted at level k (R218): a page at the last level, a block at a level from 1 to L-2; OA bits below its
size zero (R219). -/
def leafOk (r : Root) (k : Nat) (d : W64) : Bool :=
  ((kindOf d == 1 && k + 1 == r.levels) || (kindOf d == 2 && 1 ≤ k && k + 2 ≤ r.levels))
    && oaOf d % 2 ^ r.shift k == 0

/-- Stage-2 walk from level k with the table at `tab` (R233): the leaf, its level, or the cause. -/
def walk2 (fuel : Nat) (s : State) (cl : Nat) (x : Ctx) (input k tab : Nat) : State × (Nat ⊕ (Nat × W64)) :=
  match fuel with
  | 0 => (s, .inl cENTRY)
  | fuel + 1 =>
    let pa := tab + x.s2.index input k
    match tablePlace pa with
    | some c => (s, .inl c)
    | none =>
      match s.tableRead cl pa with
      | (s, .inl c) => (s, .inl c)
      | (s, .inr d) =>
        if !(bit d 0) then (s, .inl cINVALID)
        else if kindOf d == 0 && k + 1 < x.s2.levels then
          if tableOk x.s2 d then
            let e : WcE := { stage := 2, world := false, vmid := x.vmid, asid := 0, isI := false, gran := x.s2.g9,
                             level := k, sh := x.s2.shift k, key := input / 2 ^ x.s2.shift k, oa := oaOf d }
            let s := s.modCluster cl (fun q => { q with wc := (e :: q.wc).take 256 })
            walk2 fuel s cl x input (k + 1) (oaOf d)
          else (s, .inl cENTRY)
        else if leafOk x.s2 k d && !(!(bit d 3) && bit d 4) then (s, .inr (k, d))
        else (s, .inl cENTRY)

/-- The deepest walk-cache entry on a path (R236): the next level and its table. -/
def wcStart (l : List WcE) (p : WcE → Bool) (r : Root) (input : Nat) : Nat × Nat × Nat :=
  let hits := l.filter (fun e => p e && e.key == input / 2 ^ r.shift e.level && e.gran == r.g9)
  hits.foldl (fun (v : Nat × Nat × Nat) e => if v.1 ≤ e.level then (e.level + 1, e.oa, e.level + 1) else v) (0, r.base, 0)

/-- Translate an intermediate address through stage 2 (R233): output address, the leaf entry and its size, or the
cause. A stage that is disabled is the identity (R215). -/
def stage2 (s : State) (cl : Nat) (x : Ctx) (input : Nat) (need : Acc) : State × (Nat ⊕ (Nat × W64 × Nat)) :=
  if !x.s2.en then (s, .inr (input, w64 (2 ^ 3 + 2 ^ 4 + 3), 5))
  else if 2 ^ x.s2.is ≤ input then (s, .inl cRANGE)
  else
    let check (s : State) (d : W64) (sh : Nat) : State × (Nat ⊕ (Nat × W64 × Nat)) :=
      if (need == .write && !(bit d 4)) || (need != .write && !(bit d 3)) then (s, .inl cPERM)
      else (s, .inr (oaOf d + input % 2 ^ sh, d, sizeCode sh))
    match (s.cluster cl).s2tlb.find? (fun e => e.vmid == x.vmid && e.base == input / 2 ^ sizeShift e.size * 2 ^ sizeShift e.size) with
    | some e => check s e.tte (sizeShift e.size)
    | none =>
      let (k, tab, hits) := wcStart (s.cluster cl).wc (fun e => e.stage == 2 && e.vmid == x.vmid) x.s2 input
      let s := s.bump .WALK_WCHIT cl hits
      match walk2 5 s cl x input k tab with
      | (s, .inl c) => (s, .inl c)
      | (s, .inr (lv, d)) =>
        let sh := x.s2.shift lv
        let e : S2E := { vmid := x.vmid, base := input / 2 ^ sh * 2 ^ sh, size := sizeCode sh, tte := d }
        match check s d sh with
        | (s, .inl c) => (s, .inl c)
        | (s, .inr r) => ((s.ctlbRoom cl).modCluster cl (fun q => { q with s2tlb := e :: q.s2tlb }), .inr r)

/-- R222 for a House address: the device-private region, or a stage-2 leaf with B=1. -/
def houseBarred (x : Ctx) (pa : Nat) (s2leaf : W64) : Bool :=
  !x.world && (place pa == .priv || (x.s2.en && bit s2leaf 16))

/-- The pa of a stage-1 table word (R233): through stage 2 in the House world; the refusals of R234 and R222 carry the
stage that produced the address. -/
def tablePa (s : State) (cl : Nat) (x : Ctx) (ea k : Nat) : State × (WFault ⊕ Nat) :=
  if x.world then
    match tablePlace ea with
    | some c => (s, .inl { stage := 1, level := k, cause := c })
    | none => (s, .inr ea)
  else
    match stage2 s cl x ea .read with
    | (s2, .inl c) => (s2, .inl { stage := 2, level := k, cause := c, ia := ea })
    | (s2, .inr (pa, d, _)) =>
      let fail (st c : Nat) : State × (WFault ⊕ Nat) := (s2.leafDropped s cl, .inl { stage := st, level := k, cause := c, ia := ea })
      if x.s2.en && 2 ≤ mtOf d then fail 2 cWDEVICE
      else
        match tablePlace pa with
        | some c => fail (if x.s2.en then 2 else 1) c
        | none => if houseBarred x pa d then fail 2 cBKSTG else (s2, .inr pa)

/-- A stage-1 leaf is malformed (R219, R222): R=0 with W=1 in data space, or B=1 in House. -/
def leafBad (x : Ctx) (d : W64) : Bool :=
  (!x.isI && !(bit d 3) && bit d 4) || (!x.world && bit d 16)

/-- Stage-1 walk from level k with the table at `tab` (R233): the leaf and its level. -/
def walk1 (fuel : Nat) (s : State) (cl : Nat) (x : Ctx) (input k tab : Nat) : State × (WFault ⊕ (Nat × W64)) :=
  match fuel with
  | 0 => (s, .inl { stage := 1, level := k, cause := cENTRY })
  | fuel + 1 =>
    match tablePa s cl x (tab + x.s1.index input k) k with
    | (s, .inl f) => (s, .inl f)
    | (s, .inr pa) =>
      match s.tableRead cl pa with
      | (s, .inl c) => (s, .inl { stage := 1, level := k, cause := c })
      | (s, .inr d) =>
        if !(bit d 0) then (s, .inl { stage := 1, level := k, cause := cINVALID })
        else if kindOf d == 0 && k + 1 < x.s1.levels then
          if tableOk x.s1 d then
            let e : WcE := { stage := 1, world := x.world, vmid := x.vmid, asid := x.asid, isI := x.isI,
                             gran := x.s1.g9, level := k, sh := x.s1.shift k, key := input / 2 ^ x.s1.shift k, oa := oaOf d }
            let s := s.modCluster cl (fun q => { q with wc := (e :: q.wc).take 256 })
            walk1 fuel s cl x input (k + 1) (oaOf d)
          else (s, .inl { stage := 1, level := k, cause := cENTRY })
        else if leafOk x.s1 k d && !(leafBad x d) then (s, .inr (k, d))
        else (s, .inl { stage := 1, level := k, cause := cENTRY })

/-- R223: the placement that the final type and pa forbid. -/
def mtypeBad (kind : Acc) (mt pa : Nat) : Bool :=
  (place pa == .mmio && mt < 2) || (place pa == .wings && mt ≠ 0)
    || (kind == .fetch && (2 ≤ mt || place pa == .wings))

/-- The final checks of R222 and R223 on an output address pa of a leaf in µTLB form: the fault, with the intermediate address
`ia` and the leaf's level (R233). They hold at every use of the leaf, since a region may reach past the place that a walk checked. -/
def leafFault (x : Ctx) (t : W64) (org : Origin) (ia : Nat) (kind : Acc) (pa : Nat) : Option WFault :=
  if !x.world && place pa == .priv then some { stage := 2, level := org.lv, cause := cBKSTG, final := true, ia := ia }
  else if x.world && x.s1.en && place pa == .priv && !(bit t 16) then some { stage := 1, level := org.lv, cause := cENTRY }
  else if mtypeBad kind (mtOf t) pa then
    let one := x.world || !x.s2.en || mtypeBad kind org.mt1 pa
    some { stage := if one then 1 else 2, level := org.lv, cause := cMTYPE, final := true, ia := ia }
  else none

/-- The result of a translation (R221): the µTLB form, the region's base in input addresses, and its origin. -/
structure WRes where
  tte : W64
  base : Nat
  org : Origin
  deriving DecidableEq, Repr

/-- The µTLB form (R221) of a stage-1 leaf's attributes, an output region, its size, S2W and the effective type. -/
def utlbForm (leaf : W64) (oa size : Nat) (s2w : Bool) (mt : Nat) : W64 :=
  let a := bit leaf 16
  w64 (oa / 512 * 2 ^ 25 + b2n s2w * 2 ^ 21 + size * 2 ^ 17 + b2n a * 2 ^ 16 + b2n (bit leaf 15) * 2 ^ 15
    + mt * 2 ^ 13 + bits leaf 12 9 * 2 ^ 9 + b2n (bit leaf 8) * 2 ^ 8 + b2n (bit leaf 7) * 2 ^ 7
    + b2n (bit leaf 5) * 2 ^ 5 + b2n (bit leaf 4) * 2 ^ 4 + b2n (bit leaf 3) * 2 ^ 3 + 2 + 1)

/-- The leaf of a disabled stage (R215): R=W=U=1, A=D=1, KEY 0, G=0, B=0, NORMAL-WB. -/
def identLeaf : W64 := w64 (2 ^ 8 + 2 ^ 7 + 2 ^ 5 + 2 ^ 4 + 2 ^ 3 + 2 + 1)

/-- The last part of a walk (R233): stage 2 on the final address, R222, R223, and the combination of R221. `lv` is the
stage-1 leaf's level, 0 when stage 1 is disabled. -/
def walkFinal (s : State) (cl : Nat) (x : Ctx) (input lv sh : Nat) (leaf : W64) (kind : Acc) :
    State × (WFault ⊕ WRes) :=
  let ia := if x.s1.en then oaOf leaf + input % 2 ^ sh else input
  let finish (s2 : State) (pa : Nat) (d2 : W64) (size2 : Nat) : State × (WFault ⊕ WRes) :=
    let mt1 := mtOf leaf
    let mt2 := if !x.world && x.s2.en then mtOf d2 else 0
    let size := Nat.min (sizeCode sh) size2
    let rs := 2 ^ sizeShift size
    let s2w := x.world || !x.s2.en || bit d2 4
    let tte := utlbForm leaf (pa / rs * rs) size s2w (Nat.max mt1 mt2)
    let org : Origin := { ia := ia / rs * rs, lv := lv, mt1 := mt1 }
    if houseBarred x pa d2 then
      (s2.leafDropped s cl, .inl { stage := 2, level := lv, cause := cBKSTG, final := true, ia := ia })
    else
      match leafFault x tte org ia kind pa with
      | some f => (s2.leafDropped s cl, .inl f)
      | none => (s2, .inr { tte := tte, base := input / rs * rs, org := org })
  if x.world then finish s ia identLeaf 5
  else
    match stage2 s cl x ia kind with
    | (s, .inl c) => (s, .inl { stage := 2, level := lv, cause := c, final := true, ia := ia })
    | (s, .inr (pa, d, size2)) => finish s pa d size2

/-- One whole walk (R233) of `input`, for a kind of access, on a cluster's walker; the cluster TLB is consulted first,
and a result is cached unless the walk was killed (R236, R240). -/
def State.walk (s : State) (cl : Nat) (x : Ctx) (input : Nat) (kind : Acc) (cache : Bool) : State × (WFault ⊕ WRes) :=
  let s := s.bump .WALK_WALKS cl 1
  let hit := (s.cluster cl).ctlb.find? (fun e => e.isI == x.isI && e.u.world == x.world
    && (x.world || e.u.vmid == x.vmid) && (bit e.u.tte 15 || e.u.asid == x.asid)
    && e.u.base == input / 2 ^ sizeShift (bits e.u.tte 20 17) * 2 ^ sizeShift (bits e.u.tte 20 17)
    && (kind != .write || bit e.u.tte 21))
  match hit with
  | some e =>
    let s := s.bump .WALK_CTLBHIT cl 1
    let off := input - e.u.base
    match leafFault x e.u.tte e.org (e.org.ia + off) kind (oaOf e.u.tte + off) with
    | some f => (s.bump .WALK_FAULTS cl 1, .inl f)
    | none => (s, .inr { tte := e.u.tte, base := e.u.base, org := e.org })
  | none =>
    let keep := s.clusters
    let r : State × (WFault ⊕ WRes) :=
      if !x.s1.en then walkFinal s cl x input 0 36 identLeaf kind
      else if 2 ^ x.s1.is ≤ input then (s, .inl { stage := 1, level := 0, cause := cRANGE })
      else
        let (k, tab, hits) := wcStart (s.cluster cl).wc (fun e => e.stage == 1 && e.world == x.world
          && (x.world || e.vmid == x.vmid) && e.asid == x.asid && e.isI == x.isI) x.s1 input
        let s := s.bump .WALK_WCHIT cl hits
        match walk1 5 s cl x input k tab with
        | (s, .inl f) => (s, .inl f)
        | (s, .inr (lv, d)) => walkFinal s cl x input lv (x.s1.shift lv) d kind
    let (s, out) := r
    let s := if cache then s else
      { s with clusters := modAt s.clusters cl (fun q =>
          let q0 := keep.getD cl {}
          { q with ctlb := q0.ctlb, s2tlb := q0.s2tlb, wc := q0.wc }) }
    match out with
    | .inl f => (s.bump .WALK_FAULTS cl 1, .inl f)
    | .inr w =>
      let e : CtlbE := { u := { tte := w.tte, base := w.base, world := x.world, asid := x.asid, vmid := x.vmid, wire := false },
                         isI := x.isI, org := w.org }
      (if cache then (s.ctlbRoom cl).modCluster cl (fun q => { q with ctlb := e :: q.ctlb }) else s, .inr w)

end Sys2Proof.Machine
end

