-- ==== Sys2Proof/Machine/Operands.lean ====
section
/-! DEFINITION. Traps and the operand checks: what a syllable may raise (R189, R195, R196) and the tag checks of R40. -/

namespace Sys2Proof.Machine

open Sys2Proof

/-- An exception on its way to entry: vector, subcode, FAULTADDR and the FAULTAUX fields of R195. `back` routes a
stage-2 translation fault to Backstage (R189); `dv` is GAP, KIND, PRODSYL and the producer's sa of a distance
violation (R150); `own` is the offending syllable where it is the one after a REP (R74, R76). `ia` is the
intermediate address of a stage-2 fault (R233). FAULTADDR is zero where no rule gives
it an address (log entry 38, DEDUCED). -/
structure Trap where
  vec : Nat
  sub : Nat := 0
  addr : Nat := 0
  tag : Nat := 0
  pos : Nat := 0
  cause : Nat := 0
  stage : Nat := 0
  level : Nat := 0
  wr : Bool := false
  fx : Bool := false
  xinfo : Nat := 0
  part : Bool := false
  raw : Option W64 := none
  noSyl : Bool := false
  back : Bool := false
  dv : Option (Nat × Nat × Nat × Nat) := none
  own : Option Nat := none
  ia : Option Nat := none
  deriving DecidableEq, Repr

/-- How a syllable stops before it retires: an exception, a Scene abort in place of one, a freeze that waits for
something outside the core, or an abort of the core's Scene that has come about while the syllable ran. -/
inductive Stop where
  | trap (t : Trap)
  | abort (d : Doom)
  | wait (w : Wait)
  | gone
  deriving DecidableEq, Repr

/-- The usual traps. -/
def tIllegal (sub : Nat) : Trap := { vec := 4, sub := sub }
def tBus (sub addr : Nat) : Trap := { vec := 6, sub := sub, addr := addr }
def tProt (sub addr : Nat) : Trap := { vec := 8, sub := sub, addr := addr }

/-- A type fault on an operand or, with pos 15, on a word at an address (R41, R80). -/
def tType (sub : Nat) (w : TWord) (pos addr : Nat) : Trap :=
  { vec := 7, sub := sub, tag := w.tag.toNat, pos := pos, addr := addr }

/-- Type-fault subcodes (R41). -/
def sWRONG : Nat := 0
def sMALFORMED : Nat := 1
def sRESERVED : Nat := 2
def sNOCUST : Nat := 3
def sBADHDR : Nat := 4
def sBOUNDS : Nat := 5
def sHDRSTORE : Nat := 6

/-- An operand to be checked (R40): its word, its position (15 and an address for a word from memory), whether it stands where a
pointer is dereferenced or used as an object (R26), a CODE word as a target (R28), an RREF as a reference (R30; step 4), whether a
LOC must be even as a CONS must (step 5), whether it is stored through (step 6), whether the instruction accepts it, and with which
subcode it refuses it (step 7). A `moved` operand is stored and not consumed: only R37 speaks of it (step 7). -/
structure Opd where
  w : TWord
  pos : Nat
  addr : Nat := 0
  deref : Bool := false
  code : Bool := false
  rref : Bool := false
  even : Bool := false
  store : Bool := false
  moved : Bool := false
  ok : Bool := true
  bad : Nat := 0
  deriving DecidableEq, Repr

/-- MALFORMED (R26, R28, R30) for a pointer, CODE or RREF word in a place that uses it as one. -/
def Opd.malformed (cuptr : Nat) (o : Opd) : Bool :=
  (o.deref && isPtr cuptr (ty o.w) && !(hiZero o.w)) || (o.code && ty o.w == tCODE && !(hiZero o.w))
    || (o.rref && ty o.w == tRREF && bits o.w.datum 35 18 ≠ 0)

/-- An odd address (R40 step 5): of a CONS that is dereferenced, or of a LOC that names a pair of words. -/
def Opd.odd (o : Opd) : Bool :=
  ((o.deref && ty o.w == tCONS) || (o.even && (ty o.w == tCONS || ty o.w == tLOC))) && adr o.w % 2 == 1

/-- The type fault of step 7, if any: the operand is not accepted, or it is a HDR or FWD word that the user level would store
(R37). -/
def Opd.refused (user : Bool) (o : Opd) : Option Nat :=
  if !o.ok then some o.bad
  else if user && o.moved && (ty o.w == tHDR || ty o.w == tFWD) then some 6
  else none

/-- The first operand, in order, for which a check fails. -/
def firstBad (p : Opd → Bool) (l : List Opd) : Option Opd := l.find? p

/-- The tag checks of R40 on a list of operands given S0 first: each step over every operand, in order; `user` says that the
instruction executes at user level. -/
def tagCheck (cust : Bool) (cuptr : Nat) (user : Bool) (l : List Opd) : Option Trap :=
  match firstBad (fun o => !o.moved && ty o.w == tPOISON) l with
  | some o => some { vec := 2, sub := 0, tag := o.w.tag.toNat, pos := o.pos, addr := o.addr }
  | none =>
  match firstBad (fun o => !o.moved && isReserved (ty o.w)) l with
  | some o => some (tType sRESERVED o.w o.pos o.addr)
  | none =>
  match firstBad (fun o => !o.moved && isCustom (ty o.w) && !cust) l with
  | some o => some (tType sNOCUST o.w o.pos o.addr)
  | none =>
  match firstBad (Opd.malformed cuptr) l with
  | some o => some (tType sMALFORMED o.w o.pos o.addr)
  | none =>
  match firstBad Opd.odd l with
  | some o => some { vec := 5, sub := if ty o.w == tCONS then 0 else 1, addr := o.addr, pos := o.pos, tag := o.w.tag.toNat }
  | none =>
  match firstBad (fun o => o.store && isPtr cuptr (ty o.w) && kBit o.w) l with
  | some o => some { vec := 8, sub := 2, tag := o.w.tag.toNat, pos := o.pos, addr := o.addr }
  | none =>
  match firstBad (fun o => (o.refused user).isSome) l with
  | some o => some (tType ((o.refused user).getD sWRONG) o.w o.pos o.addr)
  | none => none

end Sys2Proof.Machine
end

