-- ==== Sys2Proof/Machine/Mem.lean ====
section
/-! DEFINITION. A core's data access: translation through the µTLBs (R225, R226), the caches and the store queue
(R247, R248), Scene read and write sets (R288), the window of R144, the write barriers (R319, R320) and the load
barrier (R322, R552). -/

namespace Sys2Proof.Machine

open Sys2Proof

/-- What a syllable of one core does: it reads its core's number, changes the state, and may stop. -/
abbrev M := ReaderT Nat (EStateM Stop State)

/-- The core that issues. -/
def me : M Nat := read

/-- Stop with an exception. -/
def raise {α : Type} (t : Trap) : M α := throw (.trap t)

/-- Stop with an exception where there is one. -/
def raiseSome (t : Option Trap) : M Unit :=
  match t with
  | some t => raise t
  | none => pure ()

/-- The issuing core's state. -/
def getCore : M Core := do
  let c ← me
  let s ← get
  pure (s.core c)

/-- Change the issuing core's state. -/
def modMe (f : Core → Core) : M Unit := do
  let c ← me
  modify (fun s => s.modCore c f)

/-- Change the whole state, given the issuing core. -/
def updS (f : State → Nat → State) : M Unit := do
  let c ← me
  modify (fun s => f s c)

/-- Read something of the whole state, given the issuing core. -/
def askS {α : Type} (f : State → Nat → α) : M α := do
  let c ← me
  let s ← get
  pure (f s c)

/-- Check operands under R40, given S0 first. -/
def check (l : List Opd) : M Unit := do
  let t ← askS (fun s c => tagCheck (s.custLoaded c) (s.cuptr c) (!(s.core c).psw.l) l)
  raiseSome t

/-- Operands that are consumed without further demands: positions from `p` on. -/
def plain (p : Nat) : List TWord → List Opd
  | [] => []
  | w :: l => { w := w, pos := p } :: plain (p + 1) l

/-- A translated access: pa, effective memory type, the µTLB entry used (none when bypassed, R215). -/
structure Leaf where
  pa : Nat
  mt : Nat
  tte : Option W64
  deriving DecidableEq, Repr

/-- The region of input addresses a µTLB entry covers. -/
def Utlb.covers (u : Utlb) (input : Nat) : Bool :=
  let sz := 2 ^ sizeShift (bits u.tte 20 17)
  u.base == input / sz * sz

/-- An entry matches an access (R225). -/
def Utlb.hits (u : Utlb) (x : Ctx) (input : Nat) : Bool :=
  u.world == x.world && (x.world || u.vmid == x.vmid) && (bit u.tte 15 || u.asid == x.asid) && u.covers input

/-- The matching µTLB entry of an access. -/
def Core.utlb (k : Core) (isI : Bool) (input : Nat) : Option Utlb :=
  ((if isI then k.mem.itlb else k.mem.dtlb).filterMap id).find? (fun u => u.hits (k.ctx isI) input)

/-- A translation fault (vector 10) as the core reports it (R228, R233). -/
def transFault (f : WFault) (kind : Acc) (a : Nat) : Trap :=
  { vec := 10, sub := kind.num, addr := a, cause := f.cause, stage := f.stage, level := f.level,
    wr := kind == .write, fx := kind == .fetch, xinfo := b2n f.final, back := f.stage == 2,
    ia := if f.stage == 2 then some f.ia else none }

/-- The outcome of a µTLB lookup and the checks of R226 on one access; `deep` is how many of the checks 1-7 apply. -/
def xlateCore (k : Core) (a : Nat) (kind : Acc) (deep : Nat) : Trap ⊕ Leaf :=
  let isI := kind == .fetch
  let input := if isI then a / 4 else a
  let x := k.ctx isI
  if !x.s1.en && (x.world || !x.s2.en) then
    let mt := if place input == .mmio then 3 else 0
    if !x.world && place input == .priv then
      .inl (transFault { stage := 2, level := 0, cause := cBKSTG, final := true, ia := input } kind a)
    else if mtypeBad kind mt input then
      .inl (transFault { stage := 1, level := 0, cause := cMTYPE, final := true, ia := input } kind a)
    else .inr { pa := input, mt := mt, tte := none }
  else
    match k.utlb isI input with
    | none => .inl { vec := 9, sub := kind.num, addr := a, wr := kind == .write, fx := isI }
    | some u =>
      let t := u.tte
      let pa := oaOf t + input % 2 ^ sizeShift (bits t 20 17)
      let key := bits t 12 9
      let org := u.org.getD {}
      let prot (sub : Nat) : Trap := { vec := 8, sub := sub, addr := a, wr := kind == .write, fx := isI }
      if 2 ≤ deep && !k.psw.l && !(bit t 5) then .inl (prot 1)
      else if 3 ≤ deep && ((kind == .write && !(bit t 4)) || (kind != .write && !(bit t 3))) then .inl (prot 1)
      else if 4 ≤ deep && kind == .write && !(bit t 21) then
        .inl (transFault { stage := 2, level := org.lv, cause := cPERM, final := true, ia := org.ia + (input - u.base) } kind a)
      else if 5 ≤ deep && !isI && (bit k.sr.pkr (2 * key) || (kind == .write && bit k.sr.pkr (2 * key + 1))) then
        .inl (prot 0)
      else if 6 ≤ deep && !(bit t 7) then .inl { vec := 11, sub := 0, addr := a, wr := kind == .write, fx := isI }
      else if 7 ≤ deep && kind == .write && !(bit t 8) then .inl { vec := 11, sub := 1, addr := a, wr := true }
      else
        match leafFault x t org (org.ia + (input - u.base)) kind pa with
        | some f => .inl (transFault f kind a)
        | none => .inr { pa := pa, mt := mtOf t, tte := some t }

/-- Translate one access of a Match or Lookup unit in the issuing core's context (R339): on the cluster's walker, not through
the µTLBs, with checks 2-7 of R226. -/
def unitXlate (a : Nat) (kind : Acc) : M Leaf := do
  let k ← getCore
  let x := k.ctx false
  if !x.s1.en && (x.world || !x.s2.en) then
    match xlateCore k a kind 7 with
    | .inl t => raise t
    | .inr l => pure l
  else do
    let c ← me
    let s ← get
    match s.walk (clusterOf c) x a kind true with
    | (s, .inl f) => do
      set s
      raise (transFault f kind a)
    | (s, .inr r) => do
      set s
      let u : Utlb := { tte := r.tte, base := r.base, world := x.world, asid := x.asid, vmid := x.vmid, wire := false, org := some r.org }
      match xlateCore { k with mem := { k.mem with dtlb := [some u] } } a kind 7 with
      | .inl t => raise t
      | .inr l => pure l

/-- The syllable makes a data-space access: one that stands in an open shadow may depend on it (R148). -/
def noteData : M Unit := do
  let k ← getCore
  match k.shadow with
  | none => pure ()
  | some sh => modMe (fun k => { k with shadow := some { sh with used := true } })

/-- Translate one access of the issuing core, with every check of R226; while a unit works for the core, the unit's way. -/
def xlate (a : Nat) (kind : Acc) : M Leaf := do
  let k ← getCore
  noteData
  if k.unit then unitXlate a kind
  else
    match xlateCore k a kind 7 with
    | .inl t => raise t
    | .inr l => pure l

/-- The wings slot of a pa held by the core's current world (R256). -/
def Core.wing (k : Core) (pa : Nat) : Option Wing :=
  k.mem.wings.find? (fun w => w.slot == pa % 1024 / 32 && w.world == k.psw.w)

/-- An access must have a target (R223, R256, R390): otherwise bus error, NOTARGET, with WR for a write (R195). -/
def target (a : Nat) (lf : Leaf) (wr : Bool) : M Unit := do
  let k ← getCore
  let up ← askS (fun s _ => s.hostUp)
  let bad := match place lf.pa with
    | .none => true
    | .wings => (k.wing lf.pa).isNone
    | .host => !up
    | .mmio => !up
    | _ => false
  if bad then raise { tBus 0 a with wr := wr } else pure ()

/-- The accesses that a Scene may not make (R298 code 7): DEVICE and NORMAL-NC pages, wings memory. -/
def sceneSafe (lf : Leaf) : M Unit := do
  let k ← getCore
  if k.psw.sc && lf.mt ≠ 0 then throw (.abort { code := 7, detail := 1 })
  else if k.psw.sc && place lf.pa == .wings then throw (.abort { code := 7, detail := 2 })
  else pure ()

/-- A request for a line meets the Scenes (R293-R295). -/
def contend (line : Nat) (write : Bool) : M Unit := do
  let v ← askS (fun s c => s.arbitrate (.core c) line write)
  match v with
  | .go s => set s
  | .lose d => throw (.abort d)
  | .waitOn l => throw (.wait (.line l))

/-- The youngest Scene of the requester's cluster that marks a line of `l` gives those lines up (R291): the requester's own
Scene is doomed by its access, another core's at once. -/
def doomYoung (l : List Nat) (detail : Nat) : M Unit := do
  let c ← me
  let y ← askS (fun s _ => s.youngest (clusterOf c) l)
  match y with
  | none => pure ()
  | some h => do
    let d ← askS (fun s _ => (s.core h).gives l detail)
    if h == c then throw (.abort d) else updS (fun s _ => s.abortScene h d false)

/-- The shared limits of R290, met before a line is marked: the ways of its cluster-cache set (DETAIL 1), the footprint of
the cluster cache (DETAIL 2) and its directory set (DETAIL 3, the entry with the youngest record). -/
def sceneRoom (line : Nat) : M Unit := do
  let c ← me
  let cl := clusterOf c
  let inSet ← askS (fun s _ => ((s.marks cl).filter (fun l => ccSet l == ccSet line && l != line)))
  let ways ← askS (fun s _ => (s.ccWays cl).length)
  (if ways ≤ inSet.length then doomYoung inSet 1 else pure ())
  let all ← askS (fun s _ => (s.marks cl).filter (fun l => l != line))
  (if 32768 ≤ all.length then doomYoung all 2 else pure ())
  let dir ← askS (fun s _ => (s.allMarks.filter (fun l =>
    sliceOf l == sliceOf line && dirSet l == dirSet line && l != line)))
  if 16 ≤ dir.length then do
    let v ← askS (fun s _ => s.youngEntry dir)
    let k ← getCore
    if k.wlines.contains v || k.scene.reads.contains v then do
      updS (fun s _ => s.doomHolders v 3 (fun h => h != c))
      throw (.abort (k.gives [v] 3))
    else updS (fun s _ => s.doomHolders v 3 (fun _ => true))
  else pure ()

/-- A line joins the Scene's read set (R288); the limit of R290 is checked first. -/
def joinRead (a line : Nat) : M Unit := do
  let k ← getCore
  if !k.psw.sc then pure ()
  else if k.scene.reads.contains line then pure ()
  else if 4096 ≤ k.scene.reads.length then throw (.abort { code := 2, fa := a, line := some line })
  else do
    contend line false
    sceneRoom line
    modMe (fun k => { k with scene := { k.scene with reads := line :: k.scene.reads } })

/-- A line joins the Scene's write set (R288, R290). -/
def joinWrite (a line : Nat) : M Unit := do
  let k ← getCore
  if k.wlines.contains line then pure ()
  else if 1024 ≤ k.wlines.length then throw (.abort { code := 3, fa := a, line := some line })
  else do
    contend line true
    sceneRoom line

/-- An access that makes a chunk end as UNSAFE (R434 cause 4): I/O, DEVICE pages, the host windows. -/
def markUnsafe : M Unit := updS (fun s c => s.modChunk c (fun k => { k with isUnsafe := true }))

/-- Mark an access by its place and type. -/
def unsafeAccess (lf : Leaf) : M Unit :=
  if 2 ≤ lf.mt || place lf.pa == .host || place lf.pa == .mmio then markUnsafe else pure ()

/-- The words of a store: one, or the two of a STORE2 (R97). -/
def QStore.words (q : QStore) : List (Nat × TWord) := (q.pa, q.val) :: q.more.map (fun w => (q.pa + 1, w))

/-- The word that a queued store writes at a pa. -/
def QStore.word? (q : QStore) (pa : Nat) : Option TWord :=
  if q.pa == pa then some q.val else if q.pa + 1 == pa then q.more.head? else none

/-- Two stores write a word in common. -/
def QStore.meets (p q : QStore) : Bool := q.words.any (fun x => (p.word? x.1).isSome)

/-- One store is performed: it obtains its line (dooming the Scenes it conflicts with, R295) and writes. A line held by a
distributed commit, or one that the host has not yet given (R266), makes it wait: the answer is then none. DEVICE stores reach
their target without directory action; NORMAL-NC ones are performed at the home slice (R265). -/
def State.performStore (s : State) (c : Nat) (q : QStore) : Option State :=
  let line := lineOf q.pa
  match place q.pa with
  | .mmio => some { s with wire := q.words.reverse.map (fun x => Wire.hostWrite x.1 x.2) ++ s.wire }
  | _ =>
    let unit := (s.core c).unit
    if !q.dev && !(q.nc && place q.pa == .host) && s.needsHost line then none
    else
    match s.arbitrate (if unit then .unit (clusterOf c) c else .core c) line true with
    | .go s =>
      let s := if q.dev then s
        else if q.nc then (s.countUreq line).recall line none
        else if unit then s.clOwn (clusterOf c) line
        else (s.lineOwn c line q.alloc none).1
      let s := s.noteChunk c line true
      some (q.words.foldl (fun s x => s.storeWord x.1 x.2 (!q.nc && s.dirtyFor c line)) s)
    | _ => none

/-- Whether the earlier store p keeps q in the queue (R248, R276, R279): an older fence epoch, a word in common, or both
DEVICE-STRICT. -/
def QStore.blocks (p q : QStore) : Bool := p.epoch != q.epoch || p.meets q || (p.strict && q.strict)

/-- Whether the i-th queued store may leave: no earlier one blocks it. -/
def mayLeave (sq : List QStore) (i : Nat) : Bool :=
  match sq[i]? with
  | none => false
  | some q => (sq.take i).all (fun p => !(p.blocks q))

/-- A queued store leaves the queue (R248). One whose line the host must give first has it asked for. -/
def State.drainAt (s : State) (c i : Nat) : State :=
  let sq := (s.core c).mem.sq
  match sq[i]? with
  | none => s
  | some q =>
    if mayLeave sq i then
      match s.performStore c q with
      | some s => s.modCore c (fun k => { k with mem := { k.mem with sq := k.mem.sq.eraseIdx i } })
      | none => s.askHost (lineOf q.pa) true
    else s

/-- Let one store leave on the way to those that p picks: the first picked one, or the earliest store that blocks it. -/
def State.drainStep (s : State) (c : Nat) (p : QStore → Bool) : State :=
  let sq := (s.core c).mem.sq
  match sq.find? p with
  | none => s
  | some q => s.drainAt c (Nat.min (sq.findIdx p) (sq.findIdx (fun x => x.blocks q)))

/-- Every queued store that p picks leaves the queue, with those that block it; the Boolean says that none is left. -/
def State.drainFor (fuel : Nat) (s : State) (c : Nat) (p : QStore → Bool) : State × Bool :=
  if (s.core c).mem.sq.any p then
    match fuel with
    | 0 => (s, false)
    | fuel + 1 => State.drainFor fuel (s.drainStep c p) c p
  else (s, true)

/-- The issuing core waits until the stores that p picks are visible; others stay (R276, R279). -/
def drainThose (p : QStore → Bool) : M Unit := do
  let c ← me
  let s ← get
  if (s.core c).mem.sq.any p then do
    let r := State.drainFor 8 s c p
    set r.1
    match r.2, (r.1.core c).mem.sq.find? p with
    | false, some q => throw (.wait (.line (lineOf q.pa)))
    | _, _ => pure ()
  else pure ()

/-- Every queued store of a core becomes visible, oldest first (R133, R279). -/
def State.drainAll (s : State) (c : Nat) : State :=
  (List.range 8).foldl (fun s _ => s.drainAt c 0) s

/-- Every earlier store of the issuing core becomes visible; a line held by a distributed commit makes it wait. -/
def drainMine : M Unit := do
  updS (fun s c => s.drainAll c)
  let k ← getCore
  match k.mem.sq with
  | [] => pure ()
  | q :: _ => throw (.wait (.line (lineOf q.pa)))

/-- A fence whose condition an access meets unmet: earlier stores complete first (R279). -/
def meetFence : M Unit := do
  let k ← getCore
  if k.mem.fence then do
    drainMine
    modMe (fun k => { k with mem := { k.mem with fence := false } })
  else pure ()

/-- The word a core sees at a pa, its own queued stores and Scene writes included (R248, R276). -/
def State.coreSees (s : State) (c pa : Nat) : TWord :=
  let k := s.core c
  match k.scene.wbuf.find? (fun x => x.1 == pa) with
  | some x => x.2
  | none =>
    match k.mem.sq.reverse.findSome? (fun q => q.word? pa) with
    | some w => w
    | none => s.rd pa

/-- The next logged record of an agent under REPLAY that is not a software MARK (R450): the record and the rest. -/
def nextVal (l : List Recd) : Option (Recd × List Recd) :=
  match l with
  | [] => none
  | r :: rest => if r.q0 / 2 ^ 60 % 16 == 7 && r.q0 / 2 ^ 40 % 8 == 0 then nextVal rest else some (r, rest)

/-- The next logged value under REPLAY must be a record of this type and SUB (R450); another stops the replay (R452). -/
def takeRec (type sub : Nat) : M Recd := do
  let k ← getCore
  match nextVal k.chunk.vals with
  | some (r, rest) =>
    if r.q0 / 2 ^ 60 % 16 == type && r.q0 / 2 ^ 40 % 8 == sub then do
      updS (fun s c => s.modChunk c (fun x => { x with vals := rest }))
      pure r
    else throw (.wait .replay)
  | none => throw (.wait .replay)

/-- A value that enters from outside (R438): logged as NDVAL with its SUB under RECORD, taken from the log under REPLAY. -/
def ndval (sub : Nat) (v : W64) (units : List Nat) : M (W64 × List Nat) := do
  let rp ← askS (fun s _ => s.mode mREPLAY)
  let v ← (if rp then do
      let r ← takeRec 2 sub
      pure (w64 r.q1, r.units)
    else pure (v, units))
  updS (fun s c => s.note c { q0 := recQ0 2 c (v.2.length / 2) false sub 0, q1 := v.1.toNat, units := v.2 })
  pure v

/-- A word read through a host window is logged as INPUT with SUB 4 (R438). -/
def windowNote (pa : Nat) (w : TWord) : M Unit :=
  updS (fun s c => s.note c { q0 := recQ0 3 c 1 false 4 0, q1 := pa, units := [w.datum.toNat, 0] })

/-- Under REPLAY a window read takes its logged datum (R450). -/
def windowLogged (pa : Nat) : M TWord := do
  let r ← takeRec 3 4
  let w := word tRAW (r.units.headD 0)
  windowNote pa w
  pure w

/-- A store to a DEVICE page or to a host window: under REPLAY it has no effect and is counted (R451). -/
def outwardStore (lf : Leaf) : M Bool := do
  let rp ← askS (fun s _ => s.mode mREPLAY)
  if rp && (2 ≤ lf.mt || place lf.pa == .host || place lf.pa == .mmio) then do
    updS (fun s _ => s.bump .REH_LIVEDROP 0 1)
    pure true
  else pure false

/-- What an access to a page of this memory type must follow in the core's own order: a DEVICE-STRICT access follows every earlier
DEVICE-STRICT store (R224, R278), an access to the MMIO window every earlier store to its word (R276). -/
def ownOrder (lf : Leaf) : M Unit := do
  (if lf.mt == 3 then drainThose (fun q => q.strict) else pure ())
  if place lf.pa == .mmio then drainThose (fun q => (q.word? lf.pa).isSome) else pure ()

/-- A read must first have its line from the host (R266, R389): it is not in the core's frames, and the host interface does not
hold it. DEVICE reads of the device's own memory need none (R265). -/
def State.readAsks (s : State) (c : Nat) (lf : Leaf) : Bool :=
  ((s.core c).dstate (lineOf lf.pa) == .inv || lf.mt != 0) && (place lf.pa == .host || lf.mt ≤ 1) && s.needsHost (lineOf lf.pa)

/-- Bring the word's line for a read by its memory type (R246, R247, R265): into the core's caches, for a unit into the cluster
cache, for NORMAL-NC at the home slice, for DEVICE nowhere. -/
def State.readLine (s : State) (c : Nat) (lf : Leaf) (alloc : Bool) : State :=
  let line := lineOf lf.pa
  let k := s.core c
  if lf.mt == 0 then
    if k.unit then s.clRead (clusterOf c) line
    else
      let r := s.lineRead c line alloc (if k.psw.sc then some (s.sceneAge c) else none)
      r.1.modCore c (fun k => { k with mem := { k.mem with miss := k.mem.miss || r.2 } })
  else
    let s := if lf.mt == 1 then (s.countUreq line).recall line none else s
    { s with held := s.held.erase line }

/-- The pa of a prefetch at va a through the µTLB entry of the access that causes it (R259): none across its leaf region, without R at
the current level, refused by PKR, not NORMAL-WB, or refused by the final checks (R222, R223). -/
def Core.prefetchPa (k : Core) (u : Utlb) (a : Nat) : Option Nat :=
  let t := u.tte
  let pa := oaOf t + a % 2 ^ sizeShift (bits t 20 17)
  if u.covers a && (k.psw.l || bit t 5) && bit t 3 && !(bit k.sr.pkr (2 * bits t 12 9)) && mtOf t == 0 &&
      (leafFault (k.ctx false) t {} 0 .read pa).isNone then some pa
  else none

/-- One prefetch of core c (R258, R259): its line comes in state S or E, into a D-frame or into the cluster cache only. -/
def State.prefetch (s : State) (c : Nat) (u : Utlb) (a : Nat) (frame : Nat → Bool) : State :=
  match (s.core c).prefetchPa u a with
  | none => s
  | some pa =>
    let line := lineOf pa
    let cl := clusterOf c
    let hit := s.clHolds cl line
    let fill := frame line && bit (s.core c).sr.cctl 0
    if (match place pa with | .loc => false | .priv => false | .host => false | _ => true) then s
    else if (s.core c).dstate line != .inv || (hit && !fill) then s
    else
      let s := s.bump .CORE_PFISSUE c 1
      if s.needsHost line then s.askHost line false
      else
        let s := if hit then s.bump .CC_HIT cl 1 else (s.usher cl line false none).bump .CC_MISS cl 1
        s.lineFill c line hit fill

/-- The confirmed stream that predicts an access (R258): three successive differences between its misses were equal. -/
def Stream.predicts (x : Stream) (a : Nat) : Bool := decide (3 ≤ x.runs) && ((x.last : Int) + x.stride == a)

/-- Train the stride streams with a miss at va a (R258): it belongs to the latest used stream whose last miss lies no more than 4,096
words away, or starts one in place of the least recently used (log entry 79, DESIGN CHOICE). -/
def trainStreams (l : List Stream) (a : Nat) : List Stream :=
  let far (x : Stream) : Int := (a : Int) - x.last
  match l.find? (fun x => decide ((far x).natAbs ≤ 4096)) with
  | some x =>
    if far x == 0 then l
    else { last := a, stride := far x, runs := if far x == x.stride then x.runs + 1 else 1 } :: l.erase x
  | none => ({ last := a, stride := 0, runs := 0 } :: l).take 16

/-- The prefetches that a demand access at va a and pa causes by CCTL.PF (R258): the next line after a miss, into the same frame or into
the cluster cache; at a stream's predicted address one stride ahead into the D-frames and two strides ahead into the cluster
cache. -/
def State.prefetches (s : State) (c : Nat) (u : Utlb) (a pa : Nat) (missed : Bool) : State :=
  let k := s.core c
  let pf := bits k.sr.cctl 5 4
  let keep (s : State) (l : List Stream) : State := s.modCore c (fun k => { k with mem := { k.mem with streams := l } })
  if pf == 0 then s
  else
    let s := if missed then s.prefetch c u (a / 8 * 8 + 8) (fun line => line / 4 == lineOf pa / 4) else s
    if pf != 2 then s
    else
      match k.mem.streams.find? (fun x => x.predicts a) with
      | some x =>
        let s := keep s ({ x with last := a } :: k.mem.streams.erase x)
        let s := s.prefetch c u (va48 ((a : Int) + x.stride)) (fun _ => true)
        s.prefetch c u (va48 ((a : Int) + 2 * x.stride)) (fun _ => false)
      | none => if missed then keep s (trainStreams k.mem.streams a) else s

/-- The prefetches of one demand access of the core to NORMAL-WB memory, through the µTLB entry that has translated it (R258, R259). -/
def prefetchFor (a : Nat) (lf : Leaf) (missed : Bool) : M Unit := do
  let k ← getCore
  match k.utlb false a with
  | some u => if lf.tte == some u.tte && lf.mt == 0 && !k.unit then updS (fun s c => s.prefetches c u a lf.pa missed) else pure ()
  | none => pure ()

/-- Read the word of a translated access. `ld` marks a load-class read (R144); `alloc` is false for PFETCH (R100). Where two windows
of R144 cover the word, the load sees it as it stood before the older store (log entry 75, DEDUCED). -/
def readWord (a : Nat) (lf : Leaf) (ld alloc : Bool) : M TWord := do
  sceneSafe lf
  target a lf false
  unsafeAccess lf
  meetFence
  ownOrder lf
  let k ← getCore
  let line := lineOf lf.pa
  let v ← (match k.wing lf.pa, place lf.pa with
    | some w, .wings => pure (w.words.getD (lf.pa % 32) wEMPTY)
    | _, _ => do
      joinRead a line
      let own ← askS (fun s c => (s.core c).mem.sq.any (fun q => (q.word? lf.pa).isSome) ||
        (s.core c).scene.wbuf.any (fun x => x.1 == lf.pa))
      let asks ← askS (fun s c => s.readAsks c lf)
      let rp ← askS (fun s _ => s.mode mREPLAY)
      if rp && !own && (place lf.pa == .host || place lf.pa == .mmio) then windowLogged lf.pa
      else if place lf.pa == .mmio then
        match k.hostBuf.find? (fun x => x.1 == lf.pa) with
        | some (_, d) => do
          windowNote lf.pa (word tRAW d.toNat)
          pure (word tRAW d.toNat)
        | none => throw (.wait (.hostRead lf.pa a))
      else if asks && !own then throw (.wait (.hostRead lf.pa a))
      else do
        let c ← me
        let s ← get
        set ((s.readLine c lf alloc).noteChunk c line false)
        prefetchFor a lf (k.dstate line == .inv)
        let now ← getCore
        if k.psw.sc && !now.psw.sc then throw .gone else pure ()
        let w := s.coreSees c lf.pa
        if place lf.pa == .host && !own then windowNote lf.pa w else pure ()
        pure w)
  if ld then
    let hit := (k.wins.filter (fun w => w.pa == lf.pa)).getLast?
    match hit with
    | none => pure v
    | some w => do
      let strict ← askS (fun s c => s.strict c)
      if strict then raise { vec := 13, sub := 2, addr := a, dv := some (3 - w.remain, 2, w.syl, w.sa) }
      else pure w.old
  else pure v

/-- Room for one more store: a full queue freezes the core until a store leaves (R248). -/
def queueRoom : M Unit := do
  let k ← getCore
  if 8 ≤ k.mem.sq.length then do
    updS (fun s c => (List.range 8).foldl (fun s i => if 8 ≤ (s.core c).mem.sq.length then s.drainAt c i else s) s)
    let k ← getCore
    if 8 ≤ k.mem.sq.length then throw (.wait (.line (lineOf ((k.mem.sq.map (fun q => q.pa)).headD 0)))) else pure ()
  else pure ()

/-- The store of a word, and of the word after it for a STORE2, through a translation. -/
def storeOf (lf : Leaf) (w : TWord) (more : List TWord) (epoch : Nat) (alloc : Bool) : QStore :=
  { pa := lf.pa, val := asStored lf.pa w, more := more.map (asStored lf.pa), epoch := epoch, strict := lf.mt == 3, alloc := alloc,
    nc := lf.mt != 0, dev := decide (2 ≤ lf.mt) }

/-- Words that a Scene writes join its write set (R288). -/
def Core.sceneWrite (k : Core) (l : List (Nat × TWord)) : Core :=
  l.foldl (fun k x => { k with scene := { k.scene with wbuf := x :: k.scene.wbuf.filter (fun y => y.1 != x.1) } }) k

/-- What a word of a translated access holds, the core's own stores included. -/
def State.wordAt (s : State) (c : Nat) (pa : Nat) : TWord :=
  match (s.core c).wing pa, place pa with
  | some x, .wings => x.words.getD (pa % 32) wEMPTY
  | _, _ => s.coreSees c pa

/-- Place a word into memory for the issuing core, and with STORE2 the word after it in the same access (R97): a wings slot, the
Scene's write set, or the store queue (R248, R288). `win` opens the windows of R144. -/
def writeWord (a : Nat) (lf : Leaf) (w : TWord) (alloc win : Bool) (more : List TWord := []) : M Unit := do
  sceneSafe lf
  target a lf true
  unsafeAccess lf
  meetFence
  let k ← getCore
  let line := lineOf lf.pa
  let q := storeOf lf w more k.mem.epoch alloc
  let old ← askS (fun s c => q.words.map (fun x => (x.1, s.wordAt c x.1)))
  let gone ← outwardStore lf
  (if gone then pure ()
  else match place lf.pa with
    | .wings => modMe (fun k => k.wingWrite q.words)
    | _ =>
      if k.psw.sc then do
        joinWrite a line
        modMe (fun k => k.sceneWrite q.words)
      else if k.unit then do
        drainMine
        let r ← askS (fun s c => s.performStore c { q with alloc := false })
        match r with
        | some s => set s
        | none => throw (.wait (.line line))
      else do
        queueRoom
        modMe (fun k => { k with mem := { k.mem with sq := k.mem.sq ++ [q] } })
        prefetchFor a lf (k.dstate line == .inv && !(k.mem.sq.any (fun x => lineOf x.pa == line))))
  if win then
    modMe (fun k => { k with newWins := old.map (fun x => { pa := x.1, old := x.2, remain := 2, sa := k.pc, syl := 0 }) ++ k.newWins })
  else pure ()

/-- Place a word as one indivisible access in coherence order (R99, R280, R322): the core's earlier stores to the word leave its
queue first, and those that a FENCE.REL has ordered before it (R276, R279); inside a Scene it joins the write set. -/
def writeNow (a : Nat) (lf : Leaf) (w : TWord) : M Unit := do
  let k ← getCore
  if k.psw.sc || place lf.pa == .wings then writeWord a lf w true false
  else do
    target a lf true
    unsafeAccess lf
    drainThose (fun q => (q.word? lf.pa).isSome || q.epoch != k.mem.epoch)
    let gone ← outwardStore lf
    if gone then pure ()
    else
    let r ← askS (fun s c => s.performStore c (storeOf lf w [] k.mem.epoch true))
    match r with
    | some s => set s
    | none => throw (.wait (.line (lineOf lf.pa)))

/-- The line of an indivisible access comes to core c in state M (R280); none where the access must wait for it. -/
def State.ownLine (s : State) (c line : Nat) : Option State :=
  if s.needsHost line then none
  else match s.arbitrate (.core c) line true with
    | .go s => some ((s.lineOwn c line true none).1.noteChunk c line true)
    | _ => none

/-- The issuing core takes the line of a word for an indivisible access, made whether or not it writes (R99, R280); inside a Scene the
access is an ordinary one (R84). -/
def ownWord (lf : Leaf) : M Unit := do
  let k ← getCore
  if k.psw.sc || place lf.pa == .wings then pure ()
  else do
    let r ← askS (fun s c => s.ownLine c (lineOf lf.pa))
    match r with
    | some s => set s
    | none => throw (.wait (.line (lineOf lf.pa)))

/-- The word of an atomic read-modify-write (R99, R226): its page may be written and read and is NORMAL-WB, which inside a Scene comes
after the ban on other pages (R84). -/
def atomicWord (a : Nat) : M TWord := do
  let lf ← xlate a .write
  let _ ← xlate a .read
  sceneSafe lf
  if lf.mt ≠ 0 then raise { tBus 2 a with wr := true }
  else do
    target a lf true
    meetFence
    ownWord lf
    readWord a lf false true

/-- The heap region of a va (R310). -/
def State.regionOf (s : State) (va : Nat) : Option Nat :=
  let b := s.fld f_COL_HEAPBASE_BASE 0 * 2 ^ 18
  if b ≤ va && va < b + 65536 * 2 ^ 18 then some ((va - b) / 2 ^ 18) else none

/-- First va of a region. -/
def State.regionVa (s : State) (r : Nat) : Nat := s.fld f_COL_HEAPBASE_BASE 0 * 2 ^ 18 + r * 2 ^ 18

/-- Place of word 0 of a region-table entry (R311, R313). -/
def regionPa (r : Nat) : Nat := 0x000409000000 + 4 * r

/-- Word 0 of a region-table entry, and its fields (R313). -/
def State.region0 (s : State) (r : Nat) : W64 := (s.rd (regionPa r)).datum
def rState (d : W64) : Nat := bits d 2 0
def rEpoch (d : W64) : Bool := bit d 3
def rSel (d : W64) : Bool := bit d 8
def rDold (d : W64) : Bool := bit d 9
def rTop (d : W64) : Nat := bits d 44 26
def rTams (d : W64) : Nat := bits d 63 45

/-- Region states (R312). -/
def gFREE : Nat := 0
def gNURSERY : Nat := 1
def gOLD : Nat := 2
def gLARGE : Nat := 3
def gPINNED : Nat := 4
def gEVAC : Nat := 5

/-- Change word 0 of a region: every lookaside drops the region (R314) and COL.FREE follows. -/
def State.setRegion0 (s : State) (r : Nat) (d : W64) : State :=
  let was := rState (s.region0 r) == gFREE
  let now := rState d == gFREE
  let free := s.fld f_COL_FREE_COUNT 0
  let s := s.wr (regionPa r) (fixW d)
  let s := { s with cores := s.cores.map (fun k => { k with mem := { k.mem with look := k.mem.look.filter fun x => x.1 != r } }) }
  if was && !now then s.setFld f_COL_FREE_COUNT 0 (free - 1)
  else if !was && now then s.setFld f_COL_FREE_COUNT 0 (free + 1)
  else s

/-- Word 0 of a region as the core's lookaside shows it (R314). -/
def lookRegion (r : Nat) : M W64 := do
  let k ← getCore
  match k.mem.look.find? (fun x => x.1 == r) with
  | some x => do
    modMe (fun k => { k with mem := { k.mem with look := x :: (k.mem.look.filter fun y => y.1 != r) } })
    pure x.2
  | none => do
    let d ← askS (fun s _ => s.region0 r)
    modMe (fun k => { k with mem := { k.mem with look := ((r, d) :: k.mem.look).take 64 } })
    pure d

/-- Barriers and engines are enabled (COL.CTL.EN). -/
def State.colOn (s : State) : Bool := s.flag f_COL_CTL_EN 0

/-- A stale heap pointer (R322): its region is EVACUATING and its E differs from the EPOCH. -/
def isStale (w : TWord) : M Bool := do
  let p ← askS (fun s c => isPtr (s.cuptr c) (ty w) && s.colOn && hiZero w)
  let r ← askS (fun s _ => s.regionOf (adr w))
  match p, r with
  | true, some r => do
    let d ← lookRegion r
    pure (rState d == gEVAC && eBit w != rEpoch d)
  | _, _ => pure false

/-- Read a word without barrier or window: the barrier's and the microcode's own reads. -/
def peek (a : Nat) : M TWord := do
  let lf ← xlate a .read
  readWord a lf false true

/-- Write a word without the write barriers: healing stores, copies and FWD words. -/
def poke (a : Nat) (w : TWord) : M Unit := do
  let lf ← xlate a .write
  writeWord a lf w true false

/-- Search backwards from `cur` for the nearest HDR or FWD (R552 step 1). -/
def findHdr (fuel cur : Nat) : M (Option (Nat × TWord)) :=
  match fuel with
  | 0 => pure none
  | fuel + 1 => do
    let w ← peek cur
    if ty w == tHDR || ty w == tFWD then pure (some (cur, w))
    else match cur with
      | 0 => pure none
      | cur + 1 => findHdr fuel cur

/-- The first LARGE region, going down, whose word 0 is an HDR (R552 step 4). -/
def findLarge (fuel r : Nat) : M Nat :=
  match fuel with
  | 0 => pure r
  | fuel + 1 => do
    let a ← askS (fun s _ => s.regionVa r)
    let w ← peek a
    if ty w == tHDR then pure r
    else match r with
      | 0 => pure 0
      | r + 1 => findLarge fuel r

/-- The base of the object that a VAR or LOC addresses (R552). -/
def baseOf (a : Nat) : M Nat := do
  let r ← askS (fun s _ => s.regionOf a)
  match r with
  | none => pure a
  | some r => do
    let d ← lookRegion r
    let rv ← askS (fun s _ => s.regionVa r)
    if rState d == gLARGE then do
      let r0 ← findLarge (r + 1) r
      askS (fun s _ => s.regionVa r0)
    else do
      let h ← findHdr (a - rv + 1) a
      match h with
      | none => pure (a / 2 * 2)
      | some (h, w) =>
        if ty w == tHDR then pure (if a ≤ h + hdrLen w then h else a / 2 * 2)
        else do
          let n ← peek (adr w)
          let reach := if ty n == tHDR then hdrLen n else 1
          pure (if a ≤ h + reach then h else a / 2 * 2)

/-- The base that a stale pointer stands for: its own address, or the base of a VAR or LOC (R552). -/
def ptrBase (w : TWord) : M Nat := if ty w == tVAR || ty w == tLOC then baseOf (adr w) else pure (adr w)

/-- The context COL.CTX (R310): the roots are those of the lowest running core that holds it (log entry 8, DEDUCED). -/
def State.colCtx (s : State) : Ctx :=
  let w := s.flag f_COL_CTX_W 0
  let vm := s.fld f_COL_CTX_VMID 0
  let asid := s.fld f_COL_CTX_ASID 0
  let bank (k : Core) : Bank := if w then k.back else k.house
  match s.lowest (fun c => s.running c && bits (bank (s.core c)).asid 15 0 == asid
      && (w || bits (s.core c).sr.vmid 7 0 == vm)) with
  | some c => { world := w, vmid := vm, asid := asid, s1 := rootOf (bank (s.core c)).dtbr,
                s2 := rootOf (s.core c).sr.s2tbr, isI := false }
  | none => { world := w, vmid := vm, asid := asid, s1 := rootOf 0, s2 := rootOf 0, isI := false }

/-- Translate a va in the collector context on a cluster's walker (R310, R233). -/
def State.colXlate (s : State) (cl va : Nat) (kind : Acc) : State × (WFault ⊕ (Nat × Nat)) :=
  let x := s.colCtx
  if !x.s1.en && (x.world || !x.s2.en) then (s, .inr (va, 36))
  else
    match s.walk cl x va kind true with
    | (s, .inl f) => (s, .inl f)
    | (s, .inr w) =>
      let sh := sizeShift (bits w.tte 20 17)
      (s, .inr (oaOf w.tte + va % 2 ^ sh, sh))

/-- Clear the words [va, va + len) to EMPTY through the collector context, one leaf region at a time (R552). -/
def State.clearVa (fuel : Nat) (s : State) (cl va len : Nat) : State :=
  match fuel with
  | 0 => s
  | fuel + 1 =>
    if len = 0 then s
    else
      match s.colXlate cl va .write with
      | (s, .inl _) => s
      | (s, .inr (pa, sh)) =>
        let n := Nat.min len (2 ^ sh - va % 2 ^ sh)
        State.clearVa fuel (s.clearEmpty pa n) cl (va + n) (len - n)

/-- Bring a FREE region into use (R315-R317, R552): its words are EMPTY, its state set, TOP given, EPOCH kept. -/
def State.openRegion (s : State) (cl r st top : Nat) : State :=
  let s := s.clearVa 513 cl (s.regionVa r) (2 ^ 18)
  let d := setBits (setBits (setBits (s.region0 r) 2 0 st) 44 26 top) 9 8 0
  s.setRegion0 r d

/-- The lowest-numbered FREE region. -/
def State.lowestFree (s : State) : Option Nat :=
  if s.fld f_COL_FREE_COUNT 0 = 0 then none
  else (List.range 65536).find? (fun r => rState (s.region0 r) == gFREE)

/-- Room for a copy in the cluster's evacuation buffer of a DOLD class (R317, R322): its va and the new state; none
when no FREE region is left. -/
def State.evacRoom (s : State) (cl : Nat) (old : Bool) (size : Nat) : Option (Nat × State) :=
  let sz := (size + 1) / 2 * 2
  let cur := if old then (s.cluster cl).evacO else (s.cluster cl).evacN
  let fits (r : Nat) : Bool := rTop (s.region0 r) + sz ≤ 2 ^ 18 && rState (s.region0 r) == (if old then gOLD else gNURSERY)
  let take (s : State) (r : Nat) : Nat × State :=
    let d := s.region0 r
    (s.regionVa r + rTop d, s.setRegion0 r (setBits d 44 26 (rTop d + sz)))
  match cur.filter fits with
  | some r => some (take s r)
  | none =>
    match s.lowestFree with
    | none => none
    | some r =>
      let s := s.openRegion cl r (if old then gOLD else gNURSERY) 0
      let s := s.modCluster cl (fun k => if old then { k with evacO := some r } else { k with evacN := some r })
      some (take s r)

/-- Copy n words of an object to a new place, the header with its AGE raised (R322 step 2). -/
def copyWords (n i src dst : Nat) : M Unit :=
  match n with
  | 0 => pure ()
  | n + 1 => do
    let w ← peek (src + i)
    let w := if i = 0 && ty w == tHDR then
      { w with datum := setBits w.datum 43 40 (Nat.min 15 (hdrAge w + 1)) } else w
    poke (dst + i) w
    copyWords n (i + 1) src dst

/-- Steps 1 and 2 of the load barrier on the object at `base` (R322): the FWD word's datum and E, copying a small
object when it is not yet forwarded. -/
def forward (base : Nat) : M (Nat × Bool) := do
  let w ← peek base
  if ty w == tFWD then pure (adr w, eBit w)
  else do
    let size := if ty w == tHDR then hdrLen w + 1 else 2
    if 64 < size then throw (.wait (.barrierCopy base))
    else do
      let r ← askS (fun s _ => (s.regionOf base).getD 0)
      let d ← lookRegion r
      let ten ← askS (fun s _ => s.fld f_COL_CTL_TENURE 0)
      let old := rDold d || (ty w == tHDR && ten ≤ hdrAge w)
      let c ← me
      let s ← get
      match s.evacRoom (clusterOf c) old size with
      | none => raise { vec := 16, sub := 1, addr := base }
      | some (dst, s) => do
        set s
        copyWords size 0 base dst
        let nr ← askS (fun s _ => (s.regionOf dst).getD 0)
        let e ← askS (fun s _ => rEpoch (s.region0 nr))
        let lf ← xlate base .write
        writeNow base lf ⟨mkTag false e tFWD, w64 dst⟩
        pure (dst, e)

/-- Steps 1-3 of the load barrier: the healed form of a stale word (R322, R552). -/
def heal (w : TWord) : M TWord := do
  let b ← ptrBase w
  let (n, e) ← forward b
  pure ⟨mkTag (kBit w) e (ty w), w64 (n + (adr w - b))⟩

/-- The load barrier on a word that came from the cell at `a` through the µTLB entry of `lf` (R322): the healed word is
written back when a write would not fault, and delivered. -/
def barrier (w : TWord) (a : Nat) : M TWord := do
  let st ← isStale w
  if !st then pure w
  else do
    let h ← heal w
    let k ← getCore
    match xlateCore k a .write 7 with
    | .inl _ => pure h
    | .inr lf => do
      let cur ← peek a
      if cur = w then writeNow a lf h else pure ()
      pure h

/-- Deliver a word from memory with the load barrier (R81). `ld` marks a load-class read (R144). -/
def load (a : Nat) (ld : Bool) : M TWord := do
  let lf ← xlate a .read
  let w ← readWord a lf ld true
  barrier w a

/-- Resolve an address operand (R82): a stale pointer is replaced by its healed form, in its stack entry too where `pos` is the
operand's position (15: it has none). -/
def resolve (w : TWord) (pos : Nat := 15) : M TWord := do
  let st ← isStale w
  if st then do
    let h ← heal w
    modMe (fun k => { k with stk := { k.stk with regs := k.stk.regs.set pos h } })
    pure h
  else pure w

/-- A word is a heap pointer (R310). -/
def State.heapPtr (s : State) (c : Nat) (w : TWord) : Bool :=
  isPtr (s.cuptr c) (ty w) && (s.regionOf (adr w)).isSome

/-- The word of the card table that marks the card of a va (R311): its place and its new value. -/
def State.cardWord (s : State) (va : Nat) : Option (Nat × TWord) :=
  (s.regionOf va).map (fun r =>
    let n := r * 512 + (va - s.regionVa r) / 512
    let pa := 0x000409040000 + n / 64
    (pa, ⟨0, (s.rd pa).datum ||| w64 (2 ^ (n % 64))⟩))

/-- Mark the card of the word at va (R311, R319): an ordinary store to the card table, made at once and outside any Scene (R280,
R307). A line held by a distributed commit makes it wait: the answer is then none. -/
def State.markCard (s : State) (c va : Nat) : Option State :=
  match s.cardWord va with
  | none => some s
  | some (pa, w) => s.performStore c { pa := pa, val := w, epoch := 0, strict := false, alloc := true, nc := false }

/-- Mark the card of the word at va for the issuing core. -/
def markMine (va : Nat) : M Unit := do
  let r ← askS (fun s c => s.markCard c va)
  match r with
  | some s => set s
  | none => throw (.wait (.line (lineOf 0x000409040000)))

/-- Card marking for a store of `v` at va (R319). -/
def cardMark (va : Nat) (v : TWord) : M Unit := do
  let on ← askS (fun s c => s.colOn && s.heapPtr c v)
  let tr ← askS (fun s _ => s.regionOf (adr v))
  let hr ← askS (fun s _ => s.regionOf va)
  match on, tr, hr with
  | true, some t, some h => do
    let td ← lookRegion t
    let hd ← lookRegion h
    if rState td == gNURSERY && (rState hd == gOLD || rState hd == gLARGE || rState hd == gPINNED)
    then markMine va else pure ()
  | _, _, _ => pure ()

/-- Capacity of the SATB queue (R311) in words. -/
def satbMax : Nat := 0x000400000

/-- A core's full SATB buffer goes to the SATB queue as one unit, when the queue has room (R320). -/
def State.flushSatb (s : State) (c : Nat) : State :=
  let b := (s.core c).mem.satb
  if s.col.satbCount + b.length ≤ satbMax then
    let s := (b.zipIdx).foldl (fun s x => s.wr (0x0004094C0000 + s.col.satbCount + x.2) x.1) s
    let s := { s with col := { s.col with satbCount := s.col.satbCount + b.length } }
    s.modCore c (fun k => { k with mem := { k.mem with satb := [] } })
  else s

/-- SATB logging of an overwritten word (R320). A full buffer is first written out, counted in COL.SATBHOLD; a full
queue freezes the core. -/
def satbLog (old : TWord) : M Unit := do
  let on ← askS (fun s c => s.colOn && s.fld f_COL_PHASE_PHASE 0 == 1 && s.heapPtr c old)
  if !on then pure ()
  else do
    let k ← getCore
    if 32 ≤ k.mem.satb.length then
      updS (fun s c => (s.flushSatb c).bump .COL_SATBHOLD 0 1)
    else pure ()
    let k ← getCore
    if 32 ≤ k.mem.satb.length then throw (.wait .satb)
    else modMe (fun k => { k with mem := { k.mem with satb := k.mem.satb ++ [old] } })

/-- Card mark and SATB entry of a store of `v` at va over `old` (R81, R319, R320). -/
def writeBarrier (va : Nat) (v old : TWord) : M Unit := do
  satbLog old
  cardMark va v

/-- What a store would overwrite, without counting as a read of the program. -/
def overwritten (lf : Leaf) : M TWord := askS (fun s c => s.wordAt c lf.pa)

/-- A value that is stored and not consumed (R37). -/
def movedOpd (v : TWord) (pos : Nat) : Opd := { w := v, pos := pos, moved := true }

/-- The check of R37 alone on a value that is stored. -/
def hdrStore (v : TWord) (pos : Nat) : M Unit := check [movedOpd v pos]

/-- An ordinary store of one word with the write barriers. -/
def store (a : Nat) (v : TWord) (alloc win : Bool) : M Unit := do
  let lf ← xlate a .write
  sceneSafe lf
  target a lf true
  let old ← overwritten lf
  writeBarrier a v old
  writeWord a lf v alloc win

/-- The write of an atomic (R99, R280): one indivisible access with the write barriers. -/
def atomicWrite (a : Nat) (v : TWord) : M Unit := do
  let lf ← xlate a .write
  sceneSafe lf
  let old ← overwritten lf
  writeBarrier a v old
  writeNow a lf v

/-- The word of an atomic with the load barrier applied. -/
def atomicRead (a : Nat) : M TWord := do
  let w ← atomicWord a
  barrier w a

/-- The store of a pair of words at an even va as one access (R97): both words' barriers, then both words. `win` opens the windows of
R144. -/
def storePair (a : Nat) (v w : TWord) (win : Bool) : M Unit := do
  let lf ← xlate a .write
  sceneSafe lf
  target a lf true
  let old ← overwritten lf
  let old2 ← overwritten { lf with pa := lf.pa + 1 }
  writeBarrier a v old
  writeBarrier (a + 1) w old2
  writeWord a lf v true win [w]

end Sys2Proof.Machine
end

