-- ==== Sys2Proof/Machine/Ops.lean ====
section
/-! DEFINITION. Taking an exception (R192-R202), returning from one (R198, R200), and the issue of a syllable: landing
points (R140), decode checks (R74, R114, R125, R147), STRICT (R149), spills and fills (R49-R52), retirement, delay slots
(R113), the loop step (R125) and shadows (R147). -/

namespace Sys2Proof.Machine

open Sys2Proof

/-! ### Stacks and pending results -/

/-- Put a landed value in its home slot where the slot is a register entry (R139, R141). -/
def Core.putSlot (k : Core) (slot : Nat) (v : TWord) : Core :=
  if k.stk.sp ≤ slot ∧ slot < k.stk.sp + k.stk.regs.length then
    { k with stk := { k.stk with regs := k.stk.regs.set (slot - k.stk.sp) v } }
  else k

/-- Land a list of results, in order: of two results for one slot that land together, the later producer's stays (log entry 76,
DEDUCED: R141 and R142 give no order among them). -/
def Core.landList (k : Core) (l : List PendRes) : Core := l.foldl (fun k p => k.putSlot p.slot p.val) k

/-- Land every pending result (R142). -/
def Core.landAll (k : Core) : Core := { (k.landList k.pend) with pend := [] }

/-- One more syllable issues: results whose distance is reached land (R140). -/
def Core.landDue (k : Core) : Core :=
  let l := k.pend.map (fun p => { p with remain := p.remain - 1, gone := p.gone + 1 })
  { (k.landList (l.filter fun p => p.remain == 0)) with pend := l.filter fun p => p.remain != 0 }

/-- Land the results pending in one slot (R142: a spill or fill of the slot). -/
def Core.landSlot (k : Core) (slot : Nat) : Core :=
  { (k.landList (k.pend.filter fun p => p.slot == slot)) with pend := k.pend.filter fun p => p.slot != slot }

/-! ### Exception entry -/

/-- FAULTAUX (R195) for the syllable `syl`. -/
def Trap.aux (t : Trap) (syl : Nat) : W64 :=
  match t.raw with
  | some w => w
  | none => w64 (b2n t.part * 2 ^ 63 + t.tag % 256 * 2 ^ 48 + t.pos % 16 * 2 ^ 44 + t.cause % 16 * 2 ^ 40
      + t.stage % 4 * 2 ^ 38 + t.level % 8 * 2 ^ 35 + b2n t.wr * 2 ^ 34 + b2n t.fx * 2 ^ 33
      + (if t.noSyl then 0 else syl % 2 ^ 16) * 2 ^ 16 + t.xinfo % 2 ^ 16)

/-- The vector and the subcode of an exception in one field (R195, R298). -/
def Trap.code (t : Trap) : Nat := t.vec % 256 * 256 + t.sub % 256

/-- FAULTINFO (R194). -/
def faultInfo (qf esc df : Bool) (vec sub : Nat) : W64 :=
  w64 (b2n qf * 2 ^ 18 + b2n esc * 2 ^ 17 + b2n df * 2 ^ 16 + vec % 256 * 2 ^ 8 + sub % 256)

/-- Words 0-31 of a TSB (R193) from a core's context. -/
def tsbWords (k : Core) (pc psw : Nat) (s0 s1 : TWord) (sceneStat info addr aux : W64) : List TWord :=
  let sAt (i : Nat) : TWord := k.stk.regs.getD i wEMPTY
  let cAt (i : Nat) : TWord := k.stk.cregs.getD i wEMPTY
  [word tCODE pc, fixN psw, fixN (k.stk.sp + k.occN * 2 ^ 48), fixN (k.stk.csp + k.occM * 2 ^ 48),
   fixW k.sr.lc, fixW k.sr.ls, fixW k.sr.le, if bit (w64 psw) 11 then word tCODE k.dst else fixN 0,
   s0, s1, sAt 2, sAt 3, sAt 4, sAt 5, sAt 6, sAt 7, cAt 0, cAt 1, cAt 2, cAt 3,
   k.sr.pg0, k.sr.pg1, k.sr.pg2, k.sr.pg3, fixW info, fixW addr, fixW aux, fixW sceneStat,
   fixW k.sr.ab, fixW k.sr.al, fixW k.sr.pkr, fixW k.bank.asid]

/-- Translate an address of VBR, TSBR or FTSBR (R188): pa itself in Backstage, through stage 2 in House; only NORMAL
memory with a target is good. -/
def State.xbase (s : State) (c : Nat) (w : Bool) (a : Nat) (kind : Acc) : State × Option Nat :=
  let good (pa : Nat) : Option Nat := match place pa with | .mmio => none | .none => none | _ => some pa
  if w then (s, good a)
  else
    let x := { (s.core c).ctx false with world := false }
    match stage2 s (clusterOf c) x a kind with
    | (s, .inl _) => (s, none)
    | (s, .inr (pa, d, _)) =>
      if houseBarred x pa d || (x.s2.en && 2 ≤ mtOf d) then (s, none) else (s, good pa)

/-- Read one word for entry or return; none where the memory fails. -/
def State.physRead (s : State) (c : Nat) (w : Bool) (pa : Nat) : Option TWord :=
  match place pa with
  | .wings => ((s.core c).mem.wings.find? (fun x => x.slot == pa % 1024 / 32 && x.world == w)).map
      (fun x => x.words.getD (pa % 32) wEMPTY)
  | .host => if s.hostUp then some ⟨0, (s.coreSees c pa).datum⟩ else none
  | .loc => some (s.coreSees c pa)
  | .priv => some (s.coreSees c pa)
  | _ => none

/-- Store one word of local or host memory for entry, after the core's own queued stores to it (R276). A line that is held is
not waited for (log entry 95, DESIGN CHOICE). -/
def State.entryStore (s : State) (c pa : Nat) (v : TWord) : State :=
  let s := ((s.drainFor 8 c (fun q => (q.word? pa).isSome)).1).obtain (lineOf pa)
  let q : QStore := { pa := pa, val := asStored pa v, epoch := 0, strict := false, alloc := true, nc := false }
  (s.performStore c q).getD (s.storeWord pa q.val true)

/-- Write one word for entry; none where the memory fails. -/
def State.physWrite (s : State) (c : Nat) (w : Bool) (pa : Nat) (v : TWord) : Option State :=
  match place pa with
  | .wings =>
    if (s.core c).mem.wings.any (fun x => x.slot == pa % 1024 / 32 && x.world == w) then
      some (s.modCore c (fun k => { k with mem := { k.mem with wings := k.mem.wings.map (fun x =>
        if x.slot == pa % 1024 / 32 then { x with words := x.words.set (pa % 32) v } else x) } }))
    else none
  | .host => if s.hostUp then some (s.entryStore c pa v) else none
  | .loc => some (s.entryStore c pa v)
  | .priv => some (s.entryStore c pa v)
  | _ => none

/-- Write consecutive words. -/
def State.physWrites (s : State) (c : Nat) (w : Bool) (pa : Nat) : List TWord → Option State
  | [] => some s
  | v :: l => match s.physWrite c w pa v with
    | none => none
    | some s => State.physWrites s c w (pa + 1) l

/-- The vector entry of a world (R188): a well-formed CODE word's sa, or the pa that failed. -/
def State.vectorOf (s : State) (c : Nat) (w : Bool) (vec : Nat) : State × (Nat ⊕ Nat) :=
  let k := s.core c
  let a := bits (if w then k.back.vbr else k.house.vbr) 47 0 + vec
  match s.xbase c w a .read with
  | (s, none) => (s, .inl a)
  | (s, some pa) =>
    match s.physRead c w pa with
    | none => (s, .inl pa)
    | some v => if ty v == tCODE && hiZero v then (s, .inr (adr v)) else (s, .inl pa)

/-- The NEXT or PREV link of a TSB (R193): the linked address, or which double fault and where. -/
def State.tsbLink (s : State) (c : Nat) (w : Bool) (base off : Nat) : State × ((Nat × Nat) ⊕ Nat) :=
  match s.xbase c w base .read with
  | (s, none) => (s, .inl (1, base + off))
  | (s, some pa) =>
    match s.physRead c w (pa + off) with
    | none => (s, .inl (1, pa + off))
    | some v =>
      if ty v == tFRAME && frameKind v == 5 && bits v.datum 59 48 == 0 && adr v % 64 == 0 then (s, .inr (adr v))
      else (s, .inl (2, pa + off))

/-- The core halts in Curtain (R202): CORE.HALT, the black box, machine check CURTAIN on another core or STATUS 0x8. -/
def State.curtain (s : State) (c : Nat) (w : Bool) (vec sub : Nat) : State :=
  let s := s.modCore c (fun k => { k with run := .curtain, wait := none })
  let s := s.setReg .CORE_HALT c (w64 (2 ^ 63 + b2n w * 2 ^ 16 + vec % 256 * 256 + sub % 256))
  let s := { s with col := { s.col with pacing := s.col.pacing.filter (fun x => x != c) } }
  let s := s.logBb 1 c (s.reg .CORE_HALT c).toNat
  let s := s.traceE 2 c (s.core c).pc (vec % 256 * 256 + sub % 256)
  match s.lowest (fun x => x != c && s.running x && (s.core x).psw.w == w) with
  | some x => s.raiseMc x 5
  | none =>
    match s.lowest (fun x => x != c && s.running x) with
    | some x => s.raiseMc x 5
    | none => { s with status := 8 }

/-- The state a handler starts in (R192 steps 6-8, R186, R53). -/
def Core.enter (k : Core) (w : Bool) (ipl pc : Nat) : Core :=
  { k with
    pc := pc
    psw := { w := w, l := true, ipl := ipl, tr := k.psw.tr }
    stk := { k.stk with regs := [], cregs := [] }
    sr := { k.sr with pkr := if w && !k.psw.w then 0 else k.sr.pkr }
    run := .run }

/-- The trace entry of an exception entry (R455). -/
def State.traceExc (s : State) (c : Nat) (quick : Bool) (vec sub : Nat) : State :=
  s.traceI c 4 (s.core c).pc (b2n quick * 2 ^ 16 + vec % 256 * 256 + sub % 256)

/-- Set a world's TSBR. -/
def Core.setTsbr (k : Core) (w : Bool) (a : Nat) : Core :=
  if w then { k with back := { k.back with tsbr := w64 a } } else { k with house := { k.house with tsbr := w64 a } }

/-- Double fault (R201): the context goes to FTSBR and vector 3 is entered; otherwise Curtain (R202). `ctx` writes the
context with a given FAULTINFO, FAULTADDR and FAULTAUX; `vec` is the vector whose entry failed, `aux` its FAULTAUX, and `esc` says
that it was the escalation of a quick-trap handler (R194). -/
def State.doubleFault (s : State) (c : Nat) (w esc : Bool) (vec xinfo dsub addr : Nat) (aux : W64)
    (ctx : W64 → W64 → W64 → List TWord) : State :=
  if bit (s.reg .CORE_XSTAT c) 0 then s.curtain c w vec dsub
  else
    let k := s.core c
    let f := bits (if w then k.back.ftsbr else k.house.ftsbr) 47 0
    match s.xbase c w f .write with
    | (s, none) => s.curtain c w vec dsub
    | (s, some pa) =>
      if place pa != .wings then s.curtain c w vec dsub
      else
        match s.physWrites c w pa (ctx (faultInfo false esc true 3 dsub) (w64 addr) (setBits aux 15 0 xinfo)) with
        | none => s.curtain c w vec dsub
        | some s =>
          match s.vectorOf c w 3 with
          | (s, .inl _) => s.curtain c w 3 0
          | (s, .inr pc) =>
            let s := (s.setFld f_CORE_XSTAT_DF c 1).bump .CORE_XCOUNT c 1
            (s.modCore c (fun k => k.enter w k.psw.ipl pc)).traceExc c false 3 dsub

/-- The world that handles a vector (R189): `iw` is an interrupt's world, and for vector 18 the world of the stepped syllable. -/
def Trap.world (t : Trap) (cur iw : Bool) : Bool :=
  if t.vec ≤ 2 || (t.vec == 10 && t.back) then true else if 64 ≤ t.vec || t.vec == 18 then iw else cur

/-- The IPL after entry (R190). -/
def Trap.newIpl (t : Trap) (cur : Nat) : Nat :=
  if t.vec == 1 || t.vec == 2 then 15 else if 64 ≤ t.vec then t.vec / 16 else cur

/-- What every entry does first (R142, R206, R229, R296): results land, an open shadow's change stands, the latch and the
windows are emptied, AV is cleared, a wait or HALT ends. -/
def Core.beforeEntry (k : Core) : Core :=
  let k := k.landAll
  let k := k.applyShadow
  { k with wins := [], newWins := [], hostBuf := [], spills := [], wait := none, micro := none, scene := { k.scene with av := false },
           ev := { k.ev with stepDue := false },
           mem := { k.mem with latch := .empty } }

/-- Full entry (R192, R193), with the fallback of R201. -/
def State.fullEntry (s : State) (c : Nat) (t : Trap) (syl : Nat) (iw : Bool) : State :=
  let k := s.core c
  let w := t.world k.psw.w iw
  let info (esc : Bool) : W64 := if 64 ≤ t.vec || t.vec == 1 then 0 else faultInfo false esc false t.vec t.sub
  let zero : Bool := 64 ≤ t.vec || t.vec == 1
  let fi : W64 := if 64 ≤ t.vec || t.vec == 1 then w64 (t.vec * 256) else info false
  let psw := (k.psw.pack (s.strict c)).toNat
  let ctx (i a x : W64) : List TWord :=
    tsbWords k k.pc psw (k.stk.regs.getD 0 wEMPTY) (k.stk.regs.getD 1 wEMPTY) k.sceneStat i a x
  let base := bits (if w then k.back.tsbr else k.house.tsbr) 47 0
  let dbl (s : State) (sub a : Nat) : State := s.doubleFault c w false t.vec t.code sub a (if zero then 0 else t.aux syl) ctx
  match s.tsbLink c w base 32 with
  | (s, .inl (d, a)) => dbl s d a
  | (s, .inr next) =>
    match s.xbase c w base .write with
    | (s, none) => dbl s 1 base
    | (s, some pa) =>
      match s.physWrites c w pa (ctx (if zero then 0 else fi) (if zero then 0 else w64 t.addr)
          (if zero then 0 else t.aux syl)) with
      | none => dbl s 1 pa
      | some s =>
        match s.vectorOf c w t.vec with
        | (s, .inl a) => dbl s 0 a
        | (s, .inr pc) =>
          let s := s.bump .CORE_XCOUNT c 1
          (s.modCore c (fun k => (k.enter w (t.newIpl k.psw.ipl) pc).setTsbr w next)).traceExc c false t.vec t.sub

/-- Escalation of an exception raised while QT=1 (R199). -/
def State.escalate (s : State) (c : Nat) (t : Trap) (syl : Nat) (iw : Bool) : State :=
  let k := s.core c
  let w := t.world k.psw.w iw
  let zero : Bool := 64 ≤ t.vec || t.vec == 1
  let psw := (k.psw.pack (s.strict c)).toNat
  let s0 := k.stk.regs.getD 0 wEMPTY
  let s1 := k.stk.regs.getD 1 wEMPTY
  let own (i a x : W64) : List TWord := tsbWords k k.pc psw s0 s1 k.sceneStat i a x
  let q := k.quick
  let qaux : W64 := w64 (q.syl % 2 ^ 16 * 2 ^ 16 + bits q.qpsw 23 20)
  let first : List TWord := tsbWords k q.qpc.toNat (bits q.qpsw 19 0) q.qs0 q.qs1 k.sceneStat
    (faultInfo true false false q.vec q.sub) (w64 q.addr) qaux
  let t1 := bits (if w then k.back.tsbr else k.house.tsbr) 47 0
  let dbl (s : State) (sub a : Nat) : State := s.doubleFault c w true t.vec t.code sub a (if zero then 0 else t.aux syl) own
  match s.tsbLink c w t1 32 with
  | (s, .inl (d, a)) => dbl s d a
  | (s, .inr t2) =>
    match s.tsbLink c w t2 32 with
    | (s, .inl (d, a)) => dbl s d a
    | (s, .inr next) =>
      match s.xbase c w t1 .write, s.xbase c w t2 .write with
      | (s, some p1), (_, some p2) =>
        match s.physWrites c w p1 first with
        | none => dbl s 1 p1
        | some s =>
          match s.physWrites c w p2 (own (faultInfo false true false (if zero then 0 else t.vec) (if zero then 0 else t.sub))
              (if zero then 0 else w64 t.addr) (if zero then 0 else t.aux syl)) with
          | none => dbl s 1 p2
          | some s =>
            match s.vectorOf c w t.vec with
            | (s, .inl a) => dbl s 0 a
            | (s, .inr pc) =>
              let s := s.bump .CORE_XCOUNT c 1
              (s.modCore c (fun k => (k.enter w (t.newIpl k.psw.ipl) pc).setTsbr w next)).traceExc c false t.vec t.sub
      | (s, none), _ => dbl s 1 t1
      | _, (s, none) => dbl s 1 t2

/-- Quick entry (R197). -/
def State.quickEntry (s : State) (c : Nat) (t : Trap) (syl : Nat) : State :=
  let k := s.core c
  match s.vectorOf c k.psw.w t.vec with
  | (s, .inl a) =>
    s.doubleFault c k.psw.w false t.vec t.code 0 a (t.aux syl) (fun i x y => tsbWords k k.pc (k.psw.pack (s.strict c)).toNat
      (k.stk.regs.getD 0 wEMPTY) (k.stk.regs.getD 1 wEMPTY) k.sceneStat i x y)
  | (s, .inr pc) =>
    let s := s.bump .CORE_QCOUNT c 1
    let strict := s.strict c
    let enter (k : Core) : Core := { k with
      quick := { qpc := w64 k.pc, qpsw := w64 ((k.psw.pack strict).toNat + k.occN * 2 ^ 20),
                 qs0 := k.stk.regs.getD 0 wEMPTY, qs1 := k.stk.regs.getD 1 wEMPTY,
                 vec := t.vec, sub := t.sub, syl := syl, addr := t.addr }
      stk := { k.stk with regs := [fixN t.addr, fixN (syl % 2 ^ 16 * 2 ^ 16 + t.vec * 256 + t.sub)] ++ k.stk.regs.drop 2 }
      psw := { k.psw with l := true, qt := true, ipl := 15, step := false, ds := false, lp := false, repp := false }
      pc := pc
      run := .run }
    (s.modCore c enter).traceExc c true t.vec t.sub

/-- Counters and details that go with a trap: µTLB misses raised as vector 9, distance violations (R150), the
intermediate address of a stage-2 fault. -/
def State.trapNotes (s : State) (c : Nat) (t : Trap) : State :=
  let s := if t.vec == 9 then (if t.fx then s.bump .CORE_IMISS c 1 else s.bump .CORE_DMISS c 1) else s
  let s := match t.ia with
    | some ia => s.setReg .CORE_S2FIA c (w64 (2 ^ 63 + ia % 2 ^ 48))
    | none => s
  match t.dv with
  | none => s
  | some (gap, kind, syl, sa) =>
    ((s.setReg .CORE_DVINFO c (w64 (2 ^ 63 + gap % 16 * 2 ^ 48 + kind % 4 * 2 ^ 32 + syl % 2 ^ 16))).setReg
      .CORE_DVPSA c (w64 (sa % 2 ^ 48))).bump .CORE_DVCOUNT c 1

/-- Enter an exception outside any Scene: by the quick path, by escalation, or by the full path (R197, R199, R192,
R207); vector 3 stands for a failure that R200 names a double fault. `iw` is an interrupt's world. -/
def State.enterTrap (s : State) (c : Nat) (t : Trap) (syl : Nat) (iw : Bool) : State :=
  let tim := (s.core c).timerShadow
  let s := s.modCore c Core.beforeEntry
  let s := if tim then s.fireTimers c else s
  let k := s.core c
  let p := k.psw
  if t.vec == 3 then
    s.doubleFault c p.w false 3 0 t.sub t.addr (t.aux syl) (fun i a x => tsbWords k k.pc (p.pack (s.strict c)).toNat
      (k.stk.regs.getD 0 wEMPTY) (k.stk.regs.getD 1 wEMPTY) k.sceneStat i a x)
  else if p.qt then s.escalate c t syl iw
  else if (t.vec == 9 || t.vec == 11) && !p.ds then s.quickEntry c t syl
  else s.fullEntry c t syl iw

/-- An exception of the core's syllable at PC (R189): inside a Scene it aborts the Scene with code 5, and only the
machine check of a POISON word is then taken (R42, R208, R298). -/
def State.takeTrap (s : State) (c : Nat) (t : Trap) (syl : Nat) : State :=
  let syl := t.own.getD syl
  let s := s.trapNotes c t
  if (s.core c).psw.sc then
    let s := s.abortScene c { code := 5, arg := t.vec % 256 * 256 + t.sub % 256, fa := t.addr } false
    if t.vec == 2 && t.sub == 0 then s.enterTrap c t syl false else s
  else s.enterTrap c t syl false

/-! ### Issue -/

/-- Where execution goes after a syllable (R113): on, to a place without a delay slot, through a delay slot, nowhere (a
step boundary), into HALT, or where a return has already put the core. -/
inductive Flow where
  | next
  | jump (t : Nat)
  | branch (t : Nat)
  | stay
  | halt
  | done
  | rep
  | again
  deriving DecidableEq, Repr

/-- What a syllable leaves when it retires: the words pushed (the last one is S0), their distance, where execution goes,
the change of a shadow writer, a trap taken after retirement, whether PG0-PG3 stay as a customer routine left
them, and whether a branch was taken (R455). -/
structure Out where
  push : List TWord := []
  delay : Nat := 1
  flow : Flow := .next
  shadow : Option ShadowUpd := none
  late : Option Trap := none
  keepPg : Bool := false
  taken : Bool := false
  deriving DecidableEq, Repr

/-- What the issue logic knows of a syllable before it runs: its code, the operand positions it reads, the entries it
removes and leaves, one deeper position it reads (PICK, OVER), and its class for the checks of R74, R83, R114, R147, R148 and
R298; `noLp` is refused while PSW.LP=1 (R123, R124). `priv` is 0 any, 1 supervisor, 2 Backstage supervisor; `micro` marks a microcoded or stepped
syllable (R162); `ovr` are other positions that it overwrites (PUT, RTQ); `bad` is
the fault of its reserved field (R71); `unit` is the syllable after a REP (R76). -/
structure Sig where
  syl : Nat
  rd : Nat := 0
  deep : Option Nat := none
  takes : Nat := 0
  leaves : Nat := 0
  wlc : Bool := false
  noLp : Bool := false
  priv : Nat := 0
  noRep : Bool := false
  noShadow : Bool := false
  depPsw : Bool := false
  depCtl : Bool := false
  depLoop : Bool := false
  depWalk : Bool := false
  depAlloc : Bool := false
  depIob : Bool := false
  depTrail : Bool := false
  ban : Option Nat := none
  port : Option Nat := none
  micro : Bool := false
  ovr : List Nat := []
  bad : Option Trap := none
  unit : Option Nat := none
  deriving DecidableEq, Repr

/-- One instruction: what the issue logic knows of it, and what it does with its operands (position 0 first). -/
structure Ins where
  sig : Sig
  body : List TWord → M Out

/-- The core is inside a stepped, repeated or microcoded syllable that counts as one (R137). -/
def Core.midway (k : Core) : Bool := k.psw.step || k.psw.repp || k.micro.isSome

/-- The results that land when the next syllable issues have arrived (R140); a step or a repeated syllable lands none but, before
another iteration, those of the one before it (R83). -/
def Core.landReady (k : Core) : Bool :=
  k.pend.all (fun p => p.arrived || (if k.midway then !(k.psw.repp && p.sa == k.pc) else decide (1 < p.remain)))

/-- The core issues syllables: present, running, not held, halted, gated, frozen or a checker, with no chunk about to end, no result
to wait for and no event to take first. -/
def State.canIssue (s : State) (c : Nat) : Bool :=
  let k := s.core c
  s.present c && k.run == .run && !(s.holds c) && !k.debug && !k.gated && !(s.checker c) &&
    k.wait == none && k.landReady && !(s.mcsHeld c) && s.chunkFree c && !(s.replayHeld k.chunk) && !(s.eventDue c)

/-- SBASE: the va one word above the bottom entry (R48). -/
def sbaseOf (k : Core) : Nat := bits k.stk.sbase 47 0

/-- Stack underflow, vector 15 (R50). -/
def underflow (m : Nat) : M Unit := do
  let k ← getCore
  if m = 0 ∨ k.stk.sp + (m - 1) < sbaseOf k then pure () else raise { vec := 15, sub := 0 }

/-- The results that p picks are landed early: the core freezes until they have arrived (R142). -/
def awaitPend (p : PendRes → Bool) : M Unit := do
  let k ← getCore
  if k.pend.any (fun x => p x && !x.arrived) then throw (.wait .miss) else pure ()

/-- Every pending result lands (R142: SYNC, TCALL). -/
def landEarly : M Unit := do
  awaitPend (fun _ => true)
  modMe Core.landAll

/-- A spill has been made: it stays even where its syllable faults (R51). -/
def noteSpill (a : Nat) (w : TWord) : M Unit := do
  modMe (fun k => { k with spills := k.spills ++ [(a, w)] })
  updS (fun s c => s.bump .CORE_SPILLS c 1)

/-- Spill the deepest operand entry to its home slot (R49, R51, R142). -/
def spillOne : M Unit := do
  let k ← getCore
  awaitPend (fun p => p.slot == k.stk.sp + (k.stk.regs.length - 1))
  modMe (fun k => k.landSlot (k.stk.sp + (k.stk.regs.length - 1)))
  let k ← getCore
  let a := k.stk.sp + (k.stk.regs.length - 1)
  if a < bits k.stk.slim 47 0 then raise { vec := 14, sub := 0 }
  else do
    store a (k.stk.regs.getD (k.stk.regs.length - 1) wEMPTY) true false
    noteSpill a (k.stk.regs.getD (k.stk.regs.length - 1) wEMPTY)
    modMe (fun k => { k with stk := { k.stk with regs := k.stk.regs.dropLast } })

/-- Spill until k more entries fit (R49). -/
def spillFor (fuel k : Nat) : M Unit :=
  match fuel with
  | 0 => pure ()
  | fuel + 1 => do
    let q ← getCore
    if q.stk.regs.length + k ≤ 8 then pure ()
    else do
      spillOne
      spillFor fuel k

/-- Spill every operand register (R54, R117). -/
def spillAll : M Unit := spillFor 8 8

/-- Fill positions from N to p (R50). -/
def fillTo (fuel p : Nat) : M Unit :=
  match fuel with
  | 0 => pure ()
  | fuel + 1 => do
    let q ← getCore
    if p < q.stk.regs.length then pure ()
    else do
      let w ← load (q.stk.sp + q.stk.regs.length) false
      modMe (fun k => { k with stk := { k.stk with regs := k.stk.regs ++ [w] } })
      updS (fun s c => s.bump .CORE_FILLS c 1)
      fillTo fuel p

/-- The word at position p: a register, or its home slot read directly (R50). -/
def operandAt (p : Nat) : M TWord := do
  let k ← getCore
  match k.stk.regs[p]? with
  | some w => pure w
  | none => do
    let w ← load (k.stk.sp + p) false
    updS (fun s c => s.bump .CORE_FILLS c 1)
    pure w

/-- Under STRICT, the violation of a syllable that reads (kind 0) or removes (kind 1) positions whose results are pending (R149). -/
def Core.breaks (k : Core) (kind : Nat) (l : List Nat) : Option Trap :=
  (k.pend.find? (fun p => l.any (fun i => va48 ((k.stk.sp : Int) + i) == p.slot))).map (fun p =>
    { vec := 13, sub := kind, addr := p.sa, dv := some (p.gone, kind, p.syl, p.sa) })

/-- The arguments at positions p to p + n - 1, whose number the syllable itself finds, are read and removed (R149). -/
def strictArgs (p n : Nat) : M Unit := do
  let k ← getCore
  let strict ← askS (fun s c => s.strict c)
  if strict then raiseSome (k.breaks 0 ((List.range n).map (fun i => p + i))) else pure ()

/-- Positions 0 to n-1. -/
def operands (n : Nat) : M (List TWord) :=
  match n with
  | 0 => pure []
  | n + 1 => do
    let l ← operands n
    let w ← operandAt n
    pure (l ++ [w])

/-- How many entries of the operand stack a syllable reads, overwrites or removes. -/
def Sig.reach (g : Sig) : Nat :=
  let top := Nat.max g.rd (match g.deep with | some n => n + 1 | none => 0)
  let top := g.ovr.foldl (fun t n => Nat.max t (n + 1)) top
  Nat.max top g.takes

/-- Underflow, spills and fills of a syllable, and the words it reads (R50, R51); a deeper position comes last. A
microcoded syllable fills what it reads and then spills until N is at most 4 (R162). -/
def prepare (g : Sig) : M (List TWord) := do
  let k := g.leaves - g.takes
  underflow g.reach
  if g.micro then do
    if g.rd = 0 then pure () else fillTo 8 (g.rd - 1)
    let l ← operands g.rd
    spillFor 8 4
    pure l
  else do
    spillFor 8 k
    if g.rd = 0 then pure () else fillTo 8 (Nat.min (g.rd - 1) (7 - k))
    match g.deep with
    | none => operands g.rd
    | some n => do
      if n ≤ 7 - k then fillTo 8 n else pure ()
      let l ← operands g.rd
      let w ← operandAt n
      pure (l ++ [w])

/-- The decode checks on a defined syllable where it stands (R74 orders 3-6, R114, R125, R147). -/
def placeCheck (k : Core) (g : Sig) (coproc : Bool) : Option Trap :=
  let atLe := k.psw.lp && w64 k.pc == k.sr.le
  if g.bad.isSome then g.bad
  else if (g.wlc && k.psw.ds) || (atLe && (g.wlc || k.psw.ds)) || (k.shadow.isSome && g.noShadow) || (g.noLp && k.psw.lp) then some (tIllegal 3)
  else if (g.priv == 1 && !k.psw.l) || (g.priv == 2 && !(k.psw.l && k.psw.w)) then some { tIllegal 2 with own := g.unit }
  else match g.port with
    | some p => if coproc then none else some { vec := 20, sub := p, own := g.unit }
    | none => none

/-- The syllable depends on the state an open shadow changes (R148). `data` says that it has made a data-space access: its own, or a
spill or fill. -/
def shadowDep (sh : Shadow) (g : Sig) (data : Bool) : Bool :=
  let opStk := 0 < g.rd || 0 < g.takes || 0 < g.leaves || g.deep.isSome
  match sh.upd with
  | .ipl _ => g.depPsw
  | .tlb isI _ _ _ => !isI && data
  | .none => false
  | .sr _ i _ =>
    match i with
    | 0 => g.depPsw
    | 1 => opStk
    | 2 => opStk
    | 3 => opStk
    | 4 => g.depCtl
    | 5 => g.depCtl
    | 6 => g.depLoop
    | 7 => g.depLoop
    | 8 => g.depLoop
    | 12 => data
    | 13 => data || g.depWalk
    | 15 => data || g.depWalk
    | 16 => data || g.depWalk
    | 17 => data || g.depWalk
    | 18 => g.depAlloc
    | 19 => g.depAlloc
    | 24 => g.depIob
    | 25 => g.depTrail
    | 26 => g.depTrail
    | _ => false

/-- The positions a syllable reads, and those it removes or overwrites; what it pushes also falls on the home slots of entries that
an earlier syllable has removed (R141). Positions below 0 are those of new entries. -/
def Sig.reads (g : Sig) : List Nat := List.range g.rd ++ g.deep.toList
def Sig.writes (g : Sig) : List Int :=
  (List.range g.takes ++ g.ovr).map Int.ofNat ++ (List.range g.leaves).map (fun i => (g.takes : Int) - g.leaves + i)

/-- A distance violation on the operand stack, subcode 0 or 1 (R149, R150): a pending slot is read, overwritten or removed. -/
def stackBreak (k : Core) (g : Sig) : Option Trap :=
  match k.breaks 0 g.reads with
  | some t => some t
  | none => (k.pend.find? (fun p => g.writes.any (fun i => va48 ((k.stk.sp : Int) + i) == p.slot))).map (fun p =>
      { vec := 13, sub := 1, addr := p.sa, dv := some (p.gone, 1, p.syl, p.sa) })

/-- A shadow is broken, subcode 3 (R149, R150); `used` says that the syllable has made a data-space access. -/
def shadowBreak (k : Core) (g : Sig) (used : Bool) : Option Trap :=
  match k.shadow with
  | some sh => if shadowDep sh g used then
      some { vec := 13, sub := 3, addr := sh.sa, dv := some (3 - sh.remain, 3, sh.syl, sh.sa) } else none
  | none => none

/-- The fetch of the syllable's word (R61, R226, R251): translation, then the I-frame sector is filled on a miss. -/
def fetchOk (k : Core) : Trap ⊕ Leaf :=
  match xlateCore k k.pc .fetch 7 with
  | .inl t => .inl t
  | .inr lf =>
    match place lf.pa with
    | .none => .inl { vec := 6, sub := 0, addr := k.pc, fx := true }
    | _ => .inr lf

/-- The word that fetch delivers at a pa from the core's I-frames or its fetch buffer, as it was filled (R251). -/
def Core.code (k : Core) (pa : Nat) : Option TWord :=
  let line := lineOf pa
  let inFrame := (k.mem.iframes.find? (fun f => f.base == line / 4)).bind (fun f => (f.sect.getD (line % 4) [])[pa % 8]?)
  let inBuf := (k.mem.fbuf.filter (fun x => x.1 == line)).bind (fun x => x.2[pa % 8]?)
  inFrame.or inBuf

/-- The fetched word that carries the syllable is POISON (R252). -/
def Core.poisoned (k : Core) (pa : Nat) : Bool := (k.code pa).any (fun w => ty w == tPOISON)

/-- The machine check of a POISON word that fetch has delivered (R252, R42). -/
def codePoison (sa : Nat) : Trap := { vec := 2, sub := 0, tag := tPOISON, pos := 15, addr := sa, fx := true, noSyl := true }

/-- The core's I-frames hold a line. -/
def Core.hasLine (k : Core) (line : Nat) : Bool :=
  k.mem.iframes.any (fun f => f.base == line / 4 && (f.sect.getD (line % 4) []).length == 8)

/-- Bring the line of a fetch to the core as it is now (R251): nothing where its I-frames or its fetch buffer hold it; the missing
sector, or the fetch buffer while CCTL.IEN is 0 (R250). A NORMAL-NC line comes from the home slice into the fetch buffer alone
(R265). -/
def State.ifill (s : State) (c : Nat) (lf : Leaf) : State :=
  let line := lineOf lf.pa
  let k := s.core c
  if k.hasLine line || k.mem.fbuf.any (fun x => x.1 == line) then s
  else
    let s := s.bump .CORE_IFMISS c 1
    let s := if lf.mt == 0 then s.clRead (clusterOf c) line else (s.countUreq line).recall line none
    let ws := (lineWords line).map s.rd
    if lf.mt != 0 || !(bit k.sr.cctl 1) then
      s.modCore c (fun k => { k with mem := { k.mem with fbuf := some (line, ws) } })
    else
      match k.mem.iframes.find? (fun f => f.base == line / 4) with
      | some f =>
        let f' : IFrame := { f with sect := f.sect.set (line % 4) ws }
        s.modCore c (fun k => { k with mem := { k.mem with iframes := f' :: (k.mem.iframes.filter fun x => x.idx != f.idx) } })
      | none =>
        let i := match (List.range 24).find? (fun i => !(k.mem.iframes.any (fun f => f.idx == i))) with
          | some i => i
          | none => Config.victim s.free % 24
        let f' : IFrame := { idx := i, base := line / 4, sect := (List.replicate 4 []).set (line % 4) ws }
        let s := { s with free := s.free + 1 }
        s.modCore c (fun k => { k with mem := { k.mem with iframes := f' :: (k.mem.iframes.filter fun x => x.idx != i) } })

/-- Push the results of a retiring syllable (R49, R139): those of distance 1 at once, the others pending in their home
slots with the previous content, that of the deepest operand removed, until they land. A step boundary and a customer routine take
nothing here. The producer of a REP unit's result is named by the REP's sa and by the repeated syllable (log entry 77, DEDUCED). -/
def Core.pushOut (k : Core) (g : Sig) (o : Out) (n : Nat) : Core :=
  let takes := if o.keepPg || o.flow == .stay || o.flow == .done then 0 else g.takes
  let regs0 := k.stk.regs.drop takes
  let sp0 := k.stk.sp + takes
  let sp1 := va48 (sp0 - o.push.length)
  if o.delay ≤ 1 then
    { k with stk := { k.stk with sp := sp1, regs := o.push.reverse ++ regs0 } }
  else
    let prev (i : Nat) : TWord := if i = 0 && 0 < takes then k.stk.regs.getD (takes - 1) wEMPTY else wEMPTY
    let shown := (List.range o.push.length).map prev
    let mk (x : TWord × Nat) : PendRes :=
      { slot := sp1 + (o.push.length - 1 - x.2), val := x.1, arrived := !k.mem.miss, remain := o.delay,
        gone := 0, sa := k.pc, syl := n }
    let land := o.push.zipIdx.map mk
    { k with stk := { k.stk with sp := sp1, regs := shown.reverse ++ regs0 }, pend := k.pend ++ land }

/-- The PC after a syllable retires (R113, R125): its flow, the end of a delay slot, or the loop step. -/
def Core.advance (k : Core) (f : Flow) : Core :=
  match f with
  | .stay => k
  | .rep => k
  | .again => k
  | .done => k
  | .jump t => { k with pc := t, psw := { k.psw with ds := false } }
  | .branch t => { k with pc := va48 (k.pc + 1), dst := t, psw := { k.psw with ds := true } }
  | _ =>
    if k.psw.ds then { k with pc := k.dst, psw := { k.psw with ds := false } }
    else if k.psw.lp && w64 k.pc == k.sr.le then
      if 1 < k.sr.lc.toInt then { k with pc := bits k.sr.ls 47 0, sr := { k.sr with lc := k.sr.lc - 1 } }
      else { k with pc := va48 (k.pc + 1), sr := { k.sr with lc := 0 }, psw := { k.psw with lp := false } }
    else { k with pc := va48 (k.pc + 1) }

/-- One syllable of an open shadow has retired (R147); a syllable that ends the shadow early closes it. -/
def Core.shadowStep (k : Core) (early : Bool) : Core :=
  match k.shadow with
  | none => k
  | some sh => if sh.remain ≤ 1 || early then k.applyShadow else { k with shadow := some { sh with remain := sh.remain - 1 } }

/-- Windows of R144 count down, and the windows of this syllable open. -/
def Core.winStep (k : Core) (syl : Nat) : Core :=
  let opened := k.newWins.map (fun (w : StoreWin) => { w with syl := syl })
  let older := (k.wins.map (fun (w : StoreWin) => { w with remain := w.remain - 1 })).filter (fun w => w.remain != 0)
  { k with wins := opened ++ older, newWins := [] }

/-- A single step is due after the retirement at user level (R191, CORE.DBG). -/
def State.stepDue (s : State) (c : Nat) (wasUser wasBack : Bool) : Bool :=
  wasUser && (if wasBack then s.flag f_CORE_DBG_BSS c && !(s.mode mSEALED) else s.flag f_CORE_DBG_HSS c)

/-- SYNC, RTE and RTQ end a shadow (R147). -/
def endsShadow (syl : Nat) : Bool := syl == 0xC106 || syl == 0xC100 || syl == 0xC10A

/-- The final step of a stepped instruction clears PSW.STEP and PG0-PG3 (R105); a customer routine's END clears STEP
only (R155). -/
def Core.endStep (keepPg : Bool) (k : Core) : Core :=
  if !k.psw.step then { k with micro := none }
  else
    let sr := if keepPg then k.sr else { k.sr with pg0 := fixN 0, pg1 := fixN 0, pg2 := fixN 0, pg3 := fixN 0 }
    { k with psw := { k.psw with step := false }, sr := sr, micro := none }

/-- The instruction-trace entry of a retired syllable (R455). -/
def State.traceRetire (s : State) (c syl : Nat) (taken : Bool) : State :=
  let k := s.core c
  if 0x7000 ≤ syl && syl < 0x9000 then s.traceI c 1 (if k.psw.ds then k.dst else k.pc) (b2n taken)
  else if syl == 0xA200 then s.traceI c 1 k.pc (b2n taken)
  else if syl == 0x9000 || syl == 0x9001 || syl == 0x9002 || syl == 0x9500 || syl == 0x9501 then s.traceI c 2 k.pc 0
  else if 0xA100 < syl && syl < 0xA200 then s.traceI c 3 (bits k.sr.ls 47 0) (Nat.min k.sr.lc.toNat (2 ^ 24 - 1))
  else if syl == 0xC100 || syl == 0xC10A then s.traceI c 5 k.pc 0
  else s

/-- The core's part of a retirement: results pushed, PC advanced, windows and shadows counted; `part` marks a step boundary or
a REP iteration, which does not retire. A miss freezes the core (R138) unless its data is awaited at a landing point (R140). -/
def Core.retireStep (g : Sig) (o : Out) (part : Bool) (k : Core) : Core :=
  let sa := k.pc
  let k := k.pushOut g o g.syl
  let k := k.advance o.flow
  let k := if o.flow == .again then { k with newWins := [] } else if part then k else k.winStep g.syl
  let k := if part || o.flow == .again then k else k.shadowStep (endsShadow g.syl)
  let k := match o.shadow with
    | some u => { k with shadow := some { remain := 2, sa := sa, syl := g.syl, upd := u } }
    | none => k
  { k with wait := if k.mem.miss && (decide (o.delay ≤ 1) || o.push.isEmpty) then some .miss else none
           mem := { k.mem with miss := false }
           hostBuf := []
           spills := []
           run := if o.flow == .halt then .halt else k.run
           traceN := k.traceN + b2n !part, debug := k.stepOnce && !part
           stepOnce := k.stepOnce && part }

/-- Retirement: results are pushed, PC advances, windows and shadows count, the counters rise (R137, R434), and a trap
that follows retirement is taken. `s` is the state after the syllable's own effect. -/
def State.retire (s : State) (c : Nat) (g : Sig) (o : Out) (user back : Bool) : State :=
  let part := o.flow == .stay || o.flow == .rep
  let tim := (s.core c).timerShadow
  let s := s.modCore c (fun k => k.retireStep g o part)
  let s := if tim && !(s.core c).timerShadow then s.fireTimers c else s
  let s := s.traceRetire c g.syl o.taken
  let s := if o.flow == .stay then s.modChunk c (fun k => { k with steps := k.steps + 1 })
    else if part then s
    else s.chunkEvent c (o.flow == .halt)
  let s := if part then s else (if o.flow == .done then s else s.modCore c (Core.endStep o.keepPg)).bump .CORE_RET c 1
  match o.late with
  | some t => s.takeTrap c t g.syl
  | none => if s.stepDue c user back && !part then s.modCore c (fun k => { k with ev := { k.ev with stepDue := true, stepWorld := back } }) else s

/-- A wait after which the core issues the same syllable again; the others complete it (State.complete). -/
def Wait.again (w : Wait) : Bool :=
  match w with
  | .miss => true
  | .line _ => true
  | .hostRead _ _ => true
  | .barrierCopy _ => true
  | .satb => true
  | .pacing _ => true
  | .outHold => true
  | _ => false

/-- The work of the syllable in progress stays although it stops here: a stepped or customer instruction keeps what it has done
(R105, R165), and a request that another agent completes keeps what it has set up. -/
def Stop.keeps (x : Stop) (k : Core) : Bool :=
  k.psw.step || k.micro.isSome || (match x with | .wait w => !w.again | .gone => true | _ => false)

/-- The core freezes and will issue its syllable again: nothing has changed but that it waits, and what it waits for has been asked
for (R138, R266). `count` is the short-Scene count before the syllable. -/
def State.freeze (s : State) (c : Nat) (w : Wait) (count : Nat) : State :=
  let s := match w with
    | .hostRead pa _ => if place pa == Place.mmio then { s with wire := .ask pa false :: s.wire } else s.askHost (lineOf pa) false
    | .line l => ((s.core c).mem.sq.map (fun (q : QStore) => lineOf q.pa)).foldl (fun s l => s.askHost l true) (s.askHost l true)
    | _ => s
  let s := if w == .satb then s.bump .COL_SATBHOLD 0 1 else s
  let s := if w == .outHold then s.bump .TOUR_OUTHOLD 0 1 else s
  s.modCore c (fun k => { k with wait := some w, spills := [], newWins := [], scene := { k.scene with count := count } })

/-- An exception of the syllable in progress is taken once every pending result has arrived (R142); inside a Scene it aborts, and
nothing lands. `s0` is the state before the syllable issued. -/
def State.trapOr (s : State) (c : Nat) (t : Trap) (syl : Nat) (s0 : State) (count : Nat) : State :=
  if (s.core c).landable || (s.core c).psw.sc then s.takeTrap c t syl else s0.freeze c .miss count

/-- A syllable stopped before it retired: an exception, a Scene abort, or a wait. `s` is the state it left, `s0` the state before it
issued, to which it returns where it will issue again (R138). -/
def State.stopped (s : State) (c : Nat) (g : Sig) (x : Stop) (s0 : State) (count : Nat) : State :=
  match x with
  | .trap t => s.trapOr c t g.syl s0 count
  | .abort d => s.abortScene c d false
  | .gone => s
  | .wait w =>
    let s := if w == .replay then s.replayStop 6 1 c s.curSeq else s
    if w.again && !x.keeps (s.core c) then s0.freeze c w count else s.freeze c w count

/-- Go back to the stack a syllable found; results that it has landed early stay landed (R142). -/
def Core.backTo (k k0 : Core) : Core :=
  { k with stk := (k0.landList (k0.pend.filter (fun p => !(k.pend.contains p)))).stk, newWins := [], spills := [] }

/-- Make again the spills of a syllable whose other effects are undone (R51). -/
def State.respill (s : State) (c : Nat) (l : List (Nat × TWord)) : State :=
  l.foldl (fun s x => match (store x.1 x.2 true false).run c s with
    | .ok _ t => t.bump .CORE_SPILLS c 1
    | .error _ t => t) s

/-- Run one instruction's spills, fills and body from a state. A fault undoes its effects but for its spills (R51) and for what
Stop.keeps names. -/
def State.runIns (s : State) (c : Nat) (i : Ins) : (State × Out) ⊕ (State × Stop) :=
  let back (t : State) : State := t.modCore c (fun k => k.backTo (s.core c))
  match (if (s.core c).micro.isSome then pure [] else prepare i.sig : M (List TWord)).run c s with
  | .error x t => .inr (if x == .gone then t else back t, x)
  | .ok ops t =>
    match (i.body ops).run c t with
    | .ok o u => .inl (u, o)
    | .error x u => .inr (if x.keeps (u.core c) then u else (back t).respill c ((u.core c).spills.drop (t.core c).spills.length), x)

/-- The distance violation of a syllable under STRICT, if any (R149, R150), the lowest subcode first: on the operand stack, of a
store window as its run `r` has found it, of a shadow. -/
def strictBreak (k : Core) (g : Sig) (c : Nat) (r : (State × Out) ⊕ (State × Stop)) : Option Trap :=
  let after : Core := match r with | .inl (t, _) => t.core c | .inr (t, _) => t.core c
  let used := after.shadow.any (fun sh => sh.used)
  match stackBreak k g with
  | some t => some t
  | none =>
    match r with
    | .inr (_, .trap t) => if t.vec == 13 then some t else shadowBreak k g used
    | _ => shadowBreak k g used

/-- The short-Scene count of a syllable (R299): the 257th dooms the Scene with code 10. -/
def State.shortCount (s : State) (c : Nat) : State ⊕ State :=
  let k := s.core c
  if k.psw.sc && k.psw.ss && k.micro.isNone then
    if 256 ≤ k.scene.count then .inr (s.abortScene c { code := 10 } false)
    else .inl (s.modCore c (fun k => { k with scene := { k.scene with count := k.scene.count + 1 } }))
  else .inl s

/-- A coprocessor port is available: the unit of the core's cluster is enabled and not gated (R73, R338, R465). -/
def State.portOk (s : State) (c : Nat) (p : Option Nat) : Bool :=
  match p with
  | some 0 => s.flag f_MATCH_CTL_EN (clusterOf c) && !(s.clk.noMl.contains (clusterOf c))
  | some 1 => s.flag f_LOOK_CTL_EN (clusterOf c) && !(s.clk.noMl.contains (clusterOf c))
  | some _ => false
  | none => true

/-- The unsafe actions of R298 code 7 abort a Scene before any effect. -/
def sceneBan (k : Core) (g : Sig) : Option Doom :=
  if k.psw.sc then g.ban.map (fun d => { code := 7, detail := d }) else none

/-- A remote failure of an asynchronous request that the core takes at this boundary (R376): it waits for the world that
issued the message. In a Scene it aborts as an interrupt does (log entry 31, DESIGN CHOICE). -/
def State.takeRemote (s : State) (c : Nat) : Option State :=
  let k := s.core c
  match k.ev.remote.find? (fun x => x.1 == k.psw.w) with
  | none => none
  | some (w, node) =>
    if k.boundary && k.landable && !(k.psw.sc && k.psw.ss) then
      let s := s.modCore c (fun k => { k with ev := { k.ev with remote := k.ev.remote.erase (w, node) } })
      let s := if k.psw.sc then s.abortScene c { code := 4 } false else s
      some (s.enterTrap c { vec := 21, sub := 10, xinfo := node, noSyl := true } 0 w)
    else none

/-- A logged Scene outcome that is due before the next syllable under REPLAY (R308, R450): the abort with its SCENESTAT. -/
def State.forcedAbort (s : State) (c : Nat) : Option State :=
  let k := s.core c
  if !(s.mode mREPLAY) || !k.psw.sc then none
  else
    match nextVal k.chunk.vals with
    | some (r, rest) =>
      let st := w64 r.q1
      if r.q0 / 2 ^ 60 % 16 == 5 && r.q0 % 2 ^ 13 == (k.chunk.goal - k.chunk.left) % 2 ^ 13 && bits st 3 0 != 0 then
        let s := s.modChunk c (fun x => { x with vals := rest })
        some (s.abortScene c { code := bits st 3 0, detail := bits st 31 28, node := bits st 63 50, arg := bits st 47 32 } true)
      else none
    | none => none

/-- What the core does before the next syllable may issue: an event or a forced outcome takes its place. -/
def State.first (s : State) (c : Nat) : Option State :=
  match s.takeRemote c with
  | some s => some s
  | none => s.forcedAbort c

/-- The syllable has aborted the core's own Scene while it ran, through a cache or the Usher (R285, R291). -/
def State.lostScene (t s : State) (c : Nat) : Bool :=
  (s.core c).psw.sc && decide (t.reg .CORE_SCABORT c ≠ s.reg .CORE_SCABORT c)

/-- Issue one syllable of core c at its PC. A core that does not issue ignores it. Under STRICT the syllable's run is looked at
before any of its effects is kept (R149). The decode and STRICT checks come before R298's ban on unsafe actions, so that a Scene
whose syllable fails both aborts with code 5 (log entry 78, DESIGN CHOICE). -/
def issue (c : Nat) (i : Ins) (s : State) : State :=
  let s := s.serveParked
  if !(s.canIssue c) then s
  else
    let g := i.sig
    match s.first c with
    | some s => s
    | none =>
    let count := (s.core c).scene.count
    match s.shortCount c with
    | .inr s => s
    | .inl s =>
      match fetchOk (s.core c) with
      | .inl t => s.trapOr c { t with noSyl := true } 0 s count
      | .inr lf =>
        let s0 := (s.traceSync c).ifill c lf
        if s0.lostScene s c then s0
        else if (s0.core c).poisoned lf.pa then s0.trapOr c (codePoison (s0.core c).pc) 0 s0 count
        else
        let s := s0.modCore c (fun k => { (if k.midway then k else k.landDue) with wait := none, syl := g.syl })
        let k := s.core c
        match placeCheck k g (s.portOk c g.port) with
        | some t => s.trapOr c t g.syl s0 count
        | none =>
          let r := s.runIns c i
          match (if s.strict c then strictBreak k g c r else none) with
          | some t => s.trapOr c t g.syl s0 count
          | none =>
            match sceneBan k g with
            | some d => s.abortScene c d false
            | none =>
              match r with
              | .inr (t, x) => if t.lostScene s c then t else t.stopped c g x s0 count
              | .inl (t, o) => if t.lostScene s c then t else t.retire c g o (!k.psw.l) k.psw.w

/-- The syllable a core has waited on completes now (a unit, the walker or a peer has answered): its operands are
removed, its results pushed, and it retires. -/
def State.complete (s : State) (c : Nat) (g : Sig) (o : Out) : State :=
  let k := s.core c
  let s := s.modCore c (fun k => { k with wait := none })
  s.retire c g o (!k.psw.l) k.psw.w

/-- The syllable a core has waited on faults now. -/
def State.failWait (s : State) (c : Nat) (t : Trap) : State :=
  (s.modCore c (fun k => { k with wait := none })).takeTrap c t (s.core c).syl

end Sys2Proof.Machine
end

