-- ==== Sys2Proof/Machine/Obj.lean ====
section
/-! DEFINITION. Operations shared by the instruction families: the control stack (R52), headed objects (R39, R98),
allocation (R103, R104, R316, R317), plain reads and the helpers that build an instruction. -/

namespace Sys2Proof.Machine

open Sys2Proof

/-! ### Reading and writing -/

/-- A plain read of a word (no load barrier). `ld` marks a load-class read (R144). -/
def readAt (a : Nat) (ld : Bool) : M TWord := do
  let lf ← xlate a .read
  readWord a lf ld true

/-- An initialising store (R81): no card mark and no SATB entry. -/
def initStore (a : Nat) (v : TWord) (win : Bool) : M Unit := do
  let lf ← xlate a .write
  writeWord a lf v true win

/-- The word read from memory is consumed (R40 steps 1-3). -/
def checkMem (w : TWord) (a : Nat) : M Unit := check [{ w := w, pos := 15, addr := a }]

/-- A type fault naming a stack position. -/
def typeFault {α : Type} (sub : Nat) (w : TWord) (pos : Nat) : M α := raise (tType sub w pos 0)

/-- A type fault naming a word in memory. -/
def memFault {α : Type} (sub : Nat) (w : TWord) (a : Nat) : M α := raise (tType sub w 15 a)

/-- The integer of a FIX word. -/
def fixVal (w : TWord) : Int := w.datum.toInt

/-! ### Headed objects -/

/-- The header of a headed object (R39): its address, after a FWD word has been followed, and the HDR word. A chain of FWD words is
followed for `fuel` words, and a further one raises BADHDR: the collector leaves none longer than one (R322), and the spec gives a
chain no limit (log entry 80, DESIGN CHOICE). -/
def hdrFrom (fuel a : Nat) (ld : Bool) : M (Nat × TWord) := do
  let h ← readAt a ld
  checkMem h a
  if ty h == tHDR then pure (a, h)
  else if ty h == tFWD then
    match fuel with
    | 0 => memFault sBADHDR h a
    | fuel + 1 => hdrFrom fuel (adr h) ld
  else memFault sBADHDR h a

/-- The header of the object that a resolved pointer names. -/
def hdrOf (p : TWord) (ld : Bool) : M (Nat × TWord) := hdrFrom 4 (adr p) ld

/-- LENGTH and SUBTYPE satisfy the layout of the object's type (R34, R39). -/
def hdrFits (t : Nat) (h : TWord) : Bool :=
  if t == tSYM then hdrLen h == 6 && hdrSub h == 0
  else if t == tRAT || t == tCPX || t == tPROXY || t == tFUTURE then hdrLen h == 2 && hdrSub h == 0
  else if t == tBIG then 1 ≤ hdrLen h && hdrSub h == 0
  else if t == tFUN then 1 ≤ hdrLen h
  else if t == tSTR || t == tBVEC then hdrSub h < 8 && (hdrLen h != 0 || hdrSub h == 0)
  else true

/-- The header of the object of a pointer's type (R39): BADHDR where LENGTH or SUBTYPE does not fit it. -/
def objHdr (w : TWord) (pos : Nat) (ld : Bool) : M (Nat × TWord) := do
  let p ← resolve w pos
  let (a, h) ← hdrOf p ld
  if hdrFits (ty w) h then pure (a, h) else memFault sBADHDR h a

/-! ### The control stack -/

/-- Spill the deepest control-stack register to its home slot (R52). -/
def cSpillOne : M Unit := do
  let k ← getCore
  let a := k.stk.csp + (k.stk.cregs.length - 1)
  if a < bits k.stk.clim 47 0 then raise { vec := 14, sub := 1 }
  else do
    store a (k.stk.cregs.getD (k.stk.cregs.length - 1) wEMPTY) true false
    noteSpill a (k.stk.cregs.getD (k.stk.cregs.length - 1) wEMPTY)
    modMe (fun k => { k with stk := { k.stk with cregs := k.stk.cregs.dropLast } })

/-- Spill until n more control-stack entries fit. -/
def cSpillFor (fuel n : Nat) : M Unit :=
  match fuel with
  | 0 => pure ()
  | fuel + 1 => do
    let q ← getCore
    if q.stk.cregs.length + n ≤ 4 then pure ()
    else do
      cSpillOne
      cSpillFor fuel n

/-- Fill control-stack positions from M to p; a fill sees every earlier store (R144). -/
def cFillTo (fuel p : Nat) : M Unit :=
  match fuel with
  | 0 => pure ()
  | fuel + 1 => do
    let q ← getCore
    if p < q.stk.cregs.length then pure ()
    else do
      let w ← load (q.stk.csp + q.stk.cregs.length) false
      modMe (fun k => { k with stk := { k.stk with cregs := k.stk.cregs ++ [w] } })
      updS (fun s c => s.bump .CORE_FILLS c 1)
      cFillTo fuel p

/-- Read control-stack position p, with `n` more entries left than taken (R50, R52); `ld` marks a load-class syllable (R144). -/
def cReadAs (p n : Nat) (ld : Bool) : M TWord := do
  if p + n ≤ 3 then cFillTo 4 p else pure ()
  let k ← getCore
  match k.stk.cregs[p]? with
  | some w => pure w
  | none => do
    let w ← load (k.stk.csp + p) ld
    updS (fun s c => s.bump .CORE_FILLS c 1)
    pure w

/-- Read control-stack position p, not as a load-class syllable. -/
def cRead (p n : Nat) : M TWord := cReadAs p n false

/-- Push a word onto the control stack. -/
def cPush (w : TWord) : M Unit := do
  cSpillFor 4 1
  modMe (fun k => { k with stk := { k.stk with csp := va48 ((k.stk.csp : Int) - 1), cregs := w :: k.stk.cregs } })

/-- Remove n entries from the control stack. -/
def cDrop (n : Nat) : M Unit :=
  modMe (fun k => { k with stk := { k.stk with csp := va48 (k.stk.csp + n), cregs := k.stk.cregs.drop n } })

/-- Write control-stack position p: a register, or its home slot directly (R50, R52). -/
def cWrite (p : Nat) (w : TWord) : M Unit := do
  let k ← getCore
  if p < k.stk.cregs.length then
    modMe (fun k => { k with stk := { k.stk with cregs := k.stk.cregs.set p w } })
  else do
    store (k.stk.csp + p) w true false
    updS (fun s c => s.bump .CORE_SPILLS c 1)

/-- Push n EMPTY words onto the control stack. -/
def cPushEmpty (n : Nat) : M Unit :=
  match n with
  | 0 => pure ()
  | n + 1 => do
    cPush wEMPTY
    cPushEmpty n

/-- A FRAME word of a kind, with the fields that R116 fixes zero: one with other bits there is refused too, although R116 names the
KIND alone (log entry 81, DESIGN CHOICE). -/
def isFrame (w : TWord) (kind : Nat) : Bool := ty w == tFRAME && frameKind w == kind && bits w.datum 59 57 == 0

/-- Control-stack position p must hold a FRAME of a kind; otherwise WRONGTYPE at its address (R116). -/
def cFrame (p kind : Nat) : M TWord := do
  let k ← getCore
  let w ← cRead p 0
  checkMem w (k.stk.csp + p)
  if isFrame w kind then pure w else memFault sWRONG w (k.stk.csp + p)

/-! ### Allocation -/

/-- A refill proceeds without a grant (R317). -/
def State.refillFree (s : State) : Bool := s.fld f_COL_PACE_RESERVE 0 < s.fld f_COL_FREE_COUNT 0

/-- Take a 64 Ki-word chunk of the cluster's NURSERY region, opening the lowest FREE region when the current one has too
little left (R316); none when there is no FREE region. -/
def State.takeChunk (s : State) (cl : Nat) : Option (Nat × State) :=
  let fits (r : Nat) : Bool := rState (s.region0 r) == gNURSERY && rTop (s.region0 r) + 65536 ≤ 2 ^ 18
  match (s.cluster cl).nursery.filter fits with
  | some r =>
    let d := s.region0 r
    some (s.regionVa r + rTop d, s.setRegion0 r (setBits d 44 26 (rTop d + 65536)))
  | none =>
    match s.lowestFree with
    | none => none
    | some r =>
      let s := s.openRegion cl r gNURSERY 65536
      some (s.regionVa r, s.modCluster cl (fun k => { k with nursery := some r }))

/-- COL.PACE.GRANTS shows the pool, saturating (R317). -/
def State.setGrants (s : State) (n : Nat) : State :=
  { s with col := { s.col with grants := n } }.setFld f_COL_PACE_GRANTS 0 (Nat.min n 0xFFFF)

/-- The first pacing core, in order of arrival, that is not suspended (R317). -/
def State.firstPacing (s : State) : Option Nat :=
  s.col.pacing.find? (fun c => match (s.core c).wait with | some (.pacing _) => true | _ => false)

/-- Core c may take a grant now: there is one, and no waiting core arrived before it. -/
def State.mayGrant (s : State) (c : Nat) : Bool :=
  decide (0 < s.col.grants) && (match s.firstPacing with
    | none => true
    | some x => s.col.pacing.contains c &&
        decide (s.col.pacing.findIdx (fun y => y == c) ≤ s.col.pacing.findIdx (fun y => y == x)))

/-- Core c's refill: AB and AL name a fresh chunk (R104); `grant` spends one grant. None when no region is FREE. -/
def State.refill (s : State) (c : Nat) (grant : Bool) : Option State :=
  match s.takeChunk (clusterOf c) with
  | none => none
  | some (a, s) =>
    let s := if grant then s.setGrants (s.col.grants - 1) else s
    let s := { s with col := { s.col with pacing := s.col.pacing.filter (fun x => x != c) } }
    some (s.modCore c (fun k => { k with sr := { k.sr with ab := w64 a, al := w64 (a + 65536) } }))

/-- The allocation buffer holds n words (R104). -/
def bufferHolds (k : Core) (n : Nat) : Bool :=
  let ab := k.sr.ab.toNat
  let al := k.sr.al.toNat
  ab % 2 == 0 && al % 2 == 0 && decide (ab ≤ al) && decide (ab + n ≤ al)

/-- Enter allocation pacing (R104, R317): PSW.STEP is set, PG0 holds the size and PG1 the time at which pacing began,
and the core joins the order of arrival. -/
def enterPacing (n : Nat) : M Unit := do
  let k ← getCore
  let now ← askS (fun s _ => s.time)
  let cust := k.micro.isSome
  let since := if k.psw.step && !cust then k.sr.pg1.datum.toNat else now
  updS (fun s c =>
    let kept := k.psw.step && s.col.pacing.contains c
    let s := if kept then s else (s.bump .COL_PACEWAIT 0 1)
    { s with col := { s.col with pacing := if kept then s.col.pacing else (s.col.pacing.filter (fun x => x != c)) ++ [c] } })
  modMe (fun k => { k with psw := { k.psw with step := true } })
  if cust then pure ()
  else modMe (fun k =>
    { k with sr := { k.sr with pg0 := fixN n, pg1 := fixN since, pg2 := fixN 0, pg3 := fixN 0 } })
  throw (.wait (.pacing since))

/-- Room for n words (R104): the buffer, or a refill, or allocation pacing. AB is raised by the caller when it has
written the object. -/
def allocRoom (n : Nat) : M Nat := do
  let k ← getCore
  if bufferHolds k n then pure k.sr.ab.toNat
  else do
    if k.psw.step then pure () else updS (fun s c => { s with col := { s.col with pacing := s.col.pacing.filter (fun x => x != c) } })
    let c ← me
    let s ← get
    let free := s.refillFree
    if free || s.mayGrant c then
      match s.refill c (!free) with
      | some s => do
        set s
        let k ← getCore
        let (ab, al) ← ndval 4 k.sr.ab [k.sr.al.toNat, 0]
        modMe (fun k => { k with sr := { k.sr with ab := ab, al := w64 (al.getD 0 0) } })
        pure ab.toNat
      | none => do
        enterPacing n
        pure 0
    else do
      enterPacing n
      pure 0

/-- AB passes the object just written. -/
def allocDone (n : Nat) : M Unit := modMe (fun k => { k with sr := { k.sr with ab := k.sr.ab + w64 n } })

/-- The E bit of a new object at a va: its region's EPOCH (R316). -/
def epochAt (a : Nat) : M Bool := askS (fun s _ => match s.regionOf a with | some r => rEpoch (s.region0 r) | none => false)

/-- Allocate a pair (R104): its pointer. -/
def allocPair (car cdr : TWord) (win : Bool) : M TWord := do
  let a ← allocRoom 2
  initStore a car win
  initStore (a + 1) cdr win
  allocDone 2
  let e ← epochAt a
  pure ⟨mkTag false e tCONS, w64 a⟩

/-- Initialise words at a va. -/
def initWords (a : Nat) : List TWord → M Unit
  | [] => pure ()
  | w :: l => do
    initStore a w false
    initWords (a + 1) l

/-- Initialise n words at a va to one value. -/
def initFill (n a : Nat) (w : TWord) : M Unit :=
  match n with
  | 0 => pure ()
  | n + 1 => do
    initStore a w false
    initFill n (a + 1) w

/-- Words that an object of LENGTH n occupies (R104). -/
def objSize (n : Nat) : Nat := (n + 2) / 2 * 2

/-- Allocate a headed object with given words after its header. -/
def allocObj (t sub : Nat) (ws : List TWord) : M TWord := do
  let n := objSize ws.length
  let a ← allocRoom n
  initStore a (mkHdr sub ws.length) false
  initWords (a + 1) ws
  allocDone n
  let e ← epochAt a
  pure ⟨mkTag false e t, w64 a⟩

/-- The checks of R103 on ALLOC's fix2 (type and SUBTYPE) and fix1 (LENGTH): the position at fault. -/
def allocBad (cuptr : Nat) (len : Int) (d : W64) : Option Nat :=
  let t := bits d 5 0
  let sub := bits d 15 8
  let two := t == tRAT || t == tCPX || t == tPROXY || t == tFUTURE
  let bytes := t == tSTR || t == tBVEC
  if bits d 63 16 ≠ 0 || bits d 7 6 ≠ 0 || !(isHeaded cuptr t) then some 0
  else if (t == tSYM || t == tBIG || two) && sub ≠ 0 then some 0
  else if bytes && (8 ≤ sub || (len == 0 && sub ≠ 0)) then some 0
  else if len < 0 || (2 : Int) ^ 32 ≤ len then some 1
  else if t == tSYM && len ≠ 6 then some 1
  else if two && len ≠ 2 then some 1
  else if (t == tBIG || t == tFUN) && len < 1 then some 1
  else none

/-- ALLOC (R103) with given operand words at given positions: the pointer; a PROXY enters the registry (R335). -/
def allocate (w1 w2 : TWord) : M TWord := do
  let cu ← askS (fun s c => s.cuptr c)
  match allocBad cu (fixVal w1) w2.datum with
  | some 0 => typeFault sWRONG w2 0
  | some p => typeFault sWRONG w1 p
  | none => do
    let len := w1.datum.toNat
    let t := bits w2.datum 5 0
    let n := objSize len
    if 32768 < n then
      raise { vec := 12, sub := 0, raw := some (w64 (bits w2.datum 15 0 * 2 ^ 32 + len % 2 ^ 32)) }
    else do
      let full ← askS (fun s _ => t == tPROXY && decide (4194304 ≤ s.col.proxies.length))
      if full then raise { vec := 12, sub := 1 } else pure ()
      let a ← allocRoom n
      initStore a (mkHdr (bits w2.datum 15 8) len) false
      initFill len (a + 1) (if t == tSTR || t == tBVEC || t == tBIG then wRAW0 else wEMPTY)
      allocDone n
      if t == tPROXY then updS (fun s _ => { s with col := { s.col with proxies := s.col.proxies ++ [a] } }) else pure ()
      let e ← epochAt a
      pure ⟨mkTag false e t, w64 a⟩

/-! ### Building instructions -/

/-- R162: before microcode runs, entries are spilled until N is at most 4. -/
def microPrep : M Unit := spillFor 8 4

/-- The answer of a meaning: the next state. -/
abbrev Ans := Host.Outcome State Fault Refusal

/-- An instruction whose body only computes words from its operands, given as a list, position 0 first. -/
def pureIns (g : Sig) (delay : Nat) (f : List TWord → List TWord) : Ins :=
  { sig := g, body := fun l => pure { push := f l, delay := delay } }

/-- The words of an operand list. -/
def opd (l : List TWord) (i : Nat) : TWord := l.getD i wEMPTY

end Sys2Proof.Machine
end

