-- ==== Sys2Proof/Machine/Heap.lean ====
section
/-! DEFINITION. The heap's other agents (R310-R336, R374): coherent accesses of engines and of the I/O tile, forwarding, marking,
evacuation, fix-up, the export table and weights. -/

namespace Sys2Proof.Machine

open Sys2Proof

/-! ### Accesses of agents other than cores -/

/-- Why an agent cannot go on: a cause of STH.ERR with its va (8 a full slot, 9 a slot that has lost a conflict, R304), or a
line that a distributed commit holds (R305) or the host has not yet given (R266). -/
inductive Halt where
  | stop (cause va : Nat)
  | wait (line : Nat)
  deriving DecidableEq, Repr

/-- An agent at work: the cluster whose walker and buffers it uses, who it is to the Scenes, and its recorded number (512 for
none). -/
structure Eng where
  cl : Nat
  agent : Agent
  num : Nat
  deriving DecidableEq, Repr

/-- What an agent does. -/
abbrev EM := ReaderT Eng (EStateM Halt State)

/-- A Stagehand engine as an agent. -/
def engine (cl : Nat) : Eng := { cl := cl, agent := .engine cl, num := 256 + cl }

/-- The lowest enabled cluster (R325). -/
def State.firstCluster (s : State) : Nat := ((List.range s.nClusters).find? (fun q => bit (s.reg .LOADIN_CLEN 0) q)).getD 0

/-- The remote agent of the I/O tile (R374): it translates through the lowest enabled cluster's walker (log entry 33, DESIGN CHOICE). -/
def State.remote (s : State) (a : Agent) : Eng := { cl := s.firstCluster, agent := a, num := 512 }

/-- Read something of the state. -/
def eAsk {α : Type} (f : State → α) : EM α := do
  let s ← get
  pure (f s)

/-- Stop with a cause of STH.ERR. -/
def eStop {α : Type} (cause va : Nat) : EM α := throw (.stop cause va)

/-- A coherent read by an agent of the I/O tile, at the home slice: dirty data is written home and stays shared. -/
def State.homeRead (s : State) (line : Nat) : State :=
  let s := (s.countUreq line).obtain line
  match s.dirOf line with
  | some e => (match e.owner with
    | some o => (s.clDemote o line).setDir { e with owner := none, sharers := [o] }
    | none => s)
  | none => s

/-- A coherent read by agent `num`: a Stagehand engine (256 on) works through its own cluster's cache (R246), the I/O tile has none. -/
def State.agentRead (s : State) (num line : Nat) : State :=
  if num < 512 then (s.clRead (num - 256) line).noteChunk num line false else (s.homeRead line).truncate 512 line false

/-- A coherent write by agent `num`, its line taken from every other holder. -/
def State.agentWrite (s : State) (num pa : Nat) (w : TWord) : State :=
  let line := lineOf pa
  if num < 512 then
    let s := (s.clOwn (num - 256) line).noteChunk num line true
    s.storeWord pa (asStored pa w) ((s.cluster (num - 256)).cstate line == .mod)
  else ((((s.countUreq line).obtain line).recall line none).truncate 512 line true).storeWord pa (asStored pa w) false

/-- Translate a va in the collector context (R310, R374): cause 0 for a fault, 1 where nothing answers. -/
def eXlate (va : Nat) (kind : Acc) : EM Nat := do
  let e ← read
  let s ← get
  match s.colXlate e.cl va kind with
  | (_, .inl _) => eStop 0 va
  | (s, .inr (pa, _)) => do
    set s
    match place pa with
    | .loc => pure pa
    | .priv => pure pa
    | .host => if s.hostUp then pure pa else eStop 1 va
    | _ => eStop 1 va

/-- Read the word at a pa; a line that the host must give first makes the agent wait (R266). A slot's read joins its read set and
sees its own writes (R304). -/
def eReadPa (va pa : Nat) : EM TWord := do
  let e ← read
  let s ← get
  let line := lineOf pa
  if e.num < 512 && s.needsHost line then throw (.wait line)
  else match e.agent with
  | .slot i =>
    match s.slotNo i with
    | none => eStop 1 va
    | some x =>
      match s.arbitrate e.agent line false with
      | .waitOn l => throw (.wait l)
      | .lose d => do
        set (s.slotLoses x (d.arg / 256))
        eStop 9 va
      | .go s =>
        if !(x.lines.contains line) && 512 ≤ x.lines.length then eStop 8 va
        else do
          set ((s.putSlot { x with reads := if x.reads.contains line then x.reads else line :: x.reads }).agentRead e.num line)
          match x.writes.find? (fun w => w.1 == pa) with
          | some w => pure w.2
          | none => pure (s.rd pa)
  | _ => do
    set (s.agentRead e.num line)
    pure (s.rd pa)

/-- Write the word at a pa: an agent outside any Scene dooms those it conflicts with (R295); a slot buffers it (R304). -/
def eWritePa (va pa : Nat) (w : TWord) : EM Unit := do
  let e ← read
  let s ← get
  let line := lineOf pa
  if e.num < 512 && s.needsHost line then throw (.wait line)
  else match s.arbitrate e.agent line true with
  | .waitOn l => throw (.wait l)
  | .lose d =>
    match e.agent with
    | .slot i => do
      (match s.slotNo i with
        | some x => set (s.slotLoses x (d.arg / 256))
        | none => pure ())
      eStop 9 va
    | _ => throw (.wait line)
  | .go s =>
    match e.agent with
    | .slot i =>
      match s.slotNo i with
      | none => eStop 1 va
      | some x =>
        if !(x.lines.contains line) && 512 ≤ x.lines.length then eStop 8 va
        else set (s.putSlot { x with writes := (pa, w) :: x.writes.filter (fun y => y.1 != pa) })
    | _ => set (s.agentWrite e.num pa w)

/-- Read the word at a va. -/
def eRead (va : Nat) : EM TWord := do
  let pa ← eXlate va .read
  eReadPa va pa

/-- Write the word at a va. -/
def eWrite (va : Nat) (w : TWord) : EM Unit := do
  let pa ← eXlate va .write
  eWritePa va pa w

/-! ### Forwarding -/

/-- The words an object occupies (R104), its first word given: a headed object or a pair. -/
def sizeAt (w : TWord) : Nat := if ty w == tHDR then objSize (hdrLen w) else 2

/-- Copy words of an object, the header with its AGE raised (R322 step 2). -/
def eCopyWords (n i src dst : Nat) : EM Unit :=
  match n with
  | 0 => pure ()
  | n + 1 => do
    let w ← eRead (src + i)
    let w := if i = 0 && ty w == tHDR then
      { w with datum := setBits w.datum 43 40 (Nat.min 15 (hdrAge w + 1)) } else w
    eWrite (dst + i) w
    eCopyWords n (i + 1) src dst

/-- Steps 1 and 2 of R322 by an engine: the new address and E of the object at `base`; with no FREE region the engine stops
with cause 3. -/
def eForward (base : Nat) : EM (Nat × Bool) := do
  let w ← eRead base
  if ty w == tFWD then pure (adr w, eBit w)
  else do
    let e ← read
    let size := if ty w == tHDR then hdrLen w + 1 else 2
    let r ← eAsk (fun s => (s.regionOf base).getD 0)
    let s ← get
    let old := rDold (s.region0 r) || (ty w == tHDR && s.fld f_COL_CTL_TENURE 0 ≤ hdrAge w)
    match s.evacRoom e.cl old size with
    | none => eStop 3 base
    | some (dst, s) => do
      set s
      eCopyWords size 0 base dst
      let ep ← eAsk (fun s => rEpoch (s.region0 ((s.regionOf dst).getD 0)))
      eWrite base ⟨mkTag false ep tFWD, w64 dst⟩
      modify (fun s => s.bump .STH_COPIED e.cl size)
      pure (dst, ep)

/-- Search backwards for the nearest HDR or FWD (R552 step 1). -/
def eFindHdr (fuel cur : Nat) : EM (Option (Nat × TWord)) :=
  match fuel with
  | 0 => pure none
  | fuel + 1 => do
    let w ← eRead cur
    if ty w == tHDR || ty w == tFWD then pure (some (cur, w))
    else match cur with
      | 0 => pure none
      | cur + 1 => eFindHdr fuel cur

/-- The first LARGE region, going down, whose word 0 is an HDR (R552 step 4). -/
def eFindLarge (fuel r : Nat) : EM Nat :=
  match fuel with
  | 0 => pure r
  | fuel + 1 => do
    let a ← eAsk (fun s => s.regionVa r)
    let w ← eRead a
    if ty w == tHDR then pure r
    else match r with
      | 0 => pure 0
      | r + 1 => eFindLarge fuel r

/-- The base of the object that a heap pointer stands for (R552). -/
def eBase (p : TWord) : EM Nat := do
  let a := adr p
  if ty p != tVAR && ty p != tLOC then pure a
  else do
    let r ← eAsk (fun s => s.regionOf a)
    match r with
    | none => pure a
    | some r => do
      let (st, rv) ← eAsk (fun s => (rState (s.region0 r), s.regionVa r))
      if st == gLARGE then do
        let r0 ← eFindLarge (r + 1) r
        eAsk (fun s => s.regionVa r0)
      else do
        let h ← eFindHdr (a - rv + 1) a
        match h with
        | none => pure (a / 2 * 2)
        | some (h, w) =>
          if ty w == tHDR then pure (if a ≤ h + hdrLen w then h else a / 2 * 2)
          else do
            let n ← eRead (adr w)
            let reach := if ty n == tHDR then hdrLen n else 1
            pure (if a ≤ h + reach then h else a / 2 * 2)

/-- A word is a heap pointer as an engine sees it (R310), with its cluster's MCS.CUPTR (R25). -/
def eHeapPtr (w : TWord) : EM (Option Nat) := do
  let e ← read
  eAsk (fun s => if isPtr (bits (s.reg .MCS_CUPTR e.cl) 15 0) (ty w) && hiZero w then s.regionOf (adr w) else none)

/-- The healed form of a pointer whose region is EVACUATING and whose E is stale (R322, R374); any other word is itself. -/
def eHeal (w : TWord) : EM TWord := do
  let r ← eHeapPtr w
  let st ← eAsk (fun s => r.any (fun r => rState (s.region0 r) == gEVAC && eBit w != rEpoch (s.region0 r)))
  if !st then pure w
  else do
    let b ← eBase w
    let (n, e) ← eForward b
    pure ⟨mkTag (kBit w) e (ty w), w64 (n + (adr w - b))⟩

/-- The base of an object that the export table names (R374): forwarded, and copied first, while its region is evacuated. -/
def eObj (va : Nat) : EM Nat := do
  let ev ← eAsk (fun s => (s.regionOf va).any (fun r => rState (s.region0 r) == gEVAC))
  if ev then do
    let (n, _) ← eForward va
    pure n
  else do
    let w ← eRead va
    pure (if ty w == tFWD then adr w else va)

/-! ### Marking -/

/-- The enabled clusters in order. -/
def State.enabled (s : State) : List Nat := (List.range s.nClusters).filter (fun q => bit (s.reg .LOADIN_CLEN 0) q)

/-- The engine to which a region belongs (R325). -/
def State.ownerOf (s : State) (r : Nat) : Nat :=
  let l := s.enabled
  l.getD (r % Nat.max 1 l.length) 0

/-- Change an engine. -/
def State.modEngine (s : State) (cl : Nat) (f : Engine → Engine) : State :=
  s.modCluster cl (fun k => { k with engine := f k.engine })

/-- Give an engine more work; an object that meets a full mark queue spills to the rescan list (R311, R327). -/
def State.pushJob (s : State) (cl : Nat) (j : Job) : State :=
  match j with
  | .trace va =>
    if 524288 ≤ (s.cluster cl).engine.jobs.length then
      (s.modEngine cl (fun e => { e with rescan := e.rescan ++ [va] })).bump .STH_MQOVF cl 1
    else s.modEngine cl (fun e => { e with jobs := e.jobs ++ [j] })
  | _ => s.modEngine cl (fun e => { e with jobs := e.jobs ++ [j] })

/-- The marking traces a region (R327). -/
def State.traced (s : State) (r : Nat) : Bool :=
  let st := rState (s.region0 r)
  if s.flag f_COL_PHASE_YOUNG 0 then st == gNURSERY else st != gFREE

/-- Place of the mark bit of a local pa (R311). -/
def markPa (pa : Nat) : Nat := 0x000400000000 + pa / 64

/-- The mark bit of a local pa. -/
def State.markBit (s : State) (pa : Nat) : Bool := bit (s.rd (markPa pa)).datum (pa % 64)

/-- Set it. -/
def State.setMark (s : State) (pa : Nat) : State :=
  s.wr (markPa pa) (fixW ((s.rd (markPa pa)).datum ||| w64 (2 ^ (pa % 64))))

/-- Mark the object at `base` (R327): one that is traced, below its region's TAMS and not yet marked is queued to be traced. -/
def eMark (base : Nat) : EM Unit := do
  let e ← read
  let r ← eAsk (fun s => s.regionOf base)
  match r with
  | none => pure ()
  | some r => do
    let go ← eAsk (fun s => s.traced r && decide (base - s.regionVa r < rTams (s.region0 r)))
    if !go then pure ()
    else do
      let pa ← eXlate base .read
      if place pa != .loc then eStop 4 base
      else do
        let was ← eAsk (fun s => s.markBit pa)
        if was then pure ()
        else modify (fun s => ((s.setMark pa).bump .STH_MARKED e.cl 1).pushJob (s.ownerOf r) (.trace base))

/-- Mark what a word points to, if it is a heap pointer; POISON is a non-pointer and is counted (R327). -/
def eMarkWord (w : TWord) : EM Unit := do
  let e ← read
  if ty w == tPOISON then modify (fun s => s.bump .STH_POISON e.cl 1)
  else do
    let r ← eHeapPtr w
    let go ← eAsk (fun s => r.any s.traced)
    if go then do
      let b ← eBase w
      eMark b
    else pure ()

/-- Mark what n words point to. -/
def eMarkWords (n va : Nat) : EM Unit :=
  match n with
  | 0 => pure ()
  | n + 1 => do
    let w ← eRead va
    eMarkWord w
    eMarkWords n (va + 1)

/-- Words live in a region by the running marking. -/
def State.addLive (s : State) (r n : Nat) : State :=
  { s with col := { s.col with live := smapPut 0 s.col.live r (smapGet 0 s.col.live r + n) } }

/-- The object at an offset of a region: its first word and the words it occupies; a forwarded one has the size of its
copy. -/
def eObject (va : Nat) : EM (TWord × Nat) := do
  let w ← eRead va
  if ty w == tFWD then do
    let n ← eRead (adr w)
    pure (w, sizeAt n)
  else pure (w, sizeAt w)

/-- The object at a va is live for evacuation and fix-up (R327, R329, R330): at or above TAMS, marked, or in a region that the
marking did not trace. -/
def eLive (r va : Nat) : EM Bool := do
  let (tams, base) ← eAsk (fun s => (rTams (s.region0 r), s.regionVa r))
  if tams ≤ va - base then pure true
  else do
    let young ← eAsk (fun s => s.flag f_COL_PHASE_YOUNG 0)
    let st ← eAsk (fun s => rState (s.region0 r))
    if young && st != gNURSERY && st != gEVAC then pure true
    else do
      let pa ← eXlate va .read
      eAsk (fun s => s.markBit pa)

/-- Fix one word of a live object (R330): a pointer into a selected region becomes its healed form, and a pointer into a
NURSERY region written into a tenured one marks its card. -/
def eFixWord (r va : Nat) : EM Unit := do
  let e ← read
  let w ← eRead va
  let t ← eHeapPtr w
  let ev ← eAsk (fun s => t.any (fun t => rState (s.region0 t) == gEVAC))
  if !ev then pure ()
  else do
    let b ← eBase w
    let f ← eRead b
    if ty f != tFWD then pure ()
    else do
      let n := adr f + (adr w - b)
      eWrite va ⟨mkTag (kBit w) (eBit f) (ty w), w64 n⟩
      modify (fun s =>
        let s := s.bump .STH_FIXED e.cl 1
        let hd := rState (s.region0 r)
        let nd := (s.regionOf n).map (fun x => rState (s.region0 x))
        match (if nd == some gNURSERY && (hd == gOLD || hd == gLARGE || hd == gPINNED) then s.cardWord va else none) with
        | some (pa, x) => s.agentWrite e.num pa x
        | none => s)

/-- Fix n words. -/
def eFixWords (r n va : Nat) : EM Unit :=
  match n with
  | 0 => pure ()
  | n + 1 => do
    eFixWord r va
    eFixWords r n (va + 1)

/-! ### The export table -/

/-- The va of an export entry, its generation, validity and IND (R334). -/
def State.expObj (s : State) (i : Nat) : Nat := s.fld f_EXP_E0_OBJ i
def State.expGen (s : State) (i : Nat) : Nat := s.fld f_EXP_E0_GEN i
def State.expValid (s : State) (i : Nat) : Bool := s.flag f_EXP_E0_V i

/-- The valid entry of an object, by address and IND (R334). -/
def State.expFind (s : State) (va : Nat) (ind : Bool) : Option Nat :=
  (s.regs.find? (fun x => decide (x.reg = .EXP_E0) && bit x.val 63 && bit x.val 62 == ind && bits x.val 47 0 == va)).map (fun x => x.inst)

/-- The lowest free entry. -/
def State.expFree (s : State) : Option Nat := (List.range 262144).find? (fun i => !(s.expValid i))

/-- Every valid entry. -/
def State.expAll (s : State) : List Nat :=
  (s.regs.filter (fun x => decide (x.reg = .EXP_E0) && bit x.val 63)).map (fun x => x.inst)

/-- An RREF word to an entry of this device (R30). -/
def State.rref (s : State) (i wexp : Nat) (k : Bool) : TWord :=
  ⟨mkTag k false tRREF, w64 (s.node % 2 ^ 14 * 2 ^ 50 + s.expGen i % 256 * 2 ^ 42 + wexp % 64 * 2 ^ 36 + i % 2 ^ 18)⟩

/-- Open an entry for an object with a weight. -/
def State.expOpen (s : State) (i va weight : Nat) (ind : Bool) (t : Nat) : State :=
  let s := s.setReg .EXP_E0 i (w64 (2 ^ 63 + b2n ind * 2 ^ 62 + s.expGen i % 256 * 2 ^ 48 + va % 2 ^ 48))
  let s := s.setReg .EXP_E1 i (w64 weight)
  { s with col := { s.col with expType := (i, t) :: s.col.expType.filter (fun x => x.1 != i) } }

/-- Free an entry (R336): V cleared, GEN raised. -/
def State.expClose (s : State) (i : Nat) : State :=
  let s := s.setReg .EXP_E0 i (setBits (setBits (s.reg .EXP_E0 i) 55 48 ((s.expGen i + 1) % 256)) 63 63 0)
  { s with col := { s.col with expType := s.col.expType.filter (fun x => x.1 != i) } }

/-- Weight comes home (R336): none where the return is bad. -/
def State.weightBack (s : State) (i gen weight : Nat) : Option State :=
  let out := (s.reg .EXP_E1 i).toNat
  if !(s.expValid i) || s.expGen i != gen || out < weight then none
  else
    let s := s.setReg .EXP_E1 i (w64 (out - weight))
    some (if out = weight then s.expClose i else s)

/-- Export a pointer, or a proxy by an indirect entry (R334, R335): the RREF with weight 2^WSEND, or the collector-assist
subcode EXPFULL or WEIGHT. -/
def State.exportPtr (s : State) (w : TWord) (ind : Bool) : Nat ⊕ (TWord × State) :=
  let e := s.fld f_COL_CTL_WSEND 0
  match s.expFind (adr w) ind with
  | some i =>
    let out := (s.reg .EXP_E1 i).toNat + 2 ^ e
    if 2 ^ 64 ≤ out then .inl 3
    else
      let s := s.setReg .EXP_E1 i (w64 out)
      .inr (s.rref i e (kBit w), s)
  | none =>
    match s.expFree with
    | none => .inl 2
    | some i =>
      let s := s.expOpen i (adr w) (2 ^ e) ind (ty w)
      .inr (s.rref i e (kBit w), s)

/-- Types that travel as themselves (R365). -/
def travels (t : Nat) : Bool :=
  t == tRAW || t == tFIX || t == tFLO || t == tCHR || t == tNIL || t == tTRUE || t == tUNB || t == tEMPTY

/-- Heap pointers that are exported when sent (R365). -/
def exportable (cuptr t : Nat) : Bool := (isHeaded cuptr t && t != tPROXY) || t == tCONS

/-- Half of the largest power of two not above w, as an exponent (R335). -/
def splitExp (w : Nat) : Nat := Nat.log2 w - 1

/-- The RREF sent for a proxy of weight w ≥ 2 (R335): its own RREF with WEXP of the part split off. -/
def splitRref (r : TWord) (k : Bool) (w : Nat) : TWord :=
  ⟨mkTag k false tRREF, setBits r.datum 41 36 (splitExp w)⟩

/-- The word that the remote agent sends for a value it has read (R365, R374): the word, or a status of R367. -/
def eSend (w : TWord) : EM (Nat ⊕ TWord) := do
  let e ← read
  let cu ← eAsk (fun s => bits (s.reg .MCS_CUPTR e.cl) 15 0)
  if ty w == tPOISON then pure (.inl 4)
  else if travels (ty w) then pure (.inr w)
  else if ty w == tPROXY && hiZero w then do
    let b ← eObj (adr w)
    let r ← eRead (b + 1)
    let h ← eRead (b + 2)
    let n := h.datum.toNat
    if 2 ≤ n then do
      eWrite (b + 2) (fixN (n - 2 ^ splitExp n))
      pure (.inr (splitRref r (kBit w) n))
    else do
      let s ← get
      match s.exportPtr ⟨w.tag, w64 b⟩ true with
      | .inl _ => pure (.inl 5)
      | .inr (x, s) => do
        set s
        pure (.inr x)
  else do
    let r ← eHeapPtr w
    if exportable cu (ty w) && r.isSome then do
      let s ← get
      match s.exportPtr w false with
      | .inl _ => pure (.inl 5)
      | .inr (x, s) => do
        set s
        pure (.inr x)
    else pure (.inl 3)

/-- The local pointer that replaces an RREF to a local export (R377): its TYPE is the one it was exported with, a free value
for an entry that software wrote (log entry 34, DESIGN CHOICE). -/
def State.localWord (s : State) (w : TWord) : TWord × State :=
  let i := bits w.datum 17 0
  if ty w == tRREF && bits w.datum 63 50 == s.node && s.expValid i && s.expGen i == bits w.datum 49 42 then
    let va := s.expObj i
    let e := match s.regionOf va with | some r => rEpoch (s.region0 r) | none => false
    match s.col.expType.find? (fun x => x.1 == i) with
    | some x => (⟨mkTag (kBit w) e x.2, w64 va⟩, s)
    | none =>
      if s.flag f_EXP_E0_IND i then (⟨mkTag (kBit w) e tPROXY, w64 va⟩, s)
      else
        let (f, s) := s.fresh
        (⟨mkTag (kBit w) e (bits f 5 0), w64 va⟩, s)
  else (w, s)

end Sys2Proof.Machine
end

