-- ==== Sys2Proof/Machine/Collect.lean ====
section
/-! DEFINITION. The collector's commands and the Stagehand engines (R310-R336). -/

namespace Sys2Proof.Machine

open Sys2Proof

/-- COL.PHASE values (R325). -/
def phIDLE : Nat := 0
def phMARKING : Nat := 1
def phMARKED : Nat := 2
def phEVAC : Nat := 3
def phFIXUP : Nat := 4

/-- The collector's phase; the start of a phase wakes gated engines (R466). -/
def State.phase (s : State) : Nat := s.fld f_COL_PHASE_PHASE 0
def State.setPhase (s : State) (n : Nat) : State :=
  { s.setFld f_COL_PHASE_PHASE 0 n with clk := { s.clk with noSth := if n = 0 then s.clk.noSth else [] } }
def State.colBusy (s : State) : Bool := s.flag f_COL_STAT_BUSY 0
def State.setBusy (s : State) (b : Bool) : State := s.setFld f_COL_STAT_BUSY 0 (b2n b)

/-- The regions whose entry is listed, other than FREE ones. -/
def State.liveRegions (s : State) : List Nat := (List.range 65536).filter (fun r => rState (s.region0 r) != gFREE)

/-- A refused command (R326). -/
def State.cmdErr (s : State) : State := s.setFld f_COL_STAT_CMDERR 0 1

/-- The end of a device phase is reported by the engine of the lowest enabled cluster (R325). -/
def State.phaseDone (s : State) : State := s.cueEvent (80 + s.firstCluster)

/-- Every engine has finished. -/
def State.enginesIdle (s : State) : Bool :=
  s.enabled.all (fun q => (s.cluster q).engine.jobs.isEmpty && (s.cluster q).engine.rescan.isEmpty)

/-- Drop all work of the engines. -/
def State.clearEngines (s : State) : State := { s with clusters := s.clusters.map (fun k => { k with engine := {} }) }

/-! ### Registers -/

/-- A write of COL.HEAPBASE (R310): accepted only while IDLE with every region FREE. -/
def State.colHeapbase (s : State) (v : W64) : State :=
  if s.phase == phIDLE && s.fld f_COL_FREE_COUNT 0 == 65536 then s.setFld f_COL_HEAPBASE_BASE 0 (bits v 47 18)
  else s.setFld f_COL_STAT_BASEERR 0 1

/-- The region is a cluster's current allocation or destination region. -/
def State.currentRegion (s : State) (r : Nat) : Bool :=
  s.clusters.any (fun k => k.nursery == some r || k.evacN == some r || k.evacO == some r)

/-- COL.RSET (R315); a reserved STATE is recorded as R548 says too. -/
def State.colRset (s : State) (v : W64) : State :=
  let r := bits v 15 0
  let st := bits v 18 16
  let top := bits v 44 26
  let d := s.region0 r
  let s := if 6 ≤ st then s.setFld (Reg.rsvw .COL_RSET) 0 1 else s
  if st == gEVAC || rState d == gEVAC || s.currentRegion r || rSel d || 262144 < top || 6 ≤ st then
    s.setFld f_COL_STAT_RSETERR 0 1
  else if rState d == gFREE && st != gFREE then s.openRegion s.firstCluster r st top
  else s.setRegion0 r (setBits (setBits d 44 26 top) 2 0 st)

/-- COL.ROOTQ (R327): a root while MARKING, ignored otherwise. -/
def State.colRootq (s : State) (va : Nat) : State :=
  if s.phase == phMARKING then
    match s.regionOf va with
    | some r => s.pushJob (s.ownerOf r) (.root va)
    | none => s
  else s

/-! ### Commands -/

/-- Clear the mark bits of a range of local pa (R327 step 2). -/
def State.clearMarks (s : State) (pa len : Nat) : State :=
  (s.mem.filter (fun x => markPa pa ≤ x.1 && x.1 < markPa (pa + len) && 0x000400000000 ≤ x.1)).foldl
    (fun s x => s.wr x.1 wRAW0) s

/-- Clear the mark bits of a region, one leaf region at a time. -/
def State.clearRegionMarks (fuel : Nat) (s : State) (va len : Nat) : State :=
  match fuel with
  | 0 => s
  | fuel + 1 =>
    if len = 0 then s
    else
      match s.colXlate s.firstCluster va .read with
      | (s, .inl _) => s
      | (s, .inr (pa, sh)) =>
        let n := Nat.min len (2 ^ sh - va % 2 ^ sh)
        State.clearRegionMarks fuel (s.clearMarks pa n) (va + n) (len - n)

/-- Bits that are set in a card-table word. -/
def cardBits (d : W64) : List Nat := (List.range 64).filter (fun i => bit d i)

/-- Take the marked cards (R327): each becomes work of its region's engine and its bit is cleared. -/
def State.takeCards (s : State) : State :=
  (s.mem.filter (fun x => 0x000409040000 ≤ x.1 && x.1 < 0x0004090C0000)).foldl (fun s x =>
    let s := s.wr x.1 wRAW0
    (cardBits x.2.datum).foldl (fun s i =>
      let n := (x.1 - 0x000409040000) * 64 + i
      s.pushJob (s.ownerOf (n / 512)) (.card n)) s) s

/-- MARK FULL and MARK YOUNG (R327). -/
def State.colMark (s : State) (young : Bool) : State :=
  if s.phase != phIDLE || !s.colOn then s.cmdErr
  else
    let s := s.liveRegions.foldl (fun s r => s.setRegion0 r (setBits (s.region0 r) 63 45 (rTop (s.region0 r)))) s
    let s := s.setFld f_COL_PHASE_YOUNG 0 (b2n young)
    let s := (s.liveRegions.filter s.traced).foldl (fun s r => s.clearRegionMarks 513 (s.regionVa r) (2 ^ 18)) s
    let s := { s with col := { s.col with live := [] } }.clearEngines
    let s := (s.setPhase phMARKING).setBusy true
    let s := s.expAll.foldl (fun s i => match s.regionOf (s.expObj i) with
      | some r => s.pushJob (s.ownerOf r) (.root (s.expObj i))
      | none => s) s
    if young then s.takeCards else s

/-- Select the regions of the evacuation list (R329): entry j of COUNT. -/
def State.selectRegions (n j : Nat) (s : State) : State :=
  match n with
  | 0 => s
  | n + 1 =>
    let e := (s.rd (0x00040A8C0000 + j)).datum
    let r := bits e 15 0
    let d := s.region0 r
    let s := if bits e 63 17 ≠ 0 || !(rState d == gNURSERY || rState d == gOLD) || rSel d then s
      else
        let s := { s with col := { s.col with sel := (r, d) :: s.col.sel } }
        s.setRegion0 r (setBits d 9 8 (b2n (bit e 16) * 2 + 1))
    State.selectRegions n (j + 1) s

/-- EVACUATE (R329, R331): the list is read and applied with BUSY=1 and PHASE still MARKED; the flip follows as work of the
lowest enabled cluster's engine. -/
def State.colEvacuate (s : State) (count : Nat) : State :=
  if s.phase != phMARKED || !s.colOn then s.cmdErr
  else
    let s := (State.selectRegions count 0 s).setBusy true
    if (s.cluster s.firstCluster).engine.jobs.contains .flip then s else s.pushJob s.firstCluster .flip

/-- An EVACUATE before its flip is undone (R331): SEL and DOLD return to their values. -/
def State.unselect (s : State) : State :=
  let s := s.col.sel.foldl (fun s x => s.setRegion0 x.1 (setBits (s.region0 x.1) 9 8 (bits x.2 9 8))) s
  let s := { s with col := { s.col with sel := [] } }
  { s with clusters := s.clusters.map (fun k => { k with engine := { k.engine with jobs := k.engine.jobs.filter (fun j => j != .flip) } }) }

/-- FINISH (R330, R317): the evacuated regions become FREE and each adds four grants. -/
def State.colFinish (s : State) : State :=
  if s.phase != phFIXUP || s.colBusy || !s.colOn then s.cmdErr
  else
    let rs := (List.range 65536).filter (fun r => rState (s.region0 r) == gEVAC)
    let s := rs.foldl (fun s r => s.setRegion0 r (w64 (b2n (rEpoch (s.region0 r)) * 8))) s
    (s.setGrants (Nat.min (s.col.grants + 4 * rs.length) (2 ^ 32 - 1))).setPhase phIDLE

/-- IDLE (R326): leaves MARKED; an EVACUATE before its flip is dropped with it. -/
def State.colIdle (s : State) : State :=
  if s.phase != phMARKED || !s.colOn then s.cmdErr else (s.unselect.setBusy false).setPhase phIDLE

/-- ABORT (R331): 0 NONE, 1 ABORTED, 2 ALREADY_DONE. -/
def State.colAbort (s : State) : State :=
  let p := s.phase
  let res (s : State) (n : Nat) : State := s.setFld f_COL_STAT_ABRES 0 n
  if p == phIDLE then res s 0
  else if p == phMARKING then res ((s.clearEngines.setBusy false).setPhase phIDLE) 1
  else if p == phMARKED then if s.colBusy then res (s.unselect.setBusy false) 1 else res s 2
  else res s 2

/-- A write of COL.CMD (R326). -/
def State.colCommand (s : State) (v : W64) : State :=
  match bits v 3 0 with
  | 1 => s.colMark false
  | 2 => s.colMark true
  | 3 => s.colEvacuate (bits v 19 4)
  | 4 => s.colFinish
  | 5 => s.colIdle
  | 6 => s.colAbort
  | _ => s.cmdErr.setFld (Reg.rsvw .COL_CMD) 0 1

/-! ### The engines -/

/-- The pa ranges of a region. -/
def State.regionPas (fuel : Nat) (s : State) (va len : Nat) : List (Nat × Nat) :=
  match fuel with
  | 0 => []
  | fuel + 1 =>
    if len = 0 then []
    else
      match s.colXlate s.firstCluster va .read with
      | (_, .inl _) => []
      | (s, .inr (pa, sh)) =>
        let n := Nat.min len (2 ^ sh - va % 2 ^ sh)
        (pa, n) :: State.regionPas fuel s (va + n) (len - n)

/-- Doom every Scene that holds a line of the given pa ranges (R307): code 1, KIND 2. -/
def State.doomRegion (s : State) (pas : List (Nat × Nat)) : State :=
  let hit (l : Nat) : Bool := pas.any (fun x => lineOf x.1 ≤ l && l * 8 < x.1 + x.2)
  let d (line : Option Nat) : Doom := { code := 1, node := s.node, arg := 2 * 256 + s.firstCluster, line := line }
  let s := (List.range s.nCores).foldl (fun s c =>
    let k := s.core c
    match (k.wlines ++ k.scene.reads).find? hit with
    | some l => if k.psw.sc then s.abortScene c (d (some l)) false else s
    | none => s) s
  (s.tour.slots.filter (fun x => x.lines.any hit)).foldl (fun s x => s.slotLoses x 2) s

/-- The flip (R329): every selected region becomes EVACUATING with its EPOCH inverted, Scenes that hold its lines are doomed,
and copying begins. -/
def State.flip (s : State) : State :=
  let rs := s.col.sel.map (fun x => x.1)
  let s := rs.foldl (fun s r =>
    let d := s.region0 r
    let s := s.setRegion0 r (setBits (setBits d 3 3 (1 - bits d 3 3)) 2 0 gEVAC)
    (s.doomRegion (s.regionPas 513 (s.regionVa r) (2 ^ 18))).pushJob (s.ownerOf r) (.copy r 0)) s
  { s with col := { s.col with sel := [] } }.setPhase phEVAC

/-- An object found dead whose header has FIN=1 is queued for its finaliser (R31); the place of the queue and its reader are the
model's (log entry 82, DESIGN CHOICE). -/
def State.finalise (s : State) (va : Nat) (w : TWord) : State :=
  if ty w == tHDR && bit w.datum 45 && !(s.col.finals.contains va) then { s with col := { s.col with finals := s.col.finals ++ [va] } }
  else s

/-- Run one piece of work; what follows from it in the same region comes first among the engine's work. -/
def runJob (j : Job) : EM (List Job) :=
  match j with
  | .root va => do
    let w ← eRead va
    let b := if ty w == tFWD then adr w else va
    eMark b
    pure []
  | .card n => do
    let va ← eAsk (fun s => s.regionVa (n / 512) + n % 512 * 512)
    eMarkWords 512 va
    pure []
  | .trace va => do
    let w ← eRead va
    let r ← eAsk (fun s => (s.regionOf va).getD 0)
    modify (fun s => s.addLive r (sizeAt w))
    eMarkWords (if ty w == tHDR then hdrLen w + 1 else 2) va
    pure []
  | .copy r off => do
    let (top, base) ← eAsk (fun s => (rTop (s.region0 r), s.regionVa r))
    if top ≤ off then pure []
    else do
      let (w, n) ← eObject (base + off)
      let live ← eLive r (base + off)
      if ty w != tFWD && live then do
        let _ ← eForward (base + off)
        pure [.copy r (off + n)]
      else do
        if live then pure () else modify (fun s => s.finalise (base + off) w)
        pure [.copy r (off + n)]
  | .fix r off => do
    let (top, base, st) ← eAsk (fun s => (rTop (s.region0 r), s.regionVa r, rState (s.region0 r)))
    if top ≤ off || st == gFREE || st == gEVAC then pure []
    else do
      let (w, n) ← eObject (base + off)
      let live ← eLive r (base + off)
      if live then eFixWords r (if ty w == tHDR then hdrLen w + 1 else 2) (base + off)
      else modify (fun s => s.finalise (base + off) w)
      pure [.fix r (off + n)]
  | .fixExport i => do
    let (va, ok) ← eAsk (fun s => (s.expObj i, s.expValid i))
    let n ← (if ok then eObj va else pure va)
    modify (fun s => if n != va then s.setFld f_EXP_E0_OBJ i n else s)
    pure []
  | .fixProxy va => do
    let n ← eObj va
    modify (fun s => { s with col := { s.col with proxies := s.col.proxies.map (fun x => if x == va then n else x) } })
    pure []
  | .settle va => do
    let r ← eAsk (fun s => s.regionOf va)
    match r with
    | none => pure []
    | some r => do
      let tr ← eAsk (fun s => s.traced r)
      let live ← eLive r va
      if !tr || live then pure []
      else do
        let p ← eRead (va + 1)
        if ty p == tRREF && bits p.datum 35 18 ≠ 0 then eStop 16 va else pure ()
        let h ← eRead (va + 2)
        modify (fun s =>
          let s := { s with col := { s.col with proxies := s.col.proxies.filter (fun x => x != va) } }
          s.sendReliable { type := 8, dest := bits p.datum 63 50, src := s.node,
                           arg := bits p.datum 49 42 * 2 ^ 18 + bits p.datum 17 0, units := [fixW h.datum] } none)
        pure []
  | .flip => do
    modify State.flip
    pure []

/-- Word 1 of every traced region at termination (R313, R328). -/
def State.writeLive (s : State) : State :=
  (s.liveRegions.filter s.traced).foldl (fun s r =>
    let d := s.region0 r
    s.wr (regionPa r + 1) (fixN (smapGet 0 s.col.live r + (rTop d - rTams d)))) s

/-- The engine stops (R333): cause and va, and its Cue source. For a malformed RREF (R30) the spec gives no cause: STH.ERR.CAUSE is then
a free value (log entry 83, DESIGN CHOICE; the cause 16 stands for it). -/
def State.engineStop (s : State) (cl cause va : Nat) : State :=
  let (f, t) := s.fresh
  let (cause, s) := if cause < 16 then (cause, s) else (bits f 3 0, t)
  (((s.setFld f_STH_ERR_STOP cl 1).setFld f_STH_ERR_CAUSE cl cause).setFld f_STH_ERR_VA cl va).cueEvent (80 + cl)

/-- Take one entry of the SATB queue (R320, R328): it is marked as a root is. -/
def State.takeSatb (s : State) (cl : Nat) : State :=
  let n := s.col.satbCount - 1
  let w := s.rd (0x0004094C0000 + n)
  let work : EM Unit := do
    let b ← eBase w
    eMark b
  match work (engine cl) { s with col := { s.col with satbCount := n } } with
  | .ok _ t => t
  | .error (.stop cause va) _ => s.engineStop cl cause va
  | .error (.wait l) _ => s.askHost l true

/-- What an engine without work does in the running phase: rescan, the SATB queue, the end of the phase (R325-R330, R336). -/
def State.engineIdle (s : State) (cl : Nat) : State :=
  match (s.cluster cl).engine.rescan with
  | va :: rest => (s.modEngine cl (fun e => { e with rescan := rest })).pushJob cl (.trace va)
  | [] =>
    if s.phase == phMARKING then
      if 0 < s.col.satbCount then s.takeSatb cl
      else if !s.enginesIdle then s
      else
        let s := (List.range s.nCores).foldl (fun s c => if (s.core c).mem.satb.isEmpty then s else s.flushSatb c) s
        if 0 < s.col.satbCount then s
        else
          let s := (s.writeLive.setPhase phMARKED).setBusy false
          let s := s.setFld f_COL_PHASE_CYCLE 0 ((s.fld f_COL_PHASE_CYCLE 0 + 1) % 2 ^ 32)
          (s.col.proxies.foldl (fun s va => match s.regionOf va with
            | some r => s.pushJob (s.ownerOf r) (.settle va)
            | none => s) s).phaseDone
    else if s.phase == phEVAC && s.enginesIdle then
      let s := s.setPhase phFIXUP
      let s := (s.liveRegions.filter (fun r => rState (s.region0 r) != gEVAC)).foldl (fun s r => s.pushJob (s.ownerOf r) (.fix r 0)) s
      let s := s.expAll.foldl (fun s i => s.pushJob (s.ownerOf ((s.regionOf (s.expObj i)).getD 0)) (.fixExport i)) s
      (s.col.proxies.foldl (fun s va => s.pushJob (s.ownerOf ((s.regionOf va).getD 0)) (.fixProxy va)) s).phaseDone
    else if s.phase == phFIXUP && s.colBusy && s.enginesIdle then (s.setBusy false).phaseDone
    else s

/-- An engine may take a step: enabled, not stopped, and its chunk allows it (R333, R434, R450). -/
def State.engineRuns (s : State) (cl : Nat) : Bool :=
  s.colOn && !(s.clk.noSth.contains cl) && bit (s.reg .LOADIN_CLEN 0) cl && decide (cl < s.nClusters) && !(s.flag f_STH_ERR_STOP cl) && s.chunkFree (256 + cl) &&
    !(s.replayHeld (s.cluster cl).chunk)

/-- One step of an engine (R325): its next piece of work, or what it does without work. -/
def State.engineStep (s : State) (cl : Nat) : State :=
  let s := s.serveParked
  if !(s.engineRuns cl) then s
  else
    match (s.cluster cl).engine.jobs with
    | [] => (s.engineIdle cl).chunkEvent (256 + cl) false
    | j :: rest =>
      match runJob j (engine cl) (s.modEngine cl (fun e => { e with jobs := rest })) with
      | .ok l t => (t.modEngine cl (fun e => { e with jobs := l ++ e.jobs })).chunkEvent (256 + cl) false
      | .error (.wait l) _ => s.askHost l true
      | .error (.stop cause va) _ => s.engineStop cl cause va

/-- The Stagehand copies a large object for a waiting load barrier (R322), ahead of its other work. -/
def State.barrierCopy (s : State) (c : Nat) : State :=
  match (s.core c).wait with
  | some (.barrierCopy base) =>
    let cl := clusterOf c
    if s.flag f_STH_ERR_STOP cl then s
    else
      match eForward base (engine cl) s with
      | .ok _ t => t.modCore c (fun k => { k with wait := none })
      | .error (.wait l) _ => s.askHost l true
      | .error (.stop cause va) _ => s.engineStop cl cause va
  | _ => s

/-! ### Commands of the table -/

/-- COL_HEAPBASE_WRITE (R310). -/
def execColHeapbaseWrite (v : BitVec 64) (s : State) : Ans := .next (s.colHeapbase v)

/-- COL_RSET (R315). -/
def execColRset (v : BitVec 64) (s : State) : Ans := .next (s.colRset v)

/-- COL_ROOTQ (R327). -/
def execColRootq (va : BitVec 48) (s : State) : Ans := .next (s.colRootq va.toNat)

/-- MARK_FULL (R327). -/
def execMarkFull (s : State) : Ans := .next (s.colMark false)

/-- MARK_YOUNG (R327). -/
def execMarkYoung (s : State) : Ans := .next (s.colMark true)

/-- EVACUATE (R329). -/
def execEvacuate (count : BitVec 16) (s : State) : Ans := .next (s.colEvacuate count.toNat)

/-- FINISH (R330). -/
def execFinish (s : State) : Ans := .next s.colFinish

/-- COL_IDLE (R326). -/
def execColIdle (s : State) : Ans := .next s.colIdle

/-- COL_ABORT (R331). -/
def execColAbort (s : State) : Ans := .next s.colAbort

/-- STAGEHAND_STEP (R325). -/
def execStagehandStep (cl : Fin 32) (s : State) : Ans := .next (s.engineStep cl)

/-- STH_ERR_RESUME (R333). -/
def State.engineResume (s : State) (cl : Nat) : State := s.setFld f_STH_ERR_STOP cl 0
def execSthErrResume (cl : Fin 32) (s : State) : Ans := .next (if s.nClusters ≤ cl.val then s else s.engineResume cl)

/-- BARRIER_COPY_DONE (R322). -/
def execBarrierCopyDone (c : Fin 256) (s : State) : Ans := .next (s.barrierCopy c)

/-- PACING_GRANT (R317): the first pacing core in order of arrival takes a grant and its refill proceeds, when the FREE regions
allow it. -/
def State.pacingGrant (s : State) (c : Nat) : State :=
  match (s.core c).wait with
  | some (.pacing _) =>
    if s.firstPacing == some c && (s.refillFree || s.mayGrant c) then
      match s.refill c (!s.refillFree) with
      | some t =>
        let k := t.core c
        let t := t.note c { q0 := recQ0 2 c 1 false 4 0, q1 := k.sr.ab.toNat, units := [k.sr.al.toNat, 0] }
        t.modCore c (fun k => { k with wait := none })
      | none => s
    else s
  | _ => s
def execPacingGrant (c : Fin 256) (s : State) : Ans := .next (s.pacingGrant c)

/-- PACELIM_EXPIRY (R317): allocation failure at a step boundary once a core has paced for COL.PACELIM. -/
def execPacelimExpiry (c : Fin 256) (s : State) : Ans :=
  .next (match (s.core c).wait with
    | some (.pacing since) =>
      if (s.reg .COL_PACELIM 0).toNat ≤ s.time - since then
        let s := s.bump .COL_PACEFAIL 0 1
        let s := { s with col := { s.col with pacing := s.col.pacing.filter (fun x => x != c.val) } }
        s.failWait c { vec := 16, sub := 0 }
      else s
    | _ => s)

end Sys2Proof.Machine
end

