-- ==== Sys2Proof/Machine/Fabric.lean ====
section
/-! DEFINITION. The tour fabric's arrivals and its remote agent (R303-R306, R364-R381), and the commit of a Scene (R300, R305). -/

namespace Sys2Proof.Machine

open Sys2Proof

/-! ### Commit -/

/-- The commit point of a Scene (R300-R302): its lines become ordinary lines in M with the new values in one step, marks and
PSW.SC, SS and the depth are cleared, and SCENESTAT and the counters are written. -/
def State.commitScene (s : State) (c : Nat) : State :=
  let k := s.core c
  let dist := !k.scene.nodes.isEmpty
  let st := SceneStat.pack { dist := dist, short := k.psw.ss }
  let s := k.scene.wbuf.reverse.foldl (fun s x =>
    let s := (s.lineOwn c (lineOf x.1) true none).1
    (s.noteChunk c (lineOf x.1) true).storeWord x.1 x.2 true) s
  let s := s.modCore c (fun k => { k with
    psw := { k.psw with sc := false, ss := false, depth := 0 }
    scene := { k.scene with ck := none, stat := st, av := false, reads := [], wbuf := [], count := 0, nodes := [],
                            phase := 0, yes := [] } })
  let s := s.bump .CORE_SCCOMMIT c 1
  let s := if dist then s.bump .CORE_SCDIST c 1 else s
  s.noteScene c st

/-- A tag for the next request. -/
def State.newTag (s : State) : Nat × State :=
  (s.tour.nextTag, { s with tour := { s.tour with nextTag := (s.tour.nextTag + 1) % 2 ^ 32 } })

/-- Step 1 of R305: PREPARE goes to every participant and the origin's own lines are held. -/
def State.prepare (s : State) (c : Nat) : State :=
  let k := s.core c
  let id := s.sceneId c
  let (t, s) := s.newTag
  let s := s.logOutcome id 0
  let s := s.modCore c (fun k => { k with scene := { k.scene with phase := 1, yes := [], prepAt := s.time, prepTag := t } })
  k.scene.nodes.foldl (fun s n =>
    s.sendMsg { type := 0x10, dest := n, src := s.node, dist := true, tag := t, units := [fixW id] }) s

/-- Issue classes of the syllables that other agents complete. -/
def curtainSig : Sig := { syl := 0xD001, wlc := true, micro := true }
def rfetchSig : Sig := { syl := 0xD010, rd := 2, takes := 2, leaves := 1, noRep := true, micro := true }
def rstoreSig : Sig := { syl := 0xD011, rd := 3, takes := 3, noRep := true, micro := true }

/-- The commit point of a distributed Scene (R305 steps 4 and 5): local lines commit, COMMIT goes to every participant, and
CURTAIN retires. -/
def State.commitDist (s : State) (c : Nat) : State :=
  let nodes := (s.core c).scene.nodes
  let id := s.sceneId c
  let s := (s.commitScene c).logOutcome id 1
  let s := nodes.foldl (fun s n => s.sendReliable { type := 0x12, dest := n, src := s.node, units := [fixW id] } none) s
  s.wakeLines.complete c curtainSig {}

/-! ### Records -/

/-- Bytes of a 64-bit datum, least significant first. -/
def datumBytes (d : Nat) : List Nat := (List.range 8).map (fun i => d / 2 ^ (8 * i) % 256)

/-- The 10 bytes of a unit (R20, R363). -/
def unitBytes (w : TWord) : List Nat := datumBytes w.datum.toNat ++ [w.tag.toNat, (Config.checkByte w).toNat]

/-- 64-bit words from bytes. -/
def packBytes (fuel : Nat) (l : List Nat) : List Nat :=
  match fuel with
  | 0 => []
  | fuel + 1 => if l.isEmpty then []
    else (((l.take 8).zipIdx.map (fun x => x.1 * 2 ^ (8 * x.2))).sum) :: packBytes fuel (l.drop 8)

/-- The payload of a MSG record (R440): the header and the units as received. -/
def Msg.recUnits (m : Msg) : List Nat := m.h0 :: m.h1 :: packBytes 32 (m.units.flatMap unitBytes)

/-- A MSG record; an external one stands in the sequence. -/
def Msg.record (m : Msg) (agent time : Nat) (ext : Option Nat) : Recd :=
  { q0 := recQ0 4 agent ((m.recUnits.length + 1) / 2) ext.isSome 0 (ext.getD 0), q1 := time % 2 ^ 64, units := m.recUnits }

/-- An arrival that writes memory takes its place in the sequence (R437, R438); none where it must wait. -/
def State.externalMsg (s : State) (m : Msg) : Option State := s.external (fun seq => m.record 0 s.time (some seq))

/-! ### The inbound ring -/

/-- Type codes of the entries that hardware itself writes into the ring: the spec names them UNDELIV and ORPHAN and gives no
number; each is a free value (log entry 35). Inside the model they are messages of these types. -/
def tyUNDELIV : Nat := 0x100
def tyORPHAN : Nat := 0x101

/-- Entries of the ring and whether it is full (R377). -/
def State.ringEntries (s : State) : Nat := 2 ^ (s.fld f_TOUR_INQB_SIZE 0 + 6)
def State.ringFull (s : State) : Bool :=
  decide (s.ringEntries ≤ (s.fld f_TOUR_INQT_INDEX 0 + 2 ^ 32 - s.fld f_TOUR_INQH_INDEX 0) % 2 ^ 32)

/-- Write consecutive words of a ring entry as an agent outside any Scene; none where a line is held. -/
def State.ringWrite (s : State) (node pa : Nat) : List TWord → Option State
  | [] => some s
  | w :: l =>
    match s.arbitrate (.tour node) (lineOf pa) true with
    | .go s => State.ringWrite (s.agentWrite 512 pa w) node (pa + 1) l
    | _ => none

/-- Replace the RREFs that name local exports (R377). -/
def State.localWords (s : State) : List TWord → List TWord × State
  | [] => ([], s)
  | w :: l =>
    let (x, s) := s.localWord w
    let (r, s) := State.localWords s l
    (x :: r, s)

/-- Write a ring entry (R377, R378); none where the ring is full or a line of it is held. -/
def State.ringPut (s : State) (port : Option Nat) (m : Msg) : Option State :=
  if s.ringFull then none
  else
    let t := s.fld f_TOUR_INQT_INDEX 0
    let pa := s.fld f_TOUR_INQB_BASE 0 + t % s.ringEntries * 16
    let (f, s1) := s.fresh
    let own := m.type == tyUNDELIV || m.type == tyORPHAN
    let ty8 := if own then bits f 7 0 else m.type
    let s := if own then s1 else s
    let (ws, s) := s.localWords m.units
    let sel := if m.type == 6 then m.arg % 2 ^ 16 else 0
    let w0 := fixN (ty8 % 256 * 2 ^ 56 + m.src % 2 ^ 14 * 2 ^ 36 + m.units.length % 32 * 2 ^ 31 + sel)
    match s.ringWrite m.src pa (w0 :: ws.take 15) with
    | none => none
    | some s =>
      let s := s.setFld f_TOUR_INQT_INDEX 0 ((t + 1) % 2 ^ 32)
      let s := if m.type == 0x20 then s.cueEvent 116 else s
      some (match port with
        | some p => if s.flag f_TOUR_PCTL_ARRIE p then s.cueEvent (64 + p) else s
        | none => s)

/-- Put an entry into the ring, or hold the arrival (R377). -/
def State.ringArrive (s : State) (port : Option Nat) (m : Msg) : State :=
  let put : Option State := if s.ringFull then none else (match s.externalMsg m with
    | none => none
    | some s => s.ringPut port m)
  match put with
  | some s => s
  | none => { s with tour := { s.tour with held := s.tour.held ++ [(port, m)] } }.bump .TOUR_INQHOLD 0 1

/-! ### Responses and futures -/

/-- The base of an object through the collector context, as the remote agent finds it; the state where it works. -/
def State.tourRun {α : Type} (s : State) (a : Agent) (x : EM α) : EStateM.Result Halt State α := x (s.remote a) s

/-- Complete a FUTURE (R373): the value at +1 on success, +2, then the weight. None where a line is held. -/
def State.completeFuture (s : State) (node entry : Nat) (v : Option TWord) (sub weight : Nat) : Option State :=
  if !(s.expValid entry) then some s
  else
    let work : EM Unit := do
      let b ← eObj (s.expObj entry)
      (match v with
        | some w => eWrite (b + 1) w
        | none => pure ())
      eWrite (b + 2) (fixN sub)
    match s.tourRun (.tour node) work with
    | .error (.wait _) _ => none
    | .error (.stop _ _) t => some ((t.weightBack entry (t.expGen entry) weight).getD t)
    | .ok _ t => some ((t.weightBack entry (t.expGen entry) weight).getD t)

/-- The request is no longer outstanding. -/
def State.dropReq (s : State) (tag : Nat) : State :=
  { s with tour := { s.tour with reqs := s.tour.reqs.filter (fun r => r.tag != tag) } }

/-- A request fails (R298, R373, R375) with a subcode, a node being named. -/
def State.failReq (s : State) (r : OutReq) (sub node : Nat) : Option State :=
  match r.kind with
  | .future e => (s.completeFuture node e none sub 1).map (fun s => s.dropReq r.tag)
  | _ =>
    let s := s.dropReq r.tag
    let w := (s.core r.core).wait
    if w != some (.rfetch r.tag) && w != some (.rstore r.tag) then some s
    else if r.dist then
      some (s.abortScene r.core { code := 9, detail := if sub = 8 then 3 else 0, node := node } false)
    else some (s.failWait r.core { vec := 21, sub := sub, addr := r.addr, xinfo := node })

/-- A response has arrived (R369, R370, R373): the core resumes, or a FUTURE completes; one that nobody waits for is
discarded. -/
def State.response (s : State) (m : Msg) : Option State :=
  match s.tour.reqs.find? (fun r => r.tag == m.tag) with
  | none => some s
  | some r =>
    let st := m.arg % 256
    let v := m.units.head?
    let bad := if st ≠ 0 then st else if m.type == 2 && v.isNone then 5 else 0
    match r.kind with
    | .future e =>
      match s.externalMsg m with
      | none => none
      | some s =>
        if bad ≠ 0 then s.failReq r bad m.src
        else (s.completeFuture m.src e v 0 1).map (fun s => s.dropReq r.tag)
    | _ =>
      let w := (s.core r.core).wait
      if w != some (.rfetch r.tag) && w != some (.rstore r.tag) then some (s.dropReq r.tag)
      else
        let s := s.note r.core (m.record r.core s.time none)
        if bad ≠ 0 then s.failReq r bad m.src
        else
          let s := s.dropReq r.tag
          match r.kind with
          | .fetch => some (s.complete r.core rfetchSig { push := v.toList })
          | _ => some (s.complete r.core rstoreSig {})

/-! ### The remote agent -/

/-- Answer a request. -/
def State.answer (s : State) (m : Msg) (status : Nat) (units : List TWord) : State :=
  let r : Msg := { type := m.type + 1, dest := m.src, src := s.node, dist := m.dist, tag := m.tag, arg := status, units := units }
  if r.dest == s.node then s.toSelf r else s.forward none r

/-- The slot that serves a distributed request (R304): the Scene's own, or a free one; none where all 64 are in use. -/
def State.slotFor (s : State) (id : W64) : Option (Nat × State) :=
  match s.slotOf id with
  | some x => some (x.slot, s)
  | none =>
    match (List.range 64).find? (fun i => (s.slotNo i).isNone) with
    | some i => some (i, s.putSlot { slot := i, id := id })
    | none => none

/-- Read or write one word of an exported object (R374): the status and the word read. -/
def remoteAccess (obj idx : Nat) (val : Option TWord) : EM (Nat × List TWord) := do
  let b ← eObj obj
  let h ← eRead b
  let at' := if ty h == tHDR then b + 1 + idx else b + idx
  let ok := if ty h == tHDR then decide (idx < hdrLen h) else decide (idx < 2)
  if !ok then pure (2, [])
  else
    match val with
    | some v => do
      eWrite at' v
      pure (0, [])
    | none => do
      let w ← eRead at'
      let w ← eHeal w
      let r ← eSend w
      match r with
      | .inl st => pure (st, [])
      | .inr x => pure (0, [x])

/-- Serve RDREQ and WRREQ (R374); none where the access must wait. A request that names an indirect entry goes on through
its proxy (R335); one of a Scene is refused there (log entry 36, DESIGN CHOICE). -/
def State.serve (s : State) (m : Msg) : Option State :=
  let r := m.units.getD 0 wEMPTY
  let i := bits r.datum 17 0
  let wr := m.type == 3
  if ty r != tRREF || !(s.expValid i) || s.expGen i != bits r.datum 49 42 then some (s.answer m 1 [])
  else if s.flag f_EXP_E0_IND i then
    if m.dist then some (s.answer m 8 [])
    else
      match s.tourRun (.tour m.src) (do let b ← eObj (s.expObj i); eRead (b + 1)) with
      | .error (.wait _) _ => none
      | .error (.stop _ _) t => some (t.answer m 5 [])
      | .ok p t =>
        let m' : Msg := { m with dest := bits p.datum 63 50, ttl := 63, units := p :: m.units.drop 1 }
        some (if m'.dest == t.node then t.toSelf m' else t.forward none m')
  else
    let slot : Option (Option (Nat × State)) := if m.dist then some (s.slotFor (m.units.getLast?.getD wEMPTY).datum) else none
    match slot with
    | some none => some (s.answer m 8 [])
    | sl =>
      let (agent, s0) := match sl with
        | some (some (n, s)) => (Agent.slot n, s)
        | _ => (Agent.tour m.src, s)
      let logged : Option State := if wr && !m.dist then s0.externalMsg m else some s0
      match logged with
      | none => none
      | some s1 =>
        match s1.tourRun agent (remoteAccess (s1.expObj i) m.arg (if wr then some (m.units.getD 1 wEMPTY) else none)) with
        | .error (.wait _) _ => none
        | .error (.stop 8 _) _ => some (s.answer m 8 [])
        | .error (.stop 9 _) t => some t
        | .error (.stop _ _) t => some (t.answer m 5 [])
        | .ok (st, us) t => some (t.answer m st us)

/-! ### Distributed Scenes at the participant -/

/-- Apply a slot's buffered writes and release its lines (R305 step 5). -/
def State.applySlot (s : State) (x : Slot) : State :=
  let s := s.freeSlot x
  x.writes.reverse.foldl (fun s w => s.agentWrite 512 w.1 w.2) s

/-- The abort of a Scene whose votes are late (R286, R305): NODE is the first participant that has not voted (log entry 96, DESIGN CHOICE:
where several have not, the spec names none). -/
def Scene.late (x : Scene) : Doom := { code := 9, detail := 1, node := (x.nodes.find? (fun n => !(x.yes.contains n))).getD 0 }

/-- A VOTE reaches the coordinator (R305 steps 4 and 6); one for a Scene that is no longer preparing is discarded. -/
def State.vote (s : State) (m : Msg) : State :=
  match s.lowest (fun c => (s.core c).scene.phase == 1 && (s.core c).scene.prepTag == m.tag) with
  | none => s
  | some c =>
    let sc := (s.core c).scene
    if !(sc.nodes.contains m.src) then s
    else if m.arg % 256 ≠ 0 then s.abortScene c { code := 9, node := m.src } false
    else if !(m.arg.testBit 8) then s.abortScene c { code := 1, node := m.src } false
    else if 50000 < s.time - sc.prepAt then s.abortScene c (sc.late) false
    else
      let yes := if sc.yes.contains m.src then sc.yes else m.src :: sc.yes
      let s := s.modCore c (fun k => { k with scene := { k.scene with yes := yes } })
      if yes.length = sc.nodes.length then s.commitDist c else s

/-- An abort notice dooms the origin Scene before its commit point (R304-R306). -/
def State.notice (s : State) (m : Msg) : State :=
  let id := (m.units.getD 0 wEMPTY).datum
  let c := idCore id
  if (s.core c).psw.sc && s.sceneId c == id && idNode id == s.node then
    s.abortScene c { code := 1, node := m.src, arg := (m.units.getD 1 wEMPTY).datum.toNat % 256 * 256 } false
  else s

/-- An outcome reply reaches a participant (R379). -/
def State.outcome (s : State) (m : Msg) : State :=
  match s.tour.slots.find? (fun x => x.voted && x.askTag == m.tag) with
  | none => s
  | some x =>
    match m.arg with
    | 1 => s.applySlot x
    | 2 => s.freeSlot x
    | 3 =>
      if x.orphan then s
      else (s.putSlot { x with orphan := true }).ringArrive none { type := tyORPHAN, dest := s.node, src := idNode x.id, units := [fixW x.id] }
    | _ => s

/-- Deliver a message at its destination (R364); none where it must wait. -/
def State.deliver (s : State) (port : Option Nat) (m : Msg) : Option State :=
  let id := (m.units.getD 0 wEMPTY).datum
  match m.type with
  | 1 => s.serve m
  | 2 => s.response m
  | 3 => s.serve m
  | 4 => s.response m
  | 5 =>
    let r := m.units.getD 0 wEMPTY
    let i := bits r.datum 17 0
    some (if ty r == tRREF && s.expValid i && s.expGen i == bits r.datum 49 42 then s.ringArrive port m else s)
  | 6 =>
    let r := m.units.getD 0 wEMPTY
    let i := bits r.datum 17 0
    some (if ty r == tRREF && s.expValid i && s.expGen i == bits r.datum 49 42 then s.ringArrive port m else s)
  | 7 =>
    let r := m.units.getD 0 wEMPTY
    let i := bits r.datum 17 0
    if ty r == tRREF && s.expValid i && s.expGen i == bits r.datum 49 42 then
      (match s.externalMsg m with
        | none => none
        | some s => s.completeFuture m.src i m.units[2]? 0 (m.units.getD 1 wEMPTY).datum.toNat)
    else some (s.bump .COL_WRETBAD 0 1)
  | 8 =>
    some ((s.weightBack (m.arg % 2 ^ 18) (m.arg / 2 ^ 18 % 256) (m.units.getD 0 wEMPTY).datum.toNat).getD (s.bump .COL_WRETBAD 0 1))
  | 9 => some (match s.tour.peers.find? (fun p => p.node == m.src) with
    | some p => (s.putPeer { p with flights := p.flights.dropWhile (fun f =>
        (m.arg + 2 ^ 32 - f.msg.tag) % 2 ^ 32 < 2 ^ 31) }).retryWaiting
    | none => s)
  | 0x10 =>
    let (yes, s) := match s.slotOf id with
      | some x => (true, s.putSlot { x with voted := true, asked := s.time, votedAt := s.time })
      | none => (false, s)
    some (s.sendMsg { type := 0x11, dest := m.src, src := s.node, dist := true, tag := m.tag, arg := if yes then 256 else 0 })
  | 0x11 => some (s.vote m)
  | 0x12 => (match s.slotOf id with
    | some x => (s.externalMsg m).map (fun s => s.applySlot x)
    | none => some s)
  | 0x13 => some (match s.slotOf id with
    | some x => s.freeSlot x
    | none => s)
  | 0x14 => some (s.notice m)
  | 0x15 =>
    let res := match s.tour.outcomes.find? (fun x => x.1 == id) with
      | some x => x.2
      | none => 3
    some (s.sendMsg { type := 0x16, dest := m.src, src := s.node, tag := m.tag, arg := res })
  | 0x16 => some (s.outcome m)
  | 0x20 => some (s.ringArrive port m)
  | _ => some (s.bump .TOUR_UNDELIV 0 1)

/-- Acknowledge a reliable message (R376). -/
def State.eack (s : State) (node seq : Nat) : State := s.sendMsg { type := 9, dest := node, src := s.node, arg := seq }

/-- A reliable message arrives (R376): only the next sequence is delivered and acknowledged, a duplicate is acknowledged
again, one out of order is discarded. A peer without state is taken at the sequence that arrives (log entry 37, DESIGN CHOICE). An arrival
that a full ring holds is delivered, and acknowledged, when the ring has room (R377). -/
def State.arriveReliable (s : State) (port : Option Nat) (m : Msg) : Option State :=
  match s.peerFor m.src with
  | none => none
  | some (p, s) =>
    let want := p.nextRx.getD m.tag
    if m.tag != want then
      some (if (want + 2 ^ 32 - m.tag) % 2 ^ 32 < 2 ^ 31 then (s.putPeer p).eack m.src m.tag else s.putPeer p)
    else
      let vc3 := m.type == 5 || m.type == 6 || m.type == 0x20
      if vc3 && s.ringFull then none
      else
        match s.deliver port m with
        | none => none
        | some s =>
          let q := (s.tour.peers.find? (fun x => x.node == m.src)).getD p
          some ((s.putPeer { q with nextRx := some ((m.tag + 1) % 2 ^ 32) }).eack m.src m.tag)

/-- A message reaches this node (R364, R376, R451). What must wait is kept, a VC 3 arrival at a full ring counted. -/
def State.arrive (s : State) (port : Option Nat) (m : Msg) : State :=
  if s.mode mREPLAY then
    let s := s.bump .REH_LIVEDROP 0 1
    if m.type == 1 || m.type == 3 then s.answer m 8 [] else s
  else
    match (if reliable m.type && port.isSome then s.arriveReliable port m else s.deliver port m) with
    | some s => s
    | none =>
      let s := { s with tour := { s.tour with held := s.tour.held ++ [(port, m)] } }
      if msgVc m.type == 3 && s.ringFull then s.bump .TOUR_INQHOLD 0 1 else s

/-- Deliver what waits for this node, in order (R369), until nothing more can be delivered. -/
def State.settleN (fuel : Nat) (s : State) : State :=
  match fuel with
  | 0 => s
  | fuel + 1 =>
    match s.tour.loop with
    | [] => s
    | m :: rest => State.settleN fuel (({ s with tour := { s.tour with loop := rest } } : State).arrive none m)

/-- Deliver messages addressed to this node by itself. -/
def State.settle (s : State) : State := s.settleN 64

/-- Try held arrivals again, in order (R377). -/
def State.retryHeld (s : State) : State :=
  let l := s.tour.held
  (l.foldl (fun (s : State) x =>
    if x.1.isNone || x.2.dest == s.node then s.arrive x.1 x.2 else s.forward x.1 x.2)
    { s with tour := { s.tour with held := [] } }).settle

/-- A message arrives on a port (R361, R366, R367): it is delivered, or forwarded. A device without a node ID carries none
(R359). In Dark it waits, and a MGMT message for the device wakes it (R468). A message that does not wait returns its credits
(R368). -/
def State.portArrive (s : State) (p : Nat) (m : Msg) : State :=
  if !(s.portUp p) || s.node == 0x3FFF then s
  else
    let s := s.serveParked
    let n := s.flitsOf p m
    let s := s.modPort p (fun q => { q with good := (q.good + n) % 4096, tagFails := 0 })
    let s := if m.type == 0x20 && m.dest == s.node then s.wakeEvent 3 else s
    if s.status == 5 then { s with tour := { s.tour with held := s.tour.held ++ [(some p, m)] } }
    else
      let had := s.tour.held.length
      let s := if m.dest == s.node then (s.arrive (some p) m).settle else s.forward (some p) m
      if had < s.tour.held.length then s else { s with wire := .credit p m.lane n (s.port p).good :: s.wire }

/-! ### Timers -/

/-- A request has no response within TOUR.RTMO (R375). -/
def State.requestTimeout (s : State) (tag : Nat) : State :=
  match s.tour.reqs.find? (fun r => r.tag == tag) with
  | none => s
  | some r =>
    if (s.reg .TOUR_RTMO 0).toNat ≤ s.time - r.since then (s.failReq r 9 r.node).getD s else s

/-- A reliable message is abandoned (R376): counted, an UNDELIV entry in the own ring, and for INVOKE, SEND and RESULT an event
on the issuing core. -/
def State.undeliv (s : State) (f : Flight) : State :=
  let s := s.bump .TOUR_UNDELIV 0 1
  let s := match f.core with
    | some (c, w) => if 5 ≤ f.msg.type && f.msg.type ≤ 7 then
        s.modCore c (fun k => { k with ev := { k.ev with remote := k.ev.remote ++ [(w, f.msg.dest)] } }) else s
    | none => s
  s.ringArrive none { type := tyUNDELIV, dest := s.node, src := f.msg.dest }

/-- No acknowledgement for 100 µs (R376): go-back-N, or after 16 retransmissions the oldest message is abandoned. -/
def State.retransmit (s : State) (node : Nat) : State :=
  match s.tour.peers.find? (fun p => p.node == node) with
  | none => s
  | some p =>
    match p.flights with
    | [] => s
    | f :: rest =>
      if s.time - f.sent < 100000 || s.mode mREPLAY then s
      else if 16 ≤ f.tries then
        (s.putPeer { p with flights := rest.map (fun g => { g with sent := s.time }) }).undeliv f
      else
        let l := p.flights.map (fun (g : Flight) => { g with sent := s.time, tries := g.tries + 1 })
        l.foldl (fun (s : State) g => s.forward none g.msg) (s.putPeer { p with flights := l })

/-! ### Commands of the table: messages -/

/-- A message of a given type arrives on a port. -/
def execArrival (type : Nat) (p : Fin 12) (h0 h1 : BitVec 64) (units : List TWord) (s : State) : Ans :=
  .next (s.portArrive p { Msg.ofWords h0 h1 (units.take 16) with type := type })

def execRdreq (p : Fin 12) (h0 h1 : BitVec 64) (units : List TWord) (s : State) : Ans := execArrival 1 p h0 h1 units s
def execRdrsp (p : Fin 12) (h0 h1 : BitVec 64) (units : List TWord) (s : State) : Ans := execArrival 2 p h0 h1 units s
def execWrreq (p : Fin 12) (h0 h1 : BitVec 64) (units : List TWord) (s : State) : Ans := execArrival 3 p h0 h1 units s
def execWrrsp (p : Fin 12) (h0 h1 : BitVec 64) (units : List TWord) (s : State) : Ans := execArrival 4 p h0 h1 units s
def execInvoke (p : Fin 12) (h0 h1 : BitVec 64) (units : List TWord) (s : State) : Ans := execArrival 5 p h0 h1 units s
def execSend (p : Fin 12) (h0 h1 : BitVec 64) (units : List TWord) (s : State) : Ans := execArrival 6 p h0 h1 units s
def execResult (p : Fin 12) (h0 h1 : BitVec 64) (units : List TWord) (s : State) : Ans := execArrival 7 p h0 h1 units s
def execWret (p : Fin 12) (h0 h1 : BitVec 64) (units : List TWord) (s : State) : Ans := execArrival 8 p h0 h1 units s
def execEack (p : Fin 12) (h0 h1 : BitVec 64) (units : List TWord) (s : State) : Ans := execArrival 9 p h0 h1 units s
def execPrepare (p : Fin 12) (h0 h1 : BitVec 64) (units : List TWord) (s : State) : Ans := execArrival 0x10 p h0 h1 units s
def execVote (p : Fin 12) (h0 h1 : BitVec 64) (units : List TWord) (s : State) : Ans := execArrival 0x11 p h0 h1 units s
def execCommit (p : Fin 12) (h0 h1 : BitVec 64) (units : List TWord) (s : State) : Ans := execArrival 0x12 p h0 h1 units s
def execAbort (p : Fin 12) (h0 h1 : BitVec 64) (units : List TWord) (s : State) : Ans := execArrival 0x13 p h0 h1 units s
def execNotice (p : Fin 12) (h0 h1 : BitVec 64) (units : List TWord) (s : State) : Ans := execArrival 0x14 p h0 h1 units s
def execOquery (p : Fin 12) (h0 h1 : BitVec 64) (units : List TWord) (s : State) : Ans := execArrival 0x15 p h0 h1 units s
def execOreply (p : Fin 12) (h0 h1 : BitVec 64) (units : List TWord) (s : State) : Ans := execArrival 0x16 p h0 h1 units s

/-- TYPE values that R364 names. -/
def knownType (t : Nat) : Bool := (1 ≤ t && t ≤ 9) || (0x10 ≤ t && t ≤ 0x16) || t == 0x20

/-- TOUR_RESERVED_MESSAGE (R364): a message whose TYPE no row of R364 names. -/
def execTourReservedMessage (p : Fin 12) (h0 h1 : BitVec 64) (units : List TWord) (s : State) : Ans :=
  let m := Msg.ofWords h0 h1 (units.take 16)
  .next (if knownType m.type then s else s.portArrive p m)

/-- PREPARE_TIMEOUT (R305). -/
def execPrepareTimeout (c : Fin 256) (s : State) : Ans :=
  .next (if (s.core c).scene.phase == 1 && decide (50000 ≤ s.time - (s.core c).scene.prepAt) then
    s.abortScene c (s.core c).scene.late false else s)

/-- OQUERY_TIMER (R379). -/
def execOqueryTimer (slot : Fin 64) (s : State) : Ans :=
  .next (match s.slotNo slot with
    | some x =>
      if x.voted && !x.orphan && decide (200000 ≤ s.time - x.asked) then
        let (t, s) := s.newTag
        ((s.putSlot { x with asked := s.time, askTag := t }).sendMsg
          { type := 0x15, dest := idNode x.id, src := s.node, tag := t, units := [fixW x.id] }).settle
      else s
    | none => s)

/-- ORIGIN_UNREACHABLE (R379). -/
def execOriginUnreachable (slot : Fin 64) (s : State) : Ans :=
  .next (match s.slotNo slot with
    | some x =>
      if x.voted && !x.orphan && decide (10000000 ≤ s.time - x.votedAt) then
        (s.putSlot { x with orphan := true }).ringArrive none
          { type := tyORPHAN, dest := s.node, src := idNode x.id, units := [fixW x.id] }
      else s
    | none => s)

/-- RETRANSMIT_TIMEOUT (R376). -/
def execRetransmitTimeout (node : BitVec 14) (s : State) : Ans := .next (s.retransmit node.toNat)

/-- REQUEST_TIMEOUT (R375). -/
def execRequestTimeout (tag : BitVec 32) (s : State) : Ans := .next (s.requestTimeout tag.toNat)

/-- TOUR_SCRES (R379): software decides an orphaned slot. -/
def State.scres (s : State) (v : W64) : State :=
  match s.slotNo (bits v 5 0) with
  | some x => if x.orphan then (if bit v 7 then s.applySlot x else s.freeSlot x) else s
  | none => s
def execTourScres (v : BitVec 64) (s : State) : Ans := .next (s.scres v)

/-- TOUR_INQH_WRITE (R377): freed entries take the held arrivals. -/
def State.inqhWrite (s : State) (v : W64) : State := (s.setFld f_TOUR_INQH_INDEX 0 (bits v 31 0)).retryHeld
def execTourInqhWrite (v : BitVec 64) (s : State) : Ans := .next (s.inqhWrite v)

end Sys2Proof.Machine
end

