-- ==== Sys2Proof/Machine/Ports.lean ====
section
/-! DEFINITION. The tour ports: bringing a link up (R356-R359), link-level retry (R360-R362), failures (R378), and time alignment
over the fabric (R380). -/

namespace Sys2Proof.Machine

open Sys2Proof

/-- STATE of a port (R358). -/
def State.portState (s : State) (p : Nat) : Nat := s.fld f_TOUR_PSTAT_STATE p

/-- A port enters a state. -/
def State.portEnter (s : State) (p st : Nat) : State :=
  (s.setFld f_TOUR_PSTAT_STATE p st).modPort p (fun q => { q with since := s.time })

/-- A port leaves DOWN for DETECT; a power-gated one does not. -/
def State.portDetect (s : State) (p : Nat) : State :=
  if s.clk.noPort.contains p then s else (s.portEnter p 1).setFld f_TOUR_PSTAT_W2 p 0

/-- Requests whose route has failed complete with LINKDOWN (R378). -/
def State.failRoutes (s : State) : State :=
  s.tour.reqs.foldl (fun (s : State) r =>
    if r.node != s.node && (s.route r.node).isNone then (s.failReq r 7 r.node).getD s else s) s

/-- A port goes DOWN (R358, R378, R532): CAUSE is recorded, keys and the replay buffer go, messages not yet sent are routed again,
and on leaving UP the exit is counted and Cue source 64 + p raised. It leaves DOWN at once when it is enabled. -/
def State.portDown (s : State) (p : Nat) (cause : Option Nat) : State :=
  let was := s.portUp p
  let waiting := (s.port p).queue
  let s := s.portEnter p 0
  let s := match cause with
    | some n => s.setFld f_TOUR_PSTAT_CAUSE p n
    | none => s
  let s := s.setFld f_TOUR_PSTAT_SEALED p 0
  let s := s.modPort p (fun _ => { since := s.time })
  let s := if was then (s.bump .TOUR_DOWNS p 1).cueEvent (64 + p) else s
  let s := waiting.foldl (fun (s : State) m => s.forward none m) s
  let s := if was then s.failRoutes else s
  if s.flag f_TOUR_PCTL_EN p then s.portDetect p else s

/-- PORT_SIGNAL_DETECT (R358): signal on lanes 0 and 1, or on all four, leaves DETECT. -/
def execPortSignalDetect (p : Fin 12) (lanes : BitVec 4) (s : State) : Ans :=
  .next (if p.val < s.nPorts && s.portState p == 1 && lanes.toNat % 4 == 3 then
    (s.portEnter p 2).setFld f_TOUR_PSTAT_W2 p (b2n (lanes.toNat != 15)) else s)

/-- LINK_TRAINING_DONE (R357, R358): lanes 2 and 3 trained or not; the port runs at width 2 without them, or under ECONOMY. -/
def execLinkTrainingDone (p : Fin 12) (w4 : Bool) (s : State) : Ans :=
  .next (if p.val < s.nPorts && s.portState p == 2 then
    (s.portEnter p 3).setFld f_TOUR_PSTAT_W2 p (b2n (s.flag f_TOUR_PSTAT_W2 p || !w4 || s.mode mECONOMY)) else s)

/-- TRAIN_TIMEOUT (R358). -/
def execTrainTimeout (p : Fin 12) (s : State) : Ans :=
  .next (if p.val < s.nPorts && s.portState p == 2 && decide (500000000 ≤ s.time - (s.port p).since) then
    s.portDown p (some 1) else s)

/-- FLIT_LOCK_DONE (R358, R359): the port enters HELLO and sends its node, number, width and sealing requirement. -/
def execFlitLockDone (p : Fin 12) (s : State) : Ans :=
  .next (if p.val < s.nPorts && s.portState p == 3 then
    let s := s.portEnter p 4
    let w := if s.flag f_TOUR_PSTAT_W2 p then 2 else 4
    { s with wire := .hello p s.node p w (s.flag f_TOUR_PCTL_SEAL p) :: s.wire }
  else s)

/-- LOCK_TIMEOUT (R358). -/
def execLockTimeout (p : Fin 12) (s : State) : Ans :=
  .next (if p.val < s.nPorts && s.portState p == 3 && decide (10000000 ≤ s.time - (s.port p).since) then
    s.portDown p (some 2) else s)

/-- The KSU can establish keys with a neighbour (R522, R532). -/
def State.helloKeys (s : State) (p node nport : Nat) (sysid : W64) (idbad : Bool) (cert sig : List Byte) : Bool :=
  s.fld f_KSU_DRBG_STATE 0 == 1 && !idbad && !(s.flag f_LOADIN_STAT_IDBAD 0) && sysid == s.reg .LOADIN_SYSID 0 &&
    Config.helloOk [s.node, p, node, nport] cert sig

/-- HELLO (R359, R532): the neighbour's exchange is accepted, and the port is UP, or it is refused. -/
def execHello (p : Fin 12) (node : BitVec 14) (nport : BitVec 4) (w2 seal' : Bool) (sysid : BitVec 64) (idbad : Bool)
    (cert sig : List (BitVec 8)) (s : State) : Ans :=
  .next (if !(decide (p.val < s.nPorts)) || s.portState p != 4 then s
  else
    let want := seal' || s.flag f_TOUR_PCTL_SEAL p
    let keys := s.helloKeys p node.toNat nport.toNat sysid idbad cert sig
    let s := if want && !(Config.helloOk [s.node, p, node.toNat, nport.toNat] cert sig) then s.bump .KSU_SIGFAIL 0 1 else s
    if node.toNat == s.node || (want && !keys) then s.portDown p (some 3)
    else
      let s := s.setFld f_TOUR_PSTAT_NNODE p node.toNat
      let s := s.setFld f_TOUR_PSTAT_NPORT p nport.toNat
      let s := s.setFld f_TOUR_PSTAT_SEALED p (b2n want)
      let s := s.setFld f_TOUR_PSTAT_W2 p (b2n (w2 || s.flag f_TOUR_PSTAT_W2 p))
      let s := (s.portEnter p 5).modPort p (fun q => { since := q.since, ackAt := q.since, creditAt := List.replicate 4 q.since })
      s.cueEvent (64 + p))

/-- Flits up to a SEQ are acknowledged (R361). -/
def State.portAck (s : State) (p ack : Nat) : State :=
  let q := s.port p
  let rest := q.replay.dropWhile (fun x => decide ((ack + 4096 - x.1) % 4096 < 2048))
  if rest.length = q.replay.length then s
  else (s.modPort p (fun q => { q with replay := rest, tries := 0, ackAt := s.time })).pumpPort p

/-- FLIT_NAK (R361): the flits after the last good one are replayed; after 8 replays of the same flit the port goes DOWN. -/
def execFlitNak (p : Fin 12) (good : BitVec 12) (s : State) : Ans :=
  .next (if !(s.portUp p) then s
  else
    let s := s.portAck p good.toNat
    let q := s.port p
    if q.replay.isEmpty then s
    else if 8 ≤ q.tries then s.portDown p (some 4)
    else
      let s := s.modPort p (fun q => { q with tries := q.tries + 1, keyed := q.keyed + q.replay.length })
      q.replay.foldl (fun (s : State) x => { s with wire := .flit p (1 + x.2.2) x.1 q.good (some (x.2.1, x.2.2)) :: s.wire }) s)

/-- FLIT_IDLE (R360, R368): acknowledgement and credits of the lower or the upper lanes. -/
def execFlitIdle (p : Fin 12) (ack : BitVec 12) (credits : BitVec 16) (crdl : Bool) (s : State) : Ans :=
  .next (if !(s.portUp p) then s
  else
    let s := s.portAck p ack.toNat
    let give (s : State) (vc : Nat) : State :=
      let n := credits.toNat / 16 ^ vc % 16
      let lane := vc * 2 + b2n crdl
      let cap := if vc < 2 then 64 else 32
      if n = 0 then s
      else s.modPort p (fun q => { q with credit := q.credit.set lane (Nat.min cap (q.credit.getD lane 0 + n))
                                          creditAt := q.creditAt.set vc s.time })
    ((List.range 4).foldl give s).pumpPort p)

/-- FLIT_TSYNC (R380): the four timestamps of an exchange, in tenths of a nanosecond (sent and received here, received and
sent by the neighbour), and whether the neighbour is DEGRADED. -/
def execFlitTsync (p : Fin 12) (t1 t2 t3 t4 : BitVec 64) (degraded : Bool) (s : State) : Ans :=
  .next (if s.portUp p then
    let off : Int := ((t1.toNat : Int) - t2.toNat + (t4.toNat : Int) - t3.toNat) / 2
    s.modPort p (fun q => { q with offset := some off, degraded := degraded })
  else s)

/-- FLIT_ERROR (R361, R362): the flit is discarded, counted and NAKed; 16 tag failures in succession take a sealed port DOWN. -/
def execFlitError (p : Fin 12) (tag : Bool) (s : State) : Ans :=
  .next (if !(s.portUp p) then s
  else
    let s := s.bump .TOUR_CRC p 1
    let tag := tag && s.flag f_TOUR_PSTAT_SEALED p
    let s := s.modPort p (fun q => { q with tagFails := if tag then q.tagFails + 1 else 0 })
    let q := s.port p
    if 16 ≤ q.tagFails then s.portDown p (some 6)
    else { s with wire := .flit p 3 q.seq q.good none :: s.wire })

/-- ACK_TIMEOUT (R361): flits outstanding and none acknowledged for 16 µs. -/
def execAckTimeout (p : Fin 12) (s : State) : Ans :=
  .next (if s.portUp p && !(s.port p).replay.isEmpty && decide (16000 ≤ s.time - (s.port p).ackAt) then s.portDown p (some 5) else s)

/-- KEY_ROLLOVER (R362): a port that has sent 2^40 flits under one key retrains. -/
def execKeyRollover (p : Fin 12) (s : State) : Ans :=
  .next (if s.portUp p && s.flag f_TOUR_PSTAT_SEALED p && decide (2 ^ 40 ≤ (s.port p).keyed) then s.portDown p none else s)

/-- CREDIT_STALL (R378): a VC has had no credit for 10 ms while flits waited for it. -/
def execCreditStall (p : Fin 12) (s : State) : Ans :=
  let q := s.port p
  .next (if s.portUp p && q.queue.any (fun m => decide (10000000 ≤ s.time - q.creditAt.getD (msgVc m.type) 0)) then
    s.portDown p (some 7) else s)

/-! ### The time base -/

/-- The time base steps forward (R475, R476): every armed comparator that it reaches or passes fires. -/
def State.stepTime (s : State) (ns : Nat) : State :=
  let s : State := { s with time := (s.time + ns) % 2 ^ 64 }
  (List.range s.nCores).foldl (fun (s : State) c => s.fireTimers c) s

/-- A slew replaces one in progress (R476); the amount is in tenths of a nanosecond. -/
def State.slewBy (s : State) (tenths : Int) : State := { s with clk := { s.clk with slew := tenths * 1000 } }

/-- Remove an offset from the time base (R380, R477): more than 1 µs behind steps forward, any other offset is slewed. -/
def State.align (s : State) (off : Int) : State :=
  if off < -10000 then s.stepTime ((-off) / 10).toNat else s.slewBy (-off)

/-- A signed 16-bit field, saturating. -/
def sat16 (i : Int) : Nat := (max (-32768) (min 32767 i) % 65536).toNat

/-- TSYNC_EXCHANGE (R380): the offset of the latest exchange with the parent is removed, and the next exchange begins. The
parent is the primary port of the routing entry for the master, unless its neighbour is DEGRADED. -/
def execTsyncExchange (s : State) : Ans :=
  let m := s.fld f_TOUR_TSYNC_MASTER 0
  let r := s.reg .TOUR_RT m
  let p := bits r 3 0
  .next (if m == s.node || !(bit r 63) || !(s.portUp p) || (s.port p).degraded then s
  else
    let s := s.setFld f_TOUR_TSYNC_PARENT 0 p
    let s := match (s.port p).offset with
      | none => s
      | some off =>
        let s := s.setFld f_TOUR_TSYNC_OFFSET 0 (sat16 off)
        let s := s.setFld f_TOUR_TSYNC_ALIGNED 0 (b2n (decide (off.natAbs ≤ 15)))
        (s.modPort p (fun q => { q with offset := none })).align off
    { s with wire := .tsync p s.time :: s.wire })

/-! ### Commands of TOUR.PCTL -/

/-- A retrain request sends the port through DOWN to DETECT (R358). -/
def State.retrain (s : State) (p : Nat) : State :=
  let s := s.portDown p none
  if s.portState p == 0 then s.portDetect p else s

/-- EN starts a DOWN port or takes any other DOWN with CAUSE 8 (R358). -/
def State.portEnable (s : State) (p : Nat) (en : Bool) : State :=
  let s := s.setFld f_TOUR_PCTL_EN p (b2n en)
  if en then (if s.portState p == 0 then s.portDetect p else s)
  else if s.portState p == 0 then s else s.portDown p (some 8)

/-- TOUR_PCTL_RETRAIN (R358). -/
def execTourPctlRetrain (p : Fin 12) (s : State) : Ans := .next (if p.val < s.nPorts then s.retrain p else s)

/-- TOUR_PCTL_EN (R358). -/
def execTourPctlEn (p : Fin 12) (en : Bool) (s : State) : Ans := .next (if p.val < s.nPorts then s.portEnable p en else s)

/-- MGMT (R378, R468): the message goes to the ring and raises source 116; it wakes a dark device. -/
def execMgmt (p : Fin 12) (h0 h1 : BitVec 64) (units : List TWord) (s : State) : Ans := execArrival 0x20 p h0 h1 units s

end Sys2Proof.Machine
end

