-- ==== Sys2Proof/Machine/Green.lean ====
section
/-! DEFINITION. What the Green Room does for several units: machine check PLATFORM (R424, R462), MSI-X (R394), cluster holds
(R179), stopping cores (R424, R462, R473), warm entry (R208), and the warm values of cores, clusters and registers
(R11, R188, R257, R500). -/

namespace Sys2Proof.Machine

open Sys2Proof

/-- The Green Room raises machine check PLATFORM (R196, R424): an event on the lowest-numbered running Backstage core, or the
lowest-numbered running core; the black box keeps the target and a cause, for which R513 gives no codes (log entry 5). -/
def State.platform (s : State) : State :=
  let (v, s) := s.fresh
  let t := match s.lowest (fun c => s.running c && (s.core c).psw.w) with
    | some c => some c
    | none => s.lowest s.running
  match t with
  | some c => (s.raiseMc c 7).logBb 0x0A c v.toNat
  | none => s.logBb 0x0A 0xFFFF v.toNat

/-- Raise an MSI-X vector (R394): a masked entry keeps it pending. -/
def State.msix (s : State) (v : Nat) : State :=
  let e := s.host.msix.getD v {}
  if e.masked then { s with host := { s.host with msix := s.host.msix.set v { e with pend := true } } }
  else { s with wire := .msix e.addr e.data :: s.wire }

/-! ### Holds -/

/-- Every core of a cluster can be held. -/
def State.holdable (s : State) (cl : Nat) : Bool := (coresOf cl).all s.atHold

/-- Abort every Scene active in a cluster with a code. -/
def State.abortCluster (s : State) (cl code : Nat) : State :=
  (coresOf cl).foldl (fun (s : State) c => s.abortScene c { code := code } false) s

/-! ### Stopping cores -/

/-- A core stops in Curtain with a SUBCODE of the Green Room's (R462). -/
def State.stopCore (s : State) (vec sub c : Nat) : State :=
  match (s.core c).run with
  | .held => s
  | .curtain => s
  | .diverged => s
  | _ =>
    let w := (s.core c).psw.w
    let s := s.traceE 2 c (s.core c).pc (vec * 256 + sub)
    (s.modCore c (fun k => { k with run := .curtain, wait := none })).setReg .CORE_HALT c
      (w64 (2 ^ 63 + b2n w * 2 ^ 16 + vec * 256 + sub))

/-- Every core of the device stops. -/
def State.stopAll (s : State) (vec sub : Nat) : State :=
  (List.range s.nCores).foldl (fun (s : State) c => s.stopCore vec sub c) s

/-- Warm entry (R208): the core continues at the CODE word at the Backstage VBR, or halts in Curtain. -/
def State.warmEntry (s : State) (c : Nat) : State :=
  let s := s.modCore c (fun k => { k with
    run := .run, wait := none, psw := {}, stk := { k.stk with regs := [], cregs := [] },
    ev := { arm0 := k.ev.arm0, arm1 := k.ev.arm1 } })
  let s := s.setReg .CORE_XSTAT c 0
  match s.vectorOf c true 0 with
  | (s, .inl _) => s.curtain c true 0 0xFF
  | (s, .inr pc) => s.modCore c (fun k => { k with pc := pc })

/-! ### Reset values -/

/-- The lines that a cluster's caches hold. -/
def State.clusterLines (s : State) (cl : Nat) : List Nat :=
  ((s.cluster cl).lines.map (fun x => x.line) ++ (coresOf cl).flatMap (fun c => (s.core c).frameLines)).dedup

/-- Every frame and line of a cluster is written home where dirty, and invalidated (R275). -/
def State.emptyCluster (s : State) (cl : Nat) : State :=
  (s.clusterLines cl).foldl (fun (s : State) line =>
    let s := s.clGiveUp cl line
    match s.dirOf line with
    | none => s
    | some e => s.setDir { e with owner := e.owner.filter (fun x => x != cl), sharers := e.sharers.filter (fun x => x != cl) }) s

/-- A core's warm value (R11, R188, R257): the Backstage VBR, TSBR and FTSBR and the Backstage wings slots are kept. -/
def Core.warm (k : Core) : Core :=
  { back := { vbr := k.back.vbr, tsbr := k.back.tsbr, ftsbr := k.back.ftsbr },
    mem := { wings := k.mem.wings.filter (fun x => x.world) } }

/-- Registers of a core or cluster that a warm or cluster reset keeps (R181, R432). -/
def keepsCluster (r : Reg) : Bool :=
  match r with
  | .CLU_MODE => true
  | .MCS_STAT => true
  | .MCS_CUPTR => true
  | .MCS_PATCH => true
  | _ => false

/-- The registers of a cluster and its cores take their warm values. -/
def State.warmRegs (s : State) (cl : Nat) : State :=
  { s with regs := s.regs.filter (fun x =>
      match rowOf x.reg with
      | none => true
      | some row =>
        match row.unit with
        | .core => clusterOf (x.inst / row.count) != cl || keepsCluster x.reg
        | .cluster => x.inst / row.count != cl || keepsCluster x.reg
        | _ => true) }

/-- A cluster's cores stop, its dirty lines are written home, and it takes its warm values (R500 steps 1 to 3, R501); its cores
are then held in reset. -/
def State.warmCluster (s : State) (cl : Nat) : State :=
  let s := s.emptyCluster cl
  let s := (coresOf cl).foldl (fun (s : State) c => s.modCore c Core.warm) s
  let mine (c : Nat) : Bool := clusterOf c == cl
  let s : State := { s with
    col := { s.col with pacing := s.col.pacing.filter (fun c => !(mine c)) }
    tour := { s.tour with reqs := s.tour.reqs.filter (fun r => !(mine r.core)) } }
  let s := s.modCluster cl (fun k => { bankA := k.bankA, bankB := k.bankB, patchLevel := k.patchLevel,
                                       custId := k.custId })
  s.warmRegs cl

/-- A core starts (R495, R58, R213): at a sa, with the cold-reset state and the given CCTL. -/
def State.startCore (s : State) (c sa : Nat) (cctl : W64) : State :=
  s.modCore c (fun k => { run := .run, pc := sa % 2 ^ 48, sr := { cctl := cctl }, mem := { wings := k.mem.wings },
                          back := { vbr := k.back.vbr, tsbr := k.back.tsbr, ftsbr := k.back.ftsbr } })

end Sys2Proof.Machine
end

