-- ==== Sys2Proof/Machine/Verify.lean ====
section
/-! DEFINITION. Byte strings, and the KSU's signature checks (R518-R520, R523). -/

namespace Sys2Proof.Machine

open Sys2Proof

/-- The little-endian number in n bytes at an offset (R480, R529). -/
def leAt (l : List Nat) (off n : Nat) : Nat := ((l.drop off).take n).foldr (fun b a => b % 256 + 256 * a) 0

/-- A number as n little-endian bytes. -/
def leBytes (n v : Nat) : List Nat := (List.range n).map (fun i => v / 256 ^ i % 256)

/-- Bytes of a string from an offset. -/
def slice (l : List Nat) (off n : Nat) : List Nat := (l.drop off).take n

/-- A byte string for the KSU. -/
def toBytes (l : List Nat) : List Byte := l.map (fun b => BitVec.ofNat 8 b)

/-- Every byte is zero. -/
def allZero (l : List Nat) : Bool := l.all (fun b => b == 0)

/-- SHA-384 of a byte string (R523). -/
def digestOf (l : List Nat) : BitVec 384 := Config.sha384 (toBytes l)

/-- A digest as 48 bytes, the most significant first. -/
def digestBytes (d : BitVec 384) : List Nat := (List.range 48).map (fun j => d.toNat / 256 ^ (47 - j) % 256)

/-- A 384-bit number from 48 bytes, the most significant first. -/
def beNat (l : List Nat) : Nat := l.foldl (fun a b => a * 256 + b % 256) 0

/-- A slot is fused, and is revoked (R518, R520). -/
def State.slotFused (s : State) (k : Nat) : Bool := decide (k < 8) && bit (s.reg .KSU_STATE 0) k
def State.slotRevoked (s : State) (k : Nat) : Bool := decide (k < 8) && bit (s.reg .KSU_STATE 0) (8 + k)

/-- The public-key hash that a slot holds (R518). -/
def State.slotHash (s : State) (k : Nat) : Nat := if k = 4 then Config.vendorKey.toNat else s.ksu.hash.getD k 0

/-- The key is the slot's key and the signature verifies, revocation apart (R518, R520). -/
def State.signatureOk (s : State) (k : Nat) (msg pub sig : List Nat) : Bool :=
  s.slotFused k && (digestOf pub).toNat == s.slotHash k && Config.ecdsaVerify (toBytes pub) (digestOf msg) (toBytes sig)

/-- A verification against a slot (R519, R520): a failure is counted. -/
def State.verify (s : State) (k : Nat) (msg pub sig : List Nat) : Bool × State :=
  if s.signatureOk k msg pub sig && !(s.slotRevoked k) then (true, s) else (false, s.bump .KSU_SIGFAIL 0 1)

/-- An entry of device state that leaves the evaluated configuration (R430): a latched DEV.EVAL bit, EVAL clears. -/
def State.leaveEval (s : State) (f : Fld) : State := (s.setFld f 0 1).setFld f_DEV_EVAL_EVAL 0 0

end Sys2Proof.Machine
end

