-- ==== Sys2Proof/Machine/Mcs.lean ====
section
/-! DEFINITION. Loading the control stores (R152, R167-R184): the image format (R489), its checks (R171, R176), loads and removals
under cluster holds, refresh, and the diagnostic read. -/

namespace Sys2Proof.Machine

open Sys2Proof

/-- Bits [hi:lo] of a natural number. -/
def nbits (n hi lo : Nat) : Nat := (n >>> lo) % 2 ^ (hi + 1 - lo)

/-- The words of the stores as a core of a cluster reads them, from its bank (R153). -/
def State.uword (s : State) (c a : Nat) : Nat := ((s.cluster (clusterOf c)).bank (c % 2 == 1)).uword a
def State.nword (s : State) (c a : Nat) : Nat := ((s.cluster (clusterOf c)).bank (c % 2 == 1)).nword a

/-- A dispatch entry as a bank of a cluster holds it, the customer opcodes that the image leaves undefined filled in (R168). -/
def State.bankEntry (s : State) (cl : Nat) (odd : Bool) (i : Nat) : Nat :=
  let b := (s.cluster cl).bank odd
  if 0x800 ≤ i && i < 0x1000 && s.flag f_MCS_STAT_CUST cl && !(b.defines i) then undefEntry else b.dword i
def State.dword (s : State) (c i : Nat) : Nat := s.bankEntry (clusterOf c) (c % 2 == 1) i

/-- Where a micro-address is fetched (R175): an enabled match register redirects it into patch RAM, the lowest-numbered one first. -/
def State.patched (s : State) (cl a : Nat) : Nat :=
  match (List.range 64).find? (fun j => bit (s.reg .MCS_PATCH (cl * 64 + j)) 63 && bits (s.reg .MCS_PATCH (cl * 64 + j)) 45 32 == a) with
  | some j => bits (s.reg .MCS_PATCH (cl * 64 + j)) 13 0
  | none => a

/-- A nano-word with a reserved code or a non-zero reserved field (R160). -/
def nanoBad (n : Nat) : Bool :=
  0x18 ≤ nbits n 127 122 || 8 ≤ nbits n 109 105 || 12 ≤ nbits n 98 95 || 4 ≤ nbits n 94 92 || nbits n 87 86 == 3 ||
    12 ≤ nbits n 85 81 || nbits n 67 66 == 3 || nbits n 64 63 == 3 || nbits n 62 60 == 7 || 5 ≤ nbits n 59 57 ||
    nbits n 56 50 != 0 || nbits n 49 48 == 3

/-! ### Images -/

/-- An image taken apart (R489): the vendor parts and the records. -/
structure Image where
  kind : Nat
  romid : Nat
  plevel : Nat
  cuptr : Nat
  micro : List (Nat × Nat)
  nano : List (Nat × Nat)
  disp : List (Nat × Nat)
  patch : List (List Nat)
  deriving DecidableEq, Repr

/-- Base ROM ID of the B1 stepping (R182). -/
def romId : Nat := 0x0B01

/-- Length that the header's counts give an image. -/
def imageLen (l : List Nat) : Nat := 64 + 8 * leAt l 16 4 + 20 * leAt l 20 4 + 4 * leAt l 24 4 + 8 * leAt l 28 4 + 208

/-- n records of a size from an offset. -/
def records (l : List Nat) (off size n : Nat) : List (List Nat) := (List.range n).map (fun i => slice l (off + i * size) size)

/-- The parts of an image (R489). -/
def Image.parse (l : List Nat) : Image :=
  let nm := leAt l 16 4
  let nn := leAt l 20 4
  let nd := leAt l 24 4
  let np := leAt l 28 4
  let o1 := 64 + 8 * nm
  let o2 := o1 + 20 * nn
  let o3 := o2 + 4 * nd
  { kind := leAt l 0 1, romid := leAt l 8 2, plevel := leAt l 10 2, cuptr := leAt l 12 2
    micro := (records l 64 8 nm).map (fun r => (leAt r 0 2, leAt r 4 3))
    nano := (records l o1 20 nn).map (fun r => (leAt r 0 2, leAt r 4 16))
    disp := (records l o2 4 nd).map (fun r => (leAt r 0 2, leAt r 2 2))
    patch := records l o3 8 np }

/-- The bytes that an image's signature covers, its key and its signature (R489). -/
def imageBody (l : List Nat) : List Nat := l.take (l.length - 96)
def imagePub (l : List Nat) : List Nat := slice l (l.length - 208) 97
def imageSig (l : List Nat) : List Nat := slice l (l.length - 96) 96

/-- Every record writes a place that its kind of image may write (R152, R170, R175). -/
def Image.placesOk (m : Image) : Bool :=
  let cust := m.kind == 2
  m.micro.all (fun x => if cust then 0x3000 ≤ x.1 && x.1 ≤ 0x3FFF else 0x2800 ≤ x.1 && x.1 ≤ 0x2FFF) &&
    m.nano.all (fun x => if cust then 0xC00 ≤ x.1 && x.1 ≤ 0xFFF else 0xA00 ≤ x.1 && x.1 ≤ 0xBFF) &&
    m.disp.all (fun x => x.1 < 0x2000 && custDisp x.1 == cust) &&
    (if cust then m.patch.isEmpty
     else m.patch.all (fun r => leAt r 0 1 < 64 && leAt r 2 2 < 0x2800 && 0x2800 ≤ leAt r 4 2 && leAt r 4 2 < 0x3000 && leAt r 6 1 < 2))

/-- The header's and the trailer's reserved bytes are zero. -/
def imageZeros (l : List Nat) : Bool :=
  allZero (slice l 1 3) && allZero (slice l 14 2) && allZero (slice l 32 32) && allZero (slice l (l.length - 111) 15)

/-- The target of a micro-word (R156). -/
def microTarget (a w n : Nat) : Nat := (if nbits n 80 80 == 1 then nbits n 79 74 else nbits a 13 8) * 256 + nbits w 7 0

/-- A micro-word keeps rules 1 to 4 of R171. -/
def Image.microOk (m : Image) (x : Nat × Nat) : Bool :=
  let a := x.1
  let w := x.2
  let na := nbits w 23 12
  let n := match m.nano.reverse.find? (fun y => y.1 == na) with | some y => y.2 | none => 0
  let seq := nbits w 11 8
  let arg := nbits w 7 0
  let tgt := microTarget a w n
  let service := seq == 2 && tgt ≤ 3
  let jumps := seq == 1 || seq == 2 || seq == 4 || seq == 0xC
  0xC00 ≤ na && seq ≤ 0xC &&
    (!jumps || service || (0x3000 ≤ tgt && tgt ≤ 0x3FFF)) &&
    (nbits n 80 80 == 0 || service || (0x30 ≤ nbits n 79 74 && nbits n 79 74 ≤ 0x3F)) &&
    (seq != 5 || 24 ≤ arg % 32) && (seq != 7 || 6 ≤ arg % 8) && seq != 6 &&
    (seq != 0xA || (4 ≤ arg && arg ≤ 8) || arg == 12 || arg == 16)

/-- A micro-word of the image that is a CALL of a service entry names the nano-word (R171 rule 2, R172). -/
def Image.serves (m : Image) (x : Nat × Nat) : Bool :=
  m.micro.any (fun y => nbits y.2 23 12 == x.1 && nbits y.2 11 8 == 2 && decide (microTarget y.1 y.2 x.2 ≤ 3))

/-- A nano-word's SEQPG with SEQF = 1 lies in the customer pages, except on a CALL of a service entry (R171 rule 2). -/
def Image.pageOk (m : Image) (x : Nat × Nat) : Bool :=
  nbits x.2 80 80 == 0 || (0x30 ≤ nbits x.2 79 74 && nbits x.2 79 74 ≤ 0x3F) || m.serves x

/-- A nano-word keeps rules 5 and 6 of R171 (the Customer column of R158). -/
def nanoOk (n : Nat) : Bool :=
  let t := nbits n 104 99
  !(nanoBad n) && nbits n 98 95 != 9 && nbits n 98 95 != 11 && nbits n 65 50 == 0 &&
    (nbits n 109 105 != 1 || t ≤ 6 || t == tEMPTY || isCustom t)

/-- A dispatch entry keeps rule 7 of R171. -/
def dispOk (x : Nat × Nat) : Bool :=
  let opc := 0x800 ≤ x.1 && x.1 < 0x1000
  opc || x.2 / 2 ^ 15 % 2 == 0 || 0x3000 ≤ x.2 % 2 ^ 14

/-- The first word of an image that breaks R171: AREA and address. -/
def Image.offender (m : Image) : Option (Nat × Nat) :=
  match m.micro.find? (fun x => !(m.microOk x)) with
  | some x => some (0, x.1)
  | none =>
    match m.nano.find? (fun x => !(nanoOk x.2 && m.pageOk x)) with
    | some x => some (1, x.1)
    | none => (m.disp.find? (fun x => !(dispOk x))).map (fun x => (2, x.1))

/-- The key slot that an image of a kind verifies against (R489). -/
def State.imageSlot (s : State) (kind : Nat) : Nat := if kind = 1 then 4 else s.fld f_LOADIN_POLICY_CUSTSLOT 0

/-- The checks of R176 after the signature, in order: MCS.LDSTAT.CODE, AREA and ADDR of the first that fails. -/
def imageCheck (kind : Nat) (l : List Nat) (revoked : Bool) : Option (Nat × Nat × Nat) :=
  let m := Image.parse l
  if revoked then some (4, 0, 0)
  else if l.length != leAt l 4 4 || l.length != imageLen l then some (8, 0, 0)
  else if m.kind != kind || !(imageZeros l) || !m.placesOk then some (5, 0, 0)
  else if m.romid != romId then some (7, 0, 0)
  else if kind = 2 then m.offender.map (fun x => (6, x.1, x.2))
  else none

/-- All checks of R176 for an image of a kind: none when it passes. -/
def State.imageVerify (s : State) (kind : Nat) (l : List Nat) : Option (Nat × Nat × Nat) × State :=
  let k := s.imageSlot kind
  if !(s.signatureOk k (imageBody l) (imagePub l) (imageSig l)) then (some (3, 0, 0), s.bump .KSU_SIGFAIL 0 1)
  else
    let r := imageCheck kind l (s.slotRevoked k)
    (r, if s.slotRevoked k then s.bump .KSU_SIGFAIL 0 1 else s)

/-! ### Writing the stores -/

/-- Replace the part of a store that a kind of image owns by an image's records. -/
def storePart (own : Nat → Bool) (l : List (Nat × Nat)) (new : List (Nat × Nat)) : List (Nat × Nat) :=
  new.foldl (fun m x => smapPut 0 m x.1 x.2) (l.filter (fun x => !(own x.1)))

/-- Write a customer image into both banks of a cluster, or remove it (R153, R170, R174). A customer opcode whose entry has V = 0 is one
that the image leaves undefined (R168). -/
def State.putCust (s : State) (cl : Nat) (img : Option (List Nat)) : State :=
  let m := img.map Image.parse
  let disp := ((m.map Image.disp).getD []).filter (fun x => !(0x800 ≤ x.1 && x.1 < 0x1000 && x.2 / 2 ^ 15 % 2 == 0))
  let s := s.modCluster cl (fun k => { k.modBanks (fun b => {
      ustore := storePart (fun a => 0x3000 ≤ a) b.ustore ((m.map Image.micro).getD [])
      nstore := storePart (fun a => 0xC00 ≤ a) b.nstore ((m.map Image.nano).getD [])
      dstore := storePart custDisp b.dstore disp }) with
    custId := match img with | some l => (digestOf (imageBody l)).toNat / 2 ^ 352 | none => 0 })
  (s.setFld f_MCS_CUPTR_MASK cl ((m.map Image.cuptr).getD 0)).setFld f_MCS_STAT_CUST cl (b2n img.isSome)

/-- Write a vendor patch into both banks of a cluster, or remove it (R153, R175). -/
def State.putVendor (s : State) (cl : Nat) (img : Option (List Nat)) : State :=
  let m := img.map Image.parse
  let s := s.modCluster cl (fun k => { k.modBanks (fun b => {
      ustore := storePart (fun a => a < 0x3000) b.ustore ((m.map Image.micro).getD [])
      nstore := storePart (fun a => a < 0xC00) b.nstore ((m.map Image.nano).getD [])
      dstore := storePart (fun a => !(custDisp a)) b.dstore ((m.map Image.disp).getD []) }) with
    patchLevel := (m.map Image.plevel).getD 0 })
  let s := (List.range 64).foldl (fun (s : State) j => s.clearReg .MCS_PATCH (cl * 64 + j)) s
  let s := ((m.map Image.patch).getD []).foldl (fun (s : State) r =>
    s.setReg .MCS_PATCH (cl * 64 + leAt r 0 1) (w64 (leAt r 6 1 * 2 ^ 63 + leAt r 2 2 * 2 ^ 32 + leAt r 4 2))) s
  s.setFld f_MCS_STAT_PATCH cl (b2n img.isSome)

/-- The images that a cluster is to hold (R180): the active ones, and those of a load in progress that has passed the cluster. -/
def State.imagesFor (s : State) (cl : Nat) : Option (List Nat) × Option (List Nat) :=
  match s.mcs.job with
  | some j =>
    if j.passed && decide (cl < j.next) then
      match j.op with
      | 0 => (some j.image, s.mcs.cust)
      | 1 => (s.mcs.vendor, some j.image)
      | 2 => (s.mcs.vendor, none)
      | _ => (none, s.mcs.cust)
    else (s.mcs.vendor, s.mcs.cust)
  | none => (s.mcs.vendor, s.mcs.cust)

/-- A cluster receives the current images (R180). -/
def State.reload (s : State) (cl : Nat) : State :=
  let r := s.imagesFor cl
  (s.putVendor cl r.1).putCust cl r.2

/-- Enabled clusters in ascending order (R178). -/
def State.enabledClusters (s : State) : List Nat :=
  (List.range s.nClusters).filter (fun q => bit (s.reg .LOADIN_CLEN 0) q)

/-! ### Refresh -/

/-- A hold of a cluster begins or ends (R179): MCS.STAT.HOLD. -/
def State.setHold (s : State) (cl : Nat) (on : Bool) : State :=
  let l := s.mcs.hold.filter (fun q => q != cl)
  ({ s with mcs := { s.mcs with hold := if on then l ++ [cl] else l } } : State).setFld f_MCS_STAT_HOLD cl (b2n on)

/-- MCS.LDSTAT.BUSY of every enabled cluster. -/
def State.ldBusy (s : State) (on : Bool) : State :=
  s.enabledClusters.foldl (fun (s : State) cl => s.setFld f_MCS_LDSTAT_BUSY cl (b2n on)) s

/-- The routines of a cluster's cores that stand at a STEP begin again from their entries (R164, R179). -/
def State.dropMicro (s : State) (cl : Nat) : State :=
  (coresOf cl).foldl (fun (s : State) c => s.modCore c (fun k => { k with micro := none })) s

/-- Words of a store that differ from the staged content (R184). -/
def diffWords (a b : List (Nat × Nat)) : Nat :=
  (a.filter (fun x => smapGet 0 b x.1 != x.2)).length + (b.filter (fun x => x.2 != 0 && smapGet 0 a x.1 == 0)).length

/-- Refresh a cluster (R184): the words found different are counted and rewritten. -/
def State.refreshCluster (s : State) (cl : Nat) : State :=
  let old := s.cluster cl
  let s := s.reload cl
  let new := s.cluster cl
  let diff (a b : StoreBank) : Nat := diffWords a.ustore b.ustore + diffWords a.nstore b.nstore + diffWords a.dstore b.dstore
  let n := diff old.bankA new.bankA + diff old.bankB new.bankB
  let s := s.modCluster cl (fun k => { k with refreshed := s.time })
  let s : State := { s with mcs := { s.mcs with want := s.mcs.want.filter (fun q => q != cl) } }
  (s.bump .MCS_RFFIX cl n).setFld f_MCS_RFCTL_RFNOW cl 0

/-- Refresh the clusters that wait for it, under a refresh hold (R179), while no load runs; one whose cores have not all stopped stays
under its hold. -/
def State.refreshWanted (s : State) : State :=
  if s.mcs.job.isSome || s.mcs.want.isEmpty then s
  else
    let s := (s.mcs.want.foldl (fun (s : State) cl =>
      if s.holdable cl then (s.refreshCluster cl).setHold cl false else s.setHold cl true) s)
    s.ldBusy (!s.mcs.want.isEmpty)

/-- A refresh of a cluster is requested. -/
def State.wantRefresh (s : State) (cl : Nat) : State :=
  if s.mcs.want.contains cl then s else { s with mcs := { s.mcs with want := s.mcs.want ++ [cl] } }

/-- A write of one to MCS.RFCTL.RFNOW (R184). -/
def State.rfNow (s : State) (cl : Nat) : State :=
  if s.enabledClusters.contains cl then ((s.setFld f_MCS_RFCTL_RFNOW cl 1).wantRefresh cl).refreshWanted else s

/-- MCS_RFCTL_RFNOW (R184). -/
def execMcsRfctlRfnow (cl : Fin 32) (s : State) : Ans := .next (s.rfNow cl)

/-- CONTROL_STORE_REFRESH (R184): every enabled cluster whose interval has passed, and every one still waiting, is refreshed. -/
def execControlStoreRefresh (s : State) : Ans :=
  .next ((s.enabledClusters.foldl (fun (s : State) cl =>
    let n := s.fld f_MCS_RFCTL_RFINT cl
    if n != 0 && decide (n * 1000000000 ≤ s.time - (s.cluster cl).refreshed) then s.wantRefresh cl else s) s).refreshWanted)

/-! ### Loads -/

/-- Set MCS.LDSTAT of every enabled cluster. -/
def State.ldstat (s : State) (busy : Bool) (code op area addr : Nat) : State :=
  s.enabledClusters.foldl (fun (s : State) cl =>
    s.setReg .MCS_LDSTAT cl (w64 (b2n busy * 2 ^ 63 + code * 2 ^ 56 + op * 2 ^ 48 + area * 2 ^ 30 + addr))) s

/-- The load has ended. -/
def State.ldEnd (s : State) (code op area addr : Nat) : State :=
  let s := s.ldstat false code op area addr
  (({ s with mcs := { s.mcs with job := none } } : State)).refreshWanted

/-- The staging area (R493). -/
def stagingLo : Nat := 0x000423700000
def stagingHi : Nat := 0x000423F00000

/-- The words of an image in the byte order of R35. -/
def imageWords (fuel : Nat) (l : List Nat) : List TWord :=
  match fuel with
  | 0 => []
  | fuel + 1 => if l.isEmpty then [] else word tRAW (leAt l 0 8) :: imageWords fuel (l.drop 8)

/-- The Green Room writes an image into the staging area (R178, R180, R493): the active vendor patch (place 0), the active customer
image (1), the copy that MCLOAD has taken (2), at offsets of 2^21 words (log entry 68, DESIGN CHOICE). -/
def State.stageImage (s : State) (n : Nat) (l : List Nat) : State :=
  ((imageWords l.length l).zipIdx).foldl (fun (s : State) x => s.agentWrite 512 (stagingLo + n * 2 ^ 21 + x.2) x.1) s

/-- Load one cluster under a cluster hold (R179): its Scenes abort with code 4, and its cores go on under the new content. -/
def State.loadCluster (s : State) (j : McsJob) (cl : Nat) : State :=
  let s := ((s.abortCluster cl 4).setHold cl false).dropMicro cl
  match j.op with
  | 0 => s.putVendor cl (some j.image)
  | 1 => s.putCust cl (some j.image)
  | 2 => s.putCust cl none
  | _ => s.putVendor cl none

/-- Load clusters in ascending order as far as they can be held; when all are loaded the load is done. -/
def State.loadClusters (s : State) (j : McsJob) : List Nat → State
  | [] =>
    let m := s.mcs
    let m := match j.op with
      | 0 => { m with vendor := some j.image }
      | 1 => { m with cust := some j.image }
      | 2 => { m with cust := none }
      | _ => { m with vendor := none }
    let s : State := { s with mcs := m }
    let s := if j.op = 0 then s.stageImage 0 j.image else if j.op = 1 then s.stageImage 1 j.image else s
    let s := if j.op = 1 then s.leaveEval f_DEV_EVAL_MCODE else s
    s.ldEnd 2 j.op 0 0
  | cl :: l =>
    if s.holdable cl then State.loadClusters (s.loadCluster j cl) { j with next := cl + 1 } l
    else ({ s with mcs := { s.mcs with job := some { j with next := cl } } } : State).setHold cl true

/-- CONTROL_STORE_LOAD (R176, R178): an accepted load is verified, then the enabled clusters are loaded one at a time. -/
def State.loadStep (s : State) : State :=
  match s.mcs.job with
  | none => s
  | some j =>
    let todo := s.enabledClusters.filter (fun q => j.next ≤ q)
    if j.passed || 2 ≤ j.op then s.loadClusters { j with passed := true } todo
    else
      match s.imageVerify (j.op + 1) j.image with
      | (some (code, area, addr), s) => s.ldEnd code j.op area addr
      | (none, s) => s.loadClusters { j with passed := true } todo

/-- CONTROL_STORE_LOAD (R178). -/
def execControlStoreLoad (s : State) : Ans := .next s.loadStep

/-- Bytes of an image that lies in memory, in the byte order of R35. -/
def State.memBytes (s : State) (pa n : Nat) : List Nat :=
  (List.range n).map (fun i => (s.rd (pa + i / 8)).datum.toNat / 256 ^ (i % 8) % 256)

/-- The image at a pa fits (R178): it lies in local datum storage or in the device-private region, ends within its range, and
leaves the staging area alone; ILEN is at most 16 MiB. -/
def State.imageAt (s : State) (pa : Int) : Option (List Nat) :=
  if pa < 0 then none
  else
    let a := pa.toNat
    let top := match place a with
      | .loc => 0x000240000000
      | .priv => 0x000424000000
      | _ => 0
    let n := bits (s.rd a).datum 63 32
    let e := a + (n + 7) / 8
    if a < top && n ≤ 2 ^ 24 && e ≤ top && (e ≤ stagingLo || stagingHi ≤ a) && !(stagingLo ≤ a && a < stagingHi) then
      some (s.memBytes a n)
    else none

/-- The status of a load request and the state after it (R178). -/
def State.mcload (s : State) (pa op : Int) : Nat × State :=
  let sweep := !s.mcs.want.isEmpty
  if s.mcs.job.isSome || sweep then (1, s)
  else if s.mode mSEALED then (2, s)
  else if s.mode mRECORD || s.mode mREPLAY then (3, s)
  else
    let start (img : List Nat) : Nat × State :=
      let n := op.toNat
      (0, (({ s with mcs := { s.mcs with job := some { op := n, image := img } } } : State).ldstat true 1 n 0 0).stageImage 2 img)
    if op = 0 ∨ op = 1 then
      match s.imageAt pa with
      | none => (4, s)
      | some l => start l
    else if op = 2 ∨ op = 3 then start []
    else (5, s)

/-! ### MCVER and the diagnostic read -/

/-- MCVER of a cluster (R182): base ROM 0x0B01, patch level, customer image ID. -/
def State.mcver (s : State) (cl : Nat) : W64 :=
  let k := s.cluster cl
  w64 (0x0B01 * 2 ^ 48 + k.patchLevel % 2 ^ 16 * 2 ^ 32 + k.custId % 2 ^ 32)

/-- The word that MCS.SRDA names, from the bank that it names (R153). -/
def State.storeRead (s : State) (cl : Nat) : Nat :=
  let a := s.fld f_MCS_SRDA_ADDR cl
  let odd := s.flag f_MCS_SRDA_BANK cl
  let b := (s.cluster cl).bank odd
  match s.fld f_MCS_SRDA_AREA cl with
  | 0 => b.uword a
  | 1 => b.nword (a % 4096)
  | _ => s.bankEntry cl odd (a % 8192)

end Sys2Proof.Machine
end

