-- ==== Sys2Proof/Machine/Host.lean ====
section
/-! DEFINITION. The host interface (R382-R401): queues and doorbells, MSI-X, host accesses through the HDM windows, snoops, the
decoders, device reads of host memory, bias, viral, and the state of the link. -/

namespace Sys2Proof.Machine

open Sys2Proof

/-- The host link is up. -/
def State.linkUp (s : State) : Bool := s.flag f_HOST_LINK_UP 0

/-- Load-in has reached stage HOST, and the device has not stopped (R492, R494, R498). -/
def State.hostStage (s : State) : Bool :=
  7 ≤ s.fld f_LOADIN_STAT_STAGE 0 && (s.status == 2 || s.status == 3 || s.status == 4 || s.status == 5 || s.status == 8 || s.status == 9)

/-- Configuration requests receive Retry Status (R494): before stage HOST, and for at most 900 ms. -/
def State.retryStatus (s : State) : Bool :=
  !s.hostStage && s.status != 6 && decide (s.time - Nat.max s.clk.porAt s.host.perstAt < 900000000)

/-- The host reaches BAR0 (R391, R494). -/
def State.barUp (s : State) : Bool := s.linkUp && !s.retryStatus && s.status != 0

/-- Change the host interface. -/
def State.modHost (s : State) (f : HostIf → HostIf) : State := { s with host := f s.host }

/-- Answer the host. -/
def State.answerHost (s : State) (status : Nat) (data : List Nat) : State :=
  { s with wire := .completion status data :: s.wire }

/-! ### Queues and doorbells -/

/-- Entries of the ring that a configuration register gives (R393). -/
def ringSize (cfg : W64) : Nat := 2 ^ (bits cfg 51 48 + 4)

/-- A distance on a ring of n entries. -/
def ringDist (n a b : Nat) : Nat := (a + n - b % n) % n

/-- A doorbell is rejected (R394). -/
def State.rejectDoorbell (s : State) (q : Nat) : State :=
  (s.bump .HOST_DBREJ q 1).setFld f_HOST_ERR_DBREJ 0 1

/-- An SQ tail is acceptable (R394). -/
def State.sqAccepts (s : State) (q t : Nat) : Bool :=
  let n := ringSize (s.reg .HOST_SQCFG q)
  let h := s.fld f_HOST_SQH_INDEX q
  s.flag f_HOST_SQCFG_EN q && decide (t < n) && decide (ringDist n (s.fld f_HOST_SQT_INDEX q) h ≤ ringDist n t h)

/-- A CQ head is acceptable (R394). -/
def State.cqAccepts (s : State) (q h : Nat) : Bool :=
  let n := ringSize (s.reg .HOST_CQCFG q)
  let t := s.fld f_HOST_CQT_INDEX q
  s.flag f_HOST_CQCFG_EN q && decide (h < n) && decide (ringDist n t h ≤ ringDist n t (s.fld f_HOST_CQH_INDEX q))

/-- Apply an SQ tail write (R394); source q is raised on a change. A doorbell wakes a dark device (R469). -/
def State.sqTail (s : State) (q t : Nat) : State :=
  if s.sqAccepts q t then
    let new := t != s.fld f_HOST_SQT_INDEX q
    let s := s.setFld f_HOST_SQT_INDEX q t
    if !new then s
    else if s.status == 5 then s.wakeEvent (16 + q)
    else (s.wakeEvent 1).cueEvent q
  else s.rejectDoorbell q

/-- Apply a CQ head write (R394). -/
def State.cqHead (s : State) (q h : Nat) : State :=
  if s.cqAccepts q h then s.setFld f_HOST_CQH_INDEX q h else s.rejectDoorbell q

/-- A doorbell from the host: rejected under REPLAY (R451), logged under RECORD (R438), held back while the ring is full
(R445). -/
def State.doorbell (s : State) (sub q v : Nat) (f : State → State) : State :=
  if !s.barUp then s
  else if s.mode mREPLAY then (s.rejectDoorbell q).bump .REH_LIVEDROP 0 1
  else
    match s.external (fun seq => { q0 := recQ0 3 0 0 true sub seq, q1 := q * 2 ^ 16 + v }) with
    | none => s
    | some s => f s

/-- SQ_TAIL_DOORBELL (R394). -/
def execSqTailDoorbell (q : Fin 64) (t : BitVec 16) (s : State) : Ans :=
  .next (s.doorbell 2 q t.toNat (fun s => s.sqTail q t.toNat))

/-- CQ_HEAD_DOORBELL (R394). -/
def execCqHeadDoorbell (q : Fin 64) (h : BitVec 16) (s : State) : Ans :=
  .next (s.doorbell 3 q h.toNat (fun s => s.cqHead q h.toNat))

/-- An OUT of a value to HOST.CQT (R394): accepted, with MSI-X when the tail changes, or refused. -/
def State.cqTail (s : State) (q c : Nat) : State :=
  let n := ringSize (s.reg .HOST_CQCFG q)
  let h := s.fld f_HOST_CQH_INDEX q
  let t := s.fld f_HOST_CQT_INDEX q
  if c < n && decide (ringDist n t h ≤ ringDist n c h) then
    let s := s.setFld f_HOST_CQT_INDEX q c
    if c != t && s.flag f_HOST_CQCFG_IE q then s.msix (s.fld f_HOST_CQCFG_IV q) else s
  else s.setFld f_HOST_ERR_CQOVR 0 1

/-- HOST_CQT_WRITE (R394). -/
def execHostCqtWrite (q : Fin 64) (v : BitVec 16) (s : State) : Ans :=
  .next (if s.mode mREPLAY then s.bump .REH_LIVEDROP 0 1 else s.cqTail q v.toNat)

/-- MSIX_TABLE_WRITE (R394): an entry's address, data and mask; a pending message is sent on unmask. -/
def execMsixTableWrite (n : Fin 64) (addr : BitVec 64) (data : BitVec 32) (mask : Bool) (s : State) : Ans :=
  .next (if !s.barUp then s
  else
    let e := s.host.msix.getD n {}
    let e' : Msix := { addr := addr.toNat, data := data.toNat, masked := mask, pend := e.pend && mask }
    let s := s.modHost (fun h => { h with msix := h.msix.set n e' })
    if e.pend && !mask then { s with wire := .msix e'.addr e'.data :: s.wire } else s)

/-! ### Host accesses through the HDM windows -/

/-- CXL.mem requests of the host are served now (R384, R396, R398, R447, R468, R498): in Dark and under a snapshot hold they wait. -/
def State.cxlMem (s : State) : Bool :=
  s.linkUp && s.flag f_HOST_LINK_CXL 0 && !s.host.cxlOff && s.hostStage && s.status != 5

/-- Bytes of HDM0 and HDM1 (R384). -/
def hdm0Size : Nat := 72 * 2 ^ 30
def hdm1Size : Nat := 9 * 2 ^ 30

/-- Offset of a host address in a committed decoder's range. -/
def hdmOff (base : Option Nat) (size a : Nat) : Option Nat :=
  match base with
  | none => none
  | some b => if b ≤ a && a < b + size then some (a - b) else none

/-- A datum with the bytes of a mask replaced. -/
def mergeBytes (old new mask : Nat) : Nat :=
  ((List.range 8).map (fun i => (if mask.testBit i then new / 256 ^ i % 256 else old / 256 ^ i % 256) * 256 ^ i)).sum

/-- The words that a write of a device line through HDM0 leaves (R385, R399). -/
def State.hdm0Words (s : State) (line : Nat) (data : List W64) (mask : Nat) (poison : Bool) : List (Nat × TWord) :=
  let keep := s.flag f_HOST_CTL_DPRESERVE 0 && !(s.mode mSEALED)
  ((List.range 8).filter (fun i => mask / 256 ^ i % 256 != 0)).map (fun i =>
    let pa := line * 8 + i
    let old := s.rd pa
    let d := mergeBytes old.datum.toNat (data.getD i 0).toNat (mask / 256 ^ i % 256)
    (pa, if poison then wPOISON else ⟨if keep then old.tag else 0, w64 d⟩))

/-- An 8-byte number of bytes, the first lowest. -/
def tagBytes (l : List Nat) : Nat := l.foldr (fun b a => b % 256 + 256 * a) 0

/-- The record of a write through HDM0: the line's datums after the write, its tags, and the byte mask (R440). -/
def State.hdm0Rec (s : State) (line : Nat) (ws : List (Nat × TWord)) (mask : Nat) : Recd :=
  let w (i : Nat) : TWord := match ws.find? (fun x => x.1 == line * 8 + i) with | some x => x.2 | none => s.rd (line * 8 + i)
  let l := (List.range 8).map w
  { q0 := recQ0 3 0 5 true 0 0, q1 := line * 8,
    units := l.map (fun x => x.datum.toNat) ++ [tagBytes (l.map (fun x => x.tag.toNat)), mask] }

/-- HDM0_WRITE (R384-R386, R399): up to 64 bytes of one line at a host address, with a byte mask. -/
def execHdm0Write (addr : BitVec 64) (data : List (BitVec 64)) (mask : BitVec 64) (poison : Bool) (s : State) : Ans :=
  .next (if !s.cxlMem || s.flag f_REH_STAT_SNAPHOLD 0 then s
  else
    match hdmOff s.host.hdm0 hdm0Size addr.toNat with
    | none => s
    | some off =>
      if s.mode mREPLAY then (s.bump .REH_LIVEDROP 0 1).answerHost 0 []
      else
        let line := off / 64
        let ws := s.hdm0Words line data mask.toNat poison
        s.atHome (.write line ws (s.hdm0Rec line ws mask.toNat)))

/-- Host tag writes are applied (R385). -/
def State.tagWrites (s : State) : Bool := s.flag f_HOST_CTL_TAGWR 0 && !(s.mode mSEALED)

/-- The words of a line that a tag write leaves. -/
def State.hdm1Words (s : State) (line tags mask : Nat) : List (Nat × TWord) :=
  ((List.range 8).filter (fun i => mask.testBit i)).map (fun i =>
    (line * 8 + i, ⟨BitVec.ofNat 8 (tags / 256 ^ i), (s.rd (line * 8 + i)).datum⟩))

/-- HDM1_WRITE (R384-R386): the tag bytes of one line of words, with a byte mask. -/
def execHdm1Write (addr : BitVec 64) (tags : BitVec 64) (mask : BitVec 8) (s : State) : Ans :=
  .next (if !s.cxlMem || s.flag f_REH_STAT_SNAPHOLD 0 then s
  else
    match hdmOff s.host.hdm1 hdm1Size addr.toNat with
    | none => s
    | some off =>
      if !s.tagWrites then (s.bump .HOST_TAGWRDROP 0 1).answerHost 0 []
      else if s.mode mREPLAY then (s.bump .REH_LIVEDROP 0 1).answerHost 0 []
      else
        let line := off / 8
        let r : Recd := { q0 := recQ0 3 0 1 true 1 0, q1 := line * 8, units := [tags.toNat, mask.toNat] }
        s.atHome (.write line (s.hdm1Words line tags.toNat mask.toNat) r))

/-- A host read of a line: dirty data is recalled first (R266); no Scene is doomed and nothing is recorded (R386, R439). -/
def State.hostFetch (s : State) (line : Nat) : State :=
  let s := s.countUreq line
  match s.dirOf line with
  | none => s
  | some e =>
    match e.owner with
    | some o => (s.clDemote o line).setDir { e with owner := none, sharers := [o] }
    | none => s

/-- HOST_MEM_READ (R384, R386, R399): the 64 bytes at a host address of HDM0 or HDM1. -/
def execHostMemRead (addr : BitVec 64) (s : State) : Ans :=
  .next (if !s.cxlMem then s
  else
    match hdmOff s.host.hdm0 hdm0Size addr.toNat, hdmOff s.host.hdm1 hdm1Size addr.toNat with
    | some off, _ =>
      let line := off / 64
      let s := s.hostFetch line
      let ws := (lineWords line).map s.rd
      s.answerHost (if ws.any (fun w => ty w == tPOISON) then 3 else 0) (ws.map (fun w => w.datum.toNat))
    | none, some off =>
      let first := off / 64 * 64
      let s := (List.range 8).foldl (fun (s : State) i => s.hostFetch (first / 8 + i)) s
      s.answerHost 0 ((List.range 64).map (fun i => (s.rd (first + i)).tag.toNat))
    | none, none => s)

/-- HOST_SNOOP (R266, R295, R468): a snoop of a line of host memory; `own` when the host takes it for writing. The holding
clusters give it up, with dirty data, before the answer. -/
def execHostSnoop (addr : BitVec 64) (own : Bool) (s : State) : Ans :=
  let base := (s.reg .HOST_CACHEBASE 0).toNat / 8 * 8
  .next (if !s.linkUp || !(s.flag f_HOST_LINK_CXL 0) || addr.toNat < base then s
  else
    let pa := 0x001000000000 + (addr.toNat - base) / 8
    let line := lineOf pa
    if place pa != .host || s.status == 5 then { s with wire := .snoop line false [] :: s.wire }
    else
      s.atHome (.snoop line own))

/-- HDM_DECODER_COMMIT (R384, R396, R494): the host commits the base of decoder 0 or 1. -/
def execHdmDecoderCommit (second : Bool) (base : BitVec 64) (s : State) : Ans :=
  .next (if s.barUp && s.flag f_HOST_LINK_CXL 0 && s.hostStage then
    s.modHost (fun h => if second then { h with hdm1 := some base.toNat, cxlOff := false }
      else { h with hdm0 := some base.toNat, cxlOff := false })
  else s)

/-! ### Device accesses to host memory -/

/-- A core waits for a read of a pa: of its line in the CXL.cache window, of the location itself in the other. -/
def Core.waitsHost (k : Core) (pa : Nat) : Option Nat :=
  match k.wait with
  | some (.hostRead p va) => if (if place pa == .mmio then p == pa else lineOf p == lineOf pa) then some va else none
  | _ => none

/-- Bus error, RESPONSE, on every core that waits for a read that p picks (R390). -/
def State.failReads (s : State) (p : Core → Option Nat) : State :=
  let l := (List.range s.nCores).filterMap (fun c => (p (s.core c)).map (fun va => (c, va)))
  l.foldl (fun (s : State) x => s.failWait x.1 { vec := 6, sub := 3, addr := x.2 }) s

/-- A core waits for the host to give a line: for a read of it, or for a store. -/
def Core.waitsLine (k : Core) (line : Nat) : Bool :=
  match k.wait with
  | some (.hostRead p _) => place p != .mmio && lineOf p == line
  | some (.line _) => true
  | _ => false

/-- The host has given a line (R266, R389): its words where it lies in host memory; those who wait for it go on. -/
def State.hostGave (s : State) (line : Nat) (data : List (BitVec 64)) (poison : Bool) : State :=
  let w (i : Nat) : TWord := if poison then wPOISON else ⟨0, data.getD i 0⟩
  let put (s : State) (i : Nat) : State :=
    let p := line * 8 + i
    if s.home.any (fun x => x.1 == p) then { s with home := s.home.map (fun x => if x.1 == p then (p, w i) else x) }
    else s.wr p (w i)
  let s := match place (line * 8) with | .host => (List.range 8).foldl put s | _ => s
  { s with held := if s.held.contains line then s.held else line :: s.held
           asked := s.asked.filter (fun x => x != line)
           cores := s.cores.map (fun k => if k.waitsLine line then { k with wait := none } else k) }

/-- HOST_READ_COMPLETION (R266, R389, R390, R399): the data of a device read of a host window or of a line in host bias, or an error. -/
def execHostReadCompletion (pa : BitVec 48) (data : List (BitVec 64)) (poison err : Bool) (s : State) : Ans :=
  let a := pa.toNat
  let line := lineOf a
  .next (if place a != .mmio then
    if !(s.asked.contains line) && !((List.range s.nCores).any (fun c => ((s.core c).waitsHost a).isSome)) then s
    else if err then { s.failReads (fun k => k.waitsHost a) with asked := s.asked.filter (fun x => x != line) }
    else s.hostGave line data poison
  else
    match s.lowest (fun c => ((s.core c).waitsHost a).isSome) with
    | none => s
    | some c =>
      if err then s.failReads (fun k => k.waitsHost a)
      else s.modCore c (fun k => { k with wait := none, hostBuf := k.hostBuf ++ [(a, data.getD 0 0)] }))

/-- HOST_WRITE_REFUSED (R390). -/
def execHostWriteRefused (s : State) : Ans := .next (s.bump .HOST_UNCORR 0 1)

/-! ### Bias -/

/-- Pages of local datum storage. -/
def biasPages : Nat := 0x000240000000 / 512

/-- Write a page's bias bit: its commit point (R388). -/
def State.setBias (s : State) (p : Nat) (host : Bool) : State :=
  let a := biasTable + p / 64
  s.agentWrite 512 a (word tRAW (setBits (s.rd a).datum (p % 64) (p % 64) (b2n host)).toNat)

/-- One page changes its bias (R388). -/
def State.biasPage (s : State) (p : Nat) (toDev : Bool) : State :=
  if biasPages ≤ p then s
  else
    let lines := (List.range 64).map (fun i => p * 64 + i)
    let s := if toDev then lines.foldl (fun (s : State) l => { s with wire := .flush l :: s.wire }) s
      else lines.foldl (fun (s : State) l => s.flushLine l) s
    s.setBias p (!toDev)

/-- The bias command's status (R388). -/
def State.biasEnd (s : State) (st : Nat) : State :=
  ((s.modHost (fun h => { h with bias := none })).setFld f_HOST_BIASCMD_BUSY 0 0).setFld f_HOST_BIASCMD_STATUS 0 st

/-- The running bias command makes its next page, or stops after one when an abort was written. -/
def State.biasStep (s : State) : State :=
  match s.host.bias with
  | none => s
  | some (p, n, dev, ab) =>
    let s := s.biasPage p dev
    if ab then s.biasEnd 2
    else if n ≤ 1 then s.biasEnd 1
    else s.modHost (fun h => { h with bias := some (p + 1, n - 1, dev, false) })

/-- A write that starts a bias command, `old` being the register before it (R388). -/
def State.biasStart (s : State) (old v : W64) : State :=
  if s.host.bias.isSome then (s.setReg .HOST_BIASCMD 0 old).setFld f_HOST_ERR_BIASBUSY 0 1
  else
    let s := s.setReg .HOST_BIASCMD 0 (w64 (2 ^ 63 + bits v 59 59 * 2 ^ 59 + bits v 55 40 * 2 ^ 40 + bits v 24 0))
    s.modHost (fun h => { h with bias := some (bits v 24 0, bits v 55 40 + 1, bit v 59, false) })

/-- An abort (R388): the command stops after the page in progress; without one it is discarded. -/
def State.biasAbort (s : State) : State :=
  let s := s.setFld f_HOST_BIASCMD_ABORT 0 0
  match s.host.bias with
  | some (p, n, dev, _) => s.modHost (fun h => { h with bias := some (p, n, dev, true) })
  | none => s.setFld f_HOST_BIASCMD_STATUS 0 3

/-- HOST_BIASCMD (R388). -/
def execHostBiascmd (v : BitVec 64) (s : State) : Ans := .next (s.biasStart (s.reg .HOST_BIASCMD 0) v)

/-- HOST_BIASCMD_ABORT (R388). -/
def execHostBiascmdAbort (s : State) : Ans := .next s.biasAbort

/-! ### Viral, link, resets of the link -/

/-- The device signals viral (R400). -/
def State.viral (s : State) : State :=
  let s := s.setFld f_HOST_CTL_VIRAL 0 1
  { s with wire := .viral :: s.wire }

/-- HOST_CTL_VIRAL (R400). -/
def execHostCtlViral (s : State) : Ans := .next s.viral

/-- Outstanding reads of both windows fail (R390). -/
def State.failWindows (s : State) : State :=
  s.failReads (fun k => match k.wait with | some (.hostRead _ va) => some va | _ => none)

/-- VIRAL_RECEIVED (R400). -/
def execViralReceived (s : State) : Ans :=
  .next (if s.linkUp then
    (((s.modHost (fun h => { h with viralIn := true })).setFld f_HOST_ERR_VIRALIN 0 1).failWindows).cueEvent 113
  else s)

/-- The link leaves its up state (R390). -/
def State.linkLost (s : State) : State :=
  let s := s.setReg .HOST_LINK 0 (w64 (bits (s.reg .HOST_LINK 0) 13 12 * 2 ^ 12))
  s.failWindows

/-- LINK_DOWN (R390). -/
def execLinkDown (s : State) : Ans :=
  .next (if s.linkUp then ((s.linkLost).setFld f_HOST_ERR_LINKDOWN 0 1).cueEvent 113 else s)

/-- HOST_LINK_UP (R382): CXL mode or PCIe fallback, width 4, 8 or 16, and 32 or 16 GT/s. -/
def execHostLinkUp (cxl : Bool) (width : Fin 3) (fast : Bool) (s : State) : Ans :=
  .next (if s.host.perst || s.status == 0 then s
  else
    let n := bits (s.reg .HOST_LINK 0) 13 12
    let s := s.setReg .HOST_LINK 0 (w64 (n * 2 ^ 12 + 2 ^ 11 + b2n cxl * 2 ^ 10 + (1 + b2n fast) * 2 ^ 8 + 4 * 2 ^ width.val))
    s.modHost (fun h => { h with cxlOff := false }))

/-- Host lines that the device holds. -/
def State.hostLines (s : State) : List Nat := (s.dir.map (fun e => e.line)).filter (fun l => place (l * 8) == .host)

/-- Queue indices and the MSI-X table clear (R398). -/
def State.clearQueues (s : State) : State :=
  let s := (List.range 64).foldl (fun (s : State) q =>
    (((s.clearReg .HOST_SQT q).clearReg .HOST_SQH q).clearReg .HOST_CQT q).clearReg .HOST_CQH q) s
  s.modHost (fun h => { h with msix := List.replicate 64 {} })

/-- PERST_N_ASSERT (R398, R400): the link and transaction layers reset; dirty host lines are lost. -/
def State.perstAssert (s : State) : State :=
  let lost := (s.hostLines.filter (fun l => (List.range s.nClusters).any (fun cl => s.clDirty cl l))).length
  let s := s.hostLines.foldl (fun (s : State) l => (List.range s.nClusters).foldl (fun (s : State) cl => s.dropLine cl l) s) s
  let s := (s.bump .HOST_LOSTWB 0 lost).linkLost
  let s := s.setReg .HOST_LINK 0 0
  let s := s.clearQueues
  let s := (List.range 16).foldl (fun (s : State) i => s.setReg .HOST_PWIN i 0) s
  let s := s.setFld f_HOST_CTL_VIRAL 0 0
  let s := s.modHost (fun h => { h with perst := true, hdm0 := none, hdm1 := none, viralIn := false, cxlOff := false, cfg := [],
                                        mbOp := 0, mbStatus := 0, mbData := [], spdm := {}, ideIo := {}, ideCm := {} })
  s.cueEvent 113
def execPerstNAssert (s : State) : Ans := .next (if s.host.perst then s else s.perstAssert)

/-- PERST_N_DEASSERT (R494). -/
def execPerstNDeassert (s : State) : Ans :=
  .next (if s.host.perst then s.modHost (fun h => { h with perst := false, perstAt := s.time }) else s)

/-- FLR (R398): configuration space, BAR0 state, queue indices and the MSI-X table clear. -/
def execFlr (s : State) : Ans :=
  .next (if s.linkUp then
    s.clearQueues.modHost (fun h => { h with cfg := [], mbOp := 0, mbStatus := 0, mbData := [] })
  else s)

/-- Every device-held host line is written back and invalidated (R398, R467). -/
def State.flushHost (s : State) : State :=
  s.hostLines.foldl (fun (s : State) l => { s.flushLine l with held := s.held.erase l }) s

/-- Every word of local datum storage becomes RAW 0 (R398): caches drop the lines first. -/
def State.clearLocal (s : State) : State :=
  let inLoc (p : Nat) : Bool := place p == .loc
  let s := (s.dir.filter (fun e => inLoc (e.line * 8))).foldl (fun (s : State) e => s.flushLine e.line) s
  let left := s.emptied.filter (fun r => !(inLoc r.1))
  { s with mem := s.mem.filter (fun x => !(inLoc x.1) && x.2 != dfltIn left x.1)
           home := s.home.filter (fun x => !(inLoc x.1))
           emptied := left }

/-! ### Configuration space and DOE -/

/-- A dword of configuration space that the spec does not list (R383): what the CXL and PCIe specifications require. -/
def State.cfgRead (s : State) (a : Nat) : Nat :=
  let v := (s.host.cfg.find? (fun x => x.1 == a)).map (fun x => x.2)
  let dev := match s.part with | .xpr3610 => 0x3610 | .xpr3604 => 0x3604
  match a with
  | 0 => dev * 2 ^ 16 + 0x1F9B
  | 2 => 0x120000 * 2 ^ 8 + 0xB1
  | 4 => v.getD 0 / 2 ^ 24 * 2 ^ 24 + 4
  | 6 => v.getD 0 / 2 ^ 26 * 2 ^ 26 + 4
  | _ => v.getD (Config.cfgDword a).toNat

/-- CONFIGURATION_REQUEST (R383, R494): a read or write of a dword of configuration space. -/
def execConfigurationRequest (wr : Bool) (dword : BitVec 10) (v : BitVec 32) (s : State) : Ans :=
  let a := dword.toNat
  .next (if !s.linkUp then s
  else if s.retryStatus then s.answerHost 2 []
  else if wr then
    (if a == 0 || a == 2 then s
     else s.modHost (fun h => { h with cfg := (a, v.toNat) :: h.cfg.filter (fun x => x.1 != a) })).answerHost 0 []
  else s.answerHost 0 [s.cfgRead a])

/-- CDAT_READ (R397): HDM0 and HDM1 as two DSMAS entries, each with its first DPA and its length. -/
def execCdatRead (s : State) : Ans :=
  .next (if s.barUp then { s with wire := .doe 2 [0, hdm0Size, hdm0Size, hdm1Size] :: s.wire } else s)

end Sys2Proof.Machine
end

