-- ==== Sys2Proof/Machine/Session.lean ====
section
/-! DEFINITION. Recording sessions (R443-R448), the drainer (R444), replay preparation and the order of a replayed log
(R449-R453), and the trace unit's own entries (R456). -/

namespace Sys2Proof.Machine

open Sys2Proof

/-! ### Sessions -/

/-- An agent is recorded (R433): a core of an enabled cluster that is no checker, or a Stagehand engine of an enabled cluster. -/
def State.recordedAgent (s : State) (a : Nat) : Bool :=
  if a < 256 then s.enabledClusters.contains (clusterOf a) && !(s.checker a)
  else s.enabledClusters.contains (a - 256)

/-- The recorded agents in order. -/
def State.recordedAgents (s : State) : List Nat := (List.range 288).filter s.recordedAgent

/-- A mask of the numbers below n for which p holds. -/
def maskOf (n : Nat) (p : Nat → Bool) : Nat := ((List.range n).map (fun i => if p i then 2 ^ i else 0)).sum

/-- Every µTLB, cluster TLB, walk cache and walk-result latch is invalidated (R446 step 1). -/
def State.dropTranslations (s : State) : State :=
  { s with
    cores := s.cores.map (fun k => { k with mem := { k.mem with
      dtlb := List.replicate 32 none, itlb := List.replicate 16 none, dlru := [], ilru := [], latch := .empty } })
    clusters := s.clusters.map (fun k => { k with ctlb := [], s2tlb := [], wc := [] }) }

/-- Word i of the masks of recorded agents (R446). -/
def State.agentMask (s : State) (i : Nat) : Nat := maskOf 64 (fun j => s.recordedAgent (64 * i + j))

/-- The payload of BEGIN (R446). -/
def State.beginWords (s : State) : List Nat :=
  let en := s.enabledClusters
  let eff (f : Fld) (k : Nat) : Nat := maskOf 32 (fun q => en.contains q && s.effMode f k q)
  [(s.reg .DEV_ID 0).toNat, maskOf 32 (fun q => en.contains q), eff f_CLU_MODE_LOCKSTEP mLOCKSTEP, eff f_CLU_MODE_STRICT mSTRICT,
   s.fld f_REH_HASHINT_CHUNKS 0 + s.fld f_REH_CTL_SNAP 0 * 2 ^ 16 + b2n (s.mode mSEALED) * 2 ^ 17 + b2n (s.mode mREPLAY) * 2 ^ 18]
    ++ (List.range 5).map s.agentMask
    ++ (List.range 32).map (fun q => if en.contains q then (s.mcver q).toNat else 0)

/-- The BEGIN record. -/
def State.beginRec (s : State) : Recd := { q0 := recQ0 9 0 21 false 0 0, q1 := s.time, units := s.beginWords }

/-- A recording session begins (R446, R447): its BEGIN record is in the ring, and with SNAP=1 the clusters stay held. -/
def State.sessionBegin (s : State) : State :=
  let s := s.dropTranslations.dropChunks
  let s := s.putRecord s.beginRec
  s.setReg .REH_STAT 0 (w64 (2 ^ 63 + s.fld f_REH_CTL_SNAP 0 * 2 ^ 61))

/-- The END record of a session (R440). -/
def State.endRec (s : State) (sub : Nat) : Recd := mkRec 0xA 0 sub (s.seq - 1) s.time

/-- A recording session ends (R448): the last chunks end with cause SESSION, and END is written. None while the ring has no room
for them under STALL. -/
def State.sessionEnd (s : State) (sub : Nat) : Option State :=
  if !(s.flag f_REH_STAT_ACTIVE 0) then some s
  else
    let s := s.recordedAgents.foldl (fun (s : State) a => s.endChunk a 6 []) s
    let s := State.commitAll s.reh.queue.length s
    if !(s.flag f_REH_STAT_ACTIVE 0) then some s
    else if s.reh.queue.isEmpty then
      some ((((s.putRecord (s.endRec sub)).dropChunks).setFld f_REH_STAT_ACTIVE 0 0).setFld f_REH_STAT_SNAPHOLD 0 0)
    else none

/-- REH.CTL.ABORT (R448). -/
def State.sessionAbort (s : State) : State :=
  let s := s.setFld f_REH_CTL_ABORT 0 0
  if s.flag f_REH_STAT_ACTIVE 0 then
    let s := State.commitAll s.reh.queue.length s
    if s.flag f_REH_STAT_ACTIVE 0 then
      let s := (s.dropChunks.putRecord (s.endRec 1)).setFld f_REH_STAT_ACTIVE 0 0
      (s.setFld f_REH_STAT_SNAPHOLD 0 0).setFld f_REH_STAT_ABRES 0 1
    else s.setFld f_REH_STAT_ABRES 0 2
  else s.setFld f_REH_STAT_ABRES 0 2

/-- REH_CTL_ABORT (R448). -/
def execRehCtlAbort (s : State) : Ans := .next s.sessionAbort

/-! ### Chunks and the ring -/

/-- CHUNK_END (R434): an agent's chunk ends where its END cause is due, or at its 4,096th event. -/
def execChunkEnd (a : Fin 288) (s : State) : Ans :=
  .next (match (s.chunkOf a).due with
    | some cause => s.endChunk a cause []
    | none => s)

/-- CHUNK_COMMIT (R437, R442): the chunk that ended first commits. -/
def execChunkCommit (s : State) : Ans := .next s.commitChunk

/-- RHEAD advances, and chunks that waited for room commit (R444, R445). -/
def State.rheadWrite (s : State) (v : Nat) : State :=
  let s := s.setFld f_REH_RHEAD_INDEX 0 v
  State.commitAll s.reh.queue.length s

/-- REH_RHEAD_WRITE (R445). -/
def execRehRheadWrite (v : BitVec 32) (s : State) : Ans := .next (s.rheadWrite v.toNat)

/-- REH_HHEAD_WRITE (R444). -/
def execRehHheadWrite (v : BitVec 32) (s : State) : Ans := .next (s.setFld f_REH_HHEAD_INDEX 0 v.toNat)

/-- A software marker joins the issuing agent's stream (R438, R440). -/
def State.mark (s : State) (c v : Nat) : State := s.note c (mkRec 7 c 0 ((s.chunkOf c).len % 2 ^ 13) v)

/-- REH_MARK (R438); an OUT to the Rehearsal unit has no effect under REPLAY (R451). -/
def execRehMark (c : Fin 256) (v : BitVec 64) (s : State) : Ans :=
  .next (if s.mode mREPLAY then s.bump .REH_LIVEDROP 0 1 else s.mark c v.toNat)

/-- Units that wait in the ring, and units the host buffer still takes (R444). -/
def State.ringUsed (s : State) : Nat := (s.fld f_REH_RTAIL_INDEX 0 + 2 ^ 32 - s.fld f_REH_RHEAD_INDEX 0) % 2 ^ 32
def State.hostRoom (s : State) : Nat :=
  s.fld f_REH_HBSIZE_SIZE 0 * 256 - (s.fld f_REH_HTAIL_INDEX 0 + 2 ^ 32 - s.fld f_REH_HHEAD_INDEX 0) % 2 ^ 32

/-- The pa in the CXL.cache window of a host byte address (R389). -/
def State.hostPa (s : State) (a : Nat) : Nat := 0x001000000000 + (a - (s.reg .HOST_CACHEBASE 0).toNat / 8 * 8) / 8

/-- Copy n words of the ring, from word i on, to the host buffer from its word j on. -/
def State.pushWords (s : State) (i j n : Nat) : State :=
  let cap := Nat.max 1 (s.ringCap * 2)
  let hcap := Nat.max 1 (s.fld f_REH_HBSIZE_SIZE 0 * 512)
  let base := s.fld f_REH_HBUF_BASE 0 * 4096
  (List.range n).foldl (fun (s : State) k =>
    s.agentWrite 512 (s.hostPa (base + (j + k) % hcap * 8)) (s.rd (s.fld f_REH_RING_BASE 0 + (i + k) % cap))) s

/-- HOSTPUSH_DRAIN (R444): the oldest record of the ring is copied to the host buffer and released. -/
def execHostpushDrain (s : State) : Ans :=
  let h := s.fld f_REH_RHEAD_INDEX 0
  let t := s.fld f_REH_HTAIL_INDEX 0
  let q0 := (s.rd (s.fld f_REH_RING_BASE 0 + h * 2 % Nat.max 1 (s.ringCap * 2))).datum
  let n := 1 + bits q0 50 44
  .next (if s.fld f_REH_CTL_DRAIN 0 == 1 && s.hostUp && !(s.mode mREPLAY) && decide (n ≤ s.ringUsed) && decide (n ≤ s.hostRoom) then
    ((s.pushWords (h * 2) (t * 2) (2 * n)).setFld f_REH_HTAIL_INDEX 0 ((t + n) % 2 ^ 32)).rheadWrite ((h + n) % 2 ^ 32)
  else s)

/-! ### A log as the host supplies it -/

/-- Payload units that a record of a type and SUB has (R440). -/
def plenOk (r : Recd) : Bool :=
  let type := r.q0 / 2 ^ 60 % 16
  let sub := r.q0 / 2 ^ 40 % 8
  let n := r.units.length / 2
  match type with
  | 0 => n ≤ 1
  | 2 => n == (if sub == 4 then 1 else 0)
  | 3 => n == (match sub with | 0 => 5 | 1 => 1 | 4 => 1 | _ => 0)
  | 4 => true
  | 9 => n == 21
  | t => t ≤ 10 && n == 0

/-- The records of a log's words; none where one is malformed (R440, R449). -/
def parseLog (fuel : Nat) (l : List Nat) : Option (List Recd) :=
  match fuel with
  | 0 => if l.isEmpty then some [] else none
  | fuel + 1 =>
    match l with
    | [] => some []
    | [_] => none
    | q0 :: q1 :: rest =>
      let n := 2 * (q0 / 2 ^ 44 % 128)
      let r : Recd := { q0 := q0, q1 := q1, units := rest.take n }
      if rest.length < n || !(plenOk r) then none
      else (parseLog fuel (rest.drop n)).map (fun l => r :: l)

/-- Why a preparation is refused (R449): the CAUSE, of the first check that fails. -/
def State.prepCause (s : State) (rs : Option (List Recd)) (image : Bool) : Option Nat :=
  match rs with
  | none => some 5
  | some [] => some 5
  | some (b :: _) =>
    if b.q0 / 2 ^ 60 % 16 != 9 then some 5
    else
      let w (i : Nat) : Nat := b.units.getD i 0
      let mine := s.beginWords
      let m (i : Nat) : Nat := mine.getD i 0
      if w 0 / 2 ^ 40 % 256 != m 0 / 2 ^ 40 % 256 then some 0
      else if (List.range 32).any (fun q => w (10 + q) != 0 && w (10 + q) != (s.mcver q).toNat) then some 1
      else if (List.range 288).any (fun a => (w (5 + a / 64)).testBit (a % 64) &&
          !(s.enabledClusters.contains (if a < 256 then clusterOf a else a - 256))) then some 2
      else if w 2 != m 2 then some 3
      else if w 3 != m 3 then some 4
      else if s.flag f_REH_RPCTL_RESTORE 0 && !image then some 6
      else none

/-- The preparation begins (R449): only while REPLAY is off. -/
def State.prepStart (s : State) : State :=
  let s := s.setFld f_REH_RPCTL_PREP 0 0
  if s.mode mREPLAY then s else s.setReg .REH_RPSTAT 0 (w64 (2 ^ 60))

/-- The preparation's checks pass or fail; the enabled clusters are held where they pass (R449). -/
def State.prepCheck (s : State) (log : List Nat) (image : Bool) : Bool × State :=
  let rs := parseLog log.length log
  match s.prepCause rs image with
  | some cause => (false, s.setReg .REH_RPSTAT 0 (w64 (10 * 2 ^ 60 + cause * 2 ^ 56)))
  | none =>
    let l := rs.getD []
    let n := (l.headD { q0 := 0, q1 := 0 }).size
    let s := s.setFld f_REH_HHEAD_INDEX 0 ((s.fld f_REH_HHEAD_INDEX 0 + n) % 2 ^ 32)
    let b := (l.headD { q0 := 0, q1 := 0 }).units
    let r := { s.reh with hold := true, beginW := b, log := l.tail, old := l.tail, cur := none, ended := false }
    (true, { s with reh := r })

/-- REPLAY_READY (R449): the preparation completes. -/
def execReplayReady (s : State) : Ans :=
  .next (if s.fld f_REH_RPSTAT_CODE 0 == 1 && s.reh.hold then s.setFld f_REH_RPSTAT_CODE 0 2 else s)

/-- REPLAY is entered (R446, R449): translations go, and the agents wait for their chunks. -/
def State.replayBegin (s : State) : State :=
  let s := s.dropTranslations
  let s : State := { s with cores := s.cores.map (fun k => { k with chunk := {} })
                            clusters := s.clusters.map (fun k => { k with chunk := {} })
                            reh := { s.reh with hold := false } }
  s.setReg .REH_RPSTAT 0 (w64 (3 * 2 ^ 60))

/-- REPLAY is left (R451, R452): live Cue events and timers are delivered, and the agents go on live. -/
def State.replayLeave (s : State) : State :=
  let live := s.reh.live
  let s : State := { s with
    reh := { s.reh with live := [], log := [], old := [], cur := none, hold := false }
    cores := s.cores.map (fun k => { k with
      wait := if k.wait == some .replay then none else k.wait
      chunk := { k.chunk with vals := [], left := 0, goal := 0, stepGoal := 0 } })
    clusters := s.clusters.map (fun k => { k with chunk := { k.chunk with vals := [], left := 0, goal := 0, stepGoal := 0 } }) }
  let s := if s.fld f_REH_RPSTAT_CODE 0 ≤ 3 then s.setReg .REH_RPSTAT 0 0 else s
  let s := live.foldl (fun (s : State) x => s.cueEvent x) s
  (List.range s.nCores).foldl (fun (s : State) c => s.fireTimers c) s

/-- A record is consumed: HHEAD passes it (R449). -/
def State.consume (s : State) (r : Recd) (rest : List Recd) : State :=
  let s : State := { s with reh := { s.reh with log := rest } }
  s.setFld f_REH_HHEAD_INDEX 0 ((s.fld f_REH_HHEAD_INDEX 0 + r.size) % 2 ^ 32)

/-- An external record is applied at its SEQ (R437, R450): it is no live input, and what it would send out is not sent (R451). -/
def State.applyExternal (s : State) (r : Recd) : State :=
  let sub := r.q0 / 2 ^ 40 % 8
  let u (i : Nat) : Nat := r.units.getD i 0
  if r.q0 / 2 ^ 60 % 16 == 3 then
    match sub with
    | 0 => ((List.range 8).filter (fun i => u 9 / 256 ^ i % 256 != 0)).foldl (fun (s : State) i =>
        s.agentWrite 512 (r.q1 + i) ⟨BitVec.ofNat 8 (u 8 / 256 ^ i), w64 (u i)⟩) s
    | 1 => ((List.range 8).filter (fun i => (u 1).testBit i)).foldl (fun (s : State) i =>
        s.agentWrite 512 (r.q1 + i) ⟨BitVec.ofNat 8 (u 0 / 256 ^ i), (s.rd (r.q1 + i)).datum⟩) s
    | 2 => s.setFld f_HOST_SQT_INDEX (r.q1 / 2 ^ 16 % 64) (r.q1 % 2 ^ 16)
    | _ => s.setFld f_HOST_CQH_INDEX (r.q1 / 2 ^ 16 % 64) (r.q1 % 2 ^ 16)
  else
    let l := (r.units.drop 2).flatMap datumBytes
    let word (i : Nat) : TWord := ⟨BitVec.ofNat 8 (leAt l (10 * i + 8) 1), w64 (leAt l (10 * i) 8)⟩
    let m := Msg.ofWords (w64 (u 0)) (w64 (u 1)) ((List.range (u 0 / 2 ^ 13 % 32)).map word)
    match s.deliver none m with
    | none => s
    | some t => { t with wire := s.wire, tour := { t.tour with loop := s.tour.loop, ports := s.tour.ports } }

/-- A chunk of the log begins (R450): its agent receives its records and its length. LEN counts modulo 4,096; a full count with
another cause than LENGTH is a chunk without events. -/
def State.startChunk (s : State) (a : Nat) (vals : List Recd) (r : Recd) : State :=
  let n := r.q1 / 2 ^ 48 % 4096 + 1
  let len := if n == 4096 && r.q1 / 2 ^ 60 % 16 != 0 then 0 else n
  let s := s.modChunk a (fun k => { k with vals := vals, left := len, goal := len, stepGoal := r.units.headD 0 })
  let s := if a < 256 then s.modCore a (fun k => { k with wait := if k.wait == some .replay then none else k.wait }) else s
  { s with reh := { s.reh with cur := some (a, r) } }

/-- The records of the next chunk: those before its CHUNK record, the record, and the rest of the log. -/
def nextChunk (l : List Recd) : Option (List Recd × Recd × List Recd) :=
  match l with
  | [] => none
  | r :: rest =>
    if r.q0 / 2 ^ 60 % 16 == 0 then some ([], r, rest)
    else (nextChunk rest).map (fun x => (r :: x.1, x.2.1, x.2.2))

/-- The replay goes on (R450, R452): external records at their SEQ, then the next chunk, or a stop. `resumed` passes STOPSEQ. -/
def State.replayNext (fuel : Nat) (resumed : Bool) (s : State) : State :=
  match fuel with
  | 0 => s
  | fuel + 1 =>
    match s.reh.log with
    | [] => s
    | r :: rest =>
      let type := r.q0 / 2 ^ 60 % 16
      if type == 8 then (s.consume r rest).replayStop 8 0 0 (r.q0 % 2 ^ 40)
      else if type == 10 then
        let s := s.consume r rest
        ({ s with reh := { s.reh with ended := true } } : State).replayStop 5 0 0 (r.q0 % 2 ^ 40)
      else if bit (w64 r.q0) 43 then State.replayNext fuel resumed ((s.consume r rest).applyExternal r)
      else if type == 1 || type == 6 || type == 9 then State.replayNext fuel resumed (s.consume r rest)
      else
        match nextChunk s.reh.log with
        | none => s
        | some (vals, c, rest) =>
          let a := c.q0 / 2 ^ 51 % 512
          let seq := c.q0 % 2 ^ 40
          let stop := bits (s.reg .REH_RPCTL 0) 39 0
          if vals.any (fun v => v.q0 / 2 ^ 60 % 16 == 7 && v.q0 / 2 ^ 40 % 8 == 1) then s.replayStop 7 0 a seq
          else if stop != 0 && seq == stop && !resumed then s.replayStop 4 0 a seq
          else
            let s := vals.foldl (fun (s : State) v => s.consume v s.reh.log.tail) s
            (s.consume c rest).startChunk a vals c

/-- RPCTL.RESUME (R452): the replay goes on from STOPSEQ. -/
def State.replayResume (s : State) : State :=
  let s := s.setFld f_REH_RPCTL_RESUME 0 0
  if s.mode mREPLAY && s.fld f_REH_RPSTAT_CODE 0 == 4 then
    State.replayNext s.reh.log.length true (s.setReg .REH_RPSTAT 0 (w64 (3 * 2 ^ 60)))
  else s

/-- REPLAY_RESUME (R452). -/
def execReplayResume (s : State) : Ans := .next s.replayResume

/-- RPCTL.ABORT (R452): before END is consumed the replay stops; after it the request is discarded. -/
def State.replayAbort (s : State) : State :=
  let s := s.setFld f_REH_RPCTL_ABORT 0 0
  if !(s.mode mREPLAY) then s
  else if s.reh.ended then s.setFld f_REH_STAT_ABRES 0 2
  else s.replayStop 9 0 (match s.reh.cur with | some (a, _) => a | none => 0) s.curSeq

/-- REPLAY_ABORT (R452). -/
def execReplayAbort (s : State) : Ans := .next s.replayAbort

/-! ### Trace -/

/-- LOSS entries for entries lost, where there is room, and SYNC entries after them (R456). -/
def State.traceLoss (s : State) : State :=
  if s.flag f_REH_TCTL_FROZEN 0 || (s.reh.lossI == 0 && s.reh.lossE == 0) then s
  else
    let q (n : Nat) : Nat := traceQ1 s.time (Nat.min n 0xFFFFFF)
    let i := s.reh.lossI
    let e := s.reh.lossE
    let s : State := { s with reh := { s.reh with lossI := 0, lossE := 0 } }
    let s := if i == 0 then s else (s.putTrace true (8 * 2 ^ 60) (q i))
    let s := if e == 0 then s else (s.putTrace false (8 * 2 ^ 60) (q e))
    if i == 0 then s else { s with cores := s.cores.map (fun k => { k with traceN := 0 }) }

/-- TRACE_LOSS_ENTRY (R456). -/
def execTraceLossEntry (s : State) : Ans := .next s.traceLoss

/-- FROZEN is cleared: the buffers restart (R456). -/
def State.frozenClear (s : State) : State := (s.setFld f_REH_TCTL_FROZEN 0 0).traceLoss

/-- REH_TCTL_FROZEN_CLEAR (R456). -/
def execRehTctlFrozenClear (s : State) : Ans := .next s.frozenClear

end Sys2Proof.Machine
end

