-- ==== Sys2Proof/Machine/Clocks.lean ====
section
/-! DEFINITION. Clocks, gating, Dark, regulators, temperature and the time base (R458-R477). -/

namespace Sys2Proof.Machine

open Sys2Proof

/-- Change the clock and power state. -/
def State.modClk (s : State) (f : Clk → Clk) : State := { s with clk := f s.clk }

/-- Set bits of PWR.ALSTAT (R474). -/
def State.alert (s : State) (k : Nat) : State :=
  s.setFld f_PWR_ALSTAT_ALERT 0 (s.fld f_PWR_ALSTAT_ALERT 0 ||| 2 ^ k)

/-- PM_ALERT_N is asserted (R474). -/
def State.pmAlert (s : State) : Bool :=
  (List.range 5).any (fun k => (s.fld f_PWR_ALSTAT_ALERT 0).testBit k && !((s.fld f_PWR_ALMASK_ALERT 0).testBit k))

/-! ### Tile PLLs -/

/-- A tile PLL value is acceptable (R459): in range, a multiple of 25 MHz, CORE at most the fused maximum. -/
def coreMhzOk (t f : Nat) : Bool := 400 ≤ f && f ≤ 3000 && f % 25 == 0 && decide (f ≤ Config.fusedMax t)
def cchMhzOk (f : Nat) : Bool := 200 ≤ f && f ≤ 2000 && f % 25 == 0

/-- The frequency that caps leave a tile (R460, R470-R472). -/
def State.capMhz (s : State) (t f : Nat) : Nat :=
  let f := Nat.min f (Nat.min (s.clk.avsCap.getD t 3000) (s.clk.thCap.getD t 3000))
  Nat.min f (Nat.max 400 (f - s.clk.pwCut))

/-- A tile's effective CORE frequency (R460, R462): 400 MHz while its PLL coasts, at most 1,500 MHz under ECONOMY. -/
def State.effMhz (s : State) (t : Nat) : Nat :=
  if (s.fld f_CLK_STAT_PLLLOST 0).testBit t then 400
  else
    let f := s.fld f_CLK_TPLL_COREMHZ t
    s.capMhz t (if s.mode mECONOMY then Nat.min f 1500 else f)

/-- PWR.THR (R470-R472): the suppression of each tile, and the tiles whose frequency is lowered. -/
def State.setThr (s : State) : State :=
  let sup (t : Nat) : Nat := Nat.max s.clk.pwSup (s.clk.thSup.getD t 0)
  let low (t : Nat) : Bool := let f := s.fld f_CLK_TPLL_COREMHZ t; s.capMhz t f != f
  s.setReg .PWR_THR 0 (w64 (((List.range 4).map (fun t => b2n (low t) * 2 ^ (16 + t) + sup t % 16 * 2 ^ (4 * t))).sum))

/-- A change of a tile PLL begins (R460): its clusters are held while BUSY reads 1. -/
def State.tpllStart (s : State) (t core cch : Nat) : State :=
  let s := ((s.setFld f_CLK_TPLL_COREMHZ t core).setFld f_CLK_TPLL_CCHMHZ t cch).setFld f_CLK_TPLL_BUSY t 1
  s.modClk (fun k => { k with tpll := k.tpll.set t (some (w64 (cch * 2 ^ 16 + core))) })

/-- A new value for a tile PLL (R460): while a change runs only the latest waits. -/
def State.tpllSet (s : State) (t core cch : Nat) : State :=
  if (s.clk.tpll.getD t none).isSome then
    s.modClk (fun k => { k with tpllNext := k.tpllNext.set t (some (w64 (cch * 2 ^ 16 + core))) })
  else s.tpllStart t core cch

/-- A tile's effective frequency changes for another reason than a write (R460, R470-R472). -/
def State.tpllTouch (s : State) (t : Nat) : State :=
  let s := s.setThr
  if (s.clk.tpll.getD t none).isSome || s.effMhz t == s.fld f_CLK_TPLL_EFFMHZ t then s
  else s.tpllStart t (s.fld f_CLK_TPLL_COREMHZ t) (s.fld f_CLK_TPLL_CCHMHZ t)

/-- A write of CLK.TPLLt (R459, R460): a field with a reserved value keeps its value and DEV.ERR.RSVW is set. -/
def State.tpllWrite (s : State) (t core cch : Nat) : State :=
  let s := if coreMhzOk t core && cchMhzOk cch then s else s.setFld f_DEV_ERR_RSVW 0 1
  s.tpllSet t (if coreMhzOk t core then core else s.fld f_CLK_TPLL_COREMHZ t)
    (if cchMhzOk cch then cch else s.fld f_CLK_TPLL_CCHMHZ t)

/-- CLK_TPLL_WRITE (R460). -/
def execClkTpllWrite (t : Fin 4) (core cch : BitVec 12) (s : State) : Ans := .next (s.tpllWrite t core.toNat cch.toNat)

/-- A rail's confirmed voltage (R460, R470). -/
def State.setMv (s : State) (t mv : Nat) : State := s.setReg .PWR_AVS 0 (setBits (s.reg .PWR_AVS 0) (10 * t + 9) (10 * t) mv)

/-- The running change of a tile PLL completes (R460). -/
def State.tpllDone (s : State) (t : Nat) : State :=
  if (s.clk.tpll.getD t none).isNone then s
  else
    let f := s.effMhz t
    let s := ((s.setFld f_CLK_TPLL_EFFMHZ t f).setMv t (Config.fusedMv t f)).setFld f_CLK_TPLL_BUSY t 0
    let next := s.clk.tpllNext.getD t none
    let s := s.modClk (fun k => { k with tpll := k.tpll.set t none, tpllNext := k.tpllNext.set t none })
    match next with
    | none => s.setThr
    | some v => (s.tpllStart t (bits v 11 0) (bits v 27 16)).setThr

/-! ### Start-up and clock failure -/

/-- POR_N_RELEASE (R461, R479, R538): the straps are latched. -/
def execPorNRelease (profile : BitVec 2) (paddr : BitVec 3) (recover : Bool) (s : State) : Ans :=
  .next (if s.clk.aon && s.clk.por then
    (s.modClk (fun k => { k with por := false, porAt := s.time, profile := profile.toNat, paddr := paddr.toNat,
                                 recover := recover })).setFld f_PROMPTER_STAT_ADDR 0 (0x58 + paddr.toNat)
  else s)

/-- An event of the clocks is logged (R462-R464, R513). -/
def State.logClock (s : State) (unit : Nat) : State := s.logBb 4 unit (s.fld f_CLK_STAT_CAUSE 0)

/-- The data-plane PLLs run (R461, R467, R473, R492). -/
def State.dataPlane (s : State) : Bool := s.status == 2 || s.status == 3 || s.status == 4 || s.status == 8 || s.status == 9

/-- Data-plane PLLs lose lock or reference (R462). -/
def State.pllLose (s : State) (mask unit cause : Nat) : State :=
  let s := s.setFld f_CLK_STAT_PLLLOST 0 (s.fld f_CLK_STAT_PLLLOST 0 ||| mask)
  let s := (s.setFld f_CLK_STAT_LOSTREF 0 1).setFld f_CLK_STAT_CAUSE 0 cause
  let s := (List.range 4).foldl (fun (s : State) t => if mask.testBit t then s.setFld f_CLK_TPLL_EFFMHZ t 400 else s) s
  let s := ((s.alert 0).logClock unit).cueEvent 114
  if s.flag f_CLK_CTL_LRACT 0 then
    let (v, s) := s.fresh
    let s := s.stopAll (v.toNat % 256) 0xFE
    { s with status := 8 }
  else s.platform

/-- PLL_LOSS (R462): 0 to 3 a tile PLL, 4 to 7 an MC PLL, 8 the I/O tile PLL. -/
def execPllLoss (p : Fin 9) (s : State) : Ans := .next (if s.dataPlane then s.pllLose (2 ^ p.val) (2 ^ p.val) 4 else s)

/-- A coasting PLL relocks (R462). -/
def State.pllBack (s : State) (p : Nat) : State :=
  let n := s.fld f_CLK_STAT_PLLLOST 0
  if n.testBit p && !(s.flag f_CLK_STAT_FALLBACK 0) then
    let s := s.setFld f_CLK_STAT_PLLLOST 0 (n - 2 ^ p)
    if p < 4 then s.setFld f_CLK_TPLL_EFFMHZ p (s.effMhz p) else s
  else s

/-- PLL_RELOCK (R462). -/
def execPllRelock (p : Fin 9) (s : State) : Ans := .next (s.pllBack p)

/-- GRM and TIME go to AONRC (R463). -/
def State.fallback (s : State) : State :=
  let s := ((s.setFld f_CLK_STAT_FALLBACK 0 1).setFld f_CLK_STAT_ON32 0 0).setFld f_TIME_STAT_ON32 0 0
  let s := ((s.setFld f_TIME_STAT_DEGRADED 0 1).setFld f_CLK_STAT_CAUSE 0 1).alert 0
  s.logClock 0xFFFF

/-- SYSREF_LOST (R461, R463, R464): before the switch there is no reference; while AONRC does not run the Green Room goes to AON32;
otherwise to AONRC, and every data-plane PLL coasts. -/
def State.sysrefLost (s : State) : State :=
  if s.clk.por || !s.clk.aon then s
  else if !s.clk.timeOn then s.setFld f_CLK_STAT_CAUSE 0 3
  else if s.flag f_CLK_STAT_FALLBACK 0 then s
  else
    let s := if s.clk.aonrc then s.fallback
      else ((s.setFld f_CLK_STAT_FALLBACK 0 1).setFld f_CLK_STAT_ON32 0 1).setFld f_TIME_STAT_ON32 0 1
    if s.dataPlane then s.pllLose 0x1FF 0x1FF 1 else s
def execSysrefLost (s : State) : Ans := .next s.sysrefLost

/-- SYSREF_RESTORED (R463): GRM and TIME switch back without a step. -/
def execSysrefRestored (s : State) : Ans :=
  .next (if s.flag f_CLK_STAT_FALLBACK 0 && s.status != 0xE then
    ((s.setFld f_CLK_STAT_FALLBACK 0 0).setFld f_CLK_STAT_ON32 0 0).setFld f_TIME_STAT_ON32 0 0
  else s)

/-- AONRC_OK (R461, R464): the Green Room runs; one that ran from AON32 goes to AONRC. -/
def execAonrcOk (s : State) : Ans :=
  .next (if s.clk.por || !s.clk.aon || s.clk.aonrc || (s.clk.timeOn && s.status == 5 && s.clk.wake.isNone) || s.status == 0xE then s
  else
    let s := s.modClk (fun k => { k with aonrc := true })
    if !s.clk.timeOn then { s with status := 1 }
    else if s.flag f_CLK_STAT_ON32 0 then s.fallback
    else s)

/-- GREEN_ROOM_CLOCK_SWITCH (R461, R475, R479): GRM and TIME run from SYSREF, the time base starts at 0; BOOT_RECOVER enters
Recovery. -/
def execGreenRoomClockSwitch (s : State) : Ans :=
  .next (if s.clk.aonrc && !s.clk.timeOn && s.status == 1 then
    let s : State := { s with time := 0 }
    let s := s.modClk (fun k => { k with timeOn := true, slew := 0, slewAcc := 0, pulsed := 0, porAt := 0 })
    if s.clk.recover then ({ s with status := 6 } : State).setFld f_LOADIN_STAT_CAUSE 0 14 else s
  else s)

/-- AON32_GOOD (R461). -/
def execAon32Good (s : State) : Ans :=
  .next (if s.clk.por || !s.clk.aon then s
  else (s.modClk (fun k => { k with good32 := true })).setFld f_CLK_STAT_NO32 0 0)

/-- AON32_TIMEOUT (R461). -/
def execAon32Timeout (s : State) : Ans :=
  .next (if s.clk.por || !s.clk.aon || s.clk.good32 then s else s.setFld f_CLK_STAT_NO32 0 1)

/-- FALLBACK_SLOW (R464): AONRC has not come back 33 periods of AON32 after it was restarted. -/
def execFallbackSlow (s : State) : Ans :=
  .next (if s.status == 5 && s.clk.wake.isSome && !s.clk.aonrc && decide (33 * 10 ^ 9 ≤ (s.time - s.clk.rcAt) * 32768) then
    let s := s.modClk (fun k => { k with wake := none, slow := true })
    let s := ((s.setFld f_CLK_STAT_FALLBACK 0 1).setFld f_CLK_STAT_ON32 0 1).setFld f_TIME_STAT_ON32 0 1
    ({ (s.setFld f_CLK_STAT_CAUSE 0 2) with status := 0xE } : State).logClock 0xFFFF
  else s)

/-! ### Gating -/

/-- A unit that a gate request names is present (R466). -/
def State.gatePresent (s : State) (cls i : Nat) : Bool :=
  match cls with
  | 0 => s.present i
  | 4 => decide (i < s.nPorts) && bit (s.reg .DEV_PORTEN 0) i
  | 5 => true
  | _ => decide (i < s.nClusters) && bit (s.reg .DEV_CLEN 0) i

/-- A core may be power-gated (R275, R466): waiting in HALT with nothing to end it, no dirty and no locked frame. -/
def State.coreGateOk (s : State) (c : Nat) : Bool :=
  let k := s.core c
  k.run == .halt && !(s.haltEnds c) && k.mem.wings.isEmpty && k.mem.dframes.all (fun f => !(f.st.contains .mod))

/-- The cores that a request for core c gates (R466). -/
def State.gatedWith (s : State) (c : Nat) : List Nat := if s.lockstep c then [c / 2 * 2, c / 2 * 2 + 1] else [c]

/-- Match and Lookup of a cluster hold no request. -/
def State.mlIdle (s : State) (cl : Nat) : Bool :=
  (coresOf cl).all (fun c => match (s.core c).wait with | some (.coproc _ _ _) => false | _ => true)

/-- The condition of R466 for gating a unit. -/
def State.gateOk (s : State) (cls i : Nat) : Bool :=
  match cls with
  | 0 => (s.gatedWith i).all (fun c => (s.checker c && s.coreGateOk (c - 1)) || s.coreGateOk c)
  | 1 => (coresOf i).all (fun c => !(s.present c) || (s.core c).gated) && (s.cluster i).lines.all (fun x => x.st != .mod) &&
      s.phase == phIDLE && s.mlIdle i
  | 2 => s.mlIdle i
  | 3 => s.phase == phIDLE
  | 4 => s.portState i == 0 && !(s.flag f_TOUR_PCTL_EN i)
  | _ => !(s.mode mRECORD) && !(s.mode mREPLAY) && !(s.mode mTRACE) && s.enabledClusters.all (fun q => !(s.effMode f_CLU_MODE_TRACE mTRACE q))

/-- A line that no cache of the cluster holds any more is reported to its home as evicted (R275). -/
def State.reportEvict (s : State) (cl line : Nat) : State :=
  if s.clHolds cl line then s
  else
    match s.dirOf line with
    | none => s
    | some e => s.setDir { e with owner := e.owner.filter (fun x => x != cl), sharers := e.sharers.filter (fun x => x != cl) }

/-- A core loses power (R466): its frames and µTLBs go. -/
def State.gateCore (s : State) (c : Nat) : State :=
  let lines := (s.core c).frameLines
  let s := s.modCore c (fun k => { k with gated := true, mem := { wings := k.mem.wings } })
  let s := lines.foldl (fun (s : State) l => s.reportEvict (clusterOf c) l) s
  s.setReg .PWR_GATED (c / 64) (setBits (s.reg .PWR_GATED (c / 64)) (c % 64) (c % 64) 1)

/-- A cluster loses power (R466): its cache, walker and control store go. -/
def State.gateCluster (s : State) (cl : Nat) : State :=
  let lines := (s.cluster cl).lines.map (fun x => x.line)
  let s := s.modCluster cl (fun k => { k with lines := [], ctlb := [], s2tlb := [], wc := [] })
  let s := lines.foldl (fun (s : State) l => s.reportEvict cl l) s
  s.setReg .PWR_CLGATED 0 (setBits (s.reg .PWR_CLGATED 0) cl cl 1)

/-- A cluster wakes (R466): its control store receives the current images (R180). -/
def State.ungateCluster (s : State) (cl : Nat) : State :=
  if bit (s.reg .PWR_CLGATED 0) cl then (s.setReg .PWR_CLGATED 0 (setBits (s.reg .PWR_CLGATED 0) cl cl 0)).reload cl else s

/-- A core wakes, its cluster first (R466). -/
def State.ungateCore (s : State) (c : Nat) : State :=
  if (s.core c).gated then
    (s.gatedWith c).foldl (fun (s : State) c =>
      ((s.ungateCluster (clusterOf c)).modCore c (fun k => { k with gated := false })).setReg .PWR_GATED (c / 64)
        (setBits (s.reg .PWR_GATED (c / 64)) (c % 64) (c % 64) 0)) s
  else s

/-- The gate of a unit commits (R465, R466). -/
def State.gateCommit (s : State) (cls i : Nat) : State :=
  match cls with
  | 0 => (s.gatedWith i).foldl (fun (s : State) c => s.gateCore c) s
  | 1 => s.gateCluster i
  | 2 => s.modClk (fun k => { k with noMl := i :: k.noMl.erase i })
  | 3 => s.modClk (fun k => { k with noSth := i :: k.noSth.erase i })
  | 4 => s.modClk (fun k => { k with noPort := i :: k.noPort.erase i })
  | _ => s.modClk (fun k => { k with noReh := true })

/-- A unit is ungated (R466). -/
def State.ungate (s : State) (cls i : Nat) : State :=
  match cls with
  | 0 => s.ungateCore i
  | 1 => s.ungateCluster i
  | 2 => s.modClk (fun k => { k with noMl := k.noMl.erase i })
  | 3 => s.modClk (fun k => { k with noSth := k.noSth.erase i })
  | 4 => s.modClk (fun k => { k with noPort := k.noPort.erase i })
  | _ => s.modClk (fun k => { k with noReh := false })

/-- CLK.GSTAT. -/
def State.gstat (s : State) (pend : Bool) (code op cls i : Nat) : State :=
  s.setReg .CLK_GSTAT 0 (w64 (b2n pend * 2 ^ 63 + code * 2 ^ 56 + op * 2 ^ 20 + cls * 2 ^ 16 + i % 2 ^ 12))

/-- The gate request in progress ends with a code. -/
def State.gateEnd (s : State) (g : Gate) (code : Nat) : State :=
  (s.modClk (fun k => { k with gate := none })).gstat false code 1 g.cls g.idx

/-- A gate request (R465, R466): a refusal is counted (R275); one for the same unit merges with the request in progress; one for another unit is not taken. -/
def State.gateRequest (s : State) (cls i : Nat) : State :=
  if 6 ≤ cls then s.setFld f_DEV_ERR_RSVW 0 1
  else if s.clk.gate.isSome then s
  else if !(s.gatePresent cls i) then s.gstat false 5 1 cls i
  else if !(s.gateOk cls i) then (s.gstat false 3 1 cls i).bump .CLK_GREFUSE 0 1
  else (s.modClk (fun k => { k with gate := some { cls := cls, idx := i, since := s.time } })).gstat true 0 1 cls i

/-- An ungate request (R465, R466): it withdraws a gate request for the same unit. -/
def State.ungateRequest (s : State) (cls i : Nat) : State :=
  if 6 ≤ cls then s.setFld f_DEV_ERR_RSVW 0 1
  else
    match s.clk.gate with
    | some g => if g.cls == cls && g.idx == i then s.gateEnd g 4 else s
    | none =>
      if !(s.gatePresent cls i) then s.gstat false 5 0 cls i
      else (s.ungate cls i).gstat false 1 0 cls i

/-- CLK_GREQ_GATE (R465, R466). -/
def execClkGreqGate (cls : Fin 16) (idx : BitVec 12) (s : State) : Ans := .next (s.gateRequest cls idx.toNat)

/-- CLK_GREQ_UNGATE (R466). -/
def execClkGreqUngate (cls : Fin 16) (idx : BitVec 12) (s : State) : Ans := .next (s.ungateRequest cls idx.toNat)

/-- GATE_ACK (R465): the gate commits, or a wake condition that came first withdraws it. -/
def execGateAck (s : State) : Ans :=
  .next (match s.clk.gate with
    | none => s
    | some g => if s.gateOk g.cls g.idx then (s.gateCommit g.cls g.idx).gateEnd g 1 else s.gateEnd g 4)

/-- A PLL's output other than CORE in MHz: 200 while the PLL coasts (R462). -/
def State.outMhz (s : State) (pll mhz : Nat) : Nat := if (s.fld f_CLK_STAT_PLLLOST 0).testBit pll then 200 else mhz

/-- Cycles of a gated unit's own clock in 16 µs (R17): CORE without the edges that suppression removes (R470-R472), CCH, MATCH, COL,
TOURL, REH. Where R17 gives a unit two domains its own clock is taken as CCH for a cluster and TOURL for a tour port (log entry 93,
DESIGN CHOICE). -/
def State.unitRate (s : State) (g : Gate) : Nat :=
  match g.cls with
  | 0 =>
    let t := tileOf g.idx
    s.fld f_CLK_TPLL_EFFMHZ t * (16 - Nat.max s.clk.pwSup (s.clk.thSup.getD t 0))
  | 1 => 16 * s.outMhz (g.idx / 8) (s.fld f_CLK_TPLL_CCHMHZ (g.idx / 8))
  | 2 => 16 * s.outMhz 8 2000
  | 3 => 16 * s.outMhz 8 2000
  | 4 => 16 * s.outMhz 8 1500
  | _ => 16 * s.outMhz 8 1000

/-- GATE_TIMEOUT (R465). -/
def execGateTimeout (s : State) : Ans :=
  .next (match s.clk.gate with
    | none => s
    | some g =>
      if s.fld f_CLK_GATE_TMO_CYCLES 0 * 16000 ≤ (s.time - g.since) * s.unitRate g then
        (if s.gateOk g.cls g.idx then (s.gateEnd g 2).bump .CLK_GREFUSE 0 1 else s.gateEnd g 4)
      else s)

/-! ### Dark -/

/-- The conditions of a Dark request (R431, R467). -/
def State.darkOk (s : State) : Bool :=
  let timers (c : Nat) : Bool := ((s.core c).ev.arm0 && s.flag f_CUE_LCTL_T0EN c) || ((s.core c).ev.arm1 && s.flag f_CUE_LCTL_T1EN c)
  s.status == 4 && !s.clk.dark && !(s.mode mRECORD) && !(s.mode mREPLAY) && s.phase == phIDLE && s.modes.isEmpty &&
    !(s.flag f_DEV_MODESTAT_BUSY 0) && s.mcs.job.isNone && s.host.bias.isNone && s.test.isNone &&
    (List.range s.nCores).all (fun c => !(s.enabledClusters.contains (clusterOf c)) || s.checker c ||
      (((s.core c).run == .halt || (s.core c).gated) && !(timers c)))

/-- A Dark request (R467): refused, or entry begins: dirty lines go home and host lines leave the device. -/
def State.darkRequest (s : State) : State :=
  if s.darkOk then
    let s := s.modClk (fun k => { k with dark := true })
    let s := (List.range s.nClusters).foldl (fun (s : State) cl => (s.clusterLines cl).foldl (fun (s : State) l => s.cleanLine l) s) s
    ((s.flushHost).setFld f_PWR_STAT_BUSY 0 1).setFld f_PWR_STAT_RES 0 0
  else if s.clk.dark then s
  else s.setFld f_PWR_STAT_RES 0 4

/-- PWR_CMD_DARK (R467). -/
def execPwrCmdDark (s : State) : Ans := .next s.darkRequest

/-- PWR_CMD_ABORT (R467): before the commit point entry is abandoned; after it the request is discarded. -/
def State.darkAbort (s : State) : State :=
  let s := s.setFld f_PWR_CMD_ABORT 0 0
  if s.clk.dark then
    ((s.modClk (fun k => { k with dark := false })).setFld f_PWR_STAT_BUSY 0 0).setFld f_PWR_STAT_RES 0 2
  else s.setFld f_PWR_STAT_RES 0 3
def execPwrCmdAbort (s : State) : Ans := .next s.darkAbort

/-- Every stack enters or leaves self-refresh. -/
def State.setSref (s : State) (b : Bool) : State :=
  (List.range 4).foldl (fun (s : State) m => s.setFld f_MC_STAT_SREF m (b2n b)) s

/-- The caches and translations of every cluster go; locked wings frames stay (R467). -/
def State.powerDown (s : State) : State :=
  let s := (List.range s.nClusters).foldl (fun (s : State) cl => s.emptyCluster cl) s
  { s with cores := s.cores.map (fun k => { k with mem := { wings := k.mem.wings } })
           clusters := s.clusters.map (fun k => { k with lines := [], ctlb := [], s2tlb := [], wc := [] }) }

/-- DARK_COMMIT (R467, R468). -/
def execDarkCommit (s : State) : Ans :=
  .next (if s.clk.dark then
    let s := (s.powerDown).setSref true
    let s := s.modClk (fun k => { k with dark := false, wake := none, aonrc := !k.good32 })
    let s : State := { s with status := 5, recal := s.recal.map (fun r => { r with deferred := true }) }
    (s.setFld f_PWR_STAT_BUSY 0 0).setFld f_PWR_STAT_RES 0 1
  else s)

/-- A forced recalibration completes (R413, R416). -/
def State.recalDone (s : State) (m : Nat) : State := (s.setFld f_MC_CALCMD_STATUS m 1).cueEvent (76 + m)

/-- The device returns from Dark to Run (R469). -/
def State.darkWake (s : State) : State :=
  match s.clk.wake with
  | none => s
  | some cause =>
    if s.status != 5 || !s.clk.aonrc then s
    else
      let s := (s.modClk (fun k => { k with wake := none })).setSref false
      let s : State := { s with status := 4 }
      let done := (s.recal.map (fun r => r.mc)).dedup
      let s := done.foldl (fun (s : State) m => s.recalDone m) ({ s with recal := [] } : State)
      let s := (s.setFld f_PWR_STAT_WAKE 0 (if 16 ≤ cause then 1 else cause)).bump .PWR_DARKS 0 1
      let s := s.cueEvent (if 16 ≤ cause then cause - 16 else if cause == 2 then 115 else 116)
      let s := if s.flag f_CLK_STAT_FALLBACK 0 then s.pllLose 0x1FF 0x1FF 1 else s
      s.retryHeld

/-! ### Regulators, power and temperature -/

/-- AVS_FAILURE (R470): a rail's transaction has failed after its retries. -/
def execAvsFailure (t : Fin 4) (s : State) : Ans :=
  .next (if s.dataPlane then
    let mv := bits (s.reg .PWR_AVS 0) (10 * t.val + 9) (10 * t.val)
    let s := ((s.bump .PWR_AVSERR 0 1).setFld f_PWR_AVS_ERR 0 1).setFld f_PWR_AVS_RAIL 0 t
    let s := s.modClk (fun k => { k with avsCap := k.avsCap.set t (Config.fusedMhz t mv) })
    ((s.tpllTouch t).alert 3).cueEvent 114
  else s)

/-- Touch every tile. -/
def State.touchAll (s : State) : State := (List.range 4).foldl (fun (s : State) t => s.tpllTouch t) s.setThr

/-- POWER_ESTIMATE (R471): suppression first, then frequency; they are restored in the reverse order while the estimate stays 5 %
below the limit. -/
def execPowerEstimate (watts : BitVec 16) (s : State) : Ans :=
  let w := watts.toNat
  let lim := s.fld f_PWR_PLIM_LIMIT 0
  .next (if !s.dataPlane then s
  else
    let s := s.setFld f_PWR_PLIM_POWER 0 w
    if lim < w then
      let s := s.alert 2
      if s.clk.pwSup < 12 then (s.modClk (fun k => { k with pwSup := k.pwSup + 1 })).touchAll
      else (s.modClk (fun k => { k with pwCut := Nat.min 2600 (k.pwCut + 100) })).touchAll
    else if w * 100 ≤ lim * 95 then
      (if s.clk.pwCut != 0 then (s.modClk (fun k => { k with pwCut := k.pwCut - 100 })).touchAll
       else (s.modClk (fun k => { k with pwSup := k.pwSup - 1 })).touchAll)
    else s)

/-- THERMAL_THROTTLE (R472): the hottest sensor of a tile, or of the I/O tile, reads a temperature; a step up while the tile is hot,
a step down when it is not. -/
def execThermalThrottle (tile : Fin 5) (temp : BitVec 8) (s : State) : Ans :=
  let c := temp.toInt
  let t := tile.val
  .next (if !s.dataPlane then s
  else if t = 4 then s.setFld f_PWR_TEMP_IO 0 temp.toNat
  else
    let s := s.setReg .PWR_TEMP 0 (setBits (s.reg .PWR_TEMP 0) (8 * t + 7) (8 * t) temp.toNat)
    let hot := decide (100 ≤ c) || (s.clk.thHot.getD t false && decide (98 ≤ c))
    let n := s.clk.thSup.getD t 0
    let s := if 100 ≤ c then s.alert 1 else s
    let cap := if decide (105 ≤ c) && n == 15 then 400 else if c < 98 then 3000 else s.clk.thCap.getD t 3000
    let s := s.modClk (fun k => { k with thHot := k.thHot.set t hot, thSup := k.thSup.set t (if hot then Nat.min 15 (n + 1) else n - 1),
                                         thCap := k.thCap.set t cap })
    s.tpllTouch t)

/-- THERMTRIP (R473): 115 °C on a sensor of a tile, 4 being the I/O tile. -/
def execThermtrip (tile : Fin 5) (temp : BitVec 8) (s : State) : Ans :=
  .next (if decide (115 ≤ temp.toInt) && s.clk.aon && !s.clk.por && !s.clk.trip then
    let s := (s.modClk (fun k => { k with trip := true, dark := false, wake := none })).setSref true
    ({ s with status := 0xA } : State).logBb 3 tile temp.toNat
  else s)

/-! ### The time base -/

/-- A write of TIME.ADJ (R476): 0 steps forward, 1 slews by a signed amount; another OP is a reserved value. -/
def State.timeAdj (s : State) (op amount : Nat) : State :=
  match op with
  | 0 => s.stepTime amount
  | 1 => s.slewBy (sext 62 amount * 10)
  | _ => s

/-- TIME_ADJ_STEP (R476). -/
def execTimeAdjStep (ns : BitVec 62) (s : State) : Ans := .next (s.timeAdj 0 ns.toNat)

/-- TIME_ADJ_SLEW (R476). -/
def execTimeAdjSlew (ns : BitVec 62) (s : State) : Ans := .next (s.timeAdj 1 ns.toNat)

/-- The time master (R477): TOUR.NODE is TOUR.TSYNC.MASTER, or no tour port is UP. -/
def State.timeMaster (s : State) : Bool :=
  s.node == s.fld f_TOUR_TSYNC_MASTER 0 || (List.range s.nPorts).all (fun p => !(s.portUp p))

/-- The error of a time from the nearest alignment point (R477). -/
def alignErr (int ofs t : Nat) : Int :=
  let r : Int := ((t : Int) - ofs) % int
  if 2 * r ≤ int then r else r - int

/-- TSYNC_IN_EDGE (R477). -/
def execTsyncInEdge (s : State) : Ans :=
  .next (if !s.clk.timeOn then s
  else
    let s := s.setReg .TIME_CAPT 0 (w64 s.time)
    let n := s.fld f_TIME_PPS_INT 0
    if s.flag f_TIME_CTL_EXTAL 0 && s.timeMaster && n != 0 then
      let e := alignErr n (s.fld f_TIME_PPS_OFS 0) s.time
      (s.setFld f_TIME_STAT_EXTLOCK 0 (b2n (decide (e.natAbs ≤ 2)))).align (e * 10)
    else s)

/-- The latest alignment point that the time base has reached (R477). -/
def State.lastPoint (s : State) : Option Nat :=
  let n := s.fld f_TIME_PPS_INT 0
  let o := s.fld f_TIME_PPS_OFS 0
  if n == 0 || s.time < o then none else some (s.time - (s.time - o) % n)

/-- TSYNC_OUT_PULSE (R477): the time base has crossed an alignment point that TSYNC_OUT has not marked yet. -/
def execTsyncOutPulse (s : State) : Ans :=
  .next (match s.lastPoint with
    | none => s
    | some p =>
      if s.clk.timeOn && s.clk.pulsed < p then
        let s := s.modClk (fun k => { k with pulsed := p })
        { s with wire := .tsyncOut p :: s.wire }
      else s)

end Sys2Proof.Machine
end

