-- ==== Sys2Proof/Machine/Modes.lean ====
section
/-! DEFINITION. Operating modes (R417-R420), Understudy pairs (R421-R425), self-test (R426-R428) and SEALED (R429, R430). -/

namespace Sys2Proof.Machine

open Sys2Proof

/-! ### Requests -/

/-- A write of DEV.MODE is a request (R417, R419). -/
def State.devModeWrite (s : State) (v : Nat) : State := { s with modes := s.modes ++ [.dev (v % 256)] }

/-- A write of CLU.MODE is a request (R418, R419): a field with the reserved value keeps its value. -/
def State.cluModeWrite (s : State) (cl v : Nat) : State :=
  let old := s.reg .CLU_MODE cl
  let f (lo : Nat) : Nat := if v / 2 ^ lo % 4 == 3 then bits old (lo + 1) lo else v / 2 ^ lo % 4
  let bad := v % 4 == 3 || v / 4 % 4 == 3 || v / 16 % 4 == 3 || v / 64 % 4 == 3
  let s := if bad then s.setFld f_CLU_STAT_RSVW cl 1 else s
  { s with modes := s.modes ++ [.clu cl (v / 256 % 2 * 256 + f 6 * 64 + f 4 * 16 + f 2 * 4 + f 0)] }

/-- DEV_MODE_WRITE (R417). -/
def execDevModeWrite (v : BitVec 8) (s : State) : Ans := .next (s.devModeWrite v.toNat)

/-- CLU_MODE_WRITE (R418). -/
def execCluModeWrite (cl : Fin 32) (v : BitVec 9) (s : State) : Ans :=
  .next (if s.nClusters ≤ cl.val then s else s.cluModeWrite cl v.toNat)

/-- The state with the new mode bits of a request written. -/
def State.withMode (s : State) (r : ModeReq) : State :=
  match r with
  | .dev v => s.setReg .DEV_MODE 0 (w64 v)
  | .prompter v => s.setReg .DEV_MODE 0 (w64 v)
  | .clu cl v => s.setReg .CLU_MODE cl (w64 v)

/-- The clusters in which the effective setting of a mode differs between two states. -/
def State.differs (s t : State) (f : Fld) (k : Nat) : List Nat :=
  (List.range s.nClusters).filter (fun q => s.effMode f k q != t.effMode f k q)

/-- The mode is entered, and left. -/
def State.enters (s t : State) (k : Nat) : Bool := !(s.mode k) && t.mode k
def State.leaves (s t : State) (k : Nat) : Bool := s.mode k && !(t.mode k)

/-- Why a request is refused, from the state before it and the state it asks for (R419 step 1, R420 notes b and h, R430). -/
def State.modeRefusal (s t : State) : Option Nat :=
  let mask (u : State) (f : Fld) (k : Nat) : Nat := maskOf 32 (fun q => u.enabledClusters.contains q && u.effMode f k q)
  let strictOr := !(s.differs t f_CLU_MODE_STRICT mSTRICT).isEmpty || !(s.differs t f_CLU_MODE_LOCKSTEP mLOCKSTEP).isEmpty
  if s.flag f_DEV_MODESTAT_BUSY 0 then some 2
  else if t.mode mREPLAY && t.mode mSEALED then some 4
  else if s.enters t mSEALED && ((List.range s.nClusters).any (fun q => s.flag f_MCS_STAT_CUST q) || s.debugScope != 0 || s.mode mREPLAY) then
    some 3
  else if s.enters t mREPLAY && s.fld f_REH_RPSTAT_CODE 0 != 2 then some 5
  else if s.enters t mRECORD && s.fld f_REH_RING_SIZE 0 == 0 then some 7
  else if s.mode mREPLAY && t.mode mREPLAY && strictOr then some 6
  else if s.enters t mREPLAY && (mask t f_CLU_MODE_LOCKSTEP mLOCKSTEP != s.reh.beginW.getD 2 0 ||
      mask t f_CLU_MODE_STRICT mSTRICT != s.reh.beginW.getD 3 0) then some 6
  else none

/-- The clusters that a change affects (R419 steps 2 and 3). -/
def State.affected (s t : State) : List Nat :=
  if s.mode mRECORD != t.mode mRECORD || s.mode mREPLAY != t.mode mREPLAY then s.enabledClusters
  else (s.differs t f_CLU_MODE_LOCKSTEP mLOCKSTEP ++ s.differs t f_CLU_MODE_STRICT mSTRICT ++ s.differs t f_CLU_MODE_TRACE mTRACE).dedup.filter
    (fun q => s.enabledClusters.contains q)

/-! ### Understudy pairs -/

/-- A core's unlocked frames are written back and invalidated (R421 step 1). -/
def State.emptyFrames (s : State) (c : Nat) : State :=
  let lines := (s.core c).frameLines
  let s := s.cleanAll c
  let s := s.modCore c (fun k => { k with mem := { k.mem with dframes := [], iframes := [], fbuf := none } })
  lines.foldl (fun (s : State) l => s.reportEvict (clusterOf c) l) s

/-- A pair enters LOCKSTEP (R421): the checker takes the primary's registers, µTLB entries and locked wings frames, and its pending
interrupts become pending on the pair. -/
def State.pairEnter (s : State) (p : Nat) : State :=
  let s := (s.emptyFrames p).emptyFrames (p + 1)
  let ev := (s.core (p + 1)).ev
  let s := s.modCore p (fun k => { k with ev := { k.ev with
    house := (k.ev.house ++ ev.house).dedup, back := (k.ev.back ++ ev.back).dedup, nmi := k.ev.nmi || ev.nmi, mc := k.ev.mc ++ ev.mc
    remote := k.ev.remote ++ ev.remote } })
  let k := s.core p
  s.modCore (p + 1) (fun _ => { k with ev := {}, scene := {}, chunk := {} })

/-- A pair leaves LOCKSTEP (R425): the primary goes on, the checker takes warm entry with the µTLBs that both
have loaded and invalidated alike (R243). -/
def State.pairLeave (s : State) (p : Nat) : State :=
  let k := s.core p
  let s := s.modCore (p + 1) (fun _ => { back := k.back, mem := { wings := k.mem.wings, dtlb := k.mem.dtlb, itlb := k.mem.itlb, dlru := k.mem.dlru, ilru := k.mem.ilru } })
  s.warmEntry (p + 1)

/-- The four pairs of a cluster. -/
def pairsOf (cl : Nat) : List Nat := (List.range 4).map (fun i => 8 * cl + 2 * i)

/-! ### Mode changes -/

/-- The result of a request goes to DEV.MODESTAT, and to the Prompter if it asked (R419, R507). -/
def State.modeEnd (s : State) (r : ModeReq) (code : Nat) : State :=
  let s := s.setReg .DEV_MODESTAT 0 (w64 code)
  match r with
  | .prompter _ => { s with pm := { s.pm with rst := if code == 1 then 0 else 7, data := [code] } }
  | _ => s

/-- A mode change is complete (R419): source 114, and the Prompter's response if it waits. -/
def State.modeDone (s : State) : State :=
  let s := (s.setReg .DEV_MODESTAT 0 (w64 1)).cueEvent 114
  if s.pm.ropc == 0x11 && s.pm.rst == 6 then { s with pm := { s.pm with rst := 0, data := [1] } } else s

/-- ECONOMY changes (R357, R358, R418): the tile PLLs and the ports follow. -/
def State.economy (s t : State) : State :=
  if s.mode mECONOMY == t.mode mECONOMY then t
  else
    let t := t.touchAll
    (List.range t.nPorts).foldl (fun (t : State) p =>
      if 2 ≤ t.portState p && t.flag f_TOUR_PSTAT_W2 p != t.mode mECONOMY then t.retrain p else t) t

/-- The commit point of an accepted change (R419 steps 2 to 4): the parts that begin with the new mode. -/
def State.modeEnter (s t : State) (aff : List Nat) : State :=
  let inLock := (s.differs t f_CLU_MODE_LOCKSTEP mLOCKSTEP).filter (fun q => t.effMode f_CLU_MODE_LOCKSTEP mLOCKSTEP q)
  let outLock := (s.differs t f_CLU_MODE_LOCKSTEP mLOCKSTEP).filter (fun q => s.effMode f_CLU_MODE_LOCKSTEP mLOCKSTEP q)
  let on (q : Nat) : Bool := s.enabledClusters.contains q
  let doomed := if s.enters t mRECORD || s.enters t mREPLAY then aff else inLock
  let t := doomed.foldl (fun (t : State) q => t.abortCluster q 11) t
  let t := ((inLock.filter on).flatMap pairsOf).foldl (fun (t : State) p => t.pairEnter p) t
  let t := ((outLock.filter on).flatMap pairsOf).foldl (fun (t : State) p => t.pairLeave p) t
  let tr := s.differs t f_CLU_MODE_TRACE mTRACE
  let t := (tr.flatMap coresOf).foldl (fun (t : State) c => t.modCore c (fun k => { k with traceN := 0 })) t
  let t := if s.leaves t mREPLAY then t.replayLeave else t
  let t := if s.enters t mREPLAY then t.replayBegin else t
  let t := if s.enters t mRECORD then t.sessionBegin else t
  let t := if s.leaves t mSEALED then t.leaveEval f_DEV_EVAL_UNSEAL else t
  s.economy t

/-- The Green Room serves the first mode request (R419): it is refused, it waits until the affected clusters can be held and the
Rehearsal ring takes what a session's begin or end writes, or it is made. -/
def State.modeChange (s : State) : State :=
  match s.modes with
  | [] => s
  | r :: rest =>
    if s.status != 4 || s.clk.dark || s.flag f_REH_STAT_SNAPHOLD 0 then s
    else
      let s0 : State := { s with modes := rest }
      let t0 := s0.withMode r
      match s0.modeRefusal t0 with
      | some code => s0.modeEnd r code
      | none =>
        let aff := s0.affected t0
        if !(aff.all (fun q => s0.holdable q)) || (s0.enters t0 mRECORD && !(s0.ringRoom 22)) then s
        else
          let ended := if s0.leaves t0 mRECORD then s0.sessionEnd 0 else some s0
          match ended with
          | none => s
          | some s1 =>
            let t := s1.modeEnter (s1.withMode r) aff
            let v := (t.reg .DEV_MODE 0).toNat % 256
            let t := (t.logBb 9 0 v).traceE 1 114 0 v
            let t := (match r with
              | .prompter _ => { t with pm := { t.pm with rst := 6 } }
              | _ => t)
            if t.clk.tpll.any Option.isSome && s1.mode mECONOMY != t.mode mECONOMY then t.setReg .DEV_MODESTAT 0 (w64 (2 ^ 63))
            else t.modeDone

/-- MODE_CHANGE (R419). -/
def execModeChange (s : State) : Ans := .next s.modeChange

/-- TPLL_CHANGE_DONE (R460): a mode change that has waited for the tile PLLs completes with the last of them (R419 step 4). -/
def execTpllChangeDone (t : Fin 4) (s : State) : Ans :=
  let s := s.tpllDone t
  .next (if s.flag f_DEV_MODESTAT_BUSY 0 && s.clk.tpll.all Option.isNone then s.modeDone else s)

/-! ### Divergence -/

/-- A core of a pair stops at a divergence (R309, R424). -/
def State.divergeCore (s : State) (c : Nat) : State :=
  let w := (s.core c).psw.w
  let s := s.modCore c (fun k => { k with run := .diverged, wait := none, micro := none, scene := {}, psw := { k.psw with sc := false, ss := false } })
  let s := s.setReg .CORE_HALT c (w64 (2 ^ 63 + b2n w * 2 ^ 16 + 0x203))
  s.traceE 2 c (s.core c).pc 0x203

/-- A pair diverges (R424). -/
def State.diverge (s : State) (p : Nat) : State :=
  let cl := clusterOf p
  let sa := (s.core p).pc
  let s := (s.divergeCore p).divergeCore (p + 1)
  let s := s.setReg .CLU_LSSTAT cl (w64 (2 ^ 63 + p % 8 / 2 * 2 ^ 48 + sa % 2 ^ 48))
  let s := (s.setReg .CLU_LSTIME cl (w64 s.time)).bump .CLU_LSDIV cl 1
  let s := s.logBb 2 p (sa % 2 ^ 40)
  let s := s.wakeLines
  if s.flag f_CLU_MODE_DEVHALT cl then
    let (v, s) := s.fresh
    let s := s.stopAll (bits v 15 8) (bits v 7 0)
    { s with status := 9 }
  else
    match s.lowest (fun c => s.running c && (s.core c).psw.w) with
    | some c => s.raiseMc c 3
    | none =>
      match s.lowest s.running with
      | some c => s.raiseMc c 3
      | none => { s with status := 8 }

/-- LOCKSTEP_DIVERGENCE (R424): the pair of a core. -/
def execLockstepDivergence (c : Fin 256) (s : State) : Ans :=
  let p := c.val / 2 * 2
  .next (if s.status == 4 && s.lockstep p && s.running p then s.diverge p else s)

/-! ### Self-test -/

/-- Change the result register of self-test (R428). -/
def State.stres (s : State) (pend : Bool) (code unit : Nat) : State :=
  s.setReg .DEV_STRES 0 (w64 (b2n pend * 2 ^ 63 + code * 2 ^ 56 + unit % 2 ^ 16))

/-- A unit that a test found FAIL (R428): a way stays disabled, a core is held in reset, PLATFORM is raised. -/
def State.testFail (s : State) (cls i : Nat) : State :=
  let s := match cls with
    | 0 => s.modCore i (fun k => { k with run := .held })
    | 1 => (match (s.cluster i).rot with
      | some w => s.setFld f_CC_CTL_WAYDIS i (s.fld f_CC_CTL_WAYDIS i ||| 2 ^ w)
      | none => s)
    | _ => s
  s.platform

/-- A background test found FAIL: it is recorded where no request is pending. -/
def State.backFail (s : State) (cls i : Nat) : State :=
  let s := s.testFail cls i
  if s.flag f_DEV_STRES_PEND 0 then s else s.stres false 2 (cls * 2 ^ 12 + i)

/-- A cluster cache rotates out its next way (R261, R426). -/
def State.rotate (s : State) (cl : Nat) : State :=
  let w := (s.cluster cl).rotNext
  let s := s.ccClean cl (fun x => x.way == w)
  s.modCluster cl (fun k => { k with rot := some w, rotNext := (w + 1) % 16, rotAt := s.time })

/-- A way comes due for rotation (R426). -/
def State.rotDue (s : State) (cl : Nat) : Bool :=
  let n := s.fld f_DEV_STCFG_ROTINT 0
  n != 0 && decide (n * 1000000 ≤ s.time - (s.cluster cl).rotAt)

/-- SELFTEST_WAY_ROTATION (R426): the way that was out has been tested, and the next one goes out. -/
def execSelftestWayRotation (cl : Fin 32) (fail : Bool) (s : State) : Ans :=
  .next (if s.mode mSELFTEST && s.enabledClusters.contains cl.val && s.rotDue cl && s.status == 4 then
    let s := if fail && (s.cluster cl).rot.isSome then s.backFail 1 cl else s
    s.rotate cl
  else s)

/-- A core is idle for self-test (R426, R427). -/
def State.testIdle (s : State) (c : Nat) : Bool :=
  !(s.checker c) && (((s.core c).run == .halt && !(s.haltEnds c)) || (s.core c).gated)

/-- SELFTEST_IDLE_CORE (R426). -/
def execSelftestIdleCore (c : Fin 256) (fail : Bool) (s : State) : Ans :=
  .next (if s.mode mSELFTEST && s.present c && s.status == 4 && s.testIdle c && fail then s.backFail 0 c else s)

/-- A unit that a self-test request names is present (R427). -/
def State.testPresent (s : State) (cls i : Nat) : Bool :=
  match cls with
  | 0 => s.present i
  | 4 => decide (i < 64)
  | 5 => decide (i < s.nPorts) && bit (s.reg .DEV_PORTEN 0) i
  | _ => decide (i < s.nClusters) && bit (s.reg .DEV_CLEN 0) i

/-- A self-test request (R427): while one is pending it is ignored. -/
def State.testRequest (s : State) (cls i : Nat) : State :=
  if s.flag f_DEV_STRES_PEND 0 then s.setFld f_DEV_ERR_STBUSY 0 1
  else if 6 ≤ cls then s.setFld f_DEV_ERR_RSVW 0 1
  else if !(s.testPresent cls i) then s.stres false 4 (cls * 2 ^ 12 + i)
  else ({ s with test := some { cls := cls, idx := i, since := s.time } } : State).stres true 0 (cls * 2 ^ 12 + i)

/-- DEV_STREQ (R427). -/
def execDevStreq (cls : Fin 16) (idx : BitVec 12) (s : State) : Ans := .next (s.testRequest cls idx.toNat)

/-- The unit of a request is idle (R427): a way that comes due, a channel outside self-refresh. -/
def State.unitIdle (s : State) (t : SelfTest) : Bool :=
  match t.cls with
  | 0 => s.testIdle t.idx
  | 1 => s.rotDue t.idx
  | 2 => s.mlIdle t.idx
  | 3 => s.phase == phIDLE
  | 4 => !(s.flag f_MC_STAT_SREF (t.idx / 16))
  | _ => s.portState t.idx == 0 && !(s.flag f_TOUR_PCTL_EN t.idx)

/-- SELFTEST_START (R427). -/
def execSelftestStart (s : State) : Ans :=
  .next (match s.test with
    | none => s
    | some t =>
      if t.running || s.status == 5 || !(s.unitIdle t) then s
      else
        let s : State := { s with test := some { t with running := true } }
        if t.cls == 1 then s.rotate t.idx else s)

/-- SELFTEST_DEADLINE (R427). -/
def execSelftestDeadline (s : State) : Ans :=
  .next (match s.test with
    | none => s
    | some t =>
      if !t.running && decide (s.fld f_DEV_STCFG_DEADLINE 0 * 1000 ≤ s.time - t.since) then
        (({ s with test := none } : State).stres false 3 (t.cls * 2 ^ 12 + t.idx)).bump .DEV_STNOTRUN 0 1
      else s)

/-- Work has reached the unit while its test runs (R427); a way and a channel are tested in their own windows. -/
def State.testYields (s : State) (t : SelfTest) : Bool := t.cls != 1 && t.cls != 4 && !(s.unitIdle t)

/-- SELFTEST_RESULT (R428): the result is recorded, or the test yields to work and waits again. A way tested outside SELFTEST
returns to use. -/
def execSelftestResult (pass : Bool) (s : State) : Ans :=
  .next (match s.test with
    | none => s
    | some t =>
      if !t.running then s
      else if s.testYields t then { s with test := some { t with running := false } }
      else
        let s := if pass then s else s.testFail t.cls t.idx
        let s := if t.cls == 1 && !(s.mode mSELFTEST) then s.modCluster t.idx (fun k => { k with rot := none }) else s
        ({ s with test := none } : State).stres false (if pass then 1 else 2) (t.cls * 2 ^ 12 + t.idx))

/-- An abort of self-test (R428). -/
def State.testAbort (s : State) : State :=
  match s.test with
  | some t =>
    let s := if t.cls == 1 && t.running && !(s.mode mSELFTEST) then s.modCluster t.idx (fun k => { k with rot := none }) else s
    ({ s with test := none } : State).stres false 5 (t.cls * 2 ^ 12 + t.idx)
  | none => s.setFld f_DEV_STRES_CODE 0 6

/-- DEV_STREQ_ABORT (R428). -/
def execDevStreqAbort (s : State) : Ans := .next s.testAbort

/-- The effective modes that CLU.STAT shows (R418). -/
def State.cluStat (s : State) (cl : Nat) : W64 :=
  let e (f : Fld) (k : Nat) : Nat := b2n (s.effMode f k cl)
  w64 (s.fld f_CLU_STAT_RSVW cl * 2 ^ 63 + e f_CLU_MODE_ECONOMY mECONOMY * 8 + e f_CLU_MODE_TRACE mTRACE * 4
    + e f_CLU_MODE_STRICT mSTRICT * 2 + e f_CLU_MODE_LOCKSTEP mLOCKSTEP)

end Sys2Proof.Machine
end

