-- ==== Sys2Proof/Machine/Upset.lean ====
section
/-! DEFINITION. Errors that accesses meet: frame tag parity and data errors (R267, R268), cluster-cache tag and data errors (R267,
R269), and what the memory controllers correct, poison and count (R402, R407, R408, R416). -/

namespace Sys2Proof.Machine

open Sys2Proof

/-- A word in a cache is replaced by POISON (R267): its home keeps the older value until the line is written home. -/
def State.poisonCached (s : State) (pa : Nat) : State := s.storeWord pa wPOISON true

/-- A line's words are written home as POISON, no copy of a cluster left (R268, R269). -/
def State.poisonLine (s : State) (cl line : Nat) : State :=
  (lineWords line).foldl (fun (s : State) p => s.storeWord p wPOISON false) (s.dropLine cl line)

/-- Record a frame's tag parity error (R268). -/
def State.noteTagErr (s : State) (c idx : Nat) (isI dirty : Bool) : State :=
  let s := s.bump .CORE_FCTPAR c 1
  let s := (s.setFld f_CORE_FCERR_FRAME c idx).setFld f_CORE_FCERR_I c (b2n isI)
  if dirty then s.setFld f_CORE_FCERR_DTP c 1 else s

/-- A parity error in the address tag of a frame of core c (R268). -/
def State.frameTagErr (s : State) (c base : Nat) : State :=
  let k := s.core c
  match k.mem.dframes.find? (fun f => f.base == base) with
  | some f =>
    let dirty := ((List.range 4).filter (fun i => f.st.getD i .inv == .mod)).map (fun i => base * 4 + i)
    let s := s.noteTagErr c f.idx false (!dirty.isEmpty)
    let s := s.modCore c (fun k => { k with mem := { k.mem with dframes := k.mem.dframes.filter (fun x => x.base != base) } })
    if dirty.isEmpty then s
    else (dirty.foldl (fun (s : State) line => s.poisonLine (clusterOf c) line) s).backstageMc 2
  | none =>
    match k.mem.iframes.find? (fun f => f.base == base) with
    | some f =>
      (s.noteTagErr c f.idx true false).modCore c (fun k => { k with mem := { k.mem with
        iframes := k.mem.iframes.filter (fun x => x.base != base) } })
    | none => s

/-- A core's D-frames hold the line of a pa. -/
def State.inFrame (s : State) (c pa : Nat) : Bool := (s.core c).dstate (lineOf pa) != .inv

/-- A wings frame holds the word of a pa, in either world (R254). -/
def Core.inWings (k : Core) (pa : Nat) : Bool := place pa == .wings && k.mem.wings.any (fun w => w.slot == pa % 1024 / 32)

/-- A word of an I-frame becomes POISON (R267). -/
def Core.poisonCode (k : Core) (pa : Nat) : Core :=
  let line := lineOf pa
  { k with mem := { k.mem with iframes := k.mem.iframes.map (fun (f : IFrame) =>
      if f.base == line / 4 then { f with sect := f.sect.set (line % 4) ((f.sect.getD (line % 4) []).set (pa % 8) wPOISON) } else f) } }

/-- The core's I-frames hold the word of a pa. -/
def Core.inCode (k : Core) (pa : Nat) : Bool :=
  k.mem.iframes.any (fun f => f.base == lineOf pa / 4 && (f.sect.getD (lineOf pa % 4) []).length == 8)

/-- A bit of a control-store word flips in the bank of the core's parity (R183). -/
def State.storeUpset (s : State) (c kind addr b : Nat) : State :=
  s.modCluster (clusterOf c) (fun q => q.modBank (c % 2 == 1) (fun k =>
    if kind = 0 then
      let a := 0x2800 + addr % 0x1800
      { k with ustore := smapPut 0 k.ustore a (k.uword a ^^^ 2 ^ (b % 24)) }
    else if kind = 1 then
      let a := 0xA00 + addr % 0x600
      { k with nstore := smapPut 0 k.nstore a (k.nword a ^^^ 2 ^ b) }
    else
      let w := if custDisp addr && 0x800 ≤ addr && addr < 0x1000 && !(k.defines addr) && s.custLoaded c then undefEntry else k.dword addr
      { k with dstore := smapPut (2 ^ 16) k.dstore addr (w ^^^ 2 ^ (b % 16)) }))

/-- An upset in the frames, the stack registers or the control store of the core that makes an access (R20, R21, R183, R256, R267,
R268). A corrected word of a stack register has no counter. -/
def State.frameUpset (s : State) (c : Nat) (u : Upset) : State :=
  let k := s.core c
  match u with
  | .frameTag pa => s.frameTagErr c (pa.toNat / 32)
  | .frameBit pa => if s.inFrame c pa.toNat || k.inWings pa.toNat then s.bump .CORE_FCCORR c 1 else s
  | .frameWord pa =>
    if k.inWings pa.toNat then s.modCore c (fun k => k.wingWrite [(pa.toNat, wPOISON)])
    else if s.inFrame c pa.toNat then s.poisonCached pa.toNat else s
  | .iframeBit pa => if k.inCode pa.toNat then s.bump .CORE_FCCORR c 1 else s
  | .iframeWord pa => if k.inCode pa.toNat then s.modCore c (fun k => k.poisonCode pa.toNat) else s
  | .stackWord i => s.modCore c (fun k => { k with stk := { k.stk with regs := k.stk.regs.set i wPOISON } })
  | .ctlWord i => s.modCore c (fun k => { k with stk := { k.stk with cregs := k.stk.cregs.set i wPOISON } })
  | .storeBit kind a b => s.storeUpset c kind a.toNat b
  | _ => s

/-! ### Memory controllers -/

/-- Record an uncorrectable event (R408, R410, R416). -/
def State.mcErrlog (s : State) (pa : Nat) (scrub recov shadow : Bool) : State :=
  let m := mcOf pa
  (s.setReg .MC_ERRLOG m (w64 (2 ^ 63 + b2n scrub * 2 ^ 62 + b2n recov * 2 ^ 61 + b2n shadow * 2 ^ 60 + chanOf pa * 2 ^ 52
    + pa % 2 ^ 48))).cueEvent (76 + m)

/-- A word is corrected (R407, R416): source 76 + m at each multiple of CETHR. -/
def State.mcCorrect (s : State) (pa : Nat) : State :=
  let m := mcOf pa
  let s := s.bump .MC_CE m 1
  let n := s.fld f_MC_CTL_CETHR m
  if n != 0 && (s.reg .MC_CE m).toNat % n == 0 then s.cueEvent (76 + m) else s

/-- A demand read finds an uncorrectable word (R408). -/
def State.mcUncorrectable (s : State) (pa : Nat) : State :=
  (((s.storeWord pa wPOISON false).bump .MC_UE (mcOf pa) 1).mcErrlog pa false false false)

/-- A word of local memory. -/
def isLocal (pa : Nat) : Bool := match place pa with | .loc => true | .priv => true | _ => false

/-- An upset in the cluster cache or in memory that a request of a cluster meets (R267, R269, R402, R407, R408): memory supplies
only words that no cache holds dirty. -/
def State.usherUpset (s : State) (cl : Nat) (u : Upset) : State :=
  let dirty (pa : Nat) : Bool := (List.range s.nClusters).any (fun q => s.clDirty q (lineOf pa))
  let cached (pa : Nat) : Bool := (s.cluster cl).cstate (lineOf pa) != .inv
  match u with
  | .ccTagBit pa => if cached pa.toNat then s.bump .CC_CORR cl 1 else s
  | .ccBit pa => if cached pa.toNat then s.bump .CC_CORR cl 1 else s
  | .ccWord pa => if cached pa.toNat then s.poisonCached pa.toNat else s
  | .ccTag pa =>
    let line := lineOf pa.toNat
    (match (s.cluster cl).lines.find? (fun x => x.line == line) with
    | none => s
    | some x =>
      let s := s.setReg .CC_ERR cl (w64 (2 ^ 63 + x.way % 16 * 2 ^ 44 + ccSet line % 4096 * 2 ^ 32 + s.fld f_CC_ERR_RSVW cl))
      let s := s.modCluster cl (fun k => { k with lines := k.lines.filter (fun y => y.line != line) })
      if s.owns cl line && !(s.clHolds cl line) then s.modCluster cl (fun k => { k with lost := line :: k.lost }) else s)
  | .memBit pa => if isLocal pa.toNat && !(dirty pa.toNat) then s.mcCorrect pa.toNat else s
  | .memWord pa => if isLocal pa.toNat && !(dirty pa.toNat) then s.mcUncorrectable pa.toNat else s
  | .memCommand pa => if isLocal pa.toNat then s.bump .MC_CAPAR (mcOf pa.toNat) 1 else s
  | _ => s

end Sys2Proof.Machine
end

