-- ==== Sys2Proof/Machine/LoadIn.lean ====
section
/-! DEFINITION. Load-in (R478-R498): the flash image, the checks of a profile, its register lists, microcode and opening program,
the stages up to the start of EC000, and starting a held core. -/

namespace Sys2Proof.Machine

open Sys2Proof

/-! ### The flash image -/

/-- Bytes of the flash; an erased byte reads 0xFF (R480). -/
def State.flashBytes (s : State) (a n : Nat) : List Nat :=
  (List.range n).map (fun i => smapGet 0xFF s.load.flash.bytes (a + i))

/-- The density that R480 allows: 2 MiB to 256 MiB. -/
def Flash.fits (f : Flash) : Bool := 21 ≤ f.log2 && f.log2 ≤ 28

/-- Bytes of one copy, and where a copy begins (R480). -/
def State.copySize (s : State) : Nat := 2 ^ (s.load.flash.log2 - 1)
def State.copyBase (s : State) (b : Bool) : Nat := if b then s.copySize else 0

/-- One byte of a CRC-32 in the reflected form of IEEE 802.3. -/
def crcByte (c b : Nat) : Nat :=
  (List.range 8).foldl (fun c _ => if c % 2 == 1 then (c / 2) ^^^ 0xEDB88320 else c / 2) (c ^^^ b)

/-- CRC-32 of a byte string (R481). -/
def crc32 (l : List Nat) : Nat := (l.foldl crcByte 0xFFFFFFFF) ^^^ 0xFFFFFFFF

/-- The header of a copy (R481). -/
def State.header (s : State) (b : Bool) : List Nat := s.flashBytes (s.copyBase b) 1024

/-- MAGIC, FMT, NPROF and HCRC of a header hold (R481). -/
def headerOk (h : List Nat) : Bool :=
  leAt h 0 4 == 0x5A4C4E31 && leAt h 4 2 == 1 && 1 ≤ leAt h 6 1 && leAt h 6 1 ≤ 4 &&
    leAt h 12 4 == crc32 (h.take 12 ++ [0, 0, 0, 0] ++ h.drop 16)

/-- A section entry of a profile (R483): type, offset, length, digest. -/
structure Sec where
  type : Nat
  off : Nat
  len : Nat
  digest : Nat
  deriving DecidableEq, Repr

/-- A profile in the flash (R483): where it begins, KEYSLOT, sections, key, the bytes that SIG covers. -/
structure Prof where
  base : Nat
  keyslot : Nat
  secs : List Sec
  pub : List Nat
  signed : List Nat
  deriving DecidableEq, Repr

/-- Cause codes of LOADIN.STAT.CAUSE. -/
def cHEADER : Nat := 1
def cNOPROF : Nat := 2
def cSIG : Nat := 3
def cKEY : Nat := 4
def cFORMAT : Nat := 5
def cDIGEST : Nat := 6
def cCONFIG : Nat := 7
def cMCODE : Nat := 8

/-- The section table keeps R483 and R484. -/
def secsOk (l : List Sec) (plen : Nat) : Bool :=
  let types := l.map (fun x => x.type)
  types.all (fun t => 1 ≤ t && t ≤ 10) && types.Nodup && types.contains 1 && types.contains 3 && types.contains 9 &&
    l.all (fun x => x.off % 16 == 0 && x.off + x.len ≤ plen)

/-- Profile d of a copy (R481, R483, R484): the cause of the first check that fails, or the profile. -/
def State.profileAt (s : State) (b : Bool) (d : Nat) : Nat ⊕ Prof :=
  let h := s.header b
  let e := slice h (0x40 + 32 * d) 32
  let off := leAt e 0 4
  let len := leAt e 4 4
  if !(headerOk h) then .inl cHEADER
  else if leAt h 6 1 ≤ d || leAt e 24 4 % 2 == 0 then .inl cNOPROF
  else if off % 4096 != 0 || s.copySize < off + len then .inl cFORMAT
  else
    let base := s.copyBase b + off
    let p := s.flashBytes base (16 + 64 * 10 + 208)
    let n := leAt p 8 1
    let ks := leAt p 9 1
    let part := leAt p 10 2
    let t := 16 + 64 * n
    let secs := (List.range n).map (fun i =>
      let x := slice p (16 + 64 * i) 64
      ({ type := leAt x 0 1, off := leAt x 4 4, len := leAt x 8 4, digest := beNat (slice x 16 48) } : Sec))
    let pub := slice p t 97
    let signed := slice p 0 (t + 97)
    if leAt p 0 4 != 0x5A4C5031 || leAt p 4 4 != len || n == 0 || 10 < n || 4 ≤ ks || !(secsOk secs len) then .inl cFORMAT
    else if !(s.slotFused ks) || s.slotRevoked ks || (digestOf pub).toNat != s.slotHash ks then .inl cKEY
    else if !(Config.ecdsaVerify (toBytes pub) (digestOf signed) (toBytes (slice p (t + 112) 96))) then .inl cSIG
    else if part != 0 && part != s.fld f_DEV_ID_PART 0 then .inl cFORMAT
    else .inr { base := base, keyslot := ks, secs := secs, pub := pub, signed := signed }

/-- A secBytess bytes, empty where the profile has none, or cause DIGEST (R484). -/
def State.secBytes (s : State) (p : Prof) (t : Nat) : Nat ⊕ List Nat :=
  match p.secs.find? (fun x => x.type == t) with
  | none => .inr []
  | some x =>
    let l := s.flashBytes (p.base + x.off) x.len
    if (digestOf l).toNat == x.digest then .inr l else .inl cDIGEST

/-- A failed signature is counted (R519). -/
def State.countSig (s : State) (cause : Nat) : State := if cause == cSIG then s.bump .KSU_SIGFAIL 0 1 else s

/-- FLASHCHK (R498): the cause that the first failing profile of a copy gives, or 0. -/
def State.flashCheck (s : State) (b : Bool) : Nat :=
  let h := s.header b
  if !s.load.flash.fits then 12
  else if !(headerOk h) then cHEADER
  else
    let ds := (List.range (leAt h 6 1)).filter (fun d => leAt h (0x40 + 32 * d + 24) 4 % 2 == 1)
    if ds.isEmpty then cNOPROF
    else
      let one (d : Nat) : Nat :=
        match s.profileAt b d with
        | .inl c => c
        | .inr p => if p.secs.any (fun x => (s.secBytes p x.type).isLeft) then cDIGEST else 0
      ((ds.map one).find? (fun c => c != 0)).getD 0

/-! ### Register lists -/

/-- The registers that a section may write (R485). -/
def sectionMay (t : Nat) (r : Reg) : Bool :=
  match t with
  | 1 => [Reg.CLK_CTL, .CLK_GATE_TMO, .CLK_TPLL, .PWR_PLIM, .PWR_ALMASK, .TIME_CTL, .TIME_PPS].contains r
  | 2 => [Reg.DEV_MODE, .DEV_STCFG, .CLU_MODE, .REH_CTL, .REH_RING, .REH_TRING, .REH_HBUF, .REH_HBSIZE, .REH_SNAP, .REH_HASHINT,
      .REH_TCTL].contains r
  | 3 => [Reg.LOADIN_CLEN, .CC_CTL, .MATCH_CTL, .LOOK_CTL, .MCS_RFCTL].contains r
  | 4 => [Reg.LOADIN_PART, .COL_CTL, .COL_HEAPBASE, .COL_CTX, .COL_PACE, .COL_PACELIM, .MC_CTL, .MC_SCRUB, .MC_CAL].contains r
  | 6 => [Reg.TOUR_PCTL, .TOUR_TOPO, .TOUR_TSYNC, .TOUR_INQB, .TOUR_RTMO, .TOUR_RT].contains r
  | 7 => [Reg.HOST_CTL, .HOST_CACHEBASE, .HOST_MMIOBASE, .HOST_PWIN].contains r
  | 10 => decide (r = .LOADIN_POLICY)
  | _ => false

/-- The entries of a register list: io address and value. -/
def listEntries (l : List Nat) : List (Nat × Nat) :=
  (List.range (l.length / 16)).map (fun i => (leAt l (16 * i) 4, leAt l (16 * i + 8) 8))

/-- The fields that an entry writes, and whether one gets a reserved value (R485, R548). -/
def entryWrite (row : RegRow) (old v : W64) : W64 × Bool :=
  row.fields.foldl (fun (a : W64 × Bool) f =>
    let x := bits v f.hi f.lo
    if f.src == .loadin || f.acc == .RW then (setBits a.1 f.hi f.lo x, a.2 || !(f.legal.ok x)) else a) (old, false)

/-- PWR.PLIM.LIMIT is in the part's range (R471). -/
def State.plimOk (s : State) (w : Nat) : Bool :=
  match s.part with
  | .xpr3610 => decide (150 ≤ w) && decide (w ≤ 480)
  | .xpr3604 => decide (100 ≤ w) && decide (w ≤ 300)

/-- A value that R548, R471 or a fuse does not allow in a register. -/
def State.entryBad (s : State) (reg : Reg) (i v : Nat) : Bool :=
  match reg with
  | .PWR_PLIM => !(s.plimOk (v % 2 ^ 16))
  | .CLK_TPLL => !(coreMhzOk i (v % 2 ^ 12)) || !(cchMhzOk (v / 2 ^ 16 % 2 ^ 12))
  | .LOADIN_POLICY => 4 ≤ v % 16 && v % 16 != 15
  | _ => false

/-- The unit of a register is absent, or a cluster that LOADIN.CLEN leaves disabled (R485). -/
def State.entrySkips (s : State) (row : RegRow) (a i : Nat) : Bool :=
  match row.unit with
  | .cluster => !(s.enabledClusters.contains (i / row.count))
  | .col => !(s.enabledClusters.contains ((a - 0x1000000) / 0x10000))
  | .port => s.nPorts ≤ i / row.count || !(bit (s.reg .DEV_PORTEN 0) (i / row.count))
  | _ => false

/-- One entry of a register list (R485): none where it is refused with cause CONFIG. -/
def State.applyEntry (s : State) (t : Nat) (e : Nat × Nat) : Option State :=
  match ({ s with part := .xpr3610 } : State).ioFind none e.1 with
  | none => none
  | some (row, i) =>
    let w := entryWrite row (s.reg row.reg i) (w64 e.2)
    if !(sectionMay t row.reg) || s.entryBad row.reg i e.2 then none
    else if s.entrySkips row e.1 i then some s
    else if w.2 then none
    else
      let old := s.flag f_TOUR_PCTL_EN i
      let s := s.setReg row.reg i w.1
      some (match row.reg with
        | .LOADIN_CLEN => s.setReg .LOADIN_CLEN 0 (w.1 &&& s.reg .DEV_CLEN 0 &&& ~~~ (w64 s.load.failed))
        | .TOUR_PCTL => if old == s.flag f_TOUR_PCTL_EN i then s else s.portEnable i (s.flag f_TOUR_PCTL_EN i)
        | .HOST_CTL => if e.2 % 4 != 0 then s.setFld f_DEV_EVAL_HOSTTAG 0 1 else s
        | _ => s)

/-- A register list in order (R485): cause CONFIG of the first refused entry, FORMAT where it does not divide into entries. -/
def State.applyList (s : State) (t : Nat) (l : List Nat) : Nat ⊕ State :=
  if l.length % 16 != 0 then .inl cFORMAT
  else
    match (listEntries l).foldl (fun (o : Option State) e => o.bind (fun s => s.applyEntry t e)) (some s) with
    | none => .inl cCONFIG
    | some s => .inr s

/-- Load-in fields of a stored register go to 0 (R485). -/
def zeroLoadin (x : RegCell) : RegCell :=
  match rowOf x.reg with
  | none => x
  | some row => { x with val := row.fields.foldl (fun v f => if f.src == .loadin then setBits v f.hi f.lo 0 else v) x.val }

/-- The defaults of R486. -/
def State.defaults (s : State) : State :=
  let s := (List.range 4).foldl (fun (s : State) t => (s.setFld f_CLK_TPLL_COREMHZ t 1500).setFld f_CLK_TPLL_CCHMHZ t 1000) s
  let s := s.setFld f_PWR_PLIM_LIMIT 0 (match s.part with | .xpr3610 => 480 | .xpr3604 => 300)
  (List.range 4).foldl (fun (s : State) m => s.setFld f_MC_CAL_INT m 1024) s

/-- Every Load-in field is 0, except the defaults (R485, R486). -/
def State.loadDefaults (s : State) : State :=
  let s : State := { s with regs := (s.regs.filter (fun x => !(decide (x.reg = .TOUR_RT)))).map zeroLoadin }
  (s.setFld f_TOUR_NODE_NODE 0 0x3FFF).defaults

/-! ### Routes -/

/-- Coordinates of a node on dimension d (R366). -/
def coord (sx sy d n : Nat) : Nat :=
  match d with
  | 0 => n % sx
  | 1 => n / sx % sy
  | _ => n / (sx * sy)

/-- The direction (1 is −) of the way from a to b on a dimension of size l, and whether its first link wraps (R366). -/
def wayTo (torus : Bool) (l a b : Nat) : Nat × Bool :=
  let minus := if torus then decide ((a + l - b) % l < (b + l - a) % l) else decide (b < a)
  (b2n minus, torus && a == (if minus then 0 else l - 1))

/-- The port for a dimension, a direction and a destination (R366): where ports share both, the one whose parity fits. -/
def State.portFor (s : State) (d dir dest : Nat) : Option Nat :=
  let l := (List.range s.nPorts).filter (fun p => bit (s.reg .DEV_PORTEN 0) p && s.flag f_TOUR_PCTL_EN p &&
    s.fld f_TOUR_PCTL_DIM p == d && s.fld f_TOUR_PCTL_DIR p == dir)
  match l.find? (fun p => s.fld f_TOUR_PCTL_PAR p == dest % 2) with
  | some p => some p
  | none => l.head?

/-- The dimension-order route to a node (R366). -/
def State.routeTo (s : State) (n : Nat) : Option W64 :=
  let size (d : Nat) : Nat := match d with
    | 0 => s.fld f_TOUR_TOPO_SX 0 + 1
    | 1 => s.fld f_TOUR_TOPO_SY 0 + 1
    | _ => s.fld f_TOUR_TOPO_SZ 0 + 1
  let at' (m d : Nat) : Nat := coord (size 0) (size 1) d m
  match [0, 1, 2].find? (fun d => at' s.node d != at' n d) with
  | none => none
  | some d =>
    let (dir, wrap) := wayTo ((s.fld f_TOUR_TOPO_TORUS 0).testBit d) (size d) (at' s.node d) (at' n d)
    (s.portFor d dir n).map (fun p => w64 (2 ^ 63 + b2n wrap * 2 ^ 9 + p))

/-- The Green Room fills the routing table (R366). -/
def State.fillRoutes (s : State) : State :=
  let n := Nat.min 16383 ((s.fld f_TOUR_TOPO_SX 0 + 1) * (s.fld f_TOUR_TOPO_SY 0 + 1) * (s.fld f_TOUR_TOPO_SZ 0 + 1))
  let cells := if s.node == 0x3FFF then []
    else (List.range n).filterMap (fun d => (s.routeTo d).map (fun v => ({ reg := .TOUR_RT, inst := d, val := v } : RegCell)))
  { s with regs := s.regs.filter (fun x => !(decide (x.reg = .TOUR_RT))) ++ cells }

/-- LINKS (R366, R485, R487): the routes follow from the ports and the topology that it gives, and its own RT entries override
them. -/
def State.applyLinks (s : State) (l : List Nat) : Nat ⊕ State :=
  let rt := (listEntries l).filter (fun e => 0x2310000 ≤ e.1 && e.1 < 0x2314000)
  match s.applyList 6 l with
  | .inl c => .inl c
  | .inr s =>
    let s := s.fillRoutes
    .inr (rt.foldl (fun (s : State) e => (s.applyEntry 6 e).getD s) s)

/-! ### Stages -/

/-- LOADIN.STAT.STAGE. -/
def State.stage (s : State) (n : Nat) : State := s.setFld f_LOADIN_STAT_STAGE 0 n

/-- The default CCTL of a cluster's cores (R488). -/
def cctlOf (l : List Nat) (cl : Nat) : W64 :=
  let v := leAt l (8 + 8 * cl) 8
  if l.isEmpty then 0 else if v.testBit 63 then w64 (v % 2 ^ 63) else w64 (leAt l 0 8)

/-- A section of the active profile, as it was staged. -/
def State.staged (s : State) (t : Nat) : List Nat := ((s.load.secs.find? (fun x => x.1 == t)).map (fun x => x.2)).getD []

/-- The sections read when the profile was accepted are staged. -/
def State.stageSec (s : State) (t : Nat) (l : List Nat) : State :=
  { s with load := { s.load with secs := s.load.secs.filter (fun x => x.1 != t) ++ [(t, l)] } }

/-- The identity block (R482): node ID, SYSID and BOARDSN, or IDBAD. -/
def State.identity (s : State) (b : Bool) (pub : List Nat) : State :=
  let h := s.header b
  let id := slice h 0x100 64
  let node := leAt id 0 2
  let good := Config.ecdsaVerify (toBytes pub) (digestOf id) (toBytes (slice h 0x140 96))
  let s := if good then s else s.bump .KSU_SIGFAIL 0 1
  let s : State := { s with load := { s.load with ident := id } }
  if good && node ≤ 0x3FFE then
    let s := (s.setFld f_TOUR_NODE_NODE 0 node).setReg .LOADIN_SYSID 0 (w64 (leAt id 8 8))
    (s.setReg .LOADIN_SN0 0 (w64 (leAt id 16 8))).setReg .LOADIN_SN1 0 (w64 (leAt id 24 8))
  else
    let s := (s.setFld f_LOADIN_STAT_IDBAD 0 1).setFld f_TOUR_NODE_NODE 0 0x3FFF
    ((s.setReg .LOADIN_SYSID 0 0).setReg .LOADIN_SN0 0 0).setReg .LOADIN_SN1 0 0

/-- Apply a section that is a register list; it is staged. -/
def State.applySection (s : State) (p : Prof) (t : Nat) : Nat ⊕ State :=
  match s.secBytes p t with
  | .inl c => .inl c
  | .inr l =>
    let s := s.stageSec t l
    if t == 6 then s.applyLinks l else s.applyList t l

/-- Apply several sections in order. -/
def State.applySections (s : State) (p : Prof) : List Nat → Nat ⊕ State
  | [] => .inr s
  | t :: ts =>
    match s.applySection p t with
    | .inl c => .inl c
    | .inr s => State.applySections s p ts

/-- The refusals of R487 that stage CONFIG can find. -/
def State.configBad (s : State) : Bool :=
  !(s.enabledClusters.contains 0) || s.mode mREPLAY ||
    (s.mode mRECORD && (s.flag f_REH_CTL_SNAP 0 || s.fld f_REH_RING_SIZE 0 == 0))

/-- The CLUSTERS section names LOADIN.CLEN (R485); the mask holds for the whole section. -/
def clenEntry (l : List Nat) : Option Nat := ((listEntries l).find? (fun e => e.1 == 0x2000304)).map (fun e => e.2)

/-- Stage CONFIG (R492). -/
def State.configStage (s : State) (p : Prof) : Nat ⊕ State :=
  match s.secBytes p 3 with
  | .inl c => .inl c
  | .inr l =>
    match clenEntry l with
    | none => .inl cCONFIG
    | some m =>
      let s := s.setReg .LOADIN_CLEN 0 (w64 (m % 2 ^ 32) &&& s.reg .DEV_CLEN 0)
      match s.applySections p [3, 10, 4, 2, 6] with
      | .inl c => .inl c
      | .inr s =>
        match s.secBytes p 5 with
        | .inl c => .inl c
        | .inr l =>
          if !l.isEmpty && l.length != 264 then .inl cFORMAT
          else if s.configBad then .inl cCONFIG
          else .inr (s.stageSec 5 l)

/-- The data-plane PLLs lock at the frequencies that CLOCKS gives (R460, R492). -/
def State.lockPlls (s : State) : State :=
  (List.range 4).foldl (fun (s : State) t =>
    let f := s.effMhz t
    (s.setFld f_CLK_TPLL_EFFMHZ t f).setMv t (Config.fusedMv t f)) s.setThr

/-- Load-in stops for a failure of hardware (R497). -/
def State.loadStop (s : State) (cause : Nat) : State :=
  let s := s.setFld f_LOADIN_STAT_CAUSE 0 cause
  let s := s.logBb 5 (s.fld f_LOADIN_STAT_COPY 0) cause
  { s with status := 0xF, load := { s.load with waiting := false } }

/-- Stage SELFCHECK (R492, R497): clusters that fail BIST are removed where the policy allows it. -/
def State.selfCheck (s : State) (bad : Nat) (sysBad : Bool) : State ⊕ State :=
  let bad := maskOf 32 (fun q => bad.testBit q && s.enabledClusters.contains q)
  if sysBad || bad.testBit 0 || (bad != 0 && !(s.flag f_LOADIN_POLICY_BISTDROP 0)) then .inl (s.loadStop 11)
  else
    .inr (({ s with load := { s.load with failed := bad } } : State).setReg .LOADIN_CLEN 0 (s.reg .LOADIN_CLEN 0 &&& ~~~ (w64 bad))
      |>.setReg .LOADIN_BIST 0 (w64 bad))

/-- The images of a MICROCODE section (R489): none where one does not fit. -/
def imagesOf (fuel : Nat) (l : List Nat) : Option (List (List Nat)) :=
  match fuel with
  | 0 => if l.isEmpty then some [] else none
  | fuel + 1 =>
    if l.isEmpty then some []
    else
      let n := leAt l 4 4
      if n == 0 || l.length < n then none else (imagesOf fuel (l.drop n)).map (fun r => l.take n :: r)

/-- One image of the profile is verified and loaded into every enabled cluster (R176, R177, R489). -/
def State.loadImage (s : State) (l : List Nat) : Nat ⊕ State :=
  let kind := leAt l 0 1
  if kind != 1 && kind != 2 then .inl cMCODE
  else if kind == 2 && s.mode mSEALED then .inl cCONFIG
  else if kind == 2 && s.fld f_LOADIN_POLICY_CUSTSLOT 0 == 15 then .inl cMCODE
  else
    match s.imageVerify kind l with
    | (some _, _) => .inl cMCODE
    | (none, s) =>
      let s : State := { s with mcs := if kind == 1 then { s.mcs with vendor := some l } else { s.mcs with cust := some l } }
      let s := s.stageImage (kind - 1) l
      let s := if kind == 2 then s.setFld f_DEV_EVAL_MCODE 0 1 else s
      .inr (s.enabledClusters.foldl (fun (s : State) cl => if kind == 1 then s.putVendor cl (some l) else s.putCust cl (some l)) s)

/-- Stage MICROCODE. -/
def State.microStage (s : State) (p : Prof) : Nat ⊕ State :=
  match s.secBytes p 8 with
  | .inl c => .inl c
  | .inr l =>
    match imagesOf l.length l with
    | none => .inl cMCODE
    | some imgs => imgs.foldl (fun (o : Nat ⊕ State) img => match o with | .inl c => .inl c | .inr s => s.loadImage img) (.inr s)

/-- Stage HOST (R487, R492). -/
def State.hostStep (s : State) (p : Prof) : Nat ⊕ State :=
  match s.applySection p 7 with
  | .inl c => .inl c
  | .inr s =>
    if s.mode mSEALED && (s.flag f_HOST_CTL_TAGWR 0 || s.flag f_HOST_CTL_DPRESERVE 0) then .inl cCONFIG else .inr s

/-- The segments of OPENING (R490): pa and words; none where the section does not hold them. -/
def segmentsOf (n : Nat) (l : List Nat) : Option (List (Nat × List TWord)) :=
  match n with
  | 0 => some []
  | n + 1 =>
    let pa := leAt l 0 8
    let cnt := leAt l 8 8
    if l.length < 16 + 16 * cnt then none
    else
      let ws := (List.range cnt).map (fun i =>
        (⟨BitVec.ofNat 8 (leAt l (16 + 16 * i + 8) 1), w64 (leAt l (16 + 16 * i) 8)⟩ : TWord))
      (segmentsOf n (l.drop (16 + 16 * cnt))).map (fun r => (pa, ws) :: r)

/-- A segment lies in local datum storage or in the device-private region below the staging area (R490). -/
def segmentOk (x : Nat × List TWord) : Bool :=
  let e := x.1 + x.2.length
  e ≤ 0x000240000000 || (0x000400000000 ≤ x.1 && e ≤ stagingLo)

/-- Stage OPENING: the segments are written, and the entry is kept. -/
def State.openingStage (s : State) (p : Prof) : Nat ⊕ State :=
  match s.secBytes p 9 with
  | .inl c => .inl c
  | .inr l =>
    match segmentsOf (leAt l 8 4) (l.drop 12) with
    | none => .inl cFORMAT
    | some segs =>
      let e := leAt l 0 8
      if !(segs.all segmentOk) || !(segs.any (fun x => x.1 ≤ e % 2 ^ 48 / 4 && e % 2 ^ 48 / 4 < x.1 + x.2.length)) then .inl cFORMAT
      else
        let put (s : State) (x : Nat × List TWord) : State :=
          (List.range x.2.length).foldl (fun (s : State) i => s.wr (x.1 + i) (x.2.getD i wRAW0)) s
        .inr { segs.foldl put s with load := { s.load with start := e % 2 ^ 48 } }

/-- EC000 starts (R495, R516, R430): the commit point of Load-in. -/
def State.commitLoad (s : State) : State :=
  let s := s.startCore 0 s.load.start (cctlOf (s.staged 5) 0)
  let s : State := { s.bump .LOADIN_COLD 0 1 with status := 4 }
  let evald := (match s.part with | .xpr3610 => true | .xpr3604 => false) && s.mode mSEALED && !(s.flag f_DEV_EVAL_MCODE 0) &&
    !(s.flag f_DEV_EVAL_HOSTTAG 0) && !(s.flag f_DEV_EVAL_DEBUG 0)
  let s := s.setFld f_DEV_EVAL_EVAL 0 (b2n evald)
  if s.mode mRECORD then s.sessionBegin else s

/-- Registers of the Green Room, of the memory controllers and of the link (R496-R498). -/
def keepsCopy (x : RegCell) : Bool :=
  match rowOf x.reg with
  | none => false
  | some row => row.unit == .mc || (0x2000000 ≤ row.base && row.base < 0x2000800) || decide (x.reg = .HOST_LINK)

/-- Every unit but the Green Room and the memory controllers returns to cold-reset state (R496, R497). -/
def State.unitsCold (s : State) : State :=
  let r := State.reset
  let s : State := { s with
    regs := s.regs.filter keepsCopy, cores := r.cores, clusters := r.clusters, dir := r.dir, col := r.col, reh := r.reh, tour := r.tour
    home := [], held := [], mcs := r.mcs, modes := [], test := none }
  s.setFld f_TOUR_NODE_NODE 0 0x3FFF

/-- The profile that LOADIN.STAT names in the copy that it names. -/
def State.activeProf (s : State) : Nat ⊕ Prof := s.profileAt (s.flag f_LOADIN_STAT_COPY 0) (s.fld f_LOADIN_STAT_PROF 0)

/-- Stages MICROCODE to DONE (R492): the cause and state of a failure, or the running device. -/
def State.lateStages (s : State) : (Nat × State) ⊕ State :=
  let s : State := { s with status := 2, load := { s.load with waiting := false } }
  match s.activeProf with
  | .inl c => .inl (c, s)
  | .inr p =>
    let s := s.stage 6
    match s.microStage p with
    | .inl c => .inl (c, s)
    | .inr s =>
      let s := s.stage 7
      match s.hostStep p with
      | .inl c => .inl (c, s)
      | .inr s =>
        let s := s.stage 8
        match s.openingStage p with
        | .inl c => .inl (c, s)
        | .inr s => .inr (s.stage 9).commitLoad

/-- Stage MEMWAIT (R414, R492): Load-in waits while memory is not cleared. -/
def State.memWait (s : State) : (Nat × State) ⊕ State :=
  let s := s.stage 5
  if s.load.hbmBad then .inr (s.loadStop 10)
  else if s.load.cleared then s.lateStages
  else .inr { s with status := 3, load := { s.load with waiting := true } }

/-- What the outside tells Load-in: whether the PLLs lock, the clusters that fail BIST, whether the mask ROM or the export table
fails. -/
structure Bist where
  pllOk : Bool
  clusters : Nat
  sys : Bool
  deriving DecidableEq, Repr

/-- Stages VERIFY to MEMWAIT of a copy (R492). -/
def State.earlyStages (s : State) (b : Bist) (copy : Bool) : (Nat × State) ⊕ State :=
  let s := s.stage 1
  let s : State := { s with status := 2, load := { s.load with secs := [], waiting := false } }
  if !s.load.flash.fits then .inl (12, s)
  else
    match s.profileAt copy (s.fld f_LOADIN_STAT_PROF 0) with
    | .inl c => .inl (c, s.countSig c)
    | .inr p =>
      let s := s.loadDefaults.identity copy p.pub
      let s : State := { s with load := { s.load with keyslot := p.keyslot, digest := (digestOf p.signed).toNat } }
      let s := s.stage 2
      match s.applySection p 1 with
      | .inl c => .inl (c, s)
      | .inr s =>
        if !b.pllOk then .inr (s.loadStop 9)
        else
          let s := s.lockPlls.stage 3
          match s.configStage p with
          | .inl c => .inl (c, s)
          | .inr s =>
            match (s.stage 4).selfCheck b.clusters b.sys with
            | .inl s => .inr s
            | .inr s => s.memWait

/-- Both copies have failed (R497): Recovery. -/
def State.enterRecovery (s : State) (cause : Nat) : State :=
  let s := (s.setFld f_LOADIN_STAT_CAUSE 0 cause).logBb 5 1 cause
  { s.unitsCold with status := 6 }

/-- Copy A has failed (R497): Load-in repeats from VERIFY with copy B. -/
def State.copyB (s : State) (b : Bist) (cause : Nat) : State :=
  let s := (((s.setFld f_LOADIN_STAT_ACAUSE 0 cause).setFld f_LOADIN_STAT_COPY 0 1).bump .LOADIN_FAILA 0 1).logBb 5 0 cause
  match s.unitsCold.earlyStages b true with
  | .inl (c, s) => s.enterRecovery c
  | .inr s => s

/-- A failure of content ends the copy in use (R497). -/
def State.copyFailed (s : State) (b : Bist) (cause : Nat) : State :=
  if s.flag f_LOADIN_STAT_COPY 0 then s.enterRecovery cause else s.copyB b cause

/-- Stage SELECT (R491). -/
def State.select (s : State) : State :=
  let v := s.flag f_LOADIN_NEXT_V 0
  let sticky := s.flag f_LOADIN_NEXT_STICKY 0
  let prof := if v then s.fld f_LOADIN_NEXT_PROF 0 else s.clk.profile
  let s := if v && !sticky then s.setFld f_LOADIN_NEXT_V 0 0 else s
  s.setReg .LOADIN_STAT 0 (w64 ((if v then (if sticky then 2 else 1) else 0) * 16 + prof))

/-- LOAD_IN (R491, R492): stages SELECT to MEMWAIT, and the rest where memory is already cleared. -/
def execLoadIn (pllOk : Bool) (bistBad : BitVec 32) (sysBist : Bool) (s : State) : Ans :=
  let b : Bist := { pllOk := pllOk, clusters := bistBad.toNat, sys := sysBist }
  .next (if s.status == 1 && s.clk.timeOn && s.fld f_LOADIN_STAT_CAUSE 0 == 0 then
    let s : State := { s.select with load := { s.load with bist := bistBad.toNat } }
    match s.earlyStages b false with
    | .inl (c, s) => s.copyFailed b c
    | .inr s => s
  else s)

/-- Load-in goes on after MEMWAIT; a copy that fails now gives way to copy B, whose PLLs and clusters stand as they were. -/
def State.afterMemory (s : State) : State :=
  match s.memWait with
  | .inl (c, s) => s.copyFailed { pllOk := true, clusters := s.load.bist, sys := false } c
  | .inr s => s

/-- HBM training runs from the moment the Green Room runs to its end (R492). -/
def State.training (s : State) : Bool := (s.status == 1 || s.status == 2 || s.status == 3) && s.clk.timeOn && !s.load.trained

/-- HBM_TRAINING_DONE (R492, R497). -/
def execHbmTrainingDone (ok : Bool) (s : State) : Ans :=
  .next (if s.training then
    let s : State := { s with load := { s.load with trained := ok, hbmBad := !ok } }
    if s.load.waiting && !ok then s.loadStop 10 else s
  else s)

/-- MEMORY_CLEARING_DONE (R414): local datum and device-private storage hold RAW 0. -/
def execMemoryClearingDone (s : State) : Ans :=
  .next (if s.load.trained && !s.load.cleared && (s.status == 1 || s.status == 2 || s.status == 3) then
    let s : State := { s with mem := s.mem.filter (fun x => !(isLocal x.1) && x.2 != wRAW0), emptied := [], load := { s.load with cleared := true } }
    if s.load.waiting then s.afterMemory else s
  else s)

/-- An abort of Load-in (R496): before the commit point it stops at the next stage boundary; true when it was in time. -/
def State.abortLoad (s : State) : Bool × State :=
  if s.status == 1 || s.status == 2 || s.status == 3 then
    let s := (s.unitsCold.setFld f_LOADIN_STAT_CAUSE 0 13).setFld f_LOADIN_STAT_ABRES 0 1
    (true, { s with status := 1, load := { s.load with waiting := false } })
  else (false, s.setFld f_LOADIN_STAT_ABRES 0 2)

/-- A write of LOADIN.NEXT (R491). -/
def State.selectNext (s : State) (v sticky : Bool) (prof : Nat) : State :=
  s.setReg .LOADIN_NEXT 0 (w64 (b2n v * 2 ^ 63 + b2n sticky * 2 ^ 62 + prof % 4))

/-- LOADIN_NEXT_WRITE (R491). -/
def execLoadinNextWrite (v sticky : Bool) (prof : BitVec 2) (s : State) : Ans := .next (s.selectNext v sticky prof.toNat)

/-- LOADIN.START (R495): a core held in reset starts at a sa; anything else starts nothing. -/
def State.loadinStart (s : State) (c sa : Nat) : State :=
  if s.enabledClusters.contains (clusterOf c) && (s.core c).run == .held && !(s.checker c) then
    s.startCore c sa (cctlOf (s.staged 5) (clusterOf c))
  else s.setFld f_LOADIN_ERR_STERR 0 1

/-- LOADIN_START (R495). -/
def execLoadinStart (c : Fin 256) (sa : BitVec 48) (s : State) : Ans := .next (s.loadinStart c sa.toNat)

end Sys2Proof.Machine
end

