-- ==== Sys2Proof/Machine/Reset.lean ====
section
/-! DEFINITION. Cold, warm and cluster resets (R479, R499-R501, R540), the CXL resets (R398), and the loss of VDD_AON (R431). -/

namespace Sys2Proof.Machine

open Sys2Proof

/-! ### Cold reset -/

/-- Registers that the fuses hold. -/
def fuseReg (r : Reg) : Bool := [Reg.DEV_ID, .DEV_CLEN, .DEV_PORTEN, .KSU_STATE].contains r

/-- Registers that are kept while VDD_AON is present (R10, R491, R513). -/
def coldKeeps (r : Reg) : Bool :=
  fuseReg r || [Reg.LOADIN_NEXT, .LOADIN_COLD, .LOADIN_WARM, .LOADIN_FAILA, .PROMPTER_CMDS, .PROMPTER_PECERR, .PROMPTER_AUTHFAIL,
    .PROMPTER_NACKS, .KSU_SIGFAIL, .KSU_HEALTH].contains r

/-- Every unit takes its cold-reset value (R10, R499): the fuses, the flash, the latched straps, the black box and what
VDD_AON keeps stay; memory is cleared only by the Load-in that follows (R414). -/
def State.coldReset (s : State) : State :=
  let r := State.reset
  let k := s.clk
  let addr := s.fld f_PROMPTER_STAT_ADDR 0
  let s : State := { r with
    pending := s.pending, free := s.free, part := s.part, mem := s.mem, emptied := s.emptied
    regs := s.regs.filter (fun x => coldKeeps x.reg), ksu := s.ksu
    load := { flash := s.load.flash }, host := { perst := s.host.perst }
    clk := { aon := k.aon, por := k.por, profile := k.profile, paddr := k.paddr, recover := k.recover }
    reh := { mirror := s.reh.mirror, mirrored := s.reh.mirrored }, bb := s.bb, wire := s.wire }
  (s.setFld f_TOUR_NODE_NODE 0 0x3FFF).setFld f_PROMPTER_STAT_ADDR 0 addr

/-- POR_N_ASSERT (R479, R540): the part stays in cold reset, STATUS 0, until POR_N is released. A part that was Off is supplied
again. -/
def execPorNAssert (s : State) : Ans :=
  .next (if s.clk.por && s.clk.aon then s
  else
    let s := s.logBb 6 0 0
    s.coldReset.modClk (fun k => { k with aon := true, por := true }))

/-- VDD_AON_LOSS (R431, R491, R513): the part is Off; only fuses and flash keep their content. -/
def execVddAonLoss (s : State) : Ans :=
  let r := State.reset
  .next ({ r with
    pending := s.pending, free := s.free, part := s.part, regs := s.regs.filter (fun x => fuseReg x.reg), ksu := s.ksu
    load := { flash := s.load.flash }, host := { perst := s.host.perst }, clk := { aon := false }, wire := s.wire } : State)

/-! ### Warm reset -/

/-- Registers that a warm reset keeps (R181, R432, R496-R500): fuses, Load-in's own, modes and what MODES sets, the
link, the conditions of the clocks, the KSU's state, the Prompter's and what VDD_AON keeps. -/
def warmKeeps (r : Reg) : Bool :=
  coldKeeps r || keepsCluster r ||
    [Reg.LOADIN_STAT, .LOADIN_CLEN, .LOADIN_PART, .LOADIN_POLICY, .LOADIN_SYSID, .LOADIN_SN0, .LOADIN_SN1, .DEV_MODE,
      .DEV_EVAL, .DEV_STCFG, .HOST_LINK, .REH_CTL, .REH_RING, .REH_TRING, .REH_HBUF, .REH_HBSIZE, .REH_SNAP, .REH_HASHINT, .REH_TCTL,
      .REH_RPSTAT, .TOUR_NODE, .CLK_STAT, .TIME_STAT, .KSU_DRBG, .PROMPTER_STAT].contains r

/-- A recording session ends at a warm reset with END SUB 1 (R500). -/
def State.warmSession (s : State) : State :=
  match s.sessionEnd 1 with
  | some s => s
  | none => ((s.dropChunks.putRecord (s.endRec 1)).setFld f_REH_STAT_ACTIVE 0 0).setFld f_REH_STAT_SNAPHOLD 0 0

/-- The Prompter's mode request that a reset ends receives NOTNOW (R511). -/
def State.dropModes (s : State) : State :=
  let mine := s.modes.any (fun r => match r with | .prompter _ => true | _ => false)
  let s : State := { s with modes := [] }
  if mine || (s.pm.ropc == 0x11 && s.pm.rst == 6) then { s with pm := { s.pm with rst := 3, data := [] } } else s

/-- A register list of the active profile is applied again from its staged copy (R500). -/
def State.reapply (s : State) (t : Nat) : State :=
  let l := s.staged t
  match (if t == 6 then s.applyLinks l else s.applyList t l) with
  | .inl _ => s
  | .inr s => s

/-- The units beside the clusters take their warm values (R500 step 3); of REH.TCTL only the Load-in fields stay (R11). -/
def State.warmUnits (s : State) : State :=
  let r := State.reset
  let k := s.clk
  { s with
    regs := s.regs.filter (fun x => warmKeeps x.reg), col := r.col, tour := r.tour, test := none, recal := []
    reh := { mirror := s.reh.mirror, mirrored := s.reh.mirrored, beginW := s.reh.beginW }
    mcs := { s.mcs with job := none, want := [], hold := [] }, host := { s.host with bias := none }
    clk := { k with tpll := r.clk.tpll, tpllNext := r.clk.tpllNext, gate := none, noMl := [], noSth := [], noPort := [], noReh := false
                    dark := false, wake := none } }

/-- The warm reset (R500). -/
def State.warmReset (s : State) (who : Nat) : State :=
  let s := s.setSref false
  let s := s.warmSession
  let s := if s.mode mREPLAY && s.fld f_REH_RPSTAT_CODE 0 ≤ 3 then (s.replayStop 9 0 0 0).replayLeave else s
  let s := s.dropModes
  let s := (List.range s.nClusters).foldl (fun (s : State) cl => ((s.ungateCluster cl).warmCluster cl).setHold cl false) s
  let s : State := { (s.warmUnits.setFld f_REH_TCTL_FROZEN 0 0).setFld f_REH_TCTL_TRIG 0 15 with status := 2 }
  let s := [1, 3, 10, 4, 6, 7].foldl (fun (s : State) t => s.reapply t) s.defaults
  let s := (s.lockPlls.bump .LOADIN_WARM 0 1).logBb 6 1 who
  let s : State := { s with status := 4, load := { s.load with warm := none, creset := [] } }
  let s := if s.mode mRECORD then s.sessionBegin else s
  s.warmEntry 0

/-- A warm reset is requested (R499): requests merge. It is taken in Run, in Dark and in Curtain, but not in thermal shutdown. -/
def State.wantWarm (s : State) (who : Nat) : State :=
  if (s.status == 4 || s.status == 5 || s.status == 8 || s.status == 9) && s.load.warm.isNone then
    { s with load := { s.load with warm := some who } }
  else s

/-- LOADIN_CMD_WARM (R499). -/
def execLoadinCmdWarm (s : State) : Ans := .next (s.wantWarm 3)

/-- WARM_N_EDGE (R499, R540). -/
def execWarmNEdge (s : State) : Ans := .next (s.wantWarm 0)

/-- WARM_RESET (R500): a requested warm reset is taken. -/
def execWarmReset (s : State) : Ans :=
  .next (match s.load.warm with
    | some who => s.warmReset who
    | none => s)

/-! ### Cluster reset -/

/-- The cluster reset (R501): its cores stop and are held, its units take warm values, CLUSTERS is applied to it again, and the
control store receives the current images. MCS.LDSTAT reports a load or sweep that still runs (DEDUCED, log entry 98). -/
def State.clusterReset (s : State) (cl who : Nat) : State :=
  let s := s.abortCluster cl 4
  let st := s.reg .MCS_LDSTAT cl
  let s := ((s.ungateCluster cl).warmCluster cl).setHold cl false
  let s := if s.mcs.job.isSome || !s.mcs.want.isEmpty then s.setReg .MCS_LDSTAT cl st else s
  let lo := 0x1000000 + cl * 0x10000
  let es := (listEntries (s.staged 3)).filter (fun e => lo ≤ e.1 && e.1 < lo + 0x10000)
  let s := es.foldl (fun (s : State) e => (s.applyEntry 3 e).getD s) s
  ((s.reload cl).wakeLines).logBb 6 2 who

/-- A cluster reset is requested (R499): one of an enabled cluster; requests merge. -/
def State.wantCluster (s : State) (cl who : Nat) : State :=
  if (s.status == 4 || s.status == 5 || s.status == 8 || s.status == 9) && s.enabledClusters.contains cl && !(s.load.creset.any (fun x => x.1 == cl)) then
    { s with load := { s.load with creset := s.load.creset ++ [(cl, who)] } }
  else s

/-- LOADIN_CMD_CRESET (R499). -/
def execLoadinCmdCreset (cl : Fin 32) (s : State) : Ans := .next (s.wantCluster cl 3)

/-- CLUSTER_RESET (R501): a requested cluster reset is taken. -/
def execClusterReset (cl : Fin 32) (s : State) : Ans :=
  .next (match s.load.creset.find? (fun x => x.1 == cl.val) with
    | some (_, who) =>
      ({ s with load := { s.load with creset := s.load.creset.filter (fun x => x.1 != cl.val) } } : State).clusterReset cl who
    | none => s)

/-! ### CXL resets -/

/-- CXL Reset (R398, R400): host lines are written back, CXL.cache and CXL.mem stop, viral ends, and a warm reset is requested. -/
def State.cxlReset (s : State) : State :=
  let s := (s.flushHost).setFld f_HOST_CTL_VIRAL 0 0
  (s.modHost (fun h => { h with viralIn := false, cxlOff := true })).wantWarm 2

/-- CXL_RESET (R398). -/
def execCxlReset (s : State) : Ans := .next (if s.linkUp && s.hostStage then s.cxlReset else s)

/-- CXL_RESET_MEM_CLR (R398). -/
def execCxlResetMemClr (s : State) : Ans := .next (if s.linkUp && s.hostStage then s.cxlReset.clearLocal else s)

end Sys2Proof.Machine
end

