-- ==== Sys2Proof/Machine/Mailbox.lean ====
section
/-! DEFINITION. The black box as it is read (R513), writing the flash (R498, R507), and the host mailbox (R397). -/

namespace Sys2Proof.Machine

open Sys2Proof

/-! ### The black box -/

/-- Entry k of a ring of n entries that has been written `count` times, the latest first in the list. -/
def ringAt {α : Type} (l : List α) (n count k : Nat) : Option α :=
  let age := (count + n - 1 - k) % n
  if age < count then l[age]? else none

/-- Byte a of the black box (R513). -/
def State.bbByte (s : State) (a : Nat) : Nat :=
  let nm := s.reh.mirrored
  let ne := s.bb.count
  if a < 0x4000 then
    (match ringAt s.reh.mirror 1024 nm (a / 16) with
    | some (q0, q1) => (if a % 16 < 8 then q0 else q1) / 256 ^ (a % 8) % 256
    | none => 0)
  else if a < 0xC000 then
    (match ringAt s.bb.events 2048 ne ((a - 0x4000) / 16) with
    | some e => (e.time + e.code * 2 ^ 64 + e.unit * 2 ^ 72 + e.detail * 2 ^ 88) / 256 ^ (a % 16) % 256
    | none => 0)
  else if 0xF000 ≤ a && a < 0xF00C then
    (leBytes 4 0x58424258 ++ leBytes 2 (nm % 1024) ++ leBytes 2 (Nat.min nm 1024) ++ leBytes 2 (ne % 2048) ++
      leBytes 2 (Nat.min ne 2048)).getD (a - 0xF000) 0
  else 0

/-- n bytes of the black box. -/
def State.bbRead (s : State) (off n : Nat) : List Nat := (List.range n).map (fun i => s.bbByte (off + i))

/-- The black box is cleared (R513). -/
def State.bbClear (s : State) : State := { s with bb := {}, reh := { s.reh with mirror := [], mirrored := 0 } }

/-! ### The flash -/

/-- Data is written at a flash offset (R507): an offset that is a multiple of 4 KiB first erases its sector. -/
def State.flashWrite (s : State) (off : Nat) (data : List Nat) : State :=
  let f := s.load.flash
  let l := if off % 4096 == 0 then f.bytes.filter (fun x => !(off ≤ x.1 && x.1 < off + 4096)) else f.bytes
  let l := (List.range data.length).foldl (fun l i => smapPut 0xFF l (off + i) (data.getD i 0xFF % 256)) l
  { s with load := { s.load with flash := { f with bytes := l } } }

/-- The flash holds the bytes of a write. -/
def State.flashHolds (s : State) (off n : Nat) : Bool := off + n ≤ 2 ^ s.load.flash.log2

/-! ### The host mailbox -/

/-- A mailbox command completes (R397): status, payload, and the MSI-X vector. -/
def State.mbEnd (s : State) (op status : Nat) (data : List Nat) : State :=
  (s.modHost (fun h => { h with mbOp := op, mbStatus := status, mbData := data })).msix (s.fld f_HOST_CTL_MBIV 0)

/-- MAILBOX_GETSTATUS (R397): STATUS, part, stepping, link, DEV.EVAL. -/
def execMailboxGetstatus (s : State) : Ans :=
  .next (if s.barUp then
    s.mbEnd 1 0 [s.status, s.fld f_DEV_ID_PART 0, s.fld f_DEV_ID_STEP 0, (s.reg .HOST_LINK 0).toNat, (s.reg .DEV_EVAL 0).toNat]
  else s)

/-- MAILBOX_PROFSEL (R397, R491): a one-shot selection, authorised by HOST.CTL.MBAUTH, which clears. -/
def execMailboxProfsel (prof : BitVec 2) (s : State) : Ans :=
  .next (if !s.barUp then s
  else if s.status != 4 then s.mbEnd 2 2 []
  else if !(s.flag f_HOST_CTL_MBAUTH 0) then s.mbEnd 2 3 []
  else ((s.setFld f_HOST_CTL_MBAUTH 0 0).selectNext true false prof.toNat).mbEnd 2 0 [])

/-- MAILBOX_FLASHWR (R397, R498): a payload of up to 4 KiB, in Recovery only. -/
def execMailboxFlashwr (off : BitVec 32) (data : List (BitVec 8)) (s : State) : Ans :=
  .next (if !s.barUp then s
  else if s.status != 6 then s.mbEnd 3 2 []
  else if data.isEmpty || 4096 < data.length || !(s.flashHolds off.toNat data.length) then s.mbEnd 3 4 []
  else (s.flashWrite off.toNat (data.map (fun b => b.toNat))).mbEnd 3 0 [])

/-- MAILBOX_FLASHCHK (R397, R498). -/
def execMailboxFlashchk (copyB : Bool) (s : State) : Ans :=
  .next (if !s.barUp then s
  else if s.status != 6 then s.mbEnd 4 2 []
  else s.mbEnd 4 0 [s.flashCheck copyB])

/-- MAILBOX_BBREAD (R397, R513): 4 KiB of the black box from an offset. -/
def execMailboxBbread (off : BitVec 16) (s : State) : Ans :=
  .next (if !s.barUp then s
  else if 0xF000 < off.toNat then s.mbEnd 5 4 []
  else s.mbEnd 5 0 (s.bbRead off.toNat 4096))

/-- MAILBOX_UNKNOWN_OPCODE (R397). -/
def execMailboxUnknownOpcode (op : BitVec 8) (s : State) : Ans :=
  .next (if s.barUp && (op.toNat == 0 || 5 < op.toNat) then s.mbEnd op.toNat 1 [] else s)

end Sys2Proof.Machine
end

