-- ==== Sys2Proof/Machine/Mc.lean ====
section
/-! DEFINITION. What the memory controllers do beside accesses: patrol scrub (R409, R410), refresh (R411), calibration (R412, R413). -/

namespace Sys2Proof.Machine

open Sys2Proof

/-! ### Patrol scrub -/

/-- A cluster holds the line of a pa. -/
def State.lineHeld (s : State) (pa : Nat) : Bool :=
  (List.range s.nClusters).any (fun cl => s.clHolds cl (lineOf pa))

/-- A scrub read that finds an uncorrectable word (R410): a cluster's copy is written home, or the word becomes POISON. -/
def State.scrubBad (s : State) (pa : Nat) (shadow : Bool) : State :=
  let m := mcOf pa
  if s.lineHeld pa then ((s.cleanLine (lineOf pa)).bump .MC_SCRUBUE m 1).mcErrlog pa true true shadow
  else
    let s := (((s.storeWord pa wPOISON false).bump .MC_SCRUBUE m 1)).mcErrlog pa true false shadow
    if s.flag f_MC_CTL_UEMC m then s.raiseMc (s.fld f_CUE_SRC_CORE (76 + m)) 6 else s

/-- Scrub runs in a controller (R409): PERIOD is not 0, the stack is not in self-refresh. -/
def State.scrubs (s : State) (m : Nat) : Bool :=
  s.dataPlane && s.fld f_MC_SCRUB_PERIOD m != 0 && !(s.flag f_MC_STAT_SREF m)

/-- PATROL_SCRUB (R407, R409, R410): a scrub read of a word finds no error (0), one that is corrected (1), or an uncorrectable one (2), in
shadow storage or not; `late` when its pass has overrun. -/
def execPatrolScrub (pa : BitVec 48) (err : Fin 3) (shadow late : Bool) (s : State) : Ans :=
  let a := pa.toNat
  let m := mcOf a
  .next (if !(isLocal a) || !(s.scrubs m) then s
  else
    let s := if late then s.setFld f_MC_STAT_SCRLATE m 1 else s
    match err with
    | 0 => s
    | 1 => s.mcCorrect a
    | _ => s.scrubBad a shadow)

/-! ### Refresh and temperature -/

/-- HBM_REFRESH (R411): only the timing of requests changes. -/
def execHbmRefresh (_m : Fin 4) (s : State) : Ans := .next s

/-- HBM_TEMPERATURE_READ (R411, R472, R474). -/
def execHbmTemperatureRead (m : Fin 4) (temp : BitVec 8) (s : State) : Ans :=
  .next (if s.dataPlane && !(s.flag f_MC_STAT_SREF m) then
    let s := s.setFld f_MC_STAT_TEMP m temp.toNat
    if 95 ≤ temp.toNat then s.alert 4 else s
  else s)

/-! ### Calibration -/

/-- PERIODIC_CALIBRATION (R412): a channel's traffic waits, which only the time shows. -/
def execPeriodicCalibration (_m : Fin 4) (_chan : BitVec 4) (s : State) : Ans := .next s

/-- A forced recalibration of a channel (R413): it merges with one that is pending; in self-refresh it is deferred. -/
def State.calRequest (s : State) (m chan : Nat) : State :=
  if s.recal.any (fun r => r.mc == m && r.chan == chan) then s
  else
    let deferred := s.flag f_MC_STAT_SREF m
    let s : State := { s with recal := s.recal ++ [{ mc := m, chan := chan, since := s.time, deferred := deferred }] }
    s.setFld f_MC_CALCMD_STATUS m (if deferred then 3 else 2)

/-- MC_CALCMD (R413). -/
def execMcCalcmd (m : Fin 4) (chan : BitVec 4) (s : State) : Ans := .next (s.calRequest m chan.toNat)

/-- FORCED_RECAL_COMPLETE (R413, R416). -/
def execForcedRecalComplete (m : Fin 4) (chan : BitVec 4) (s : State) : Ans :=
  .next (match s.recal.find? (fun r => r.mc == m.val && r.chan == chan.toNat && !r.deferred) with
    | none => s
    | some _ =>
      let s : State := { s with recal := s.recal.filter (fun r => !(r.mc == m.val && r.chan == chan.toNat)) }
      let s := s.recalDone m
      if s.recal.any (fun r => r.mc == m.val) then s.setFld f_MC_CALCMD_STATUS m 2 else s)

end Sys2Proof.Machine
end

