-- ==== Sys2Proof/Machine/Ksu.lean ====
section
/-! DEFINITION. The key store unit's commands (R518-R522), zeroization (R534), measurements (R529, R530), and SPDM and IDE (R531,
R533). -/

namespace Sys2Proof.Machine

open Sys2Proof

/-! ### Fuses -/

/-- The hash in KSU.DATA0-5: its 48 bytes, the first in DATA0[7:0]. -/
def State.ksuData (s : State) : Nat :=
  beNat ((List.range 48).map (fun j => (s.reg .KSU_DATA (j / 8)).toNat / 256 ^ (j % 8) % 256))

/-- A KSU command ends with a code. -/
def State.ksuEnd (s : State) (code : Nat) : State := s.setReg .KSU_RES 0 (w64 code)

/-- A slot that FUSE and REVOKE may name (R520). -/
def ownerSlot (k : Nat) : Bool := k < 4 || k == 5 || k == 6

/-- FUSE (R520): `back` when the fuses read back as programmed. -/
def State.ksuFuse (s : State) (k : Nat) (back : Bool) : State :=
  if !(ownerSlot k) then s.ksuEnd 5
  else if s.mode mSEALED || s.flag f_KSU_STATE_PROVLOCK 0 || s.slotFused k then s.ksuEnd 2
  else if !back then s.ksuEnd 6
  else
    let s := s.setFld f_KSU_STATE_FUSED 0 (s.fld f_KSU_STATE_FUSED 0 ||| 2 ^ k)
    ({ s with ksu := { s.ksu with hash := s.ksu.hash.set k s.ksuData } } : State).ksuEnd 1

/-- KSU_FUSE (R520). -/
def execKsuFuse (k : Fin 8) (back : Bool) (s : State) : Ans := .next (s.ksuFuse k back)

/-- REVOKE (R520). -/
def State.ksuRevoke (s : State) (k : Nat) (back : Bool) : State :=
  let other := (List.range 4).any (fun j => j != k && s.slotFused j && !(s.slotRevoked j))
  if !(ownerSlot k) then s.ksuEnd 5
  else if k < 4 && !s.load.secs.isEmpty && k == s.load.keyslot then s.ksuEnd 3
  else if k < 4 && !other then s.ksuEnd 4
  else if !back then s.ksuEnd 6
  else (s.setFld f_KSU_STATE_REVOKED 0 (s.fld f_KSU_STATE_REVOKED 0 ||| 2 ^ k)).ksuEnd 1

/-- KSU_REVOKE (R520). -/
def execKsuRevoke (k : Fin 8) (back : Bool) (s : State) : Ans := .next (s.ksuRevoke k back)

/-- PROVLOCK (R520): a slot it names is checked as for the other two. -/
def State.ksuProvlock (s : State) (k : Nat) (back : Bool) : State :=
  if !(ownerSlot k) then s.ksuEnd 5
  else if !back then s.ksuEnd 6
  else (s.setFld f_KSU_STATE_PROVLOCK 0 1).ksuEnd 1

/-- KSU_PROVLOCK (R520). -/
def execKsuProvlock (k : Fin 8) (back : Bool) (s : State) : Ans := .next (s.ksuProvlock k back)

/-! ### The DRBG -/

/-- RESEED (R522): it leaves the error state when the health tests pass; the code of one that fails is unstated (log entry 5). -/
def State.ksuReseed (s : State) (ok : Bool) : State :=
  if ok then (({ s with drbg := 0 } : State).setFld f_KSU_DRBG_STATE 0 1).ksuEnd 1
  else
    let (v, s) := s.fresh
    (s.setFld f_KSU_DRBG_STATE 0 2).ksuEnd (v.toNat % 8)

/-- The Green Room and with it the KSU run. -/
def State.greenUp (s : State) : Bool := s.clk.aon && !s.clk.por && s.status != 0

/-- KSU_RESEED (R522). -/
def execKsuReseed (ok : Bool) (s : State) : Ans := .next (if s.greenUp then s.ksuReseed ok else s)

/-- DRBG_AUTO_RESEED (R522): after 2^20 requests. -/
def execDrbgAutoReseed (s : State) : Ans :=
  .next (if s.greenUp && 2 ^ 20 ≤ s.drbg && s.fld f_KSU_DRBG_STATE 0 == 1 then { s with drbg := 0 } else s)

/-- ENTROPY_HEALTH_FAILURE (R522). -/
def execEntropyHealthFailure (s : State) : Ans :=
  .next (if s.greenUp then ((s.setFld f_KSU_DRBG_STATE 0 2).bump .KSU_HEALTH 0 1).platform else s)

/-- DRBG_INSTANTIATED (R522). -/
def execDrbgInstantiated (s : State) : Ans :=
  .next (if s.greenUp && s.fld f_KSU_DRBG_STATE 0 == 0 then s.setFld f_KSU_DRBG_STATE 0 1 else s)

/-! ### Zeroization -/

/-- Steps 1 to 3 of ZEROIZE (R534): cores stop, ports go DOWN, keys and sessions go, LOADIN.NEXT and the black box clear. -/
def State.zeroize (s : State) : State :=
  let s : State := { s with cores := State.reset.cores }
  let s := (List.range s.nPorts).foldl (fun (s : State) p =>
    let s := s.setFld f_TOUR_PCTL_EN p 0
    if s.portState p == 0 then s else s.portDown p (some 8)) s
  let s := s.modHost (fun h => { h with spdm := {}, ideIo := {}, ideCm := {} })
  let s : State := { s with drbg := 0, debugScope := 0, pm := { s.pm with nonce := none } }
  let s := ((s.setFld f_KSU_DRBG_STATE 0 0).setFld f_PROMPTER_STAT_SESSION 0 0).setReg .LOADIN_NEXT 0 0
  let s := (s.setFld f_HOST_LINK_IDEIO 0 0).setFld f_HOST_LINK_IDECM 0 0
  s.bbClear.logBb 8 0 0

/-- KSU_ZEROIZE (R534): the cold reset follows at once. -/
def execKsuZeroize (s : State) : Ans := .next (if s.greenUp then (s.zeroize.logBb 6 0 3).coldReset else s)

/-! ### Measurements -/

/-- The 48 bytes that an image contributes (R529). -/
def imageDigest (o : Option (List Nat)) : List Nat :=
  match o with
  | some l => digestBytes (digestOf (imageBody l))
  | none => List.replicate 48 0

/-- The byte string of a measurement 1 to 7 (R529). -/
def State.measured (s : State) (i : Nat) : List Nat :=
  match i with
  | 1 => leBytes 2 romId ++ leBytes 2 (s.fld f_DEV_ID_PART 0) ++ leBytes 1 (s.fld f_DEV_ID_STEP 0) ++
      leBytes 4 (s.reg .DEV_CLEN 0).toNat ++ leBytes 2 (s.reg .DEV_PORTEN 0).toNat ++ leBytes 4 (s.reg .LOADIN_CLEN 0).toNat
  | 2 => [s.fld f_LOADIN_STAT_PROF 0, s.fld f_LOADIN_STAT_COPY 0] ++ digestBytes (BitVec.ofNat 384 s.load.digest)
  | 3 => imageDigest s.mcs.vendor
  | 4 => imageDigest s.mcs.cust
  | 5 => [(s.reg .DEV_MODE 0).toNat % 256, (s.reg .DEV_EVAL 0).toNat % 32,
      if s.mode mSEALED then 0 else (s.reg .HOST_CTL 0).toNat % 4, s.debugScope]
  | 6 => (s.load.ident ++ List.replicate 64 0).take 64 ++ [s.fld f_LOADIN_STAT_IDBAD 0]
  | _ => (List.range 7).flatMap (fun k =>
      (b2n (s.slotFused k) + 2 * b2n (s.slotRevoked k)) :: (if s.slotFused k then digestBytes (BitVec.ofNat 384 (s.slotHash k))
        else List.replicate 48 0)) ++ [s.fld f_KSU_STATE_PROVLOCK 0]

/-- Measurement i (R529); 0 is the summary. -/
def State.measurement (s : State) (i : Nat) : List Nat :=
  if i == 0 then digestBytes (digestOf ((List.range 7).flatMap (fun j => digestBytes (digestOf (s.measured (j + 1))))))
  else digestBytes (digestOf (s.measured i))

/-- Sign a byte string with DEVKEY (R523): 96 bytes. -/
def State.sign (s : State) (l : List Nat) : List Nat × State :=
  let b := (Config.ecdsaSign s.ksu.signed (digestOf l)).map (fun x => x.toNat)
  ((List.range 96).map (fun i => b.getD i 0), { s with ksu := { s.ksu with signed := s.ksu.signed + 1 } })

/-- LOADIN.SYSID, SN0 and SN1 as bytes. -/
def State.idBytes (s : State) : List Nat :=
  leBytes 8 (s.reg .LOADIN_SYSID 0).toNat ++ leBytes 8 (s.reg .LOADIN_SN0 0).toNat ++ leBytes 8 (s.reg .LOADIN_SN1 0).toNat

/-- n words drawn from the DRBG, as bytes. -/
def State.drawBytes (s : State) : Nat → List Nat × State
  | 0 => ([], s)
  | n + 1 =>
    let (v, s) := s.drawDrbg
    let (l, s) := State.drawBytes s n
    (leBytes 8 v.toNat ++ l, s)

/-! ### SPDM -/

/-- The DOE mailbox answers (R397). -/
def State.doeUp (s : State) : Bool := s.linkUp && !s.retryStatus && s.status != 0

/-- An SPDM response: its code, then its content. -/
def State.spdmAnswer (s : State) (code : Nat) (data : List Nat) : State := { s with wire := .doe 1 (code :: data) :: s.wire }

/-- The SPDM error response (log entry 60, PRESUMED): 7 UnsupportedRequest, 4 UnexpectedRequest, 5 Unspecified, 6 DecryptError. -/
def State.spdmError (s : State) (e : Nat) : State := s.spdmAnswer 0x7F [e]

/-- Change the responder's state. -/
def State.modSpdm (s : State) (f : Spdm → Spdm) : State := s.modHost (fun h => { h with spdm := f h.spdm })

/-- A request that needs a stage of negotiation. -/
def State.spdmAt (s : State) (n : Nat) (f : State → State) : State :=
  if !s.doeUp then s else if s.host.spdm.stage < n then s.spdmError 4 else f s

/-- GET_VERSION (R531): it begins a connection. -/
def execGetVersion (s : State) : Ans :=
  .next (s.spdmAt 0 (fun s => (s.modSpdm (fun _ => { stage := 1 })).spdmAnswer 0x04 [0x1200]))

/-- GET_CAPABILITIES (R531). -/
def execGetCapabilities (s : State) : Ans :=
  .next (s.spdmAt 1 (fun s =>
    let (v, s) := s.fresh
    (s.modSpdm (fun d => { d with stage := Nat.max d.stage 2 })).spdmAnswer 0x61 [v.toNat]))

/-- NEGOTIATE_ALGORITHMS (R523, R531): `ok` when the requester offers the algorithms of R523. -/
def execNegotiateAlgorithms (ok : Bool) (s : State) : Ans :=
  .next (s.spdmAt 2 (fun s =>
    if ok then
      let (v, s) := s.fresh
      (s.modSpdm (fun d => { d with stage := 3 })).spdmAnswer 0x63 [v.toNat]
    else s.spdmError 7))

/-- The certificate chain as KSU.CERT holds it (R518). -/
def certChain : List Nat := (List.range 2048).map (fun i => (Config.certByte i).toNat)

/-- GET_DIGESTS (R531): certificate slot 0 only. -/
def execGetDigests (s : State) : Ans :=
  .next (s.spdmAt 3 (fun s => s.spdmAnswer 0x01 (digestBytes (digestOf certChain))))

/-- GET_CERTIFICATE (R531): part of the chain of slot 0. -/
def execGetCertificate (slot : Fin 8) (off len : BitVec 16) (s : State) : Ans :=
  .next (s.spdmAt 3 (fun s =>
    if slot.val = 0 then s.spdmAnswer 0x02 (slice certChain off.toNat len.toNat) else s.spdmError 7))

/-- CHALLENGE (R531): the chain's digest, a nonce and a signature by DEVKEY. -/
def execChallenge (slot : Fin 8) (nonce : BitVec 256) (s : State) : Ans :=
  .next (s.spdmAt 3 (fun s =>
    if slot.val = 0 then
      let (n, s) := s.drawBytes 4
      let body := digestBytes (digestOf certChain) ++ n
      let (sig, s) := s.sign (leBytes 32 nonce.toNat ++ body)
      s.spdmAnswer 0x03 (body ++ sig)
    else s.spdmError 7))

/-- GET_MEASUREMENTS (R529, R531): the measurement of an index, with signature. -/
def execGetMeasurements (blk : BitVec 8) (nonce : BitVec 256) (s : State) : Ans :=
  .next (s.spdmAt 3 (fun s =>
    if blk.toNat ≤ 7 then
      let (n, s) := s.drawBytes 4
      let body := blk.toNat :: s.measurement blk.toNat ++ n
      let (sig, s) := s.sign (leBytes 32 nonce.toNat ++ body)
      s.spdmAnswer 0x60 (body ++ sig)
    else s.spdmError 7))

/-- KEY_EXCHANGE (R522, R531): responder-authenticated; an error while the DRBG is in its error state. `mutual` asks for mutual
authentication, which is not supported. -/
def execKeyExchange (share : List (BitVec 8)) (wantMutual : Bool) (s : State) : Ans :=
  .next (s.spdmAt 3 (fun s =>
    if wantMutual then s.spdmError 7
    else if s.fld f_KSU_DRBG_STATE 0 == 2 then s.spdmError 5
    else
      let (n, s) := s.drawBytes 16
      let (sig, s) := s.sign (share.map (fun b => b.toNat) ++ n)
      (s.modSpdm (fun d => { d with keyx := true, session := false })).spdmAnswer 0x64 (n ++ sig)))

/-- SPDM_FINISH (R531): `ok` when its verification data is right. -/
def execSpdmFinish (ok : Bool) (s : State) : Ans :=
  .next (s.spdmAt 3 (fun s =>
    if !s.host.spdm.keyx then s.spdmError 4
    else if ok then (s.modSpdm (fun d => { d with keyx := false, session := true })).spdmAnswer 0x65 []
    else (s.modSpdm (fun d => { d with keyx := false })).spdmError 6))

/-- SPDM_UNSUPPORTED_REQUEST (R531). -/
def execSpdmUnsupportedRequest (s : State) : Ans := .next (s.spdmAt 0 (fun s => s.spdmError 7))

/-! ### IDE -/

/-- Change an IDE stream: `cm` the CXL IDE stream, else the link stream on CXL.io (R533). -/
def State.modIde (s : State) (cm : Bool) (f : Ide → Ide) : State :=
  s.modHost (fun h => if cm then { h with ideCm := f h.ideCm } else { h with ideIo := f h.ideIo })

/-- A stream, and the bit of HOST.LINK that reports it. -/
def State.ide (s : State) (cm : Bool) : Ide := if cm then s.host.ideCm else s.host.ideIo
def ideBit (cm : Bool) : Fld := if cm then f_HOST_LINK_IDECM else f_HOST_LINK_IDEIO

/-- IDE_KM messages run over a session (R531, R533); in PCIe fallback there is no CXL IDE stream (R396). -/
def State.ideKm (s : State) (cm : Bool) : Bool := s.doeUp && s.host.spdm.session && (!cm || s.flag f_HOST_LINK_CXL 0)

/-- KEY_PROG (R533). -/
def execKeyProg (cm : Bool) (key : BitVec 256) (s : State) : Ans :=
  .next (if s.ideKm cm then s.modIde cm (fun d => { d with prog := some key.toNat }) else s)

/-- K_SET_GO (R533): the programmed key takes effect. -/
def execKSetGo (cm : Bool) (s : State) : Ans :=
  .next (if s.ideKm cm && (s.ide cm).prog.isSome then
    (s.modIde cm (fun d => { d with live := d.prog })).setFld (ideBit cm) 0 1
  else s)

/-- K_SET_STOP (R533). -/
def execKSetStop (cm : Bool) (s : State) : Ans :=
  .next (if s.ideKm cm then (s.modIde cm (fun _ => {})).setFld (ideBit cm) 0 0 else s)

/-- IDE_INTEGRITY_FAILURE (R533). -/
def execIdeIntegrityFailure (cm : Bool) (s : State) : Ans :=
  .next (if (s.ide cm).live.isSome then
    let s := (s.modIde cm (fun d => { d with live := none })).setFld (ideBit cm) 0 0
    ((s.setFld f_HOST_ERR_UNCORR 0 1).bump .HOST_UNCORR 0 1).cueEvent 113
  else s)

end Sys2Proof.Machine
end

