-- ==== Sys2Proof/Machine/Prompter.lean ====
section
/-! DEFINITION. The Prompter management port (R502-R514): requests and responses, sessions, what each state serves, and the Backstage
message channel. -/

namespace Sys2Proof.Machine

open Sys2Proof

/-! ### Requests and responses -/

/-- Change the Prompter. -/
def State.modPm (s : State) (f : Prompter → Prompter) : State := { s with pm := f s.pm }

/-- Answer the request with a status and a payload (R504, R505). -/
def State.pmEnd (s : State) (rst : Nat) (data : List Nat) : State := s.modPm (fun p => { p with rst := rst, data := data })

/-- What the Prompter knows of a request that runs and of the time (R506, R507): a session ends after 60 s, a lockout after 60 s, a
recalibration or a Dark entry may have ended. -/
def State.pmSettle (s : State) : State :=
  let s := if s.flag f_PROMPTER_STAT_SESSION 0 && decide (60000000000 ≤ s.time - s.pm.last) then s.setFld f_PROMPTER_STAT_SESSION 0 0 else s
  let s := if s.flag f_PROMPTER_STAT_LOCKOUT 0 && decide (60000000000 ≤ s.time - s.pm.lockAt) then s.setFld f_PROMPTER_STAT_LOCKOUT 0 0
    else s
  if s.pm.rst != 6 || s.pm.wait.isSome then s
  else if s.pm.ropc == 0x13 then
    let n := s.pm.data.headD 0
    if s.recal.any (fun r => r.mc == n / 16 && r.chan == n % 16) then s else s.pmEnd 0 [s.fld f_MC_CALCMD_STATUS (n / 16)]
  else if s.pm.ropc == 0x15 then
    (if s.clk.dark then s else s.pmEnd 0 [s.fld f_PWR_STAT_RES 0])
  else s

/-- Classes of states that R508 distinguishes. -/
inductive PmState where
  | green | run | dark | curtain | stopped | recovery
  deriving DecidableEq, Repr

/-- The class of the present state. -/
def State.pmState (s : State) : PmState :=
  match s.status with
  | 4 => .run
  | 5 => .dark
  | 6 => .recovery
  | 8 => .curtain
  | 9 => .curtain
  | 0xA => .stopped
  | 0xE => .stopped
  | 0xF => .stopped
  | _ => .green

/-- What R508 answers for a command in a state: serve, refuse, discard as already done, or wake the device first. -/
inductive Serve where
  | yes | notNow | done | wake
  deriving DecidableEq, Repr

/-- R508 for each command; `kind` is the kind of a RESET. The message channel works in Run only (R514). -/
def serveOf (opc kind : Nat) (p : PmState) : Serve :=
  let always := [0x01, 0x02, 0x03, 0x20, 0x21, 0x22, 0x30].contains opc
  match p with
  | .green => if always || opc == 0x10 || opc == 0x04 || (opc == 0x12 && (kind == 0 || kind == 3)) || opc == 0x40 || opc == 0x23 then .yes
    else .notNow
  | .run => if opc == 0x12 && kind == 3 then .done else if opc == 0x50 || opc == 0x51 then .notNow else .yes
  | .dark =>
    if always || opc == 0x10 || opc == 0x04 || opc == 0x13 || (opc == 0x12 && kind == 0) || opc == 0x40 || opc == 0x23 then .yes
    else if opc == 0x12 && kind == 3 then .done
    else if opc == 0x11 || opc == 0x12 || opc == 0x14 || opc == 0x15 || opc == 0x60 then .wake
    else .notNow
  | .curtain =>
    if always || opc == 0x10 || opc == 0x04 || (opc == 0x12 && kind ≤ 2) || opc == 0x40 || opc == 0x23 then .yes
    else if opc == 0x12 && kind == 3 then .done
    else .notNow
  | .stopped => if always || opc == 0x10 || (opc == 0x12 && kind == 0) then .yes else .notNow
  | .recovery => if always || opc == 0x10 || (opc == 0x12 && kind == 0) || opc == 0x40 || opc == 0x23 || opc == 0x50 || opc == 0x51 then .yes
    else .notNow

/-- The command is of class A (R507). -/
def classA (opc : Nat) : Bool := !([0x01, 0x02, 0x03, 0x20, 0x21, 0x30].contains opc)

/-- The Prompter acknowledges its address (R502). -/
def State.pmUp (s : State) : Bool := s.greenUp

/-- A request that is accepted (R504, R511): it is counted. -/
def State.pmAccept (s : State) (opc : Nat) : State :=
  (s.bump .PROMPTER_CMDS 0 1).modPm (fun p => { p with rst := 6, ropc := opc, data := [], last := s.time })

/-- A request (R503-R508, R511): not acknowledged while one runs; refused after a cold reset has been accepted, without the
session it needs, or where the state does not serve it; in Dark it may wait for the wake. -/
def State.request (s : State) (opc : Nat) (args : List Nat) (f : State → State) : State :=
  if !s.pmUp then s
  else
    let s := s.pmSettle
    if s.pm.rst == 6 then s.bump .PROMPTER_NACKS 0 1
    else
      let s := s.pmAccept opc
      let kind := args.headD 0
      if s.pm.coldAt.isSome then s.pmEnd (if opc == 0x12 && kind == 0 then 0 else 3) []
      else if classA opc && !(s.flag f_PROMPTER_STAT_SESSION 0) then s.pmEnd 4 []
      else
        match serveOf opc kind s.pmState with
        | .yes => f s
        | .notNow => s.pmEnd 3 []
        | .done => s.pmEnd 8 []
        | .wake => (s.modPm (fun p => { p with wait := some (opc, args) })).wakeEvent 2

/-- RESPONSE_READ (R504). -/
def execResponseRead (s : State) : Ans :=
  .next (if !s.pmUp then s
  else
    let s := s.pmSettle
    { s with wire := .response s.pm.rst s.pm.ropc s.pm.data :: s.wire })

/-- ALERT_RESPONSE (R502). -/
def execAlertResponse (s : State) : Ans :=
  .next (if s.pmUp && s.pmAlert then { s with wire := .alert (s.fld f_PROMPTER_STAT_ADDR 0) :: s.wire } else s)

/-- SMBUS_TIMEOUT (R502): a transfer that is cut off leaves nothing. -/
def execSmbusTimeout (s : State) : Ans := .next s

/-- SESSION_TIMEOUT (R506). -/
def execSessionTimeout (s : State) : Ans :=
  .next (if s.flag f_PROMPTER_STAT_SESSION 0 && decide (60000000000 ≤ s.time - s.pm.last) then s.setFld f_PROMPTER_STAT_SESSION 0 0 else s)

/-- LOCKOUT_EXPIRY (R506). -/
def execLockoutExpiry (s : State) : Ans :=
  .next (if s.flag f_PROMPTER_STAT_LOCKOUT 0 && decide (60000000000 ≤ s.time - s.pm.lockAt) then s.setFld f_PROMPTER_STAT_LOCKOUT 0 0 else s)

/-- PROMPTER_REJECTED_REQUEST (R503): a bad PEC (0), an unknown command byte (1), a LEN out of range (2). -/
def execPrompterRejectedRequest (kind : Fin 3) (opc : BitVec 8) (s : State) : Ans :=
  .next (if !s.pmUp then s
  else
    let s := s.pmSettle
    if s.pm.rst == 6 then s.bump .PROMPTER_NACKS 0 1
    else
      let s := s.modPm (fun p => { p with ropc := opc.toNat })
      match kind with
      | 0 => (s.bump .PROMPTER_PECERR 0 1).pmEnd 5 []
      | 1 => (s.bump .PROMPTER_NACKS 0 1).pmEnd 1 []
      | _ => s.pmEnd 2 [])

/-! ### Status, telemetry, the black box -/

/-- The power state that STATUS reports (R431, R509). -/
def State.powerState (s : State) : Nat :=
  match s.status with
  | 2 => 1
  | 3 => 1
  | 4 => 1
  | 5 => 2
  | 8 => 3
  | 9 => 3
  | 0xA => 3
  | 6 => 4
  | _ => 0

/-- The STATUS payload (R509). -/
def State.statusBytes (s : State) : List Nat :=
  [s.status, s.powerState] ++ leBytes 2 (s.fld f_DEV_ID_PART 0) ++ [s.fld f_DEV_ID_STEP 0, (s.reg .DEV_MODE 0).toNat % 256] ++
    leBytes 4 (s.reg .LOADIN_STAT 0).toNat ++ [(s.reg .DEV_EVAL 0).toNat % 32, s.fld f_CLK_STAT_CAUSE 0,
    s.fld f_PROMPTER_STAT_SESSION 0 + 2 * b2n (s.debugScope != 0) + 4 * b2n (s.bb.count != 0) + 8 * b2n s.pmAlert] ++
    leBytes 2 s.node ++ leBytes 8 s.time

/-- PROMPTER_STATUS (R509). -/
def execPrompterStatus (s : State) : Ans := .next (s.request 0x01 [] (fun s => s.pmEnd 0 s.statusBytes))

/-- The TELEM payload (R508, R510): what cannot be read holds ones. -/
def State.telemBytes (s : State) : List Nat :=
  let run := s.dataPlane
  let ones (b : Bool) (l : List Nat) : List Nat := if b then l else l.map (fun _ => 255)
  ones run (leBytes 4 (s.fld f_PWR_TEMP_TILE 0) ++ leBytes 1 (s.fld f_PWR_TEMP_IO 0)) ++
    (List.range 4).flatMap (fun m => ones (run && !(s.flag f_MC_STAT_SREF m)) [s.fld f_MC_STAT_TEMP m]) ++
    ones run (leBytes 2 (s.fld f_PWR_PLIM_POWER 0)) ++ leBytes 2 (s.fld f_PWR_PLIM_LIMIT 0) ++
    ones run ((List.range 4).flatMap (fun t => leBytes 2 (bits (s.reg .PWR_AVS 0) (10 * t + 9) (10 * t)))) ++
    ones run (leBytes 2 (s.fld f_PWR_THR_SUPPR 0) ++ [s.fld f_PWR_THR_FCAP 0]) ++ [s.fld f_PWR_ALSTAT_ALERT 0]

/-- TELEM (R510). -/
def execTelem (s : State) : Ans := .next (s.request 0x02 [] (fun s => s.pmEnd 0 s.telemBytes))

/-- PROMPTER_BBREAD (R507, R513). -/
def execPrompterBbread (off : BitVec 32) (count : BitVec 16) (s : State) : Ans :=
  let o := off.toNat
  let n := count.toNat
  .next (s.request 0x03 [] (fun s =>
    if n == 0 || 240 < n || 0x10000 < o + n then s.pmEnd 2 [] else s.pmEnd 0 (s.bbRead o n)))

/-- BBCLEAR (R507, R513). -/
def execBbclear (s : State) : Ans := .next (s.request 0x04 [] (fun s => s.bbClear.pmEnd 0 []))

/-! ### Selection, modes, resets -/

/-- PROMPTER_PROFSEL (R491, R507). -/
def execPrompterProfsel (v : BitVec 8) (s : State) : Ans :=
  let n := v.toNat
  .next (s.request 0x10 [] (fun s =>
    (if n.testBit 7 then s.setFld f_LOADIN_NEXT_V 0 0 else s.selectNext true (n.testBit 6) (n % 4)).pmEnd 0 []))

/-- A mode request of the Prompter (R419, R507): it is answered when the change completes. -/
def State.pmMode (s : State) (v : Nat) : State := { s with modes := s.modes ++ [.prompter (v % 256)] }

/-- MODESET (R507). -/
def execModeset (v : BitVec 8) (s : State) : Ans :=
  .next (s.request 0x11 [v.toNat] (fun s => (s.wakeEvent 2).pmMode v.toNat))

/-- A reset that the Prompter asks for (R507, R511): cold 1 ms after the response, warm, cluster, or an abort of Load-in. -/
def State.pmReset (s : State) (kind cl : Nat) : State :=
  match kind with
  | 0 => (s.modPm (fun p => { p with coldAt := some (s.time + 1000000) })).pmEnd 0 []
  | 1 => ((s.wakeEvent 2).wantWarm 1).pmEnd 0 []
  | 2 => if s.enabledClusters.contains cl then ((s.wakeEvent 2).wantCluster cl 1).pmEnd 0 [] else s.pmEnd 2 []
  | _ =>
    let (ok, s) := s.abortLoad
    s.pmEnd (if ok then 0 else 8) []

/-- PROMPTER_RESET (R507). -/
def execPrompterReset (kind cl : BitVec 8) (s : State) : Ans :=
  let late (s : State) : State := if kind.toNat == 3 && s.pm.rst == 8 then s.setFld f_LOADIN_STAT_ABRES 0 2 else s
  .next (if 3 < kind.toNat then s.request 0x12 [0] (fun s => s.pmEnd 2 [])
  else late (s.request 0x12 [kind.toNat, cl.toNat] (fun s => s.pmReset kind.toNat cl.toNat)))

/-- CALIB (R413, R507): deferred in self-refresh, otherwise answered when it is done. -/
def execCalib (v : BitVec 8) (s : State) : Ans :=
  let m := v.toNat / 16
  .next (s.request 0x13 [] (fun s =>
    if 4 ≤ m then s.pmEnd 2 []
    else
      let s := s.calRequest m (v.toNat % 16)
      if s.flag f_MC_STAT_SREF m then s.pmEnd 0 [3] else s.modPm (fun p => { p with data := [v.toNat] })))

/-- PROMPTER_WAKE (R507, R508): without effect in Run. -/
def execPrompterWake (s : State) : Ans := .next (s.request 0x14 [] (fun s => (s.wakeEvent 2).pmEnd 0 []))

/-- A Dark request of the Prompter (R467, R507): refused with its code, or answered when the entry ends. -/
def State.pmDark (s : State) : State :=
  let s := s.darkRequest
  if s.clk.dark then s else s.pmEnd 7 [s.fld f_PWR_STAT_RES 0]

/-- PROMPTER_DARK (R507). -/
def execPrompterDark (s : State) : Ans := .next (s.request 0x15 [] (fun s => s.pmDark))

/-! ### The Backstage message channel -/

/-- A message for the supervisor (R514): refused with an unstated code (log entry 5) while one is present. -/
def State.mbWrite (s : State) (msg : List Nat) : State :=
  if s.flag f_PROMPTER_MBCTL_INFULL 0 then
    let (v, s) := s.fresh
    s.pmEnd 7 [v.toNat % 256]
  else
    let s := (List.range 8).foldl (fun (s : State) i => s.setReg .PROMPTER_MBIN i (w64 (leAt msg (8 * i) 8))) s
    let s := (s.setFld f_PROMPTER_MBCTL_INFULL 0 1).setFld f_PROMPTER_MBCTL_INLEN 0 msg.length
    (s.cueEvent 115).pmEnd 0 []

/-- MBWRITE (R507, R514). -/
def execMbwrite (msg : List (BitVec 8)) (s : State) : Ans :=
  let l := msg.map (fun b => b.toNat)
  .next (if l.isEmpty || 64 < l.length then s.request 0x60 [] (fun s => s.pmEnd 2 [])
  else s.request 0x60 l (fun s => (s.wakeEvent 2).mbWrite l))

/-- MBREAD (R507, R514). -/
def execMbread (s : State) : Ans :=
  .next (s.request 0x61 [] (fun s =>
    if s.flag f_PROMPTER_MBCTL_OUTFULL 0 then
      let l := (List.range (s.fld f_PROMPTER_MBCTL_OUTLEN 0)).map (fun i => (s.reg .PROMPTER_MBOUT (i / 8)).toNat / 256 ^ (i % 8) % 256)
      (s.setFld f_PROMPTER_MBCTL_OUTFULL 0 0).pmEnd 0 l
    else s.pmEnd 0 []))

/-- PROMPTER_MBCTL_WRITE (R514): the supervisor clears INFULL, sets OUTFULL, and sets the outgoing length where it is legal. -/
def execPrompterMbctlWrite (clearIn setOut : Bool) (len : BitVec 7) (s : State) : Ans :=
  let n := len.toNat
  .next (if s.mode mREPLAY then s.bump .REH_LIVEDROP 0 1
  else
    let s := if clearIn then s.setFld f_PROMPTER_MBCTL_INFULL 0 0 else s
    let s := if setOut then s.setFld f_PROMPTER_MBCTL_OUTFULL 0 1 else s
    if 1 ≤ n && n ≤ 64 then s.setFld f_PROMPTER_MBCTL_OUTLEN 0 n
    else s.setFld (Reg.rsvw .PROMPTER_MBCTL) 0 1)

/-! ### Waiting for the wake -/

/-- The request that waited for the wake is served (R507, R508). -/
def State.serveWait (s : State) : State :=
  match s.pm.wait with
  | none => s
  | some (opc, args) =>
    let s := s.modPm (fun p => { p with wait := none })
    match opc with
    | 0x11 => s.pmMode (args.headD 0)
    | 0x12 => s.pmReset (args.headD 0) (args.getD 1 0)
    | 0x15 => s.pmDark
    | 0x60 => s.mbWrite args
    | _ => s.pmEnd 0 []

/-- DARK_WAKE (R469): the device returns to Run, and a request that waited for it is served. -/
def execDarkWake (s : State) : Ans :=
  let t := s.darkWake
  .next (if s.status == 5 && t.status == 4 then t.serveWait else t)

/-! ### Signatures -/

/-- The latest nonce is used up (R506). -/
def State.takeNonce (s : State) : Option (List Nat) × State := (s.pm.nonce, s.modPm (fun p => { p with nonce := none }))

/-- CHAL (R506): NOTNOW in a lockout, REFUSED with an unstated code (log entry 5) while the DRBG is in its error state. -/
def execChal (s : State) : Ans :=
  .next (s.request 0x20 [] (fun s =>
    if s.flag f_PROMPTER_STAT_LOCKOUT 0 then s.pmEnd 3 []
    else if s.fld f_KSU_DRBG_STATE 0 == 2 then
      let (v, s) := s.fresh
      s.pmEnd 7 [v.toNat % 256]
    else
      let (l, s) := s.drawBytes 6
      (s.modPm (fun p => { p with nonce := some l })).pmEnd 0 l))

/-- A signature over the latest nonce and more bytes verifies against a slot that is not revoked (R506, R527): the slot holds only
its key's hash, so the check is the KSU's own (log entry 62, DEDUCED). A failure is counted. -/
def State.checkNonce (s : State) (k : Nat) (tail : List Nat) (sig : List Byte) : Bool × State :=
  let (n, s) := s.takeNonce
  match n with
  | none => (false, s.bump .KSU_SIGFAIL 0 1)
  | some n =>
    if !(s.slotRevoked k) && Config.slotVerify (BitVec.ofNat 384 (s.slotHash k)) (digestOf (n ++ s.idBytes ++ tail)) sig then (true, s)
    else (false, s.bump .KSU_SIGFAIL 0 1)

/-- AUTHFAIL (R506): the third in succession begins the lockout. -/
def State.authFail (s : State) : State :=
  let s := (s.bump .PROMPTER_AUTHFAIL 0 1).pmEnd 10 []
  if s.pm.fails + 1 < 3 then s.modPm (fun p => { p with fails := p.fails + 1 })
  else (s.modPm (fun p => { p with fails := 0, lockAt := s.time })).setFld f_PROMPTER_STAT_LOCKOUT 0 1

/-- The ASCII bytes "PAUTH" and "DBGUNLOCK". -/
def asciiPauth : List Nat := [0x50, 0x41, 0x55, 0x54, 0x48]
def asciiDbgunlock : List Nat := [0x44, 0x42, 0x47, 0x55, 0x4E, 0x4C, 0x4F, 0x43, 0x4B]

/-- PAUTH (R506, R520). -/
def execPauth (sig : List (BitVec 8)) (s : State) : Ans :=
  .next (s.request 0x21 [] (fun s =>
    if sig.length != 96 then s.pmEnd 2 []
    else if !(s.slotFused 5) then s.pmEnd 7 [1]
    else
      match s.checkNonce 5 asciiPauth sig with
      | (true, s) => ((s.setFld f_PROMPTER_STAT_SESSION 0 1).modPm (fun p => { p with fails := 0 })).pmEnd 0 []
      | (false, s) => s.authFail))

/-- PEND (R506). -/
def execPend (s : State) : Ans := .next (s.request 0x22 [] (fun s => (s.setFld f_PROMPTER_STAT_SESSION 0 0).pmEnd 0 []))

/-- A debug scope is set at its turn (R527, R528). -/
def State.setScope (s : State) (scope : Nat) : State :=
  let s : State := { s with debugScope := scope }
  if scope == 0 then { s with cores := s.cores.map (fun k => { k with debug := false }) }
  else (s.leaveEval f_DEV_EVAL_DEBUG).logBb 7 scope 0

/-- DBGUNLOCK (R429, R520, R527, R528). -/
def execDbgunlock (scope : BitVec 8) (sig : List (BitVec 8)) (s : State) : Ans :=
  let n := scope.toNat
  .next (s.request 0x23 [] (fun s =>
    if 2 < n || sig.length != 96 then s.pmEnd 2 []
    else if !(s.slotFused 6) then s.pmEnd 7 [1]
    else if n != 0 && s.mode mSEALED then
      let (v, s) := s.fresh
      s.pmEnd 7 [v.toNat % 256]
    else
      match s.checkNonce 6 (n :: asciiDbgunlock) sig with
      | (true, s) => ((s.setScope n).modPm (fun p => { p with fails := 0 })).pmEnd 0 []
      | (false, s) => s.authFail))

/-- The ASCII bytes "XATTEST". -/
def asciiXattest : List Nat := [0x58, 0x41, 0x54, 0x54, 0x45, 0x53, 0x54]

/-- ATTEST (R530). -/
def execAttest (nonce : BitVec 256) (blk : BitVec 8) (s : State) : Ans :=
  .next (s.request 0x30 [] (fun s =>
    if 7 < blk.toNat then s.pmEnd 2 []
    else
      let m := s.measurement blk.toNat
      let (sig, s) := s.sign (asciiXattest ++ leBytes 32 nonce.toNat ++ [blk.toNat] ++ m ++ s.idBytes ++ leBytes 8 s.time)
      s.pmEnd 0 ([blk.toNat] ++ m ++ sig)))

/-- PROMPTER_ZEROIZE (R507, R534): the cold reset follows once the response can have been read. -/
def execPrompterZeroize (magic : BitVec 32) (s : State) : Ans :=
  .next (s.request 0x40 [] (fun s =>
    if magic.toNat != 0x4F52455A then s.pmEnd 2 []
    else (s.zeroize.modPm (fun p => { p with coldAt := some (s.time + 1000000) })).pmEnd 0 []))

/-- A cold reset that the Prompter has accepted begins (R507). -/
def State.coldDue (s : State) : State :=
  match s.pm.coldAt with
  | some t => if t ≤ s.time then (s.logBb 6 0 1).coldReset else s
  | none => s

/-! ### The flash -/

/-- PROMPTER_FLASHWR (R507). -/
def execPrompterFlashwr (off : BitVec 32) (data : List (BitVec 8)) (s : State) : Ans :=
  .next (s.request 0x50 [] (fun s =>
    if data.isEmpty || 240 < data.length || !(s.flashHolds off.toNat data.length) then s.pmEnd 2 []
    else (s.flashWrite off.toNat (data.map (fun b => b.toNat))).pmEnd 0 []))

/-- PROMPTER_FLASHCHK (R498, R507). -/
def execPrompterFlashchk (copy : BitVec 8) (s : State) : Ans :=
  .next (s.request 0x51 [] (fun s =>
    if 1 < copy.toNat then s.pmEnd 2 [] else s.pmEnd 0 [s.flashCheck (copy.toNat == 1)]))

end Sys2Proof.Machine
end

