-- ==== Sys2Proof/Machine/Side.lean ====
section
/-! DEFINITION. What reading or writing a register does beside the fields of its table. -/

namespace Sys2Proof.Machine

open Sys2Proof

/-- CORE.WINGS (R255): House sees only the slots held by House. -/
def Core.wingBits (k : Core) (back : Bool) : Nat :=
  maskOf 32 (fun i => k.mem.wings.any (fun x => x.slot == i && (back || !x.world))) +
    2 ^ 32 * maskOf 32 (fun i => k.mem.wings.any (fun x => x.slot == i && x.world))

/-- HOST.CTL as it reads: TAGWR and DPRESERVE read 0 in SEALED (R429). -/
def State.hostCtl (s : State) : W64 :=
  let v := s.reg .HOST_CTL 0
  if s.mode mSEALED then setBits v 1 0 0 else v

/-- The value of a register that hardware computes when it is read; none where the stored value is read. -/
def State.ioComputed (s : State) (back : Bool) (r : Reg) (i : Nat) : Option W64 :=
  match r with
  | .CUE_PEND => some ((s.core (i / 3)).pendBits back (i % 3))
  | .CORE_WINGS => some (w64 ((s.core i).wingBits back))
  | .CORE_DBG => if s.mode mSEALED then some (setBits (s.reg .CORE_DBG i) 1 1 0) else none
  | .CLU_STAT => some (s.cluStat i)
  | .MCS_SRDD0 => some (w64 (s.storeRead i % 2 ^ 64))
  | .MCS_SRDD1 => some (w64 (s.storeRead i / 2 ^ 64))
  | .TIME_NOW => some (w64 s.time)
  | .HOST_CTL => some s.hostCtl
  | .KSU_CERT => some (w64 (leAt certChain (8 * i) 8))
  | _ => none

/-- HOST.CTL (R385, R400, R429, R430): TAGWR and DPRESERVE ignore writes in SEALED; enabling one leaves the evaluated configuration. -/
def State.hostCtlWrite (s : State) (old v : W64) : State :=
  let s := if s.mode mSEALED then s.setReg .HOST_CTL 0 (setBits (s.reg .HOST_CTL 0) 1 0 (bits old 1 0))
    else if bits v 1 0 &&& (3 - bits old 1 0) != 0 then s.leaveEval f_DEV_EVAL_HOSTTAG
    else s
  if bit v 4 then s.viral else s

/-- KSU.CMD (R520, R522, R534): fuses read back as programmed and health tests pass here; other outcomes are commands of their own. A
cold reset that ZEROIZE asks for begins at the next tick. -/
def State.ksuCommand (s : State) (op k : Nat) : State :=
  match op with
  | 1 => s.ksuFuse k true
  | 2 => s.ksuRevoke k true
  | 3 => s.ksuProvlock k true
  | 4 => (s.zeroize).modPm (fun p => { p with coldAt := some s.time })
  | 5 => s.ksuReseed true
  | _ => s.setFld (Reg.rsvw .KSU_CMD) 0 1

/-- LOADIN.CMD (R499). -/
def State.loadinCmd (s : State) (op cl : Nat) : State :=
  match op with
  | 1 => s.wantWarm 3
  | 2 => s.wantCluster cl 3
  | _ => s.setFld f_LOADIN_ERR_RSVW 0 1

/-- REH.RPCTL (R449, R453). -/
def State.rpctl (s : State) (v : W64) : State :=
  let s := if bit v 63 then s.replayAbort else s
  let s := if bit v 62 then s.replayResume else s
  if bit v 61 then s.prepStart else s

/-- TOUR.PCTL (R358): EN and RETRAIN. -/
def State.pctlWrite (s : State) (p : Nat) (old v : W64) : State :=
  let s := if bit v 0 == bit old 0 then s else s.portEnable p (bit v 0)
  if bit v 63 then s.retrain p else s

/-- What a write of `v` to a register of a core or cluster does beside the fields. -/
def State.coreWritten (s : State) (back : Bool) (r : Reg) (i : Nat) (old v : W64) : State :=
  match r with
  | .CUE_PEND => s.clearPend (i / 3) (i % 3) back v
  | .CUE_LCTL => s.cueLctlWrite back i old v
  | .CORE_DBG => if s.mode mSEALED then s.setReg .CORE_DBG i (setBits (s.reg .CORE_DBG i) 1 1 (bits old 1 1)) else s
  | .CC_CTL =>
    let s := if bits v 15 0 == bits old 15 0 then s else s.ccWaydis i (bits old 15 0) (bits v 15 0)
    if bit v 17 then s.ccFlush i else s
  | .CLU_MODE => (s.setReg .CLU_MODE i old).cluModeWrite i v.toNat
  | .MCS_RFCTL => if bit v 63 then s.rfNow i else s
  | .STH_ERR => if bit v 62 then s.engineResume i else s
  | .COL_HEAPBASE => (s.setReg .COL_HEAPBASE 0 old).colHeapbase v
  | .COL_RSET => s.colRset v
  | .COL_ROOTQ => s.colRootq (bits v 47 0)
  | .COL_CMD => s.colCommand v
  | _ => s

/-- What a write to a register of the tour fabric, the host interface or the Rehearsal unit does beside the fields. -/
def State.linkWritten (s : State) (c : Option Nat) (r : Reg) (i : Nat) (old v : W64) : State :=
  match r with
  | .TOUR_PCTL => s.pctlWrite i old v
  | .TOUR_SCRES => s.scres v
  | .TOUR_INQH => s.inqhWrite v
  | .HOST_CTL => s.hostCtlWrite old v
  | .HOST_CQT => (s.setReg .HOST_CQT i old).cqTail i (bits v 15 0)
  | .HOST_BIASCMD => if bit v 62 then (s.setReg .HOST_BIASCMD 0 old).biasAbort else s.biasStart old v
  | .REH_CTL => if bit v 63 then s.sessionAbort else s
  | .REH_RHEAD => s.rheadWrite (bits v 31 0)
  | .REH_MARK =>
    (match c with
    | some c => s.mark c v.toNat
    | none => s)
  | .REH_RPCTL => s.rpctl v
  | .REH_TCTL => if bit v 63 && bit old 63 then s.frozenClear else s
  | _ => s

/-- What a write to a register of the Green Room, the Cue or a memory controller does beside the fields. -/
def State.devWritten (s : State) (back : Bool) (r : Reg) (i : Nat) (old v : W64) : State :=
  match r with
  | .CUE_SRC => s.cueSrcWrite back i old v
  | .CUE_IPI => s.cueIpi back v
  | .CUE_NMI => s.cueNmi v
  | .CLK_TPLL => (s.setReg .CLK_TPLL i old).tpllWrite i (bits v 11 0) (bits v 27 16)
  | .PWR_PLIM => if s.plimOk (bits v 15 0) then s else (s.setReg .PWR_PLIM 0 old).setFld (Reg.rsvw .PWR_PLIM) 0 1
  | .CLK_GREQ => if bit v 20 then s.gateRequest (bits v 19 16) (bits v 11 0) else s.ungateRequest (bits v 19 16) (bits v 11 0)
  | .PWR_CMD =>
    let s := if bits v 3 0 == 1 then s.darkRequest else s.setFld (Reg.rsvw .PWR_CMD) 0 1
    if bit v 63 then s.darkAbort else s
  | .TIME_ADJ => if bits v 63 62 < 2 then s.timeAdj (bits v 63 62) (bits v 61 0) else s.setFld (Reg.rsvw .TIME_ADJ) 0 1
  | .LOADIN_CMD => s.loadinCmd (bits v 3 0) (bits v 12 8)
  | .LOADIN_START => s.loadinStart (bits v 63 56) (bits v 47 0)
  | .DEV_MODE => (s.setReg .DEV_MODE 0 old).devModeWrite v.toNat
  | .DEV_STREQ => if bit v 63 then s.testAbort else s.testRequest (bits v 15 12) (bits v 11 0)
  | .MC_CALCMD => s.calRequest i (bits v 3 0)
  | .KSU_CMD => s.ksuCommand (bits v 7 4) (bits v 2 0)
  | .PROMPTER_MBOUT => if s.flag f_PROMPTER_MBCTL_OUTFULL 0 then s.setReg .PROMPTER_MBOUT i old else s
  | _ => s

/-- What a write of `v` does beside the fields: `c` is the issuing core, if a core writes, `back` its world. -/
def State.ioWritten (s : State) (c : Option Nat) (back : Bool) (row : RegRow) (i : Nat) (old v : W64) : State :=
  match row.unit with
  | .core => s.coreWritten back row.reg i old v
  | .cluster => s.coreWritten back row.reg i old v
  | .col => s.coreWritten back row.reg i old v
  | .port => s.linkWritten c row.reg i old v
  | .mc => s.devWritten back row.reg i old v
  | .dev => if 0x2200000 ≤ row.base && row.base < 0x2500000 then s.linkWritten c row.reg i old v else s.devWritten back row.reg i old v

end Sys2Proof.Machine
end

