-- ==== Sys2Proof/Machine/Io.lean ====
section
/-! DEFINITION. I/O space (R62-R64): which register an io address names, who may access it, and what a read and a write
do to its fields (R7-R10, R548). -/

namespace Sys2Proof.Machine

open Sys2Proof

/-- Why an access is refused (R64): bus error, IOWORLD, IOPRIV. -/
inductive IoRef where
  | bus | world | priv
  deriving DecidableEq, Repr

/-- The checks of R64, in order. -/
def ioCheck (row : RegRow) (back sup write : Bool) : Option IoRef :=
  if row.b && !back then some .world
  else if !sup && (write || !row.u) then some .priv
  else none

/-- Bits of fields that may not be seen: write-only fields, and Backstage fields for a House reader (R7, R8). -/
def hiddenFields (row : RegRow) (back : Bool) : List Field :=
  row.fields.filter (fun f => f.acc == .WO || (f.backstage && !back))

/-- The value a reader sees. -/
def State.ioValue (s : State) (row : RegRow) (i : Nat) (back : Bool) : W64 :=
  let v := (s.ioComputed back row.reg i).getD (s.reg row.reg i)
  (hiddenFields row back).foldl (fun v f => setBits v f.hi f.lo 0) v

/-- The new value of one field (R7, R548): the field after the write, and whether a reserved value was written. -/
def fieldWrite (f : Field) (back : Bool) (old v : W64) : W64 × Bool :=
  let x := bits v f.hi f.lo
  if f.backstage && !back then (old, false)
  else
    match f.acc with
    | .RO => (old, false)
    | .RW => if f.legal.ok x then (setBits old f.hi f.lo x, false) else (old, true)
    | .WO => if f.legal.ok x then (setBits old f.hi f.lo x, false) else (old, true)
    | .W1C => (setBits old f.hi f.lo (bits old f.hi f.lo - (bits old f.hi f.lo &&& x)), false)
    | .W1S => (setBits old f.hi f.lo (bits old f.hi f.lo ||| x), false)

/-- All fields of a register after a write. -/
def rowWrite (row : RegRow) (back : Bool) (old v : W64) : W64 × Bool :=
  row.fields.foldl (fun (a : W64 × Bool) f =>
    let y := fieldWrite f back a.1 v
    (y.1, a.2 || y.2)) (old, false)

/-- The instance of the error register that records a reserved value written to a register (R548). -/
def rsvwInst (row : RegRow) (i : Nat) : Nat :=
  let e := row.reg.rsvw.reg
  match rowOf e with
  | some x => if x.unit == row.unit && x.unit != .dev && x.unit != .col then i / row.count * x.count else 0
  | none => 0

/-- Write a register (R64, R548), with its side effects. -/
def State.ioWrite (s : State) (c : Option Nat) (back : Bool) (row : RegRow) (i : Nat) (v : W64) : State :=
  let old := s.reg row.reg i
  let y := rowWrite row back old v
  let s := s.setReg row.reg i y.1
  let s := if y.2 then s.setFld row.reg.rsvw (rsvwInst row i) 1 else s
  s.ioWritten c back row i old v

/-- The answer of an I/O access: a register row and instance, or a refusal. -/
def State.ioTarget (s : State) (c : Option Nat) (back sup write : Bool) (a : Nat) : IoRef ⊕ (RegRow × Nat) :=
  match s.ioFind c a with
  | none => .inl .bus
  | some x =>
    match ioCheck x.1 back sup write with
    | some e => .inl e
    | none => .inr x

/-- The trap of a refused access (R64); an address operand out of range has subcode IORANGE. -/
def ioTrap (e : IoRef) (a : Nat) : Trap :=
  match e with
  | .bus => tBus 0 (a % 2 ^ 48)
  | .world => tProt 3 (a % 2 ^ 48)
  | .priv => tProt 4 (a % 2 ^ 48)

/-- The registers whose writes have no effect under REPLAY (R451): host interface, tour ports and routing table, the
Prompter mailbox, the Rehearsal unit. -/
def outward (row : RegRow) : Bool :=
  (0x2200000 ≤ row.base && row.base < 0x2500000) || (0x2000500 ≤ row.base && row.base < 0x2000520)

/-- An io address given as an integer is one the core may access (R64): its register and instance. -/
def ioCheckAt (a : Int) (write : Bool) : M (RegRow × Nat) := do
  if a < 0 ∨ (2 : Int) ^ 32 ≤ a then raise (tBus 1 (BitVec.ofInt 64 a).toNat)
  else do
    let k ← getCore
    let n := a.toNat
    let t ← askS (fun s c => s.ioTarget (some c) k.psw.w k.psw.l write n)
    match t with
    | .inl e => raise (ioTrap e n)
    | .inr x => pure x

/-- A core reads an io address (R64), once earlier fences allow it (R279). -/
def ioRead (a : Int) : M W64 := do
  let (row, i) ← ioCheckAt a false
  meetFence
  let k ← getCore
  let v ← askS (fun s _ => s.ioValue row i k.psw.w)
  pure v

/-- A core writes an io address (R64, R451), after the stores that a FENCE.REL or FENCE.FULL has ordered before it (R279). -/
def ioWriteAt (a : Int) (v : W64) : M Unit := do
  let (row, i) ← ioCheckAt a true
  meetFence
  let k ← getCore
  drainThose (fun q => q.epoch != k.mem.epoch)
  updS (fun s c =>
    if s.mode mREPLAY && outward row then s.bump .REH_LIVEDROP 0 1
    else s.ioWrite (some c) k.psw.w row i v)

end Sys2Proof.Machine
end

