-- ==== Sys2Proof/Machine/Sr.lean ====
section
/-! DEFINITION. The special registers (R54-R58): who may read and write each, its value, and what a write accepts. -/

namespace Sys2Proof.Machine

open Sys2Proof

/-- Level needed to read special register i (R55): 0 any, 1 supervisor, 2 Backstage supervisor. -/
def srReadLevel (i : Nat) : Nat :=
  if i = 16 || i = 17 then 2
  else if (9 ≤ i && i ≤ 11) || (13 ≤ i && i ≤ 15) || (27 ≤ i && i ≤ 33) then 1
  else 0

/-- Level needed to write it. -/
def srWriteLevel (i : Nat) : Nat := if i = 0 then 1 else srReadLevel i

/-- A reserved index (R55, R56). -/
def srReserved (i : Int) : Bool := decide (i < 0) || decide (36 ≤ i)

/-- Registers that hold any word exactly: PG0-PG3, QS0, QS1 (R55). -/
def srAny (i : Nat) : Bool := (20 ≤ i && i ≤ 23) || i == 29 || i == 30

/-- The level is held. -/
def Psw.holds (p : Psw) (lv : Nat) : Bool := lv == 0 || (p.l && (lv == 1 || p.w))

/-- COREID (R15); a checker reads its primary's number. -/
def State.coreId (s : State) (c : Nat) : W64 :=
  w64 (s.node % 2 ^ 14 * 2 ^ 8 + (if s.checker c then c - 1 else c) % 256)

/-- The word of special register i of core c, the core's state given (R55-R58). -/
def State.srWord (s : State) (c : Nat) (k : Core) (i : Nat) : TWord :=
  match i with
  | 0 => fixW (k.psw.pack (s.strict c))
  | 1 => fixN (k.stk.sp + k.occN * 2 ^ 48)
  | 2 => fixW k.stk.slim
  | 3 => fixW k.stk.sbase
  | 4 => fixN (k.stk.csp + k.occM * 2 ^ 48)
  | 5 => fixW k.stk.clim
  | 6 => fixW k.sr.lc
  | 7 => fixW k.sr.ls
  | 8 => fixW k.sr.le
  | 9 => fixW k.bank.vbr
  | 10 => fixW k.bank.tsbr
  | 11 => fixW k.bank.ftsbr
  | 12 => fixW k.sr.pkr
  | 13 => fixW k.bank.asid
  | 14 => fixW k.bank.itbr
  | 15 => fixW k.bank.dtbr
  | 16 => fixW k.sr.vmid
  | 17 => fixW k.sr.s2tbr
  | 18 => fixW k.sr.ab
  | 19 => fixW k.sr.al
  | 20 => k.sr.pg0
  | 21 => k.sr.pg1
  | 22 => k.sr.pg2
  | 23 => k.sr.pg3
  | 24 => fixW k.sr.iob
  | 25 => fixW k.sr.trb
  | 26 => fixW k.sr.trl
  | 27 => fixW k.quick.qpc
  | 28 => fixW k.quick.qpsw
  | 29 => k.quick.qs0
  | 30 => k.quick.qs1
  | 31 => fixW k.sr.cctl
  | 32 => fixW k.sr.timecmp0
  | 33 => fixW k.sr.timecmp1
  | 34 => fixW (s.coreId c)
  | 35 => fixW (s.mcver (clusterOf c))
  | _ => fixN 0

/-- Record a reserved special-register access (R56). -/
def srNote (i : Int) (reserved : Bool) : M Unit :=
  updS (fun s c =>
    let s := s.setFld f_CORE_ERR_RSVSR c 1
    if reserved then s.setFld f_CORE_ERR_RSVIDX c ((BitVec.ofInt 64 i).toNat % 64) else s)

/-- The stored form of a root register (R213), or none where the write is refused (R214). -/
def rootWrite (inst : Bool) (d : W64) : Option W64 :=
  let is := bits d 57 52
  let top := if inst then 46 else 48
  if is < 37 || top < is || 2 ≤ bits d 49 48 then none
  else some (setBits (setBits (setBits d 62 58 0) 51 50 0) 8 0 0)

/-- What a write of a FIX register stores, none where it is refused and changes nothing, or a trap (R56, R188, R214,
R216, R249). The Boolean records a reserved value (CORE.ERR.RSVW). -/
def srAccept (k : Core) (i : Nat) (d : W64) : Trap ⊕ (Option W64 × Bool) :=
  match i with
  | 9 => if bits d 7 0 ≠ 0 then .inl { vec := 5, sub := 3 } else .inr (some (w64 (bits d 47 0)), false)
  | 10 => if bits d 5 0 ≠ 0 then .inl { vec := 5, sub := 2 } else .inr (some (w64 (bits d 47 0)), false)
  | 11 => if bits d 5 0 ≠ 0 then .inl { vec := 5, sub := 2 } else .inr (some (w64 (bits d 47 0)), false)
  | 12 => .inr (some (w64 (bits d 31 0)), false)
  | 13 => .inr (some (w64 (bits d 15 0)), false)
  | 14 => (match rootWrite true d with | some x => .inr (some x, false) | none => .inr (none, true))
  | 15 => (match rootWrite false d with | some x => .inr (some x, false) | none => .inr (none, true))
  | 16 => .inr (some (w64 (bits d 7 0)), false)
  | 17 => (match rootWrite false d with | some x => .inr (some x, false) | none => .inr (none, true))
  | 24 => .inr (some (w64 (bits d 31 0)), false)
  | 31 =>
    let bad := bits d 5 4 == 3
    .inr (some (setBits (w64 (bits d 1 0)) 5 4 (if bad then bits k.sr.cctl 5 4 else bits d 5 4)), bad)
  | _ => .inr (some d, false)

/-- Read special register `w` (MFSR and the microcode's SRACC): checks of R56, then the word as the core stands after
its index has been popped. -/
def srRead (idx : Int) (k : Core) : M TWord := do
  if srReserved idx then do
    srNote idx true
    pure (fixN 0)
  else if !(k.psw.holds (srReadLevel idx.toNat)) then raise (tIllegal 2)
  else askS (fun s c => s.srWord c k idx.toNat)

/-- Check a write of special register idx with the word `v` at stack position `pos`: the change to make, none where the
value is discarded (R56). -/
def srPrepare (idx : Int) (v : TWord) (pos : Nat) : M (Option ShadowUpd) := do
  let k ← getCore
  if srReserved idx then do
    srNote idx true
    pure none
  else if idx = 34 ∨ idx = 35 then do
    srNote idx false
    pure none
  else
    let i := idx.toNat
    if !(k.psw.holds (srWriteLevel i)) then raise (tIllegal 2)
    else if srAny i then pure (some (.sr k.psw.w i v))
    else do
      check [{ w := v, pos := pos, ok := ty v == tFIX }]
      match srAccept k i v.datum with
      | .inl t => raise t
      | .inr (x, rsvw) => do
        if rsvw then updS (fun s c => s.setFld f_CORE_ERR_RSVW c 1) else pure ()
        pure (x.map (fun d => .sr k.psw.w i (fixW d)))

/-- Make a special-register change at once, an open shadow kept (microcode writes, R158). -/
def Core.applyNow (k : Core) (u : ShadowUpd) : Core :=
  { ({ k with shadow := some { remain := 0, sa := 0, syl := 0, upd := u } } : Core).applyShadow with shadow := k.shadow }

end Sys2Proof.Machine
end

