-- ==== Sys2Proof/Machine/Xlat.lean ====
section
/-! DEFINITION. The translation operations behind WALK, TLBW, TLBR and TLBI (R228-R232, R239, R240), shared by the instructions and by
the control store's translation control (R158). -/

namespace Sys2Proof.Machine

open Sys2Proof

/-- The control word of a walk (R228): address, I, AUTO, FAIL. -/
def walkFix (a : Nat) (isI fail : Bool) : TWord :=
  fixN (b2n fail * 2 ^ 63 + 2 ^ 49 + b2n isI * 2 ^ 48 + a % 2 ^ 48)

/-- The kind of access of a request. -/
def accOf (kind : Nat) : Acc := match kind with | 1 => .write | 2 => .fetch | _ => .read

/-- The walker's answer to a core's request (R228, R229, R233): the two words WALK pushes, or the trap. A killed walk caches
nothing and leaves the latch KILLED (R240). -/
def State.walkAnswer (s : State) (c fix1 kind : Nat) (probe killed : Bool) : State × (Trap ⊕ List TWord) :=
  let a := fix1 % 2 ^ 48
  let acc := accOf kind
  let isI := acc == .fetch
  let x := (s.core c).ctx isI
  match s.walk (clusterOf c) x (if isI then a / 4 else a) acc (!killed) with
  | (s, .inr r) =>
    let t : TWord := ⟨BitVec.ofNat 8 tTTE, r.tte⟩
    let f := walkFix a isI false
    (s.modCore c (fun k => { k with mem := { k.mem with latch := if killed then .killed t f else .valid t f r.org } }), .inr [t, f])
  | (s, .inl f) =>
    if probe then
      (s, .inr [fixN (f.cause % 16 * 2 ^ 40 + f.stage % 4 * 2 ^ 38 + f.level % 8 * 2 ^ 35), walkFix a isI true])
    else (s, .inl { transFault f acc a with addr := fix1 })

/-- A word in µTLB form (R221). -/
def utlbOk (w : TWord) : Bool :=
  let d := w.datum
  ty w == tTTE && bit d 0 && bits d 2 1 == 1 && bits d 24 22 == 0 && !(bit d 6) && decide (bits d 20 17 ≤ 5)
    && oaOf d % 2 ^ sizeShift (bits d 20 17) == 0

/-- The latch equals TLBW's operands (R230). -/
def latchEq (t f : TWord) (tte fix : TWord) : Bool :=
  t = tte && bits f.datum 48 0 == bits fix.datum 48 0

/-- The entry that TLBW makes of its control word f and its entry t (R230, R231), or nothing; the latch is then EMPTY (R229). -/
def tlbwEntry (f t : TWord) : M (Option ShadowUpd) := do
  let k ← getCore
  let isI := bit f.datum 48
  let index := bits f.datum 54 50
  if isI && decide (15 < index) then typeFault sWRONG f 0 else pure ()
  let write : M (Option ShadowUpd) := (do
    let a := bits f.datum 47 0
    let input := if isI then a / 4 else a
    let sz := 2 ^ sizeShift (bits t.datum 20 17)
    let x := k.ctx isI
    let e : Utlb := { tte := t.datum, base := input / sz * sz, world := x.world, asid := x.asid, vmid := x.vmid,
                      wire := bit f.datum 55,
                      org := match k.mem.latch with | .valid lt lf i => if latchEq lt lf t f then some i else none | _ => none }
    if bit f.datum 49 then do
      let n ← askS (fun s _ => Config.victim s.free)
      updS (fun s _ => { s with free := s.free + 1 })
      pure (some (.tlb isI index (some n) e))
    else pure (some (.tlb isI index none e)))
  let killed : M (Option ShadowUpd) := (do
    updS (fun s c => s.bump .CORE_TLBWKILL c 1)
    pure (some .none))
  let u ← (if k.psw.w then
      if !(utlbOk t) then typeFault sWRONG t 1
      else match k.mem.latch with
        | .killed lt _ => if lt = t then killed else write
        | _ => write
    else match k.mem.latch with
      | .valid lt lf _ => if latchEq lt lf t f then write else raise (tProt 1 0)
      | .killed lt lf => if latchEq lt lf t f then killed else raise (tProt 1 0)
      | .empty => raise (tProt 1 0))
  modMe (fun k => { k with mem := { k.mem with latch := .empty } })
  pure u

/-- The three words that TLBR reads (R232). -/
def tlbrWords (f : TWord) : M (List TWord) := do
  let k ← getCore
  let isI := bit f.datum 48
  let index := bits f.datum 54 50
  if isI && decide (15 < index) then typeFault sWRONG f 0 else pure ()
  match (if isI then k.mem.itlb else k.mem.dtlb).getD index none with
  | none => pure [wEMPTY, fixN 0, fixN 0]
  | some u =>
    if !k.psw.w && (u.world || u.vmid != bits k.sr.vmid 7 0) then pure [wEMPTY, fixN 0, fixN 0]
    else pure [⟨BitVec.ofNat 8 tTTE, u.tte⟩, fixN (if isI then u.base * 4 else u.base),
      fixN (2 ^ 26 + b2n u.wire * 2 ^ 25 + b2n u.world * 2 ^ 24 + u.vmid % 256 * 2 ^ 16 + u.asid % 2 ^ 16)]

/-- What one TLBI removes (R239): leaf entries of a space, stage-1 walk-cache entries, stage-2 entries. -/
structure Purge where
  leaf : Bool → Utlb → Bool
  wc1 : WcE → Bool
  s2 : Nat → Bool

/-- Remove entries from the µTLBs of a core, and the entry of a TLBW whose shadow is still open (R241); a VALID latch becomes
KILLED (R240 step 3). -/
def Core.purge (k : Core) (p : Purge) : Core :=
  let f (isI : Bool) (l : List (Option Utlb)) : List (Option Utlb) := l.map (fun x => x.filter (fun u => !(p.leaf isI u)))
  { k with shadow := k.shadow.map (fun sh => match sh.upd with
      | .tlb isI _ _ e => if p.leaf isI e then { sh with upd := .none } else sh
      | _ => sh)
           mem := { k.mem with
      dtlb := f false k.mem.dtlb
      itlb := f true k.mem.itlb
      latch := match k.mem.latch with | .valid t x _ => .killed t x | l => l } }

/-- Remove entries from a cluster's TLB and walk cache. -/
def Cluster.purge (k : Cluster) (p : Purge) : Cluster :=
  { k with
    ctlb := k.ctlb.filter (fun e => !(p.leaf e.isI e.u))
    s2tlb := k.s2tlb.filter (fun e => !(p.s2 e.vmid))
    wc := k.wc.filter (fun e => !(if e.stage == 2 then p.s2 e.vmid else p.wc1 e)) }

/-- Mark a walk in progress as killed (R240 step 4). -/
def Core.killWalk (k : Core) : Core :=
  match k.wait with
  | some (.walk a kind probe _) => { k with wait := some (.walk a kind probe true) }
  | _ => k

/-- A walk of the core is in progress and not yet killed. -/
def Core.walking (k : Core) : Bool := match k.wait with | some (.walk _ _ _ false) => true | _ => false

/-- The cores and clusters a scope reaches (R239): 0 core, 1 cluster, 2 device. -/
def State.scopeCores (s : State) (c scope : Nat) : List Nat :=
  match scope with
  | 0 => [c]
  | 1 => coresOf (clusterOf c)
  | _ => List.range s.nCores
def State.scopeClusters (s : State) (c scope : Nat) : List Nat :=
  match scope with
  | 0 => []
  | 1 => [clusterOf c]
  | _ => List.range s.nClusters

/-- Steps 2-4 of R240. -/
def State.tlbi (s : State) (c scope : Nat) (p : Purge) : State :=
  let s := (s.scopeCores c scope).foldl (fun s h => s.modCore h (fun k => k.purge p)) s
  (s.scopeClusters c scope).foldl (fun s q =>
    let n := ((coresOf q).filter (fun h => (s.core h).walking)).length
    let s := (s.modCluster q (fun k => k.purge p)).bump .WALK_INVRX q 1
    let s := s.bump .WALK_KILLS q n
    (coresOf q).foldl (fun s h => s.modCore h Core.killWalk) s) s

/-- The leaf and walk-cache entries that the current world's TLBI reaches (R239). -/
def reachLeaf (w : Bool) (vmid : Nat) (u : Utlb) : Bool := if w then u.world else !u.world && u.vmid == vmid
def reachWc (w : Bool) (vmid : Nat) (e : WcE) : Bool := if w then e.world else !e.world && e.vmid == vmid

/-- TLBI.ALL. -/
def purgeAll (k : Core) : Purge :=
  let w := k.psw.w
  let vmid := bits k.sr.vmid 7 0
  { leaf := fun _ u => w || (!u.world && u.vmid == vmid)
    wc1 := fun e => w || (!e.world && e.vmid == vmid)
    s2 := fun _ => w }

end Sys2Proof.Machine
end

