-- ==== Sys2Proof/Machine/Micro.lean ====
section
/-! DEFINITION. The sequencer (R152-R175): micro-words and nano-words, the patch match, the dispatch store, the service entries of R172,
micro-faults (R166) and the watchdog (R165). Vendor routines are modelled by what they do, in the instruction families (log entry 85);
this file runs the routines that images load. -/

namespace Sys2Proof.Machine

open Sys2Proof

/-- Micro-fault (R166): MCS.ERR and MCS.MFCOUNT, then machine check MICRO with PARTIAL. -/
def microFault {α : Type} (cause : Nat) : M α := do
  updS (fun s c =>
    let cl := clusterOf c
    let s := s.setFld f_MCS_ERR_MFAULT cl 1
    let s := s.setFld f_MCS_ERR_MFCAUSE cl cause
    (s.setFld f_MCS_ERR_CORE cl (c % 8)).bump .MCS_MFCOUNT cl 1)
  raise { vec := 2, sub := 1, part := true }

/-- Micro-timeout of a core (R165): MCS.ERR.WDOG and MCS.WDCOUNT. -/
def State.noteWdog (s : State) (c : Nat) : State :=
  let cl := clusterOf c
  ((s.setFld f_MCS_ERR_WDOG cl 1).setFld f_MCS_ERR_CORE cl (c % 8)).bump .MCS_WDCOUNT cl 1

/-- The trap of R165. -/
def tTimeout : Trap := { vec := 19, part := true }

/-- Change the running routine's micro-state. -/
def modMicro (f : MicroSt → MicroSt) : M Unit := modMe (fun k => { k with micro := k.micro.map f })

/-- The running routine's micro-state. -/
def getMicro : M MicroSt := do
  let k ← getCore
  pure (k.micro.getD { upc := 0, mar := wEMPTY, mdr := wEMPTY, srv := wEMPTY })

/-- CONST as CSEL forms it (R158): 64 bits. -/
def nanoConst (n : Nat) : W64 :=
  let v := nbits n 47 0
  match nbits n 49 48 with
  | 1 => BitVec.ofInt 64 (sext 48 v)
  | 2 => w64 (v * 2 ^ 16)
  | _ => w64 v

/-- A source (R159), and its position when the word is checked: S0-S3 by position, C0 and MDR 15. -/
def microSrc (n : Nat) (code : Nat) : M (TWord × Option Nat) := do
  let k ← getCore
  let u ← getMicro
  if code ≤ 3 then
    match k.stk.regs[code]? with
    | some w => pure (w, some code)
    | none => do
      let x ← askS (fun s _ => s.fresh.1)
      updS (fun s _ => s.fresh.2)
      pure (fixW x, none)
  else
    match code with
    | 4 => pure (k.stk.cregs.getD 0 wEMPTY, some 15)
    | 5 => pure (u.mdr, some 15)
    | 6 => pure (fixW (nanoConst n), none)
    | 7 => pure (u.srv, none)
    | 12 => pure (fixW k.sr.lc, none)
    | 13 => pure (fixW k.sr.ab, none)
    | 14 => pure (fixW k.sr.al, none)
    | 15 => pure (fixN u.mct, none)
    | _ => pure (u.x.getD (code - 8) wEMPTY, none)

/-- The ALU reads source A (B). -/
def aluUsesA (op : Nat) : Bool := op != 0x01 && op != 0x0F
def aluUsesB (op : Nat) : Bool := (1 ≤ op && op ≤ 6) || (8 ≤ op && op ≤ 0x0D) || (0x11 ≤ op && op ≤ 0x13) || op == 0x16 || op == 0x17

/-- Count of leading zeros, and of ones. -/
def clz64 (a : W64) : Nat := if a.toNat = 0 then 64 else 63 - Nat.log2 a.toNat
def popc64 (a : W64) : Nat := (List.range 64).foldl (fun n i => n + b2n (bit a i)) 0

/-- The ALU (R160): result and carry. -/
def alu (op : Nat) (a b : W64) (cin : Bool) : W64 × Bool :=
  let n := a.toNat
  let m := b.toNat
  let sh := m % 64
  match op with
  | 0x00 => (a, cin)
  | 0x01 => (b, cin)
  | 0x02 => (a + b, decide (2 ^ 64 ≤ n + m))
  | 0x03 => (a - b, decide (n < m))
  | 0x04 => (a &&& b, cin)
  | 0x05 => (a ||| b, cin)
  | 0x06 => (a ^^^ b, cin)
  | 0x07 => (~~~a, cin)
  | 0x08 => (a <<< sh, cin)
  | 0x09 => (a >>> sh, cin)
  | 0x0A => (a.sshiftRight sh, cin)
  | 0x0B => (w64 (b2n (decide (a.toInt < b.toInt))), cin)
  | 0x0C => (w64 (b2n (decide (n < m))), cin)
  | 0x0D => (w64 (b2n (decide (n = m))), cin)
  | 0x0E => (BitVec.ofInt 64 (sext 32 (n / 2 ^ 32)), cin)
  | 0x10 => (BitVec.ofInt 64 (sext 32 (n % 2 ^ 32)), cin)
  | 0x11 => (a * b, cin)
  | 0x12 => (BitVec.ofInt 64 (a.toInt * b.toInt / 2 ^ 64), cin)
  | 0x13 => (a + b + w64 (b2n cin), decide (2 ^ 64 ≤ n + m + b2n cin))
  | 0x14 => (w64 (clz64 a), cin)
  | 0x15 => (w64 (popc64 a), cin)
  | 0x16 => (w64 (n / 2 ^ (8 * (m % 8)) % 256), cin)
  | 0x17 => (setBits a (8 * (m % 8) + 7) (8 * (m % 8)) (m / 256 % 256), cin)
  | _ => (0, cin)

/-- COND (R160) on the results of the nano-word. -/
def microCond (code : Nat) (r : W64) (carry : Bool) (a : TWord) (tagc : Nat) (k : Core) (mct cuptr : Nat) : Bool :=
  match code with
  | 0 => r == 0
  | 1 => r != 0
  | 2 => bit r 63
  | 3 => !(bit r 63)
  | 4 => carry
  | 5 => ty a == tagc
  | 6 => ty a != tagc
  | 7 => k.psw.step
  | 8 => mct == 0
  | 9 => k.psw.l
  | 10 => isPtr cuptr (ty a)
  | 11 => ty a == tNIL
  | _ => false

/-- Write a destination (R159). -/
def microDst (code : Nat) (w : TWord) : M Unit := do
  let k ← getCore
  if code = 0 then pure ()
  else if code ≤ 3 then
    if code - 1 < k.stk.regs.length then
      modMe (fun k => { k with stk := { k.stk with regs := k.stk.regs.set (code - 1) w } })
    else microFault 4
  else
    match code with
    | 4 => if 0 < k.stk.cregs.length then modMe (fun k => { k with stk := { k.stk with cregs := k.stk.cregs.set 0 w } }) else microFault 4
    | 5 => modMicro (fun u => { u with mar := w })
    | 6 => modMicro (fun u => { u with mdr := w })
    | 7 => modMicro (fun u => { u with srv := w })
    | 12 => modMe (fun k => { k with sr := { k.sr with lc := w.datum } })
    | 13 => modMe (fun k => { k with sr := { k.sr with ab := w.datum } })
    | 14 => modMe (fun k => { k with sr := { k.sr with al := w.datum } })
    | 15 => modMicro (fun u => { u with mct := bits w.datum 15 0 })
    | _ => modMicro (fun u => { u with x := u.x.set (code - 8) w })

/-- Stack adjusts of a nano-word before DST is written: SADJ > 0, CADJ push (R162). -/
def microPush (sadj : Int) (cadj : Nat) : M Unit := do
  let k ← getCore
  if 0 < sadj then
    if 8 < k.stk.regs.length + sadj.toNat then microFault 4
    else modMe (fun k => { k with stk := { k.stk with sp := va48 ((k.stk.sp : Int) - sadj),
                                                      regs := List.replicate sadj.toNat wEMPTY ++ k.stk.regs } })
  else pure ()
  if cadj = 2 then
    if 4 < k.stk.cregs.length + 1 then microFault 4
    else modMe (fun k => { k with stk := { k.stk with csp := va48 ((k.stk.csp : Int) - 1), cregs := wEMPTY :: k.stk.cregs } })
  else pure ()

/-- Stack adjusts after DST is written: SADJ < 0, CADJ pop. -/
def microPop (sadj : Int) (cadj : Nat) : M Unit := do
  let k ← getCore
  if sadj < 0 then
    let n := (-sadj).toNat
    if k.stk.regs.length < n then microFault 4
    else modMe (fun k => { k with stk := { k.stk with sp := va48 (k.stk.sp + n), regs := k.stk.regs.drop n } })
  else pure ()
  if cadj = 1 then
    if k.stk.cregs.length < 1 then microFault 4 else cDrop 1
  else pure ()

/-- The address of a data request (R160, R161): the checks of R40 on MAR, resolution under R82, then MEMQ. -/
def microAddr (memq : Nat) (cn : W64) (write pair : Bool) : M Nat := do
  let u ← getMicro
  let cu ← askS (fun s c => s.cuptr c)
  check [{ w := u.mar, pos := 15, deref := true, even := ty u.mar == tCONS || pair, store := write,
           ok := isPtr cu (ty u.mar) || ty u.mar == tLOC }]
  let p ← resolve u.mar
  let a := adr p
  pure (match memq with
    | 1 => va48 (a + (u.x.getD 0 wEMPTY).datum.toInt)
    | 2 => va48 (a + cn.toInt)
    | 3 => va48 (a + 1)
    | _ => a)

/-- Hold the line of a word for the running routine, or release it (R160). A Scene holds its words by its sets (R288). -/
def microHold (a : Nat) (on : Bool) : M Unit := do
  let lf ← xlate a .write
  modMe (fun k => { k with micro := k.micro.map (fun u => { u with hold := if on && !k.psw.sc then some (lineOf lf.pa) else none }) })

/-- The value that a request writes, checked under R37, and for WR2 the odd word after it. -/
def microVal (pair : Bool) : M (TWord × TWord) := do
  let u ← getMicro
  let x3 := u.x.getD 3 wEMPTY
  check (movedOpd u.mdr 15 :: (if pair then [movedOpd x3 15] else []))
  pure (u.mdr, x3)

/-- An I/O request takes a FIX io address from MAR (R161); a Scene may not make one (R298). -/
def microIo : M Int := do
  let k ← getCore
  let u ← getMicro
  if k.psw.sc then throw (.abort { code := 7 })
  else do
    check [{ w := u.mar, pos := 15, ok := ty u.mar == tFIX }]
    pure (fixVal u.mar)

/-- A memory or I/O request of a nano-word (R160, R161). RD2 and WR2 use MDR for the even word and X3 for the odd one
(log entry 20, DESIGN CHOICE). RMWRD and RMWWR are the two halves of one indivisible access: between them no other agent writes the
word. CPREQ has no effect of its own that the spec states (log entry 86). -/
def microMem (mem memq : Nat) (cn : W64) : M Unit := do
  let toMdr (w : TWord) : M Unit := modMicro (fun u => { u with mdr := w })
  match mem with
  | 1 => do
    let a ← microAddr memq cn false false
    toMdr (← load a false)
  | 2 => do
    let a ← microAddr memq cn true false
    let v ← microVal false
    store a v.1 true false
  | 3 => do
    let a ← microAddr memq cn false true
    let w ← load a false
    let v ← load (a + 1) false
    modMicro (fun u => { u with mdr := w, x := u.x.set 3 v })
  | 4 => do
    let a ← microAddr memq cn true true
    let v ← microVal true
    storePair a v.1 v.2 false
  | 5 => do
    let a ← microAddr memq cn true false
    toMdr (← atomicWord a)
    microHold a true
  | 6 => do
    let a ← microAddr memq cn true false
    let v ← microVal false
    atomicWrite a v.1
    microHold a false
  | 7 => do
    let a ← microIo
    toMdr (fixW (← ioRead a))
  | 8 => do
    let a ← microIo
    let u ← getMicro
    ioWriteAt a u.mdr.datum
  | 9 => do
    let a ← microAddr memq cn false false
    toMdr (← peek a)
  | 10 => do
    let a ← microAddr memq cn true false
    let v ← microVal false
    initStore a v.1 false
  | _ => pure ()

/-- The special-register access of a nano-word (R158), with the checks of R55 unless PRIVW bypasses them; a privileged write of PSW sets
the whole word (log entry 87, DESIGN CHOICE). -/
def microSr (n : Nat) : M Unit := do
  let i := nbits n 73 68
  let free := nbits n 65 65 == 1 && !(srReserved i)
  let u ← getMicro
  let k ← getCore
  match nbits n 67 66 with
  | 1 => do
    let w ← (if free then askS (fun s c => s.srWord c k i) else srRead i k)
    modMicro (fun u => { u with srv := w })
  | 2 =>
    if k.psw.sc then throw (.abort { code := 7, detail := 4 })
    else if free then
      (if i = 0 then modMe (fun k => { k with psw := Psw.unpack u.srv.datum })
      else match srAccept k i u.srv.datum with
        | .inr (some d, _) => modMe (fun k => k.applyNow (.sr k.psw.w i (if srAny i then u.srv else fixW d)))
        | _ => pure ())
    else do
      let x ← srPrepare i u.srv 15
      match x with
      | some x => modMe (fun k => k.applyNow x)
      | none => pure ()
  | _ => pure ()

/-- Leave the world and level for those given, and keep in the micro-state what is to be restored (R158). -/
def Core.microGo (k : Core) (w l : Bool) (saved : Option (Bool × Bool)) : Core :=
  let keep (u : MicroSt) : MicroSt := { u with saved := saved }
  { k with psw := { k.psw with w := w, l := l }, micro := k.micro.map keep }

/-- World control of a nano-word (R158): enter Backstage at its supervisor level, or go back to the world and level left. -/
def Core.microWorld (k : Core) (wld : Nat) : Core :=
  match wld, k.micro.bind (fun u => u.saved) with
  | 1, _ => k.microGo true true (some (k.psw.w, k.psw.l))
  | 2, some (w, l) => k.microGo w l none
  | _, _ => k

/-- Translation control of a nano-word (R158): what TLBW, TLBR, WALK and TLBI.ALL do, with X0 and X1 for the instruction's two operands,
the deeper one in X0, and X0 to X2 for its results (log entry 86, DESIGN CHOICE). -/
def microXlat (op : Nat) : M Unit := do
  let u ← getMicro
  let x0 := u.x.getD 0 wEMPTY
  let x1 := u.x.getD 1 wEMPTY
  match op with
  | 1 => do
    let e ← tlbwEntry x1 x0
    match e with
    | some e => modMe (fun k => k.applyNow e)
    | none => pure ()
  | 2 => do
    let ws ← tlbrWords x1
    modMicro (fun u => { u with x := ws ++ u.x.drop 3 })
  | 3 => do
    let c ← me
    let s ← get
    let r := s.walkAnswer c x0.datum.toNat (bits x1.datum 1 0) (bit x1.datum 2) false
    set r.1
    match r.2 with
    | .inl t => raise t
    | .inr ws => modMicro (fun u => { u with x := ws ++ u.x.drop 2 })
  | 4 => do
    let k ← getCore
    updS (fun s c => s.tlbi c (Nat.min x0.datum.toNat 2) (purgeAll k))
  | _ => pure ()

/-- A service entry of R172, called by a customer routine. -/
def microService (a : Nat) : M Unit := do
  let u ← getMicro
  let x0 := u.x.getD 0 wEMPTY
  let x1 := u.x.getD 1 wEMPTY
  match a with
  | 0 => do
    check [{ w := x1, pos := 15, ok := ty x1 == tFIX }, { w := x0, pos := 15, ok := ty x0 == tFIX }]
    let p ← allocate x0 x1
    modMicro (fun u => { u with x := u.x.set 0 p })
  | 1 => do
    check [movedOpd x1 15, movedOpd x0 15]
    let p ← allocPair x0 x1 false
    modMicro (fun u => { u with x := u.x.set 0 p })
  | 2 => raise (tIllegal 0)
  | _ => do
    let cu ← askS (fun s c => s.cuptr c)
    check [{ w := x0, pos := 15, deref := true, ok := isHeaded cu (ty x0) }]
    let p ← resolve x0
    let (b, h) ← hdrOf p false
    modMicro (fun u => { u with x := (u.x.set 0 { p with datum := w64 b }).set 1 h })

/-- Continue at a micro-address. -/
def goTo (a : Nat) : M (Option Out) := do
  modMicro (fun u => { u with upc := a % 2 ^ 14 })
  pure none

/-- Return to the address on top of the micro-stack (R155, R157). -/
def microRet : M (Option Out) := do
  let u ← getMicro
  match u.stack with
  | [] => microFault 2
  | a :: l => do
    modMicro (fun u => { u with stack := l })
    goTo a

/-- The micro-addresses of the vendor service entries (R172). -/
def isService (a : Nat) : Bool := a ≤ 3

/-- A word of a control store as the core's bank holds it (R153). Under LOCKSTEP the checker reads the other bank: a word that differs
there makes the pair diverge. -/
def bankWord (f : State → Nat → Nat) : M Nat := do
  let v ← askS f
  let bad ← askS (fun s c => s.lockstep c && f s (c + 1) != v)
  if bad then do
    updS (fun s c => s.diverge (c / 2 * 2))
    throw .gone
  else pure v

/-- The sequencing operation of a micro-word (R155). `syl` is the current syllable. -/
def microSeq (w n : Nat) (cond : Bool) (syl : Nat) : M (Option Out) := do
  let u ← getMicro
  let arg := nbits w 7 0
  let page := if nbits n 80 80 == 1 then nbits n 79 74 else nbits u.upc 13 8
  let tgt := page * 256 + arg
  let nxt := u.upc + 1
  match nbits w 11 8 with
  | 0x0 => goTo nxt
  | 0x1 => goTo tgt
  | 0x2 =>
    if 8 ≤ u.stack.length then microFault 1
    else do
      modMicro (fun u => { u with stack := nxt % 2 ^ 14 :: u.stack })
      goTo tgt
  | 0x3 => microRet
  | 0x4 => goTo (if cond then tgt else nxt)
  | 0x5 => do
    let (v, _) ← microSrc n (arg / 32)
    let e ← bankWord (fun s c => s.dword c (0x1000 + arg % 32 * 64 + ty v))
    if nbits e 15 15 = 0 then microFault 6 else goTo (nbits e 13 0)
  | 0x6 => do
    if 2 ≤ arg / 32 then microFault 5
    else do
      let k ← getCore
      let s0 := k.stk.regs.getD 0 wEMPTY
      let s1 := k.stk.regs.getD 1 wEMPTY
      let c1 := if arg / 32 = 1 then 7 else dclass (ty s1)
      let e ← bankWord (fun s c => s.dword c (arg % 32 * 64 + c1 * 8 + dclass (ty s0)))
      if nbits e 15 15 = 0 then typeFault sWRONG s0 0 else goTo (nbits e 13 0)
  | 0x7 =>
    if arg / 8 ≠ 0 then microFault 5
    else do
      let e ← bankWord (fun s c => s.dword c (0x1800 + arg % 8 * 256 + syl % 256))
      if nbits e 15 15 = 0 then microFault 6 else goTo (nbits e 13 0)
  | 0x8 => do
    let k ← getCore
    if k.psw.sc && k.psw.ss && 256 ≤ k.scene.count then throw (.abort { code := 10 })
    else do
      modMe (fun k => { k with psw := { k.psw with step := true },
                               scene := { k.scene with count := if k.psw.sc then k.scene.count + 1 else k.scene.count } })
      modMicro (fun u => { u with upc := nxt % 2 ^ 14, cycles := 0 })
      pure (some { push := [], flow := .stay })
  | 0x9 => pure (some { push := [], keepPg := true })
  | 0xB =>
    if 3 ≤ arg then microFault 5
    else do
      modMicro (fun u => { u with waiting := arg == 2 })
      goTo nxt
  | 0xC =>
    if u.mct ≠ 0 then do
      modMicro (fun u => { u with mct := u.mct - 1 })
      goTo tgt
    else goTo nxt
  | _ => microFault 0

/-- Execute a micro-word with its nano-word: the routine's end, or none when it goes on. -/
def microExec (syl w n : Nat) : M (Option Out) := do
  let u ← getMicro
  if nanoBad n then microFault 3
  else if nbits w 11 8 = 0xA then
    raise { vec := nbits w 7 0, sub := nbits n 7 0 }
  else do
    let op := nbits n 127 122
    let tagop := nbits n 109 105
    let tagc := nbits n 104 99
    let cond := nbits n 85 81
    let brc := nbits w 11 8 = 0x4
    let (a, pa) ← microSrc n (nbits n 121 118)
    let (b, pb) ← microSrc n (nbits n 117 114)
    let useA := aluUsesA op || tagop == 0 || tagop == 2 || tagop == 4 || tagop == 6 ||
      (brc && (cond == 5 || cond == 6 || cond == 10 || cond == 11))
    let useB := aluUsesB op || tagop == 3
    let opA : List Opd := match pa with
      | some p => if useA then [{ w := a, pos := p, ok := !(tagop == 2 && ty a != tagc) && !(tagop == 4 && dclass (ty a) != tagc % 8) }] else []
      | none => if (tagop == 2 && ty a != tagc) || (tagop == 4 && dclass (ty a) != tagc % 8) then [{ w := a, pos := 15, ok := false }] else []
    let opB : List Opd := match pb with
      | some p => if useB then [{ w := b, pos := p, ok := !(tagop == 3 && ty b != tagc) }] else []
      | none => if tagop == 3 && ty b != tagc then [{ w := b, pos := 15, ok := false }] else []
    if tagop == 7 then pure () else check (opA ++ opB)
    let (r, cy) := alu op a.datum b.datum u.carry
    let res : TWord := match tagop with
      | 1 => word tagc r.toNat
      | 3 => ⟨b.tag, r⟩
      | 5 => wBool (r != 0)
      | 6 => fixN a.tag.toNat
      | 7 => a
      | _ => ⟨a.tag, r⟩
    let cu ← askS (fun s c => s.cuptr c)
    let sadj := sext 4 (nbits n 91 88)
    let cadj := nbits n 87 86
    microMem (nbits n 98 95) (nbits n 94 92) (nanoConst n)
    microSr n
    microXlat (nbits n 59 57)
    modMe (fun k => k.microWorld (nbits n 64 63))
    microPush sadj cadj
    microDst (nbits n 113 110) res
    microPop sadj cadj
    modMicro (fun u => { u with carry := cy, cycles := u.cycles + 1 })
    let k ← getCore
    let v ← getMicro
    microSeq w n (microCond cond r cy a tagc k v.mct cu) syl

/-- One step of the sequencer: a WAIT for earlier writes in progress, a service entry, or the micro-word at uPC, which an enabled match
register redirects into patch RAM (R155, R172, R175). -/
def microWord (syl : Nat) : M (Option Out) := do
  let u ← getMicro
  if u.waiting then do
    drainMine
    modMicro (fun u => { u with waiting := false })
    pure none
  else do
    let a ← askS (fun s c => if u.upc < 0x2800 then s.patched (clusterOf c) u.upc else u.upc)
    modMicro (fun u => { u with upc := a })
    if isService a then do
      microService a
      modMicro (fun u => { u with cycles := u.cycles + 1 })
      microRet
    else do
      let w ← bankWord (fun s c => s.uword c a)
      let n ← bankWord (fun s c => s.nword c (nbits w 23 12))
      microExec syl w n

/-- Run micro-words until the routine ends, reaches a STEP, or the watchdog fires (R165). -/
def microRun (syl fuel : Nat) : M Out :=
  match fuel with
  | 0 => do
    updS State.noteWdog
    raise tTimeout
  | fuel + 1 => do
    let r ← microWord syl
    match r with
    | some o => pure o
    | none => microRun syl fuel

/-- Start a customer routine at its entry, or continue one that has stopped at a STEP or a wait. -/
def microEnter (entry syl : Nat) : M Out := do
  let k ← getCore
  match k.micro with
  | some u => microRun syl (4096 - u.cycles)
  | none => do
    let x ← askS (fun s _ => s.fresh.1)
    updS (fun s _ => s.fresh.2)
    let z := fixW x
    modMe (fun k => { k with micro := some { upc := entry, x := [z, z, z, z], mar := z, mdr := z, srv := z } })
    microRun syl 4096

end Sys2Proof.Machine
end

