-- ==== Sys2Proof/Machine/Num.lean ====
section
/-! DEFINITION. Numbers: IEEE 754 binary64 as R92 fixes it, QUO, REM and MOD of R551, exact numbers and the contagion of
R89, complex formulas of R550, comparisons of R95. Pure functions over bits and integers. -/

namespace Sys2Proof.Machine

open Sys2Proof

/-! ### Binary64 -/

/-- A binary64 value: a NaN with its bits, an infinity, or ±m × 2^e. -/
inductive Fp where
  | nan (b : Nat)
  | inf (neg : Bool)
  | fin (neg : Bool) (m : Nat) (e : Int)
  deriving DecidableEq, Repr

/-- Decode the bits of a FLO datum. -/
def fpOf (b : Nat) : Fp :=
  let neg := b.testBit 63
  let x : Nat := b / 2 ^ 52 % 2048
  let m : Nat := b % 2 ^ 52
  if x = 2047 then (if m = 0 then .inf neg else .nan b)
  else if x = 0 then .fin neg m (-1074)
  else .fin neg (m + 2 ^ 52) (Int.ofNat x - 1075)

/-- The NaN of an invalid operation (R92). -/
def qNaN : Nat := 0x7FF8000000000000

/-- A NaN operand as delivered: its quiet bit set (R92). -/
def quieted (b : Nat) : Nat := b ||| 2 ^ 51

/-- Bits of a signed zero and of a signed infinity. -/
def fpZero (neg : Bool) : Nat := b2n neg * 2 ^ 63
def fpInf (neg : Bool) : Nat := b2n neg * 2 ^ 63 + 0x7FF0000000000000

/-- The first NaN of a list of operands, quieted (R92). -/
def firstNaN : List Nat → Option Nat
  | [] => none
  | b :: l => match fpOf b with
    | .nan x => some (quieted x)
    | _ => firstNaN l

/-- 2^e as a fraction. -/
def pow2Num (e : Int) : Nat := if 0 ≤ e then 2 ^ e.toNat else 1
def pow2Den (e : Int) : Nat := if 0 ≤ e then 1 else 2 ^ (-e).toNat

/-- Round the positive fraction n/d times 2^-e to an integer, nearest, ties to even. -/
def roundEven (n d : Nat) (e : Int) : Nat :=
  let num := n * pow2Den e
  let den := d * pow2Num e
  let q := num / den
  let r := num % den
  if den < 2 * r || (2 * r == den && q % 2 == 1) then q + 1 else q

/-- ±n/d rounded to binary64, nearest, ties to even (R92). -/
def roundRat (neg : Bool) (n d : Nat) : Nat :=
  if n = 0 then fpZero neg
  else
    let e0 : Int := (Nat.log2 n : Int) - (Nat.log2 d : Int)
    let lt : Bool := decide (n * pow2Den e0 < d * pow2Num e0)
    let e1 : Int := if lt then e0 - 53 else e0 - 52
    let e : Int := max e1 (-1074)
    let q := roundEven n d e
    let s := b2n neg * 2 ^ 63
    if q < 2 ^ 52 then s + q
    else
      let (q, e) := if q = 2 ^ 53 then (2 ^ 52, e + 1) else (q, e)
      let x := e + 1075
      if 2047 ≤ x then fpInf neg else s + x.toNat * 2 ^ 52 + (q - 2 ^ 52)

/-- A signed integer times 2^e, rounded; an exact zero has the given sign. -/
def roundInt (z : Int) (e : Int) (zneg : Bool) : Nat :=
  if z = 0 then fpZero zneg else roundRat (decide (z < 0)) (z.natAbs * pow2Num e) (pow2Den e)

/-- ±m as an integer. -/
def signed (neg : Bool) (m : Nat) : Int := if neg then -(m : Int) else m

/-- Sum of two scaled integers as one scaled integer. -/
def addScaled (a : Int) (ea : Int) (b : Int) (eb : Int) : Int × Int :=
  let e := min ea eb
  (a * 2 ^ (ea - e).toNat + b * 2 ^ (eb - e).toNat, e)

/-- x + y. -/
def fpAdd (a b : Nat) : Nat :=
  match firstNaN [a, b] with
  | some n => n
  | none =>
    match fpOf a, fpOf b with
    | .inf p, .inf q => if p = q then fpInf p else qNaN
    | .inf p, _ => fpInf p
    | _, .inf q => fpInf q
    | .fin p m e, .fin q n f =>
      let z := addScaled (signed p m) e (signed q n) f
      roundInt z.1 z.2 (p && q && m == 0 && n == 0)
    | _, _ => qNaN

/-- −x. -/
def fpNeg (a : Nat) : Nat := if a.testBit 63 then a - 2 ^ 63 else a + 2 ^ 63

/-- x − y: a NaN keeps its own bits. -/
def fpSub (a b : Nat) : Nat :=
  match firstNaN [a, b] with
  | some n => n
  | none => fpAdd a (fpNeg b)

/-- x × y. -/
def fpMul (a b : Nat) : Nat :=
  match firstNaN [a, b] with
  | some n => n
  | none =>
    match fpOf a, fpOf b with
    | .inf p, .inf q => fpInf (p != q)
    | .inf p, .fin q n _ => if n = 0 then qNaN else fpInf (p != q)
    | .fin p m _, .inf q => if m = 0 then qNaN else fpInf (p != q)
    | .fin p m e, .fin q n f => roundRat (p != q) (m * n * pow2Num (e + f)) (pow2Den (e + f))
    | _, _ => qNaN

/-- x / y. -/
def fpDiv (a b : Nat) : Nat :=
  match firstNaN [a, b] with
  | some n => n
  | none =>
    match fpOf a, fpOf b with
    | .inf _, .inf _ => qNaN
    | .inf p, .fin q _ _ => fpInf (p != q)
    | .fin p _ _, .inf q => fpZero (p != q)
    | .fin p m e, .fin q n f =>
      if n = 0 then (if m = 0 then qNaN else fpInf (p != q))
      else roundRat (p != q) (m * pow2Num (e - f)) (n * pow2Den (e - f))
    | _, _ => qNaN

/-- Integer square root of a number below 2^(2k), bit by bit. -/
def isqrt (k n : Nat) : Nat :=
  match k with
  | 0 => 0
  | k + 1 =>
    let r := 2 * isqrt k (n / 4)
    if (r + 1) * (r + 1) ≤ n then r + 1 else r

/-- √x. -/
def fpSqrt (a : Nat) : Nat :=
  match fpOf a with
  | .nan x => quieted x
  | .inf p => if p then qNaN else fpInf false
  | .fin p m e =>
    if m = 0 then fpZero p
    else if p then qNaN
    else
      let m2 := if e % 2 = 0 then m else 2 * m
      let e2 := if e % 2 = 0 then e else e - 1
      let big := m2 * 2 ^ 128
      let r := isqrt 92 big
      let sticky := if r * r = big then 2 * r else 2 * r + 1
      let h := e2 / 2 - 65
      roundRat false (sticky * pow2Num h) (pow2Den h)

/-- x × y + z, rounded once; a NaN is taken in the order x, y, z (R92: S2, S1, S0). -/
def fpFma (a b c : Nat) : Nat :=
  match firstNaN [a, b, c] with
  | some n => n
  | none =>
    match fpOf a, fpOf b, fpOf c with
    | .fin p m e, .fin q n f, .fin r k g =>
      let z := addScaled (signed (p != q) (m * n)) (e + f) (signed r k) g
      roundInt z.1 z.2 ((p != q) && r && m * n == 0 && k == 0)
    | .fin _ _ _, .fin _ _ _, .inf r => fpInf r
    | x, y, z =>
      let zero (v : Fp) : Bool := match v with | .fin _ 0 _ => true | _ => false
      let sg (v : Fp) : Bool := match v with | .inf p => p | .fin p _ _ => p | .nan _ => false
      if zero x || zero y then qNaN
      else match z with
        | .inf r => if r = (sg x != sg y) then fpInf r else qNaN
        | _ => fpInf (sg x != sg y)

/-- Nearest binary64 to an integer (FLO.CVT). -/
def fpOfInt (z : Int) : Nat := roundInt z 0 false

/-- Truncation to a FIX (FLO.TRUNC): NaN 0, saturating. -/
def fpTrunc (a : Nat) : Int :=
  let clamp (z : Int) : Int := if z < -(2 ^ 63) then -(2 ^ 63) else if 2 ^ 63 ≤ z then 2 ^ 63 - 1 else z
  match fpOf a with
  | .nan _ => 0
  | .inf p => if p then -(2 ^ 63) else 2 ^ 63 - 1
  | .fin p m e => clamp (signed p (m * pow2Num e / pow2Den e))

/-- QUO of two binary64 values (R551). -/
def fpQuo (a b : Nat) : Nat :=
  match firstNaN [a, b] with
  | some n => n
  | none =>
    match fpOf a, fpOf b with
    | .inf _, .inf _ => qNaN
    | .inf p, .fin q _ _ => fpInf (p != q)
    | .fin p _ _, .inf q => fpZero (p != q)
    | .fin p m e, .fin q n f =>
      if n = 0 then (if m = 0 then qNaN else fpInf (p != q))
      else
        let t := (m * pow2Num (e - f)) / (n * pow2Den (e - f))
        roundRat (p != q) t 1
    | _, _ => qNaN

/-- REM of two binary64 values (R551). -/
def fpRem (a b : Nat) : Nat :=
  match firstNaN [a, b] with
  | some n => n
  | none =>
    match fpOf a, fpOf b with
    | .inf _, _ => qNaN
    | .fin _ _ _, .inf _ => a
    | .fin p m e, .fin _ n f =>
      if n = 0 then qNaN
      else
        let g := min e f
        let x := m * 2 ^ (e - g).toNat
        let y := n * 2 ^ (f - g).toNat
        roundInt (signed p (x % y)) g p
    | _, _ => qNaN

/-- MOD of two binary64 values (R551). -/
def fpMod (a b : Nat) : Nat :=
  match firstNaN [a, b] with
  | some n => n
  | none =>
    match fpOf a, fpOf b with
    | .inf _, _ => qNaN
    | .fin p m _, .inf q => if m = 0 || p = q then a else b
    | .fin _ _ _, .fin q n _ =>
      if n = 0 then qNaN
      else
        let r := fpRem a b
        match fpOf r with
        | .fin rp rm _ =>
          if rm = 0 then fpZero q
          else if rp != q then
            let s := fpAdd r b
            match fpOf s with
            | .fin _ 0 _ => fpZero q
            | _ => s
          else r
        | _ => qNaN
    | _, _ => qNaN

/-! ### Real numbers -/

/-- A real number: exact, n/d with d > 0, or FLO bits. -/
inductive RealN where
  | ex (n : Int) (d : Nat)
  | fl (b : Nat)
  deriving DecidableEq, Repr

/-- An exact fraction in lowest terms. -/
def mkEx (n : Int) (d : Nat) : RealN :=
  let g := Nat.gcd n.natAbs d
  if g = 0 then .ex n d else .ex (n / (g : Int)) (d / g)

/-- Conversion of R89 to binary64. -/
def RealN.toFl (x : RealN) : Nat :=
  match x with
  | .ex n d => if n = 0 then fpZero false else roundRat (decide (n < 0)) n.natAbs d
  | .fl b => b

/-- An operation by the contagion of R89: exact on exact operands, otherwise binary64. -/
def RealN.op (ex : Int → Nat → Int → Nat → RealN) (fl : Nat → Nat → Nat) (x y : RealN) : RealN :=
  match x, y with
  | .ex a b, .ex c d => ex a b c d
  | _, _ => .fl (fl x.toFl y.toFl)

def RealN.add : RealN → RealN → RealN := RealN.op (fun a b c d => mkEx (a * d + c * b) (b * d)) fpAdd
def RealN.sub : RealN → RealN → RealN := RealN.op (fun a b c d => mkEx (a * d - c * b) (b * d)) fpSub
def RealN.mul : RealN → RealN → RealN := RealN.op (fun a b c d => mkEx (a * c) (b * d)) fpMul
def RealN.div : RealN → RealN → RealN :=
  RealN.op (fun a b c d => mkEx (a * d * c.sign) (b * c.natAbs)) fpDiv
/-- Negation and absolute value; a NaN is delivered quieted (R92). -/
def RealN.neg (x : RealN) : RealN :=
  match x with
  | .ex n d => .ex (-n) d
  | .fl b => .fl ((firstNaN [b]).getD (fpNeg b))
def RealN.abs (x : RealN) : RealN :=
  match x with
  | .ex n d => .ex n.natAbs d
  | .fl b => .fl ((firstNaN [b]).getD (b % 2 ^ 63))

/-- The number is an exact zero. -/
def RealN.exZero (x : RealN) : Bool := match x with | .ex 0 _ => true | _ => false

/-- The number is zero. -/
def RealN.isZero (x : RealN) : Bool :=
  match x with
  | .ex n _ => n == 0
  | .fl b => b % 2 ^ 63 == 0

/-- The number is a NaN. -/
def RealN.isNaN (x : RealN) : Bool := match x with | .fl b => (match fpOf b with | .nan _ => true | _ => false) | _ => false

/-- Exact comparison of two reals that are not NaN (R95): less, equal, greater. -/
def RealN.cmp (x y : RealN) : Ordering :=
  let rank (v : RealN) : Int := match v with
    | .fl b => (match fpOf b with | .inf p => if p then -1 else 1 | _ => 0)
    | _ => 0
  let frac (v : RealN) : Int × Nat := match v with
    | .ex n d => (n, d)
    | .fl b => (match fpOf b with | .fin p m e => (signed p (m * pow2Num e), pow2Den e) | _ => (0, 1))
  if rank x ≠ rank y then compare (rank x) (rank y)
  else if rank x ≠ 0 then .eq
  else compare ((frac x).1 * (frac y).2) ((frac y).1 * (frac x).2)

/-! ### Complex numbers -/

/-- A number: a real part, and an imaginary part for a CPX. -/
structure NumV where
  re : RealN
  im : Option RealN := none
  deriving DecidableEq, Repr

/-- Canonical form (R38, R89): an exact-zero imaginary part is dropped; a FLO part makes both FLO. -/
def NumV.canon (x : NumV) : NumV :=
  match x.im with
  | none => x
  | some i =>
    if i.exZero then { re := x.re }
    else match x.re, i with
      | .fl _, .ex _ _ => { re := x.re, im := some (.fl i.toFl) }
      | .ex _ _, .fl _ => { re := .fl x.re.toFl, im := some i }
      | _, _ => x

/-- The contagion of R89 over all parts of both operands: a FLO part anywhere makes every part FLO. -/
def contagion (x y : NumV) : NumV × NumV :=
  let isFl (r : RealN) : Bool := match r with | .fl _ => true | _ => false
  let any := isFl x.re || (x.im.map isFl).getD false || isFl y.re || (y.im.map isFl).getD false
  let cv (v : NumV) : NumV := { re := .fl v.re.toFl, im := v.im.map (fun i => .fl i.toFl) }
  if any then (cv x, cv y) else (x, y)

/-- The parts of a sum, a term of exact zero omitted (R550). -/
def optAdd (f : RealN → RealN → RealN) (g : RealN → RealN) (x y : Option RealN) : Option RealN :=
  match x, y with
  | some a, some b => some (f a b)
  | some a, none => some a
  | none, some b => some (g b)
  | none, none => none

/-- ADD and SUB (R550). -/
def NumV.add (x y : NumV) : NumV :=
  if x.im.isNone && y.im.isNone then { re := x.re.add y.re }
  else
    let (x, y) := contagion x y
    ({ re := x.re.add y.re, im := optAdd RealN.add id x.im y.im } : NumV).canon

def NumV.sub (x y : NumV) : NumV :=
  if x.im.isNone && y.im.isNone then { re := x.re.sub y.re }
  else
    let (x, y) := contagion x y
    ({ re := x.re.sub y.re, im := optAdd RealN.sub RealN.neg x.im y.im } : NumV).canon

/-- MUL (R550). -/
def NumV.mul (x y : NumV) : NumV :=
  match x.im, y.im with
  | none, none => { re := x.re.mul y.re }
  | _, _ =>
    let (x, y) := contagion x y
    match x.im, y.im with
    | some b, some d => ({ re := (x.re.mul y.re).sub (b.mul d), im := some ((x.re.mul d).add (b.mul y.re)) } : NumV).canon
    | some b, none => ({ re := x.re.mul y.re, im := some (b.mul y.re) } : NumV).canon
    | none, some d => ({ re := x.re.mul y.re, im := some (x.re.mul d) } : NumV).canon
    | none, none => { re := x.re.mul y.re }

/-- DIV (R550). -/
def NumV.div (x y : NumV) : NumV :=
  match x.im, y.im with
  | none, none => { re := x.re.div y.re }
  | _, _ =>
    let (x, y) := contagion x y
    let a := x.re
    let c := y.re
    match x.im, y.im with
    | some b, some d =>
      let q := (c.mul c).add (d.mul d)
      ({ re := ((a.mul c).add (b.mul d)).div q, im := some (((b.mul c).sub (a.mul d)).div q) } : NumV).canon
    | some b, none => ({ re := a.div c, im := some (b.div c) } : NumV).canon
    | none, some d =>
      let q := (c.mul c).add (d.mul d)
      ({ re := (a.mul c).div q, im := some ((a.mul d).neg.div q) } : NumV).canon
    | none, none => { re := a.div c }

def NumV.neg (x : NumV) : NumV := { re := x.re.neg, im := x.im.map RealN.neg }

/-- INC and DEC: the imaginary part is unchanged (R550). -/
def NumV.addOne (x : NumV) (d : Int) : NumV :=
  ({ re := x.re.add (.ex d 1), im := x.im } : NumV).canon

/-- = (R95): numerically equal, false with a NaN. -/
def NumV.eqv (x y : NumV) : Bool :=
  let eq (a b : RealN) : Bool := !a.isNaN && !b.isNaN && a.cmp b == .eq
  eq x.re y.re && eq (x.im.getD (.ex 0 1)) (y.im.getD (.ex 0 1))

/-! ### Integers -/

/-- Truncated and floored division (R88). -/
def intQuo (a b : Int) : Int := a.tdiv b
def intRem (a b : Int) : Int := a.tmod b
def intMod (a b : Int) : Int := a.fmod b

/-- a × 2^n, floored for n < 0 (ASH). -/
def ashInt (a : Int) (n : Int) : Int := if 0 ≤ n then a * 2 ^ n.toNat else a / 2 ^ (Nat.min (-n).toNat (a.natAbs.log2 + 2))

/-- The integer lies in the FIX range. -/
def inFix (n : Int) : Bool := decide (-(2 ^ 63 : Int) ≤ n) && decide (n < (2 ^ 63 : Int))

/-- Fewest 64-bit limbs that hold an integer in two's complement (R34, R38). -/
def limbsFor (n : Int) : Nat :=
  let m := if n < 0 then (-n - 1).natAbs else n.natAbs
  if m = 0 then 1 else (m.log2 + 1) / 64 + 1

/-- The limbs of an integer, least significant first. -/
def limbs (n : Int) : List W64 := (List.range (limbsFor n)).map (fun i => BitVec.ofInt 64 (n / 2 ^ (64 * i)))

/-- The integer of limbs, two's complement. -/
def ofLimbs (l : List W64) : Int :=
  let u := l.foldr (fun w (a : Nat) => a * 2 ^ 64 + w.toNat) 0
  let n := 2 ^ (64 * l.length)
  if n ≤ 2 * u then (u : Int) - n else u

end Sys2Proof.Machine
end

