-- ==== Sys2Proof/Machine/Generic.lean ====
section
/-! DEFINITION. Shared by the generic operations: numbers in memory (R34, R38), canonical results, the dispatch of R44,
R91 and R168, and the frame of a generic instruction with its FIX × FIX fast path. -/

namespace Sys2Proof.Machine

open Sys2Proof

/-- Read n limbs at a va. -/
def readLimbs (n a : Nat) : M (List W64) :=
  match n with
  | 0 => pure []
  | n + 1 => do
    let w ← load a false
    checkMem w a
    let l ← readLimbs n (a + 1)
    pure (w.datum :: l)

/-- The header of a number object whose layout must fit its type (R39). -/
def numHdr (w : TWord) : M (Nat × TWord) := objHdr w 15 false

/-- The integer of a FIX or BIG word. -/
def readInt (w : TWord) : M Int :=
  if ty w == tBIG then do
    let (a, h) ← numHdr w
    let l ← readLimbs (hdrLen h) (a + 1)
    pure (ofLimbs l)
  else pure (fixVal w)

/-- A part of a RAT: FIX or BIG, otherwise the number is malformed (R38). -/
def readPart (a : Nat) : M Int := do
  let w ← load a false
  check [{ w := w, pos := 15, addr := a, deref := ty w == tBIG, ok := ty w == tFIX || ty w == tBIG }]
  readInt w

/-- A real number: FIX, FLO, BIG or RAT. -/
def readReal (w : TWord) : M RealN :=
  if ty w == tFLO then pure (.fl w.datum.toNat)
  else if ty w == tRAT then do
    let (a, _) ← numHdr w
    let n ← readPart (a + 1)
    let d ← readPart (a + 2)
    if d = 0 then do
      let z ← load (a + 2) false
      memFault sWRONG z (a + 2)
    else pure (mkEx (n * d.sign) d.natAbs)
  else do
    let n ← readInt w
    pure (.ex n 1)

/-- A part of a CPX: a number other than a CPX (R38). -/
def readCpxPart (a : Nat) : M RealN := do
  let w ← load a false
  let t := ty w
  check [{ w := w, pos := 15, addr := a, deref := t == tBIG || t == tRAT, ok := t == tFIX || t == tFLO || t == tBIG || t == tRAT }]
  readReal w

/-- Any number. -/
def readNum (w : TWord) : M NumV :=
  if ty w == tCPX then do
    let (a, _) ← numHdr w
    let re ← readCpxPart (a + 1)
    let im ← readCpxPart (a + 2)
    pure { re := re, im := some im }
  else do
    let r ← readReal w
    pure { re := r }

/-- The canonical word of an integer (R38). -/
def writeInt (n : Int) : M TWord :=
  if inFix n then pure (fixI n) else allocObj tBIG 0 ((limbs n).map (fun d => (⟨0, d⟩ : TWord)))

/-- The canonical word of a real. -/
def writeReal (x : RealN) : M TWord :=
  match x with
  | .fl b => pure (floN b)
  | .ex n d =>
    if d ≤ 1 then writeInt n
    else do
      let a ← writeInt n
      let b ← writeInt d
      allocObj tRAT 0 [a, b]

/-- The canonical word of a number. -/
def writeNum (x : NumV) : M TWord :=
  match x.im with
  | none => writeReal x.re
  | some i => do
    let a ← writeReal x.re
    let b ← writeReal i
    allocObj tCPX 0 [a, b]

/-! ### Which operands are accepted (R88, R95) -/

def accNum (t : Nat) : Bool := t == tFIX || t == tFLO || t == tBIG || t == tRAT || t == tCPX
def accReal (t : Nat) : Bool := t == tFIX || t == tFLO || t == tBIG || t == tRAT
def accIntFlo (t : Nat) : Bool := t == tFIX || t == tFLO || t == tBIG
def accInt (t : Nat) : Bool := t == tFIX || t == tBIG
def accFix (t : Nat) : Bool := t == tFIX
def accAny (_ : Nat) : Bool := true

/-- Operand checks of a generic operation, `accs` by position. -/
def genOpds (accs : List (Nat → Bool)) (l : List TWord) : List Opd :=
  (l.zipIdx).map (fun x => { w := x.1, pos := x.2, deref := dclass (ty x.1) == 2, ok := (accs.getD x.2 accAny) (ty x.1) })

/-- The dispatch entry of a generic operation for its operands (R91, R167): one operand has class(S1) 7. -/
def pairIndex (g : Nat) (l : List TWord) : Nat :=
  g * 64 + (match l with | _ :: s1 :: _ => dclass (ty s1) | _ => 7) * 8 + dclass (ty (opd l 0))

/-- A generic operation (R44, R88): the FIX × FIX fast path `fast` of class `d`, and otherwise the dispatch: a CUSTOM
operand enters the customer region, an entry that an image has loaded its routine (R168, R175), an operand that is not accepted raises
WRONGTYPE, and `slow` computes the result. -/
def genericIns (g syl n d : Nat) (accs : List (Nat → Bool)) (fast : List TWord → Option TWord)
    (slow : List TWord → M TWord) : Ins :=
  { sig := { syl := syl, rd := n, takes := n, leaves := 1 }
    body := fun l => do
     let k ← getCore
     if k.micro.isSome then microEnter 0 syl
     else do
      let cust := l.any (fun w => isCustom (ty w))
      match (if l.all (fun w => ty w == tFIX) then fast l else none) with
      | some w => pure { push := [w], delay := d }
      | none => do
        microPrep
        check (plain 0 l)
        let e ← bankWord (fun s c => s.dword c (pairIndex g l))
        let loaded ← askS (fun s c => ((s.cluster (clusterOf c)).bank (c % 2 == 1)).defines (pairIndex g l))
        if loaded && nbits e 15 15 == 1 then do
          let o ← microEnter (nbits e 13 0) syl
          pure o
        else do
          check (genOpds (if cust then accs.map (fun f t => f t && !(isCustom t)) else accs) l)
          let w ← slow l
          pure { push := [w], delay := 1 } }

/-- Numbers of two operands, left (S1) first. -/
def readTwo (l : List TWord) : M (NumV × NumV) := do
  let y ← readNum (opd l 0)
  let x ← readNum (opd l 1)
  pure (x, y)

/-- Integers of two FIX operands, left first. -/
def fixTwo (l : List TWord) : Int × Int := (fixVal (opd l 1), fixVal (opd l 0))

/-- A FIX result in range. -/
def fixRes (n : Int) : Option TWord := if inFix n then some (fixI n) else none

/-- An exact zero divisor (R90): type fault WRONGTYPE naming position 0. -/
def zeroDiv {α : Type} (l : List TWord) : M α := typeFault sWRONG (opd l 0) 0

/-- A number with a FLO part. -/
def NumV.hasFlo (x : NumV) : Bool :=
  (match x.re with | .fl _ => true | _ => false) || (match x.im with | some (.fl _) => true | _ => false)

end Sys2Proof.Machine
end

