-- ==== Sys2Proof/Machine/Arith.lean ====
section
/-! DEFINITION. Generic arithmetic and logic (R88-R91, R550, R551), fixnum and float instructions (R93). -/

namespace Sys2Proof.Machine

open Sys2Proof

/-- A generic operation of two numbers by a total function. -/
def slowNum (f : NumV → NumV → NumV) (l : List TWord) : M TWord := do
  let (x, y) ← readTwo l
  writeNum (f x.canon y.canon)

/-- ADD (R88). -/
def iAdd : Ins := genericIns 0 0x1000 2 1 [accNum, accNum] (fun l => fixRes ((fixTwo l).1 + (fixTwo l).2)) (slowNum NumV.add)
def execAdd (c : Fin 256) (s : State) : Ans := .next (issue c iAdd s)

/-- SUB (R88). -/
def iSub : Ins := genericIns 1 0x1001 2 1 [accNum, accNum] (fun l => fixRes ((fixTwo l).1 - (fixTwo l).2)) (slowNum NumV.sub)
def execSub (c : Fin 256) (s : State) : Ans := .next (issue c iSub s)

/-- MUL (R88): class 4 on the fast path. -/
def iMul : Ins := genericIns 2 0x1002 2 4 [accNum, accNum] (fun l => fixRes ((fixTwo l).1 * (fixTwo l).2)) (slowNum NumV.mul)
def execMul (c : Fin 256) (s : State) : Ans := .next (issue c iMul s)

/-- The slow path of DIV (R88, R90, R550). -/
def slowDiv (l : List TWord) : M TWord := do
  let (x, y) ← readTwo l
  let x := x.canon
  let y := y.canon
  if y.re.exZero && y.im.isNone && !x.hasFlo then zeroDiv l else writeNum (x.div y)

/-- DIV (R88): exact when both are exact. -/
def iDiv : Ins := genericIns 3 0x1003 2 1 [accNum, accNum]
  (fun l =>
    let (x, y) := fixTwo l
    if y ≠ 0 ∧ x % y = 0 then fixRes (x / y) else none) slowDiv
def execDiv (c : Fin 256) (s : State) : Ans := .next (issue c iDiv s)

/-- The slow path of QUO, MOD and REM (R88, R551). -/
def slowIntDiv (fi : Int → Int → Int) (ff : Nat → Nat → Nat) (l : List TWord) : M TWord := do
  let y ← readReal (opd l 0)
  let x ← readReal (opd l 1)
  match x, y with
  | .ex a _, .ex b _ => if b = 0 then zeroDiv l else writeInt (fi a b)
  | _, _ => pure (floN (ff x.toFl y.toFl))

/-- The divider on FIX × FIX: none on a zero divisor or an overflow. -/
def fastIntDiv (fi : Int → Int → Int) (l : List TWord) : Option TWord :=
  let (x, y) := fixTwo l
  if y = 0 then none else fixRes (fi x y)

/-- QUO (R88). -/
def iQuo : Ins := genericIns 4 0x1004 2 1 [accIntFlo, accIntFlo] (fastIntDiv intQuo) (slowIntDiv intQuo fpQuo)
def execQuo (c : Fin 256) (s : State) : Ans := .next (issue c iQuo s)

/-- MOD (R88). -/
def iMod : Ins := genericIns 5 0x1005 2 1 [accIntFlo, accIntFlo] (fastIntDiv intMod) (slowIntDiv intMod fpMod)
def execMod (c : Fin 256) (s : State) : Ans := .next (issue c iMod s)

/-- REM (R88). -/
def iRem : Ins := genericIns 6 0x1006 2 1 [accIntFlo, accIntFlo] (fastIntDiv intRem) (slowIntDiv intRem fpRem)
def execRem (c : Fin 256) (s : State) : Ans := .next (issue c iRem s)

/-- A generic operation of one number. -/
def slowOne (f : NumV → NumV) (l : List TWord) : M TWord := do
  let x ← readNum (opd l 0)
  writeNum (f x.canon)

/-- NEG (R88). -/
def iNeg : Ins := genericIns 7 0x1007 1 1 [accNum] (fun l => fixRes (-(fixVal (opd l 0)))) (slowOne NumV.neg)
def execNeg (c : Fin 256) (s : State) : Ans := .next (issue c iNeg s)

/-- ABS (R88). -/
def iAbs : Ins := genericIns 8 0x1008 1 1 [accReal] (fun l => fixRes (fixVal (opd l 0)).natAbs)
  (slowOne (fun x => { re := x.re.abs }))
def execAbs (c : Fin 256) (s : State) : Ans := .next (issue c iAbs s)

/-- INC (R88). -/
def iInc : Ins := genericIns 9 0x1009 1 1 [accNum] (fun l => fixRes (fixVal (opd l 0) + 1)) (slowOne (fun x => x.addOne 1))
def execInc (c : Fin 256) (s : State) : Ans := .next (issue c iInc s)

/-- DEC (R88). -/
def iDec : Ins := genericIns 10 0x100A 1 1 [accNum] (fun l => fixRes (fixVal (opd l 0) - 1)) (slowOne (fun x => x.addOne (-1)))
def execDec (c : Fin 256) (s : State) : Ans := .next (issue c iDec s)

/-- The slow path of AND, OR and XOR. -/
def slowBits (f : Int → Int → Int) (l : List TWord) : M TWord := do
  let y ← readInt (opd l 0)
  let x ← readInt (opd l 1)
  writeInt (f x y)

/-- AND (R88). -/
def iAnd : Ins := genericIns 11 0x1010 2 1 [accInt, accInt] (fun l => some (fixW ((opd l 1).datum &&& (opd l 0).datum))) (slowBits Int.land)
def execAnd (c : Fin 256) (s : State) : Ans := .next (issue c iAnd s)

/-- OR (R88). -/
def iOr : Ins := genericIns 12 0x1011 2 1 [accInt, accInt] (fun l => some (fixW ((opd l 1).datum ||| (opd l 0).datum))) (slowBits Int.lor)
def execOr (c : Fin 256) (s : State) : Ans := .next (issue c iOr s)

/-- XOR (R88). -/
def iXor : Ins := genericIns 13 0x1012 2 1 [accInt, accInt] (fun l => some (fixW ((opd l 1).datum ^^^ (opd l 0).datum))) (slowBits Int.xor)
def execXor (c : Fin 256) (s : State) : Ans := .next (issue c iXor s)

/-- NOT (R88). -/
def iNot : Ins := genericIns 14 0x1013 1 1 [accInt] (fun l => some (fixW (~~~(opd l 0).datum)))
  (fun l => do
    let x ← readInt (opd l 0)
    writeInt (-x - 1))
def execNot (c : Fin 256) (s : State) : Ans := .next (issue c iNot s)

/-- A left shift that R89 refuses: more than 65,536 bits of a non-zero integer. -/
def ashBad (x n : Int) : Bool := decide (65536 < n) && x != 0

/-- ASH (R88, R89). -/
def iAsh : Ins := genericIns 15 0x1014 2 1 [accFix, accInt]
  (fun l =>
    let (x, n) := fixTwo l
    if ashBad x n then none else if 64 < n && x != 0 then none else fixRes (if x = 0 then 0 else ashInt x n))
  (fun l => do
    let n := fixVal (opd l 0)
    let x ← readInt (opd l 1)
    if ashBad x n then typeFault sWRONG (opd l 0) 0 else writeInt (if x = 0 then 0 else ashInt x n))
def execAsh (c : Fin 256) (s : State) : Ans := .next (issue c iAsh s)

/-- LSH on datums (R89). -/
def lshDatum (d : W64) (n : Int) : W64 :=
  if 64 ≤ n.natAbs then 0 else if 0 ≤ n then d <<< n.toNat else d >>> (-n).toNat

/-- LSH (R88, R89): FIX only, hardwired. -/
def iLsh : Ins :=
  { sig := { syl := 0x1015, rd := 2, takes := 2, leaves := 1 }
    body := fun l => do
      check [{ w := opd l 0, pos := 0, ok := ty (opd l 0) == tFIX }, { w := opd l 1, pos := 1, ok := ty (opd l 1) == tFIX }]
      pure { push := [fixW (lshDatum (opd l 1).datum (fixVal (opd l 0)))] } }
def execLsh (c : Fin 256) (s : State) : Ans := .next (issue c iLsh s)

/-- The operand that MAX (`want` .gt) or MIN (`want` .lt) returns (R89). -/
def pickMax (want : Ordering) (l : List TWord) : M TWord := do
  let s0 ← (if ty (opd l 0) == tBIG || ty (opd l 0) == tRAT then resolve (opd l 0) else pure (opd l 0))
  let s1 ← (if ty (opd l 1) == tBIG || ty (opd l 1) == tRAT then resolve (opd l 1) else pure (opd l 1))
  let y ← readReal s0
  let x ← readReal s1
  if x.isNaN then pure s1
  else if y.isNaN then pure s0
  else if y.cmp x == want then pure s0
  else pure s1

/-- MAX (R88, R89). -/
def iMax : Ins := genericIns 16 0x1018 2 1 [accReal, accReal]
  (fun l => some (if (fixTwo l).1 < (fixTwo l).2 then opd l 0 else opd l 1)) (pickMax .gt)
def execMax (c : Fin 256) (s : State) : Ans := .next (issue c iMax s)

/-- MIN (R88, R89). -/
def iMin : Ins := genericIns 17 0x1019 2 1 [accReal, accReal]
  (fun l => some (if (fixTwo l).2 < (fixTwo l).1 then opd l 0 else opd l 1)) (pickMax .lt)
def execMin (c : Fin 256) (s : State) : Ans := .next (issue c iMin s)

/-! ### FIX.* and FLO.* (R93) -/

/-- Operands that must all have one type. -/
def sameOpds (t : Nat) (l : List TWord) : List Opd := (l.zipIdx).map (fun x => { w := x.1, pos := x.2, ok := ty x.1 == t })

/-- An instruction of n operands of one type and one result. -/
def typedIns (syl n d t : Nat) (micro : Bool) (f : List TWord → TWord) : Ins :=
  { sig := { syl := syl, rd := n, takes := n, leaves := 1, micro := micro }
    body := fun l => do
      check (sameOpds t l)
      pure { push := [f l], delay := d } }

/-- FIX.ADD (R93). -/
def iFixAdd : Ins := typedIns 0x1100 2 1 tFIX false (fun l => fixW ((opd l 1).datum + (opd l 0).datum))
def execFixAdd (c : Fin 256) (s : State) : Ans := .next (issue c iFixAdd s)

/-- FIX.SUB (R93). -/
def iFixSub : Ins := typedIns 0x1101 2 1 tFIX false (fun l => fixW ((opd l 1).datum - (opd l 0).datum))
def execFixSub (c : Fin 256) (s : State) : Ans := .next (issue c iFixSub s)

/-- FIX.MUL (R93): class 4. -/
def iFixMul : Ins := typedIns 0x1102 2 4 tFIX false (fun l => fixW ((opd l 1).datum * (opd l 0).datum))
def execFixMul (c : Fin 256) (s : State) : Ans := .next (issue c iFixMul s)

/-- FIX.QUO and FIX.REM: a zero divisor raises WRONGTYPE naming position 0 (R90). -/
def fixDivIns (syl : Nat) (f : Int → Int → Int) : Ins :=
  { sig := { syl := syl, rd := 2, takes := 2, leaves := 1, micro := true }
    body := fun l => do
      check (sameOpds tFIX l)
      if (fixTwo l).2 = 0 then zeroDiv l else pure { push := [fixI (f (fixTwo l).1 (fixTwo l).2)] } }

/-- FIX.QUO (R93). -/
def iFixQuo : Ins := fixDivIns 0x1103 intQuo
def execFixQuo (c : Fin 256) (s : State) : Ans := .next (issue c iFixQuo s)

/-- FIX.REM (R93). -/
def iFixRem : Ins := fixDivIns 0x1104 intRem
def execFixRem (c : Fin 256) (s : State) : Ans := .next (issue c iFixRem s)

/-- FIX.AND (R93). -/
def iFixAnd : Ins := typedIns 0x1105 2 1 tFIX false (fun l => fixW ((opd l 1).datum &&& (opd l 0).datum))
def execFixAnd (c : Fin 256) (s : State) : Ans := .next (issue c iFixAnd s)

/-- FIX.OR (R93). -/
def iFixOr : Ins := typedIns 0x1106 2 1 tFIX false (fun l => fixW ((opd l 1).datum ||| (opd l 0).datum))
def execFixOr (c : Fin 256) (s : State) : Ans := .next (issue c iFixOr s)

/-- FIX.XOR (R93). -/
def iFixXor : Ins := typedIns 0x1107 2 1 tFIX false (fun l => fixW ((opd l 1).datum ^^^ (opd l 0).datum))
def execFixXor (c : Fin 256) (s : State) : Ans := .next (issue c iFixXor s)

/-- FIX.SHL (R93). -/
def iFixShl : Ins := typedIns 0x1108 2 1 tFIX false (fun l => fixW ((opd l 1).datum <<< bits (opd l 0).datum 5 0))
def execFixShl (c : Fin 256) (s : State) : Ans := .next (issue c iFixShl s)

/-- FIX.SHR (R93). -/
def iFixShr : Ins := typedIns 0x1109 2 1 tFIX false (fun l => fixW ((opd l 1).datum.sshiftRight (bits (opd l 0).datum 5 0)))
def execFixShr (c : Fin 256) (s : State) : Ans := .next (issue c iFixShr s)

/-- FLO operands as bits, deepest first. -/
def flo (l : List TWord) (i : Nat) : Nat := (opd l i).datum.toNat

/-- FLO.ADD (R93). -/
def iFloAdd : Ins := typedIns 0x1200 2 4 tFLO false (fun l => floN (fpAdd (flo l 1) (flo l 0)))
def execFloAdd (c : Fin 256) (s : State) : Ans := .next (issue c iFloAdd s)

/-- FLO.SUB (R93). -/
def iFloSub : Ins := typedIns 0x1201 2 4 tFLO false (fun l => floN (fpSub (flo l 1) (flo l 0)))
def execFloSub (c : Fin 256) (s : State) : Ans := .next (issue c iFloSub s)

/-- FLO.MUL (R93). -/
def iFloMul : Ins := typedIns 0x1202 2 4 tFLO false (fun l => floN (fpMul (flo l 1) (flo l 0)))
def execFloMul (c : Fin 256) (s : State) : Ans := .next (issue c iFloMul s)

/-- FLO.DIV (R93). -/
def iFloDiv : Ins := typedIns 0x1203 2 1 tFLO true (fun l => floN (fpDiv (flo l 1) (flo l 0)))
def execFloDiv (c : Fin 256) (s : State) : Ans := .next (issue c iFloDiv s)

/-- FLO.SQRT (R93). -/
def iFloSqrt : Ins := typedIns 0x1204 1 1 tFLO true (fun l => floN (fpSqrt (flo l 0)))
def execFloSqrt (c : Fin 256) (s : State) : Ans := .next (issue c iFloSqrt s)

/-- FLO.FMA (R93): class 5. -/
def iFloFma : Ins := typedIns 0x1205 3 5 tFLO false (fun l => floN (fpFma (flo l 2) (flo l 1) (flo l 0)))
def execFloFma (c : Fin 256) (s : State) : Ans := .next (issue c iFloFma s)

/-- FLO.CVT (R93). -/
def iFloCvt : Ins := typedIns 0x1206 1 1 tFIX false (fun l => floN (fpOfInt (fixVal (opd l 0))))
def execFloCvt (c : Fin 256) (s : State) : Ans := .next (issue c iFloCvt s)

/-- FLO.TRUNC (R93). -/
def iFloTrunc : Ins := typedIns 0x1207 1 1 tFLO false (fun l => fixI (fpTrunc (flo l 0)))
def execFloTrunc (c : Fin 256) (s : State) : Ans := .next (issue c iFloTrunc s)

end Sys2Proof.Machine
end

