-- ==== Sys2Proof/Machine/Bar.lean ====
section
/-! DEFINITION. Host access to I/O registers through BAR2 (R392). -/

namespace Sys2Proof.Machine

open Sys2Proof

/-- The io address of a byte offset in BAR2, through an enabled slice (R392). -/
def State.pwinAddr (s : State) (off : Nat) : Option Nat :=
  let i := off / 2 ^ 22
  let a := bits (s.reg .HOST_PWIN i) 31 0 + off % 2 ^ 22 / 8
  if 16 ≤ i || !(s.flag f_HOST_PWIN_EN i) || a < 0x20000 || 0x100000000 ≤ a then none else some a

/-- A refused access through BAR2 is counted and completed as an unsupported request (R392). -/
def State.pwinRefuse (s : State) : State := (s.bump .HOST_PWREF 0 1).answerHost 1 []

/-- BAR2_ACCESS (R392, R451): a read, or a write of a value, as a House supervisor. -/
def execBar2Access (off : BitVec 26) (wr : Bool) (v : BitVec 64) (s : State) : Ans :=
  .next (if !s.barUp then s
  else
    match s.pwinAddr off.toNat with
    | none => s.pwinRefuse
    | some a =>
      if wr && s.flag f_HOST_PWIN_RO (off.toNat / 2 ^ 22) then s.pwinRefuse
      else
        match s.ioTarget none false true wr a with
        | .inl _ => s.pwinRefuse
        | .inr (row, i) =>
          if wr then (s.ioWrite none false row i v).answerHost 0 []
          else s.answerHost 0 [(s.ioValue row i false).toNat])

end Sys2Proof.Machine
end

