-- ==== Sys2Proof/Machine/Compare.lean ====
section
/-! DEFINITION. Comparisons and predicates (R94, R95). -/

namespace Sys2Proof.Machine

open Sys2Proof

/-- EQ (R94): it consumes both words. -/
def iEq : Ins :=
  { sig := { syl := 0x2000, rd := 2, takes := 2, leaves := 1 }
    body := fun l => do
      check (plain 0 l)
      pure { push := [wBool (eqWord (opd l 1) (opd l 0))] } }
def execEq (c : Fin 256) (s : State) : Ans := .next (issue c iEq s)

/-- Two BIG objects with the same limbs. -/
def sameBig (x y : TWord) : M Bool := do
  let (a, h) ← numHdr x
  let (b, g) ← numHdr y
  if hdrLen h ≠ hdrLen g then pure false
  else do
    let l ← readLimbs (hdrLen h) (a + 1)
    let m ← readLimbs (hdrLen g) (b + 1)
    pure (l == m)

/-- EQL of two words that are not RAT or CPX (R94). -/
def eqlFlat (x y : TWord) : M Bool :=
  if eqWord x y then pure true
  else if ty x == tBIG && ty y == tBIG then sameBig x y
  else pure false

/-- A part of a number that EQL compares: it is consumed, and a BIG or RAT is dereferenced (R26, R42). -/
def partOpd (w : TWord) (a : Nat) : Opd := { w := w, pos := 15, addr := a, deref := dclass (ty w) == 2 }

/-- The words at +1 and +2 of two RAT or CPX objects, compared by `f`. -/
def eqlParts (f : TWord → TWord → M Bool) (x y : TWord) : M Bool := do
  let (a, _) ← numHdr x
  let (b, _) ← numHdr y
  let x1 ← load (a + 1) false
  let y1 ← load (b + 1) false
  check [partOpd x1 (a + 1), partOpd y1 (b + 1)]
  let p ← f x1 y1
  if !p then pure false
  else do
    let x2 ← load (a + 2) false
    let y2 ← load (b + 2) false
    check [partOpd x2 (a + 2), partOpd y2 (b + 2)]
    f x2 y2

/-- EQL of two words that are not CPX. -/
def eqlRat (x y : TWord) : M Bool :=
  if eqWord x y then pure true
  else if ty x == tRAT && ty y == tRAT then eqlParts eqlFlat x y
  else eqlFlat x y

/-- EQL (R94): EQ, or BIG with the same limbs, or RAT or CPX with EQL parts. -/
def eql (x y : TWord) : M Bool :=
  if eqWord x y then pure true
  else if ty x == tCPX && ty y == tCPX then eqlParts eqlRat x y
  else eqlRat x y

/-- EQL accepts every tag (R95). -/
def iEql : Ins := genericIns 18 0x2001 2 1 [accAny, accAny] (fun l => some (wBool (eqWord (opd l 1) (opd l 0))))
  (fun l => do
    let b ← eql (opd l 1) (opd l 0)
    pure (wBool b))
def execEql (c : Fin 256) (s : State) : Ans := .next (issue c iEql s)

/-- A comparison of two numbers. -/
def slowCmp (f : NumV → NumV → Bool) (l : List TWord) : M TWord := do
  let (x, y) ← readTwo l
  pure (wBool (f x y))

/-- An order comparison (R95): false with a NaN. -/
def ordCmp (p : Ordering → Bool) (x y : NumV) : Bool := !x.re.isNaN && !y.re.isNaN && p (x.re.cmp y.re)

/-- An order comparison instruction (R94, R95). -/
def cmpIns (g syl : Nat) (fast : Int → Int → Bool) (p : Ordering → Bool) : Ins :=
  genericIns g syl 2 1 [accReal, accReal] (fun l => some (wBool (fast (fixTwo l).1 (fixTwo l).2))) (slowCmp (ordCmp p))

/-- = (R94, R95). -/
def iNumEqual : Ins := genericIns 19 0x2002 2 1 [accNum, accNum]
  (fun l => some (wBool (decide ((fixTwo l).1 = (fixTwo l).2)))) (slowCmp NumV.eqv)
def execNumEqual (c : Fin 256) (s : State) : Ans := .next (issue c iNumEqual s)

/-- < (R94). -/
def iNumLess : Ins := cmpIns 20 0x2003 (fun x y => decide (x < y)) (fun o => o == .lt)
def execNumLess (c : Fin 256) (s : State) : Ans := .next (issue c iNumLess s)

/-- > (R94). -/
def iNumGreater : Ins := cmpIns 21 0x2004 (fun x y => decide (y < x)) (fun o => o == .gt)
def execNumGreater (c : Fin 256) (s : State) : Ans := .next (issue c iNumGreater s)

/-- <= (R94). -/
def iNumLessEqual : Ins := cmpIns 22 0x2005 (fun x y => decide (x ≤ y)) (fun o => o != .gt)
def execNumLessEqual (c : Fin 256) (s : State) : Ans := .next (issue c iNumLessEqual s)

/-- >= (R94). -/
def iNumGreaterEqual : Ins := cmpIns 23 0x2006 (fun x y => decide (y ≤ x)) (fun o => o != .lt)
def execNumGreaterEqual (c : Fin 256) (s : State) : Ans := .next (issue c iNumGreaterEqual s)

/-- ZEROP (R94). -/
def iZerop : Ins := genericIns 24 0x2007 1 1 [accNum] (fun l => some (wBool ((opd l 0).datum == 0)))
  (fun l => do
    let x ← readNum (opd l 0)
    pure (wBool (x.re.isZero && (x.im.map RealN.isZero).getD true)))
def execZerop (c : Fin 256) (s : State) : Ans := .next (issue c iZerop s)

/-- t6 values 0x30-0x3F are reserved fields: illegal opcode, subcode 1, at decode (R71). -/
def reservedT6 (t : Nat) : Option Trap := if 0x30 ≤ t then some (tIllegal 1) else none

/-- TYPEP t (R94). -/
def iTypep (t : Nat) : Ins :=
  { sig := { syl := 0x2040 + t, rd := 1, takes := 1, leaves := 1, bad := reservedT6 t }
    body := fun l => do
      check (plain 0 l)
      pure { push := [wBool (ty (opd l 0) == t)] } }
def execTypep (c : Fin 256) (t : BitVec 6) (s : State) : Ans := .next (issue c (iTypep t.toNat) s)

/-- CHECK t (R94): the word stays, or WRONGTYPE. -/
def iCheck (t : Nat) : Ins :=
  { sig := { syl := 0x2080 + t, rd := 1, bad := reservedT6 t }
    body := fun l => do
      check [{ w := opd l 0, pos := 0, ok := ty (opd l 0) == t }]
      pure { push := [] } }
def execCheck (c : Fin 256) (t : BitVec 6) (s : State) : Ans := .next (issue c (iCheck t.toNat) s)

/-- CLASSP c (R94). -/
def iClassp (n : Nat) : Ins :=
  { sig := { syl := 0x20C0 + n, rd := 1, takes := 1, leaves := 1 }
    body := fun l => do
      check (plain 0 l)
      pure { push := [wBool (dclass (ty (opd l 0)) == n)] } }
def execClassp (c : Fin 256) (k : Fin 8) (s : State) : Ans := .next (issue c (iClassp k) s)

end Sys2Proof.Machine
end

