-- ==== Sys2Proof/Machine/Objects.lean ====
section
/-! DEFINITION. Lists and objects (R102-R104). -/

namespace Sys2Proof.Machine

open Sys2Proof

/-- The operand list of CAR and CDR: a CONS or NIL (R102); any pointer stands where one is dereferenced (R26). -/
def listOpd (w : TWord) (pos : Nat) : Opd :=
  { w := w, pos := pos, deref := true, ok := ty w == tCONS || ty w == tNIL }

/-- A CONS that is written through (R102). -/
def consOpd (w : TWord) (pos : Nat) : Opd :=
  { w := w, pos := pos, deref := true, store := true, ok := ty w == tCONS }

/-- CAR and CDR: the word at +off of a CONS, NIL of NIL. -/
def pairIns (syl off : Nat) : Ins :=
  { sig := { syl := syl, rd := 1, takes := 1, leaves := 1 }
    body := fun l => do
      let w := opd l 0
      check [listOpd w 0]
      if ty w == tNIL then pure { push := [wNIL], delay := 3 }
      else do
        let p ← resolve w 0
        let v ← load (adr p + off) true
        pure { push := [v], delay := 3 } }

/-- CAR (R102). -/
def iCar : Ins := pairIns 0x3000 0
def execCar (c : Fin 256) (s : State) : Ans := .next (issue c iCar s)

/-- CDR (R102). -/
def iCdr : Ins := pairIns 0x3001 1
def execCdr (c : Fin 256) (s : State) : Ans := .next (issue c iCdr s)

/-- CONS (R102, R104): car S1, cdr S0. -/
def iCons : Ins :=
  { sig := { syl := 0x3002, rd := 2, takes := 2, leaves := 1, depAlloc := true }
    body := fun l => do
      check [movedOpd (opd l 0) 0, movedOpd (opd l 1) 1]
      let p ← allocPair (opd l 1) (opd l 0) true
      pure { push := [p] } }
def execCons (c : Fin 256) (s : State) : Ans := .next (issue c iCons s)

/-- RPLACA and RPLACD: write S0 to +off of the CONS in S1. -/
def rplacIns (syl off : Nat) : Ins :=
  { sig := { syl := syl, rd := 2, takes := 2 }
    body := fun l => do
      check [movedOpd (opd l 0) 0, consOpd (opd l 1) 1]
      let p ← resolve (opd l 1) 1
      store (adr p + off) (opd l 0) true true
      pure { push := [] } }

/-- RPLACA (R102). -/
def iRplaca : Ins := rplacIns 0x3003 0
def execRplaca (c : Fin 256) (s : State) : Ans := .next (issue c iRplaca s)

/-- RPLACD (R102). -/
def iRplacd : Ins := rplacIns 0x3004 1
def execRplacd (c : Fin 256) (s : State) : Ans := .next (issue c iRplacd s)

/-- ALLOC ( fix1 fix2 -- ptr ) (R103). -/
def iAlloc : Ins :=
  { sig := { syl := 0x3010, rd := 2, takes := 2, leaves := 1, micro := true, depAlloc := true }
    body := fun l => do
      check [{ w := opd l 0, pos := 0, ok := ty (opd l 0) == tFIX }, { w := opd l 1, pos := 1, ok := ty (opd l 1) == tFIX }]
      let p ← allocate (opd l 1) (opd l 0)
      pure { push := [p] } }
def execAlloc (c : Fin 256) (s : State) : Ans := .next (issue c iAlloc s)

/-- An operand of a headed type. -/
def headedOpd (cu : Nat) (w : TWord) (pos : Nat) (st : Bool) : Opd :=
  { w := w, pos := pos, deref := true, store := st, ok := isHeaded cu (ty w) }

/-- A FIX operand. -/
def fixOpd (w : TWord) (pos : Nat) : Opd := { w := w, pos := pos, ok := ty w == tFIX }

/-- An index within LENGTH, or BOUNDS naming its position (R98). -/
def indexIn (w : TWord) (pos : Nat) (h : TWord) : M Nat :=
  if 0 ≤ fixVal w ∧ fixVal w < hdrLen h then pure (fixVal w).toNat else typeFault sBOUNDS w pos

/-- VREF ( obj fix -- any ) (R102). -/
def iVref : Ins :=
  { sig := { syl := 0x3011, rd := 2, takes := 2, leaves := 1 }
    body := fun l => do
      let cu ← askS (fun s c => s.cuptr c)
      check [fixOpd (opd l 0) 0, headedOpd cu (opd l 1) 1 false]
      let (a, h) ← objHdr (opd l 1) 1 true
      let i ← indexIn (opd l 0) 0 h
      let v ← load (a + 1 + i) true
      pure { push := [v], delay := 3 } }
def execVref (c : Fin 256) (s : State) : Ans := .next (issue c iVref s)

/-- Objects whose words are RAW: STR, BVEC and BIG (R102). -/
def rawBody (t : Nat) : Bool := t == tSTR || t == tBVEC || t == tBIG

/-- VSET ( obj fix any -- ) (R102): a STR, BVEC or BIG takes RAW words only. -/
def iVset : Ins :=
  { sig := { syl := 0x3012, rd := 3, takes := 3 }
    body := fun l => do
      let cu ← askS (fun s c => s.cuptr c)
      let v := opd l 0
      let vo : List Opd := if rawBody (ty (opd l 2)) then [{ w := v, pos := 0, ok := ty v == tRAW }] else []
      check (vo ++ [movedOpd v 0, fixOpd (opd l 1) 1, headedOpd cu (opd l 2) 2 true])
      let (a, h) ← objHdr (opd l 2) 2 false
      let i ← indexIn (opd l 1) 1 h
      store (a + 1 + i) v true true
      pure { push := [] } }
def execVset (c : Fin 256) (s : State) : Ans := .next (issue c iVset s)

/-- VLEN of a header: LENGTH, or the byte count of a STR or BVEC (R102). -/
def vlenOf (t : Nat) (h : TWord) : Nat :=
  if t == tSTR || t == tBVEC then 8 * hdrLen h - hdrSub h % 8 else hdrLen h

/-- VLEN ( obj -- fix ) (R102). -/
def iVlen : Ins :=
  { sig := { syl := 0x3013, rd := 1, takes := 1, leaves := 1 }
    body := fun l => do
      let cu ← askS (fun s c => s.cuptr c)
      check [headedOpd cu (opd l 0) 0 false]
      let (_, h) ← objHdr (opd l 0) 0 true
      pure { push := [fixN (vlenOf (ty (opd l 0)) h)], delay := 3 } }
def execVlen (c : Fin 256) (s : State) : Ans := .next (issue c iVlen s)

/-- A SYM operand. -/
def symOpd (w : TWord) (pos : Nat) (st : Bool) : Opd :=
  { w := w, pos := pos, deref := true, store := st, ok := ty w == tSYM }

/-- SYMVAL and SYMFN: the word at +off of a symbol. -/
def symIns (syl off : Nat) : Ins :=
  { sig := { syl := syl, rd := 1, takes := 1, leaves := 1 }
    body := fun l => do
      check [symOpd (opd l 0) 0 false]
      let (a, _) ← objHdr (opd l 0) 0 true
      let v ← load (a + off) true
      pure { push := [v], delay := 3 } }

/-- SYMVAL (R102). -/
def iSymval : Ins := symIns 0x3030 2
def execSymval (c : Fin 256) (s : State) : Ans := .next (issue c iSymval s)

/-- SYMFN (R102). -/
def iSymfn : Ins := symIns 0x3032 3
def execSymfn (c : Fin 256) (s : State) : Ans := .next (issue c iSymfn s)

/-- SYMSET ( sym any -- ) (R102). -/
def iSymset : Ins :=
  { sig := { syl := 0x3031, rd := 2, takes := 2 }
    body := fun l => do
      check [movedOpd (opd l 0) 0, symOpd (opd l 1) 1 true]
      let (a, _) ← objHdr (opd l 1) 1 false
      store (a + 2) (opd l 0) true true
      pure { push := [] } }
def execSymset (c : Fin 256) (s : State) : Ans := .next (issue c iSymset s)

end Sys2Proof.Machine
end

