-- ==== Sys2Proof/Machine/Control.lean ====
section
/-! DEFINITION. Branches, calls, returns, frames, locals, arguments and the hardware loop (R112-R126). -/

namespace Sys2Proof.Machine

open Sys2Proof

/-! ### Branches -/

/-- The target of a branch from its offset field (R65). -/
def branchTo (pc n off : Nat) : Nat := va48 ((pc : Int) + sext n off)

/-- BR ( -- ) (R112, R113). -/
def iBr (off : Nat) : Ins :=
  { sig := { syl := 0x7000 + off, wlc := true }
    body := fun _ => do
      let k ← getCore
      pure { flow := .branch (branchTo k.pc 12 off), taken := true } }
def execBr (c : Fin 256) (off : BitVec 12) (s : State) : Ans := .next (issue c (iBr off.toNat) s)

/-- A conditional branch: `ok` accepts the condition's type, `p` decides (R112). -/
def condIns (cond off : Nat) (ok p : TWord → Bool) : Ins :=
  { sig := { syl := 0x8000 + cond * 0x400 + off, rd := 1, takes := 1, wlc := true }
    body := fun l => do
      let w := opd l 0
      check [{ w := w, pos := 0, ok := ok w }]
      let k ← getCore
      pure { flow := .branch (if p w then branchTo k.pc 10 off else va48 ((k.pc : Int) + 2)), taken := p w } }

/-- BRNIL ( any -- ) (R112). -/
def iBrnil (off : Nat) : Ins := condIns 0 off (fun _ => true) (fun w => ty w == tNIL)
def execBrnil (c : Fin 256) (off : BitVec 10) (s : State) : Ans := .next (issue c (iBrnil off.toNat) s)

/-- BRT ( any -- ) (R112). -/
def iBrt (off : Nat) : Ins := condIns 1 off (fun _ => true) (fun w => ty w != tNIL)
def execBrt (c : Fin 256) (off : BitVec 10) (s : State) : Ans := .next (issue c (iBrt off.toNat) s)

/-- BRZ ( fix -- ) (R112). -/
def iBrz (off : Nat) : Ins := condIns 2 off (fun w => ty w == tFIX) (fun w => w.datum == 0)
def execBrz (c : Fin 256) (off : BitVec 10) (s : State) : Ans := .next (issue c (iBrz off.toNat) s)

/-- BRNZ ( fix -- ) (R112). -/
def iBrnz (off : Nat) : Ins := condIns 3 off (fun w => ty w == tFIX) (fun w => w.datum != 0)
def execBrnz (c : Fin 256) (off : BitVec 10) (s : State) : Ans := .next (issue c (iBrnz off.toNat) s)

/-! ### Calls -/

/-- Remove n entries from the operand stack. -/
def dropOps (n : Nat) : M Unit :=
  modMe (fun k => { k with stk := { k.stk with sp := va48 ((k.stk.sp : Int) + n), regs := k.stk.regs.drop n } })

/-- The target of CALL and TCALL (R117 checks 2 and 3): its sa, and the FUN word that stays on the stack. -/
def callTarget (t : TWord) : M (Nat × Option TWord) := do
  check [{ w := t, pos := 1, deref := ty t == tFUN, code := true, ok := ty t == tCODE || ty t == tFUN }]
  if ty t == tCODE then pure (adr t, none)
  else do
    let (q, _) ← (do
      let q ← resolve t 1
      let (a, h) ← hdrOf q false
      if hdrFits tFUN h then pure (({ q with datum := w64 a } : TWord), h) else memFault sBADHDR h a)
    let w ← load (adr q + 1) false
    check [{ w := w, pos := 15, addr := adr q + 1, code := true, ok := ty w == tCODE }]
    pure (adr w, some q)

/-- R117 check 1: the argument count, at most `max`. -/
def callCount (f : TWord) (max : Nat) : M Nat :=
  if ty f == tFIX && decide (0 ≤ fixVal f) && decide (fixVal f ≤ max) then pure f.datum.toNat else typeFault sWRONG f 0

/-- The loop save of CALL (R117): LC, LOOPLS and LOOPLE, when a loop is active. -/
def pushLoop : M Unit := do
  let k ← getCore
  if k.psw.lp then do
    cPush (fixW k.sr.lc)
    cPush (mkFrame 2 false 0 (bits k.sr.ls 47 0))
    cPush (mkFrame 3 false 0 (bits k.sr.le 47 0))
  else pure ()

/-- CALL ( x1 … xk target fix -- ) (R117). -/
def iCall : Ins :=
  { sig := { syl := 0x9000, rd := 2, wlc := true, micro := true, depCtl := true }
    body := fun l => do
      check (plain 0 [opd l 0])
      check (plain 1 [opd l 1])
      let n ← callCount (opd l 0) 255
      let (sa, fn) ← callTarget (opd l 1)
      underflow (n + 2)
      dropOps (if fn.isSome then 1 else 2)
      (match fn with
        | some q => modMe (fun k => { k with stk := { k.stk with regs := k.stk.regs.set 0 q } })
        | none => pure ())
      spillAll
      let k ← getCore
      pushLoop
      cPush (mkFrame 1 false 0 (bits k.stk.sbase 47 0))
      cPush (mkFrame 0 k.psw.lp 0 (va48 ((k.pc : Int) + 1)))
      modMe (fun k => { k with stk := { k.stk with sbase := w64 (va48 ((k.stk.sp : Int) + n + b2n fn.isSome)) },
                               psw := { k.psw with lp := false } })
      pure { flow := .jump sa } }
def execCall (c : Fin 256) (s : State) : Ans := .next (issue c iCall s)

/-- Positions from `p` on, n of them, deepest last. -/
def operandsFrom (p n : Nat) : M (List TWord) :=
  match n with
  | 0 => pure []
  | n + 1 => do
    let w ← operandAt p
    let l ← operandsFrom (p + 1) n
    pure (w :: l)

/-- Translate and check home slots that will be written (R121, R204). -/
def mayWrite (a : Nat) (n : Nat) : M Unit :=
  match n with
  | 0 => pure ()
  | n + 1 => do
    let lf ← xlate a .write
    sceneSafe lf
    target a lf true
    mayWrite (a + 1) n

/-- Store words at falling addresses: the first at a − 1. -/
def storeDown (a : Nat) : List TWord → M Unit
  | [] => pure ()
  | w :: l => do
    store (a - 1) w true false
    storeDown (a - 1) l

/-- TCALL ( x1 … xk target fix -- ) (R121, R142). -/
def iTcall : Ins :=
  { sig := { syl := 0x9001, rd := 2, wlc := true, micro := true, depCtl := true }
    body := fun l => do
      check (plain 0 [opd l 0])
      check (plain 1 [opd l 1])
      let n ← callCount (opd l 0) 16
      let (sa, fn) ← callTarget (opd l 1)
      underflow (n + 2)
      let ret ← cFrame 0 0
      landEarly
      let xs ← operandsFrom 2 n
      let k ← getCore
      let words := xs.reverse ++ fn.toList
      mayWrite (sbaseOf k - words.length) words.length
      storeDown (sbaseOf k) words
      cDrop (frameCount ret + 1)
      cPush (mkFrame 0 (frameLsv ret) 0 (adr ret))
      modMe (fun k => { k with stk := { k.stk with sp := va48 ((sbaseOf k : Int) - words.length), regs := [] },
                               psw := { k.psw with lp := false } })
      pure { flow := .jump sa } }
def execTcall (c : Fin 256) (s : State) : Ans := .next (issue c iTcall s)

/-- RET ( -- ) (R120): every check, then the frame is discarded. -/
def iRet : Ins :=
  { sig := { syl := 0x9002, wlc := true, micro := true, depCtl := true }
    body := fun _ => do
      let k ← getCore
      let ret ← cFrame 0 0
      let n := frameCount ret
      let base ← cFrame (n + 1) 1
      if frameLsv ret then do
        let le ← cFrame (n + 2) 3
        let ls ← cFrame (n + 3) 2
        let lc ← cRead (n + 4) 0
        check [{ w := lc, pos := 15, addr := k.stk.csp + n + 4, ok := ty lc == tFIX }]
        cDrop (n + 5)
        modMe (fun k => { k with sr := { k.sr with lc := lc.datum, ls := w64 (adr ls), le := w64 (adr le) },
                                 psw := { k.psw with lp := true } })
      else cDrop (n + 2)
      modMe (fun k => { k with stk := { k.stk with sbase := w64 (adr base) } })
      pure { flow := .jump (adr ret) } }
def execRet (c : Fin 256) (s : State) : Ans := .next (issue c iRet s)

/-- ENTER n ( -- ) (R119). -/
def iEnter (n : Nat) : Ins :=
  { sig := { syl := 0x9100 + n, micro := true, depCtl := true }
    body := fun _ => do
      let k ← getCore
      let ret ← cFrame 0 0
      if 255 < frameCount ret + n then memFault sWRONG ret k.stk.csp
      else do
        cDrop 1
        cPushEmpty n
        cPush (mkFrame 0 (frameLsv ret) (frameCount ret + n) (adr ret))
        pure {} }
def execEnter (c : Fin 256) (n : BitVec 8) (s : State) : Ans := .next (issue c (iEnter n.toNat) s)

/-- LOCAL n ( -- any ) (R119), load class. -/
def iLocal (n : Nat) : Ins :=
  { sig := { syl := 0x9200 + n, leaves := 1, depCtl := true }
    body := fun _ => do
      let w ← cReadAs n 0 true
      pure { push := [w], delay := 3 } }
def execLocal (c : Fin 256) (n : BitVec 8) (s : State) : Ans := .next (issue c (iLocal n.toNat) s)

/-- SETLOCAL n ( any -- ) (R119). -/
def iSetlocal (n : Nat) : Ins :=
  { sig := { syl := 0x9300 + n, rd := 1, takes := 1, depCtl := true }
    body := fun l => do
      cWrite n (opd l 0)
      pure {} }
def execSetlocal (c : Fin 256) (n : BitVec 8) (s : State) : Ans := .next (issue c (iSetlocal n.toNat) s)

/-- ARG n ( -- any ) (R118): the word at SBASE − 1 − n in memory, load class. -/
def iArg (n : Nat) : Ins :=
  { sig := { syl := 0x9400 + n, leaves := 1 }
    body := fun _ => do
      let k ← getCore
      let w ← load (va48 ((sbaseOf k : Int) - 1 - n)) true
      pure { push := [w], delay := 3 } }
def execArg (c : Fin 256) (n : BitVec 8) (s : State) : Ans := .next (issue c (iArg n.toNat) s)

/-! ### The hardware loop -/

/-- LOOP n ( fix -- ) (R124). -/
def iLoop (n : Nat) : Ins :=
  { sig := { syl := 0xA100 + n, rd := 1, takes := 1, wlc := true, noLp := true, depLoop := true,
             bad := if n = 0 then some (tIllegal 1) else none }
    body := fun l => do
      let w := opd l 0
      check [{ w := w, pos := 0, ok := ty w == tFIX }]
      let k ← getCore
      let ls := va48 ((k.pc : Int) + 1)
      let le := va48 ((k.pc : Int) + n)
      modMe (fun k => { k with sr := { k.sr with ls := w64 ls, le := w64 le } })
      if 1 ≤ fixVal w then do
        modMe (fun k => { k with sr := { k.sr with lc := w.datum }, psw := { k.psw with lp := true } })
        pure { flow := .jump ls }
      else pure { flow := .jump (va48 ((le : Int) + 1)) } }
def execLoop (c : Fin 256) (n : BitVec 8) (s : State) : Ans := .next (issue c (iLoop n.toNat) s)

/-- LEAVE ( -- ) (R126). -/
def iLeave : Ins :=
  { sig := { syl := 0xA200, wlc := true, depLoop := true }
    body := fun _ => do
      let k ← getCore
      if k.psw.lp then do
        modMe (fun k => { k with sr := { k.sr with lc := 0 }, psw := { k.psw with lp := false } })
        pure { flow := .jump (va48 ((bits k.sr.le 47 0 : Int) + 1)), taken := true }
      else pure {} }
def execLeave (c : Fin 256) (s : State) : Ans := .next (issue c iLeave s)

/-- LCGET ( -- fix ) (R126). -/
def iLcget : Ins :=
  { sig := { syl := 0xA201, leaves := 1, depLoop := true }
    body := fun _ => do
      let k ← getCore
      pure { push := [fixW k.sr.lc] } }
def execLcget (c : Fin 256) (s : State) : Ans := .next (issue c iLcget s)

/-- LCSET ( fix -- ), a shadow writer (R126, R147). -/
def iLcset : Ins :=
  { sig := { syl := 0xA202, rd := 1, takes := 1, wlc := true, noShadow := true }
    body := fun l => do
      let w := opd l 0
      check [{ w := w, pos := 0, ok := ty w == tFIX }]
      pure { shadow := some (.sr false 6 w) } }
def execLcset (c : Fin 256) (s : State) : Ans := .next (issue c iLcset s)

end Sys2Proof.Machine
end

