-- ==== Sys2Proof/Machine/MemIns.lean ====
section
/-! DEFINITION. Memory, atomic and tag instructions (R96-R101). -/

namespace Sys2Proof.Machine

open Sys2Proof

/-- The address operand of FETCH, STORE, PFETCH, PSTORE and the atomics: LOC or VAR (R96). -/
def locOpd (w : TWord) (pos : Nat) (st : Bool) : Opd :=
  { w := w, pos := pos, deref := true, store := st, ok := ty w == tLOC || ty w == tVAR }

/-- The address operand of FETCH2 and STORE2: LOC or CONS, even (R96). -/
def loc2Opd (w : TWord) (pos : Nat) (st : Bool) : Opd :=
  { w := w, pos := pos, deref := true, even := true, store := st, ok := ty w == tLOC || ty w == tCONS }

/-- FETCH and PFETCH ( loc -- any ); PFETCH fills no frame, except inside a Scene (R100). -/
def fetchIns (syl : Nat) (alloc : Bool) : Ins :=
  { sig := { syl := syl, rd := 1, takes := 1, leaves := 1 }
    body := fun l => do
      check [locOpd (opd l 0) 0 false]
      let p ← resolve (opd l 0) 0
      let k ← getCore
      let lf ← xlate (adr p) .read
      let w ← readWord (adr p) lf true (alloc || k.psw.sc)
      let v ← barrier w (adr p)
      pure { push := [v], delay := 3 } }

/-- FETCH (R97). -/
def iFetch : Ins := fetchIns 0x4000 true
/-- An upset in the core's frames is met by the access of an instruction that issues (R267, R268). -/
def State.meets (s : State) (c : Nat) (u : Upset) : State := if s.canIssue c then s.frameUpset c u else s

def execFetch (c : Fin 256) (u : Upset) (s : State) : Ans := .next (issue c iFetch (s.meets c u))

/-- PFETCH (R97, R100). -/
def iPfetch : Ins := fetchIns 0x4020 false
def execPfetch (c : Fin 256) (s : State) : Ans := .next (issue c iPfetch s)

/-- STORE and PSTORE ( any loc -- ). -/
def storeIns (syl : Nat) (alloc : Bool) : Ins :=
  { sig := { syl := syl, rd := 2, takes := 2 }
    body := fun l => do
      check [locOpd (opd l 0) 0 true, movedOpd (opd l 1) 1]
      let p ← resolve (opd l 0) 0
      let k ← getCore
      store (adr p) (opd l 1) (alloc || k.psw.sc) true
      pure { push := [] } }

/-- STORE (R97). -/
def iStore : Ins := storeIns 0x4001 true
def execStore (c : Fin 256) (u : Upset) (s : State) : Ans := .next (issue c iStore (s.meets c u))

/-- PSTORE (R97, R100). -/
def iPstore : Ins := storeIns 0x4021 false
def execPstore (c : Fin 256) (s : State) : Ans := .next (issue c iPstore s)

/-- FETCH2 ( loc -- any1 any2 ) (R97). -/
def iFetch2 : Ins :=
  { sig := { syl := 0x4002, rd := 1, takes := 1, leaves := 2 }
    body := fun l => do
      check [loc2Opd (opd l 0) 0 false]
      let p ← resolve (opd l 0) 0
      let v ← load (adr p) true
      let w ← load (adr p + 1) true
      pure { push := [v, w], delay := 3 } }
def execFetch2 (c : Fin 256) (s : State) : Ans := .next (issue c iFetch2 s)

/-- STORE2 ( any1 any2 loc -- ): one access (R97). -/
def iStore2 : Ins :=
  { sig := { syl := 0x4003, rd := 3, takes := 3 }
    body := fun l => do
      check [loc2Opd (opd l 0) 0 true, movedOpd (opd l 1) 1, movedOpd (opd l 2) 2]
      let p ← resolve (opd l 0) 0
      storePair (adr p) (opd l 2) (opd l 1) true
      pure { push := [] } }
def execStore2 (c : Fin 256) (s : State) : Ans := .next (issue c iStore2 s)

/-- LOC ( ptr fix -- loc ) (R98). -/
def iLoc : Ins :=
  { sig := { syl := 0x4004, rd := 2, takes := 2, leaves := 1 }
    body := fun l => do
      let cu ← askS (fun s c => s.cuptr c)
      let p := opd l 1
      let t := ty p
      let pair := t == tCONS
      let cell := t == tVAR || t == tLOC
      let head := isHeaded cu t
      check [fixOpd (opd l 0) 0, { w := p, pos := 1, deref := true, ok := pair || cell || head }]
      let q ← resolve p 1
      let i := fixVal (opd l 0)
      let mk (a : Nat) : TWord := ⟨mkTag (kBit q) (eBit q) tLOC, w64 a⟩
      if head then do
        let (a, h) ← objHdr q 1 true
        let n ← indexIn (opd l 0) 0 h
        pure { push := [mk (a + 1 + n)], delay := 3 }
      else if (pair && (i == 0 || i == 1)) || (cell && i == 0) then
        pure { push := [mk (adr q + i.toNat)], delay := 3 }
      else typeFault sBOUNDS (opd l 0) 0 }
def execLoc (c : Fin 256) (s : State) : Ans := .next (issue c iLoc s)

/-- CAS ( loc any1 any2 -- any3 ) (R97, R99). At user level a value tagged HDR or FWD is refused before the word is read, even where the
comparison would then fail (log entry 88, DESIGN CHOICE). -/
def iCas : Ins :=
  { sig := { syl := 0x4008, rd := 3, takes := 3, leaves := 1, micro := true }
    body := fun l => do
      check [movedOpd (opd l 0) 0, { w := opd l 1, pos := 1 }, locOpd (opd l 2) 2 true]
      let p ← resolve (opd l 2) 2
      let w ← atomicRead (adr p)
      checkMem w (adr p)
      if w = opd l 1 then atomicWrite (adr p) (opd l 0) else pure ()
      pure { push := [w] } }
def execCas (c : Fin 256) (s : State) : Ans := .next (issue c iCas s)

/-- XCHG ( loc any1 -- any2 ) (R97, R99). -/
def iXchg : Ins :=
  { sig := { syl := 0x4009, rd := 2, takes := 2, leaves := 1, micro := true }
    body := fun l => do
      check [movedOpd (opd l 0) 0, locOpd (opd l 1) 1 true]
      let p ← resolve (opd l 1) 1
      let w ← atomicRead (adr p)
      atomicWrite (adr p) (opd l 0)
      pure { push := [w] } }
def execXchg (c : Fin 256) (s : State) : Ans := .next (issue c iXchg s)

/-- FADD ( loc fix1 -- fix2 ) (R97, R99). -/
def iFadd : Ins :=
  { sig := { syl := 0x400A, rd := 2, takes := 2, leaves := 1, micro := true }
    body := fun l => do
      check [fixOpd (opd l 0) 0, locOpd (opd l 1) 1 true]
      let p ← resolve (opd l 1) 1
      let w ← atomicRead (adr p)
      check [{ w := w, pos := 15, addr := adr p, ok := ty w == tFIX }]
      atomicWrite (adr p) (fixW (w.datum + (opd l 0).datum))
      pure { push := [w] } }
def execFadd (c : Fin 256) (s : State) : Ans := .next (issue c iFadd s)

/-- FENCE.ACQ (R97, R279): loads are performed as they issue, so nothing waits. -/
def iFenceAcq : Ins := pureIns { syl := 0x4010 } 1 (fun _ => [])
def execFenceAcq (c : Fin 256) (s : State) : Ans := .next (issue c iFenceAcq s)

/-- FENCE.REL (R97, R279): later stores leave the queue after every earlier one. -/
def iFenceRel : Ins :=
  { sig := { syl := 0x4011 }
    body := fun _ => do
      modMe (fun k => { k with mem := { k.mem with epoch := k.mem.epoch + 1 } })
      pure { push := [] } }
def execFenceRel (c : Fin 256) (s : State) : Ans := .next (issue c iFenceRel s)

/-- FENCE.FULL (R97, R279): later accesses wait until every earlier store is visible. -/
def iFenceFull : Ins :=
  { sig := { syl := 0x4012 }
    body := fun _ => do
      modMe (fun k => { k with mem := { k.mem with epoch := k.mem.epoch + 1, fence := true } })
      pure { push := [] } }
def execFenceFull (c : Fin 256) (s : State) : Ans := .next (issue c iFenceFull s)

/-- GETTAG ( any -- fix ) (R97, R101). -/
def iGettag : Ins :=
  { sig := { syl := 0x4030, rd := 1, takes := 1, leaves := 1 }
    body := fun l => do
      check (plain 0 l)
      pure { push := [fixN (opd l 0).tag.toNat] } }
def execGettag (c : Fin 256) (s : State) : Ans := .next (issue c iGettag s)

/-- The result types that anyone may make (R45). -/
def openType (t : Nat) : Bool :=
  t == tRAW || t == tFIX || t == tFLO || t == tCHR || t == tNIL || t == tTRUE || t == tUNB || t == tEMPTY

/-- R45: the SETTAG of a result type on a datum is permitted. -/
def tagPermit (p : Psw) (t : Nat) (d : W64) : Bool :=
  if openType t then true
  else if !p.l then false
  else if t == tCAP && bit d 48 then p.w
  else true

/-- A well-formed CHR datum (R29). -/
def chrOk (d : W64) : Bool :=
  bits d 31 21 == 0 && bits d 20 0 ≤ 0x10FFFF && !(0xD800 ≤ bits d 20 0 && bits d 20 0 ≤ 0xDFFF)

/-- The word SETTAG makes: a new tag byte, and datum 0 for NIL, TRUE, UNB and EMPTY (R29, R47). -/
def retag (tag : BitVec 8) (d : W64) : TWord :=
  let t := tag.toNat % 64
  ⟨tag, if t == tNIL || t == tTRUE || t == tUNB || t == tEMPTY then 0 else d⟩

/-- SETTAG ( any fix -- any ) (R45-R47, R101). A control word that is not FIX raises WRONGTYPE before the named type and the source are
looked at (log entry 89, DESIGN CHOICE). -/
def iSettag : Ins :=
  { sig := { syl := 0x4031, rd := 2, takes := 2, leaves := 1 }
    body := fun l => do
      let f := opd l 0
      let w := opd l 1
      check [fixOpd f 0]
      let tag : BitVec 8 := BitVec.ofNat 8 (bits f.datum 7 0)
      let t := bits f.datum 5 0
      let named : Trap := { vec := 7, tag := tag.toNat }
      let cust ← askS (fun s c => s.custLoaded c)
      if isReserved t then raise { named with sub := sRESERVED }
      else if isCustom t && !cust then raise { named with sub := sNOCUST }
      else do
        check [{ w := w, pos := 1 }]
        let k ← getCore
        let view := !k.psw.l && t == ty w && bit f.datum 7
        if !view && !(tagPermit k.psw t w.datum) then raise { vec := 8, sub := 6, tag := tag.toNat }
        else if t == tCHR && !(chrOk w.datum) then typeFault sMALFORMED w 1
        else pure { push := [retag (if view then mkTag true (eBit w) t else tag) w.datum] } }
def execSettag (c : Fin 256) (s : State) : Ans := .next (issue c iSettag s)

end Sys2Proof.Machine
end

