-- ==== Sys2Proof/Machine/System.lean ====
section
/-! DEFINITION. I/O and system instructions: IN, OUT, INB, OUTB (R64), TRAP, HALT, MFSR, MTSR, SETIPL, BRK, SYNC, TIME, RAND
(R128-R135), register writes (R548), and which pending events qualify (R190, R191). -/

namespace Sys2Proof.Machine

open Sys2Proof

/-! ### I/O -/

/-- IN ( fix -- fix ) (R64, R438). -/
def iIn : Ins :=
  { sig := { syl := 0xB000, rd := 1, takes := 1, leaves := 1, micro := true, ban := some 0 }
    body := fun l => do
      let w := opd l 0
      check [{ w := w, pos := 0, ok := ty w == tFIX }]
      let v ← ioRead (fixVal w)
      markUnsafe
      let (v, _) ← ndval 2 v []
      pure { push := [fixW v] } }
def execIn (c : Fin 256) (s : State) : Ans := .next (issue c iIn s)

/-- OUT ( any fix -- ) (R64). -/
def iOut : Ins :=
  { sig := { syl := 0xB001, rd := 2, takes := 2, micro := true, ban := some 0 }
    body := fun l => do
      let w := opd l 0
      check [{ w := w, pos := 0, ok := ty w == tFIX }, { w := opd l 1, pos := 1 }]
      ioWriteAt (fixVal w) (opd l 1).datum
      markUnsafe
      pure {} }
def execOut (c : Fin 256) (s : State) : Ans := .next (issue c iOut s)

/-- The address of INB n and OUTB n: IOB[31:0] + n. -/
def ioBased (k : Core) (n : Nat) : Int := bits k.sr.iob 31 0 + n

/-- INB n ( -- fix ) (R64, R438). -/
def iInb (n : Nat) : Ins :=
  { sig := { syl := 0xB800 + n, leaves := 1, micro := true, depIob := true, ban := some 0 }
    body := fun _ => do
      let k ← getCore
      let v ← ioRead (ioBased k n)
      markUnsafe
      let (v, _) ← ndval 2 v []
      pure { push := [fixW v] } }
def execInb (c : Fin 256) (n : BitVec 10) (s : State) : Ans := .next (issue c (iInb n.toNat) s)

/-- OUTB n ( any -- ) (R64). -/
def iOutb (n : Nat) : Ins :=
  { sig := { syl := 0xBC00 + n, rd := 1, takes := 1, micro := true, depIob := true, ban := some 0 }
    body := fun l => do
      check (plain 0 [opd l 0])
      let k ← getCore
      ioWriteAt (ioBased k n) (opd l 0).datum
      markUnsafe
      pure {} }
def execOutb (c : Fin 256) (n : BitVec 10) (s : State) : Ans := .next (issue c (iOutb n.toNat) s)

/-- A write of core c's supervisor in world `w` to the register at an io address (R9, R64, R548); a refused address changes
nothing. -/
def execRegisterWrite (c : Fin 256) (w : Bool) (addr : BitVec 32) (v : BitVec 64) (s : State) : Ans :=
  match s.ioTarget (some c) w true true addr.toNat with
  | .inl _ => .next s
  | .inr (row, i) => .next (s.ioWrite (some c) w row i v)

/-! ### System instructions -/

/-- TRAP n ( -- ) (R129). -/
def iTrap (n : Nat) : Ins :=
  { sig := { syl := 0xC000 + n, wlc := true, micro := true }
    body := fun _ => pure { late := some { vec := 32 + n } } }
def execTrap (c : Fin 256) (n : Fin 32) (s : State) : Ans := .next (issue c (iTrap n) s)

/-- HALT ( -- ) (R130). -/
def iHalt : Ins :=
  { sig := { syl := 0xC101, priv := 1, noRep := true, noShadow := true, micro := true, ban := some 3 }
    body := fun _ => do
      let now ← askS (fun s c => s.haltEnds c)
      if now then pure {}
      else do
        updS (fun s c => (s.modCore c (fun k => { k with haltAt := s.time })).bump .CORE_HALTS c 1)
        pure { flow := .halt } }
def execHalt (c : Fin 256) (s : State) : Ans := .next (issue c iHalt s)

/-- The registers that an MFSR in the shadow of a write of register i must not read (R148). -/
def sameGroup (i j : Nat) : Bool :=
  let g (l : List Nat) : Bool := l.contains i && l.contains j
  g [1, 2, 3] || g [4, 5] || g [6, 7, 8] || g [18, 19] || g [25, 26]
    || (i == j && !([12, 13, 14, 15, 16, 17].contains i))

/-- The distance violation of a syllable in an open shadow, under STRICT (R149, R150). -/
def shadowTrap (dep : ShadowUpd → Bool) : M Unit := do
  let k ← getCore
  let strict ← askS (fun s c => s.strict c)
  match k.shadow with
  | some sh =>
    if strict && dep sh.upd then
      raise { vec := 13, sub := 3, addr := sh.sa, dv := some (3 - sh.remain, 3, sh.syl, sh.sa) }
    else pure ()
  | none => pure ()

/-- The index of MFSR and MTSR: steps 1-4 of R40, then its FIX tag (R56). -/
def srIndex (w : TWord) : Opd := { w := w, pos := 0, deref := true, code := true, rref := true, ok := ty w == tFIX }

/-- MFSR ( fix -- any ) (R54-R57). -/
def iMfsr : Ins :=
  { sig := { syl := 0xC102, rd := 1, takes := 1, leaves := 1, micro := true }
    body := fun l => do
      let w := opd l 0
      let j := if decide (0 ≤ fixVal w) && decide (fixVal w < 64) then w.datum.toNat else 64
      shadowTrap (fun u => match u with | .ipl _ => j == 0 | .sr _ i _ => sameGroup i j | _ => false)
      check [srIndex w]
      let k ← getCore
      let v ← srRead (fixVal w) { k with stk := { k.stk with sp := va48 ((k.stk.sp : Int) + 1), regs := k.stk.regs.drop 1 } }
      pure { push := [v] } }
def execMfsr (c : Fin 256) (s : State) : Ans := .next (issue c iMfsr s)

/-- MTSR ( any fix -- ), a shadow writer (R54-R58, R147). -/
def iMtsr : Ins :=
  { sig := { syl := 0xC103, rd := 2, takes := 2, noShadow := true, noRep := true, micro := true, ban := some 4 }
    body := fun l => do
      let w := opd l 0
      check [srIndex w]
      let u ← srPrepare (fixVal w) (opd l 1) 1
      (match u with
        | some (.sr _ 1 _) => spillAll
        | some (.sr _ 4 _) => cSpillFor 4 4
        | some (.sr _ i _) => if 13 ≤ i && i ≤ 17 then modMe Core.noLatch else pure ()
        | _ => pure ())
      pure { shadow := some (u.getD .none) } }
def execMtsr (c : Fin 256) (s : State) : Ans := .next (issue c iMtsr s)

/-- SETIPL ( fix1 -- fix2 ), a shadow writer (R131). -/
def iSetipl : Ins :=
  { sig := { syl := 0xC104, rd := 1, takes := 1, leaves := 1, priv := 1, noShadow := true, noRep := true, micro := true,
             depPsw := true, ban := some 4 }
    body := fun l => do
      let w := opd l 0
      check [{ w := w, pos := 0, ok := ty w == tFIX && decide (0 ≤ fixVal w) && decide (fixVal w ≤ 15) }]
      let k ← getCore
      pure { push := [fixN k.psw.ipl], shadow := some (.ipl w.datum.toNat) } }
def execSetipl (c : Fin 256) (s : State) : Ans := .next (issue c iSetipl s)

/-- BRK ( -- ) (R132); in a Scene it aborts with code 12 (R135, R298). -/
def iBrk : Ins :=
  { sig := { syl := 0xC105, noRep := true, micro := true }
    body := fun _ => do
      let k ← getCore
      if k.psw.sc then throw (.abort { code := 12 }) else raise { vec := 17 } }
def execBrk (c : Fin 256) (s : State) : Ans := .next (issue c iBrk s)

/-- SYNC ( -- ) (R133). -/
def iSync : Ins :=
  { sig := { syl := 0xC106, noRep := true, micro := true }
    body := fun _ => do
      landEarly
      drainMine
      modMe (fun k => { k with mem := { k.mem with fence := false } })
      pure {} }
def execSync (c : Fin 256) (s : State) : Ans := .next (issue c iSync s)

/-- TIME ( -- fix ) (R134). -/
def iTime : Ins :=
  { sig := { syl := 0xC107, leaves := 1, micro := true }
    body := fun _ => do
      let t ← askS (fun s _ => s.time)
      let (v, _) ← ndval 0 (w64 t) []
      pure { push := [fixW v] } }
def execTime (c : Fin 256) (s : State) : Ans := .next (issue c iTime s)

/-- RAND ( -- fix ) (R134, R522). -/
def iRand : Ins :=
  { sig := { syl := 0xC108, leaves := 1, micro := true }
    body := fun _ => do
      let bad ← askS (fun s _ => s.fld f_KSU_DRBG_STATE 0 == 2)
      if bad then raise { vec := 2, sub := 4 }
      else do
        let s ← get
        let (v, s) := s.drawDrbg
        set s
        let (v, _) ← ndval 1 v []
        pure { push := [fixW v] } }
def execRand (c : Fin 256) (s : State) : Ans := .next (issue c iRand s)

end Sys2Proof.Machine
end

