-- ==== Sys2Proof/Machine/Exc.lean ====
section
/-! DEFINITION. Returns from exceptions (R198, R200), gates (R203-R205) and the events taken at instruction boundaries
(R189-R191, R208, R298). -/

namespace Sys2Proof.Machine

open Sys2Proof

/-! ### Return from a full exception -/

/-- A double fault named by R200. -/
def tDouble (sub addr : Nat) : Trap := { vec := 3, sub := sub, addr := addr }

/-- Where a TSB of the current world lies, for a read (R188). -/
def tsbPlace (base : Nat) : M Nat := do
  let k ← getCore
  let c ← me
  let s ← get
  match s.xbase c k.psw.w base .read with
  | (s, none) => do
    set s
    raise (tDouble 1 base)
  | (s, some pa) => do
    set s
    pure pa

/-- Read one TSB word. -/
def tsbRead (pa : Nat) : M TWord := do
  let k ← getCore
  let v ← askS (fun s c => s.physRead c k.psw.w pa)
  match v with
  | some v => pure v
  | none => raise (tDouble 1 pa)

/-- Read n consecutive TSB words. -/
def tsbReads (pa n : Nat) : M (List TWord) :=
  match n with
  | 0 => pure []
  | n + 1 => do
    let w ← tsbRead pa
    let l ← tsbReads (pa + 1) n
    pure (w :: l)

/-- The PREV link of the TSB at `base` (R200). -/
def tsbPrev (base : Nat) : M Nat := do
  let k ← getCore
  let c ← me
  let s ← get
  match s.tsbLink c k.psw.w base 33 with
  | (s, .inl (d, a)) => do
    set s
    raise (tDouble d a)
  | (s, .inr p) => do
    set s
    pure p

/-- The tag of TSB word i that R193 asks for, with `n` and `m` saved stack registers. -/
def tsbTagOk (ds : Bool) (n m i : Nat) (w : TWord) : Bool :=
  if i == 0 || (i == 7 && ds) then ty w == tCODE
  else if 8 ≤ i && i ≤ 15 then decide (i < 8 + n) || ty w == tEMPTY
  else if 16 ≤ i && i ≤ 19 then decide (i < 16 + m) || ty w == tEMPTY
  else if 20 ≤ i && i ≤ 23 then true
  else ty w == tFIX

/-- The first TSB word whose tag breaks R193. -/
def tsbBadTag (ds : Bool) (n m i : Nat) : List TWord → Option (Nat × TWord)
  | [] => none
  | w :: l => if tsbTagOk ds n m i w then tsbBadTag ds n m (i + 1) l else some (i, w)

/-- The tag checks of RTE on words 0-31 of the TSB at pa (R200). -/
def tsbTags (pa : Nat) (ws : List TWord) : M Unit :=
  let d (i : Nat) : W64 := (ws.getD i wEMPTY).datum
  match tsbBadTag (bit (d 1) 11) (bits (d 2) 51 48) (bits (d 3) 50 48) 0 ws with
  | some (i, w) => memFault sWRONG w (pa + i)
  | none => pure ()

/-- Leaving Backstage for House with QT=0 clears the quick-trap registers (R187). -/
def Core.clearQuick (k : Core) (was : Bool) : Core :=
  if was && !k.psw.w && !k.psw.qt then
    { k with quick := { k.quick with qpc := 0, qpsw := 0, qs0 := wEMPTY, qs1 := wEMPTY } } else k

/-- The context that RTE restores from TSB words 0-31 (R200). -/
def Core.restore (k : Core) (ws : List TWord) (strictDepth : Psw) : Core :=
  let at' (i : Nat) : TWord := ws.getD i wEMPTY
  let d (i : Nat) : W64 := (at' i).datum
  let p := Psw.unpack (d 1)
  let n := Nat.min 8 (bits (d 2) 51 48)
  let m := Nat.min 4 (bits (d 3) 50 48)
  let k : Core := { k with
    pc := adr (at' 0)
    psw := { p with sc := strictDepth.sc, ss := strictDepth.ss, depth := strictDepth.depth }
    dst := if p.ds then adr (at' 7) else 0
    stk := { k.stk with sp := bits (d 2) 47 0, regs := (ws.drop 8).take n, csp := bits (d 3) 47 0, cregs := (ws.drop 16).take m }
    sr := { k.sr with lc := d 4, ls := d 5, le := d 6, pg0 := at' 20, pg1 := at' 21, pg2 := at' 22, pg3 := at' 23,
                      ab := d 28, al := d 29, pkr := w64 (bits (d 30) 31 0) }
    scene := { k.scene with stat := setBits (d 27) 17 17 0, av := bit (d 27) 16 } }
  if p.w then { k with back := { k.back with asid := w64 (bits (d 31) 15 0) } } else { k with house := { k.house with asid := w64 (bits (d 31) 15 0) } }

/-- RTE ( -- ) (R200). -/
def iRte : Ins :=
  { sig := { syl := 0xC100, wlc := true, priv := 1, micro := true, ban := some 4 }
    body := fun _ => do
      let k ← getCore
      let df ← askS (fun s c => s.flag f_CORE_XSTAT_DF c)
      let p ← (if df then pure (bits k.bank.ftsbr 47 0) else tsbPrev (bits k.bank.tsbr 47 0))
      let pa ← tsbPlace p
      let ws ← tsbReads pa 32
      let psw := (ws.getD 1 wEMPTY).datum
      tsbTags pa ws
      if pswReserved psw then memFault sWRONG (ws.getD 1 wEMPTY) (pa + 1) else pure ()
      if bit psw 0 && !k.psw.w then raise (tProt 7 0) else pure ()
      let (tsb, q) ← (if bit psw 14 then do
          let q ← tsbPrev p
          let qa ← tsbPlace q
          let qs ← tsbReads qa 32
          tsbTags qa qs
          if bit (qs.getD 24 wEMPTY).datum 18 then pure (q, some qs) else raise (tDouble 3 (qa + 24))
        else pure (p, none))
      modMe (fun k0 =>
        let k1 := (k0.applyShadow).restore ws k.psw
        let k1 := if df then k1 else k1.setTsbr k.psw.w tsb
        let k1 := match q with
          | some qs =>
            let e (i : Nat) : TWord := qs.getD i wEMPTY
            { k1 with quick := {
                qpc := (e 0).datum
                qpsw := w64 (bits (e 1).datum 19 0 + bits (e 26).datum 3 0 * 2 ^ 20)
                qs0 := e 8
                qs1 := e 9
                vec := bits (e 24).datum 15 8
                sub := bits (e 24).datum 7 0
                syl := bits (e 26).datum 31 16
                addr := (e 25).datum.toNat } }
          | none => k1
        let k1 := k1.clearQuick k.psw.w
        { k1 with nmiAt := if k1.nmiAt == some p then none else k1.nmiAt, mem := { k1.mem with latch := .empty } })
      updS (fun s c =>
        let s := if df then s.setFld f_CORE_XSTAT_DF c 0 else s
        if k.nmiAt == some p then s.setFld f_CORE_XSTAT_NMIACT c 0 else s)
      pure { flow := .done } }
def execRte (c : Fin 256) (s : State) : Ans := .next (issue c iRte s)

/-- The stack after RTQ (R198): S0 and S1 from QS0 and QS1, N as saved when it was below 2. -/
def quickRegs (q : Quick) (regs : List TWord) : List TWord :=
  let n := bits q.qpsw 23 20
  let l := q.qs0 :: q.qs1 :: regs.drop 2
  if n < 2 then l.take n else l

/-- RTQ ( -- ) (R198); the world stays the handler's (R185). -/
def iRtq : Ins :=
  { sig := { syl := 0xC10A, wlc := true, priv := 1, micro := true, ovr := [0, 1], ban := some 4 }
    body := fun _ => do
      let k ← getCore
      if !k.psw.qt then raise (tIllegal 2)
      else do
        let q := k.quick
        let p := Psw.unpack q.qpsw
        modMe (fun k0 =>
          let k1 := k0.applyShadow
          let k1 : Core := { k1 with
            pc := bits q.qpc 47 0
            psw := { p with w := k.psw.w, sc := k.psw.sc, ss := k.psw.ss, depth := k.psw.depth }
            stk := { k1.stk with regs := quickRegs q k1.stk.regs } }
          k1.clearQuick k.psw.w)
        pure { flow := .done } }
def execRtq (c : Fin 256) (s : State) : Ans := .next (issue c iRtq s)

/-! ### Gates -/

/-- GATEARG naming a word at a va, or a stack position (R203, R204). -/
def tGateAt (a : Nat) : Trap := tProt 5 a
def tGatePos (w : TWord) (p : Nat) : Trap := { vec := 8, sub := 5, tag := w.tag.toNat, pos := p }

/-- Translate an access in another world and level, with its PKR, through the cluster's walker; none where it fails or is
refused (R203, R204). -/
def foreignXlate (w l : Bool) (pkr : W64) (a : Nat) (kind : Acc) : M (Option Leaf) := do
  let k ← getCore
  let k1 : Core := { k with psw := { k.psw with w := w, l := l }, sr := { k.sr with pkr := pkr } }
  let x := k1.ctx false
  if !x.s1.en && (x.world || !x.s2.en) then
    match xlateCore k1 a kind 7 with
    | .inr lf => pure (some lf)
    | .inl _ => pure none
  else do
    let c ← me
    let s ← get
    match s.walk (clusterOf c) x a kind true with
    | (s, .inl _) => do
      set s
      pure none
    | (s, .inr r) => do
      set s
      let u : Utlb := { tte := r.tte, base := r.base, world := x.world, asid := x.asid, vmid := x.vmid, wire := false, org := some r.org }
      match xlateCore { k1 with mem := { k1.mem with dtlb := [some u] } } a kind 7 with
      | .inr lf => pure (some lf)
      | .inl _ => pure none

/-- Read one word of a gate record (R203): a Backstage record on a page with B=1; another on a page that the user level may
not write. -/
def gateWord (b : Bool) (a : Nat) : M TWord := do
  noteData
  let k ← getCore
  if b && !k.psw.w then do
    let r ← foreignXlate true true 0 a .read
    match r with
    | none => raise (tGateAt a)
    | some lf =>
      match lf.tte with
      | none => raise (tGateAt a)
      | some t =>
        if !(bit t 16) then raise (tGateAt a)
        else do
          let v ← askS (fun s c => s.physRead c true lf.pa)
          match v with
          | some v => pure v
          | none => raise (tGateAt a)
  else
    match xlateCore { k with psw := { k.psw with l := true } } a .read 7 with
    | .inl t => raise t
    | .inr lf =>
      match lf.tte with
      | none => raise (tGateAt a)
      | some t =>
        if (b && !(bit t 16)) || (!b && bit t 5 && bit t 4) then raise (tGateAt a) else readWord a lf false true

/-- A gate record (R203): target sa, W, L, NARG, argument masks, stack top and size. -/
structure GateRec where
  sa : Nat
  w : Bool
  l : Bool
  narg : Nat
  mask : W64
  top : Nat
  size : Nat
  deriving DecidableEq, Repr

/-- Read and check a gate record. A target whose bits [63:48] are set is MALFORMED (R28; log entry 94, DEDUCED). -/
def gateRecord (b : Bool) (a : Nat) : M GateRec := do
  let k ← getCore
  let w0 ← gateWord b a
  if ty w0 == tCODE then check [{ w := w0, pos := 15, addr := a, code := true }] else raise (tGateAt a)
  let w1 ← gateWord b (a + 1)
  let d := w1.datum
  if ty w1 == tFIX && bits d 63 11 == 0 && bits d 7 2 == 0 && decide (bits d 10 8 ≤ 6) && bit d 0 == b then pure ()
  else raise (tGateAt (a + 1))
  let w2 ← gateWord b (a + 2)
  if ty w2 == tFIX && bits w2.datum 63 48 == 0 then pure () else raise (tGateAt (a + 2))
  let w3 ← gateWord b (a + 3)
  if ty w3 == tFIX && (bits w3.datum 63 48 != 0 || bit d 0 == k.psw.w) then pure () else raise (tGateAt (a + 3))
  pure { sa := adr w0, w := bit d 0, l := bit d 1, narg := bits d 10 8, mask := w2.datum, top := bits w3.datum 47 0,
         size := bits w3.datum 63 48 }

/-- The dispatch class of each argument is allowed by its mask (R204 check 5): arguments at positions p, p+1, …, the one
at position p being number `i`. -/
def gateClasses (mask : W64) (p i : Nat) : List TWord → M Unit
  | [] => pure ()
  | w :: l => do
    if bit mask (8 * i + dclass (ty w)) then gateClasses mask (p + 1) (i - 1) l
    else raise (tGatePos w p)

/-- Translate the words at falling addresses from a − 1 in the target world (R204 check 6). -/
def gateSlots (w l : Bool) (pkr : W64) (a n : Nat) : M (List Leaf) :=
  match n with
  | 0 => pure []
  | n + 1 => do
    let r ← foreignXlate w l pkr (va48 ((a : Int) - 1)) .write
    match r with
    | none => raise (tGateAt 0)
    | some lf => do
      let t ← gateSlots w l pkr (va48 ((a : Int) - 1)) n
      pure (lf :: t)

/-- Write words at falling addresses through translations already made. -/
def gateStores (a : Nat) : List (Leaf × TWord) → M Unit
  | [] => pure ()
  | (lf, w) :: l => do
    let b := va48 ((a : Int) - 1)
    let old ← overwritten lf
    writeBarrier b w old
    writeWord b lf w true false
    gateStores b l

/-- The GATE FRAME (R204). -/
def gateFrame (sw w l : Bool) (sa : Nat) : TWord :=
  word tFRAME (4 * 2 ^ 60 + b2n sw * 2 ^ 56 + b2n l * 2 ^ 49 + b2n w * 2 ^ 48 + sa)

/-- The level and world that a gate enters (R204 step 5, R186). -/
def Core.gateTo (k : Core) (w l : Bool) : Core :=
  { k with psw := { k.psw with w := w, l := l, step := false, ds := false, lp := false, repp := false }
           sr := { k.sr with pkr := if w && !k.psw.w then 0 else k.sr.pkr } }

/-- GATE ( x1 … xk cap -- ) (R204). -/
def iGate : Ins :=
  { sig := { syl := 0x9500, rd := 1, wlc := true, micro := true, depCtl := true, ban := some 4 }
    body := fun l => do
      let cap := opd l 0
      check [{ w := cap, pos := 0, deref := true, code := true, rref := true }]
      if ty cap == tCAP && bits cap.datum 63 49 == 0 then pure () else raise (tGatePos cap 0)
      let r ← gateRecord (bit cap.datum 48) (adr cap)
      let k ← getCore
      if k.psw.lp || k.psw.repp then raise (tIllegal 3) else pure ()
      underflow (r.narg + 1)
      strictArgs 1 r.narg
      let xs ← operandsFrom 1 r.narg
      check (plain 1 xs)
      gateClasses r.mask 1 (r.narg - 1) xs
      let psw ← askS (fun s c => s.pswOf c)
      let pkr := if r.w && !k.psw.w then 0 else k.sr.pkr
      let slim := va48 ((r.top : Int) - r.size * 2048)
      let clim := va48 ((r.top : Int) - r.size * 4096)
      let (argAt, ctlAt) ← (if r.size == 0 then pure ([], []) else do
        let x ← gateSlots r.w r.l pkr r.top r.narg
        let y ← gateSlots r.w r.l pkr slim 4
        pure (x, y))
      dropOps 1
      spillAll
      let k ← getCore
      let ret := va48 ((k.pc : Int) + 1)
      if r.size == 0 then do
        cPush (fixW psw)
        cPush (fixW k.sr.pkr)
        cPush (fixN k.stk.sp)
        cPush (fixW k.stk.sbase)
        cPush (fixW k.stk.slim)
        cPush (fixN (k.stk.csp + k.occM * 2 ^ 48))
        cPush (fixW k.stk.clim)
        cPush (gateFrame false k.psw.w k.psw.l ret)
        modMe (fun k => { k with stk := { k.stk with sbase := w64 (va48 ((k.stk.sp : Int) + r.narg)) } }.gateTo r.w r.l)
        pure { flow := .jump r.sa }
      else do
        cSpillFor 4 4
        let sp := va48 ((k.stk.sp : Int) + r.narg)
        gateStores r.top (argAt.zip xs.reverse)
        gateStores slim (ctlAt.zip [fixW psw, fixW k.sr.pkr, fixN sp, fixW k.stk.sbase])
        modMe (fun k => { k with stk := { k.stk with
          sp := va48 ((r.top : Int) - r.narg), regs := [], sbase := w64 r.top, slim := w64 slim, clim := w64 clim
          csp := va48 ((slim : Int) - 8)
          cregs := [gateFrame true k.psw.w k.psw.l ret, fixW k.stk.clim, fixN k.stk.csp, fixW k.stk.slim] } }.gateTo r.w r.l)
        pure { flow := .jump r.sa } }
def execGate (c : Fin 256) (s : State) : Ans := .next (issue c iGate s)

/-- Control-stack positions p to p + n − 1, each FIX. -/
def cFixes (p n : Nat) : M (List TWord) :=
  match n with
  | 0 => pure []
  | n + 1 => do
    let k ← getCore
    let w ← cRead p 0
    checkMem w (k.stk.csp + p)
    if ty w == tFIX then do
      let l ← cFixes (p + 1) n
      pure (w :: l)
    else memFault sWRONG w (k.stk.csp + p)

/-- GRET ( y1 … yr fix -- ) (R205). -/
def iGret : Ins :=
  { sig := { syl := 0x9501, rd := 1, wlc := true, micro := true, depCtl := true, ban := some 4 }
    body := fun l => do
      let f := opd l 0
      check (plain 0 [f])
      let k ← getCore
      let g ← cRead 0 0
      checkMem g k.stk.csp
      if isFrame g 4 && bits g.datum 55 50 == 0 then pure () else memFault sWRONG g k.stk.csp
      let fs ← cFixes 1 7
      let d (i : Nat) : W64 := (fs.getD (i - 1) wEMPTY).datum
      let gw := bit g.datum 48
      let gl := bit g.datum 49
      if (gw && !k.psw.w) || (gw == k.psw.w && gl && !k.psw.l) then raise (tProt 7 0) else pure ()
      if bit (d 7) 0 == gw && bit (d 7) 1 == gl then pure () else raise (tProt 7 0)
      let n ← callCount f 6
      underflow (n + 1)
      strictArgs 1 n
      let ys ← operandsFrom 1 n
      if bit g.datum 56 then
        modMe (fun k =>
          let sp := bits (d 5) 47 0
          { k with
            stk := { sp := va48 ((sp : Int) - n), regs := ys, csp := bits (d 2) 47 0, cregs := [], sbase := d 4,
                     slim := d 3, clim := d 1 }
            sr := { k.sr with pkr := w64 (bits (d 6) 31 0) } })
      else do
        dropOps (n + 1)
        cDrop 8
        modMe (fun k => { k with stk := { k.stk with
          sbase := d 4, sp := va48 ((k.stk.sp : Int) - n), regs := ys ++ k.stk.regs } })
      modMe (fun k =>
        let was := k.psw.w
        { k with psw := { k.psw with w := gw, l := gl, ipl := bits (d 7) 5 2, tr := bit (d 7) 15 } }.clearQuick was)
      pure { flow := .jump (bits g.datum 47 0) } }
def execGret (c : Fin 256) (s : State) : Ans := .next (issue c iGret s)

/-! ### Events -/

/-- A wait during which the core still takes events (R138, R317, R322, R343, R369). -/
def Wait.samples (w : Wait) : Bool :=
  match w with
  | .miss => true
  | .pacing _ => true
  | .barrierCopy _ => true
  | .rfetch _ => true
  | .rstore _ => true
  | .coproc _ _ done => done.isNone
  | _ => false

/-- The core is at a place where it takes an event now. -/
def State.takesEvents (s : State) (c : Nat) : Bool :=
  let k := s.core c
  s.running c && !(s.holds c) && !(s.mcsHeld c) && !k.debug && k.boundary && k.landable && (k.wait.all Wait.samples)

/-- The core leaves HALT: one that is power-gated wakes (R466), the time it waited is counted (R130). -/
def State.leaveHalt (s : State) (c : Nat) : State :=
  if (s.core c).run == .halt then
    ((s.ungateCore c).bump .CORE_HALTNS c (s.time - (s.core c).haltAt)).modCore c (fun k => { k with run := .run })
  else s

/-- Take an event (R191): the core wakes, a Scene aborts first (R208, R298), the chunk ends with its INTR record (R434,
R440), and the exception is entered. -/
def State.takeEvent (s : State) (c : Nat) (t : Trap) (w : Bool) (d : Doom) (sub : Nat) : State :=
  let s := s.leaveHalt c
  let s := if (s.core c).psw.sc then s.abortScene c d false else s
  let st := (s.chunkOf c).steps
  let s := s.endChunk c 3 [mkRec 1 c sub (st * 2 ^ 16) (b2n w * 2 ^ 16 + t.vec * 256 + t.sub)]
  s.enterTrap c { t with noSyl := true } 0 w

/-- INTERRUPT_TAKEN (R190, R191): nothing that comes first is due. -/
def takeInterrupt (c : Nat) (s : State) : State :=
  let k := s.core c
  if !(s.takesEvents c) || !k.ev.mc.isEmpty || k.ev.stepDue || s.nmiReady c || !k.interruptDue then s
  else
    match k.topInterrupt with
    | none => s
    | some (back, v) =>
      let s := s.modCore c (fun k => if back then { k with ev := { k.ev with back := k.ev.back.filter (fun x => x != v) } }
        else { k with ev := { k.ev with house := k.ev.house.filter (fun x => x != v) } })
      s.takeEvent c { vec := v } back { code := 4 } 0
def execInterruptTaken (c : Fin 256) (s : State) : Ans :=
  .next (if s.mode mREPLAY then s else takeInterrupt c s)

/-- NMI_TAKEN (R189, R191): the handler is active until its RTE; a second NMI waits for that, and only ends a HALT (R130). -/
def takeNmi (c : Nat) (s : State) : State :=
  let k := s.core c
  if !(s.takesEvents c) || !k.ev.mc.isEmpty || k.ev.stepDue then s
  else if !(s.nmiReady c) then (if k.ev.nmi then s.leaveHalt c else s)
  else
    let t1 := bits k.back.tsbr 47 0
    let at' := if k.psw.qt then (match (s.tsbLink c true t1 32).2 with | .inr t2 => t2 | .inl _ => t1) else t1
    let s := s.modCore c (fun k => { k with ev := { k.ev with nmi := false } })
    let was := s.flag f_CORE_XSTAT_DF c
    let s := s.takeEvent c { vec := 1 } true { code := 4, detail := 1 } 1
    let at' := if !was && s.flag f_CORE_XSTAT_DF c then bits (s.core c).back.ftsbr 47 0 else at'
    (s.setFld f_CORE_XSTAT_NMIACT c 1).modCore c (fun k => { k with nmiAt := some at' })
def execNmiTaken (c : Fin 256) (s : State) : Ans := .next (if s.mode mREPLAY then s else takeNmi c s)

/-- ASYNC_MACHINE_CHECK (R191): the first pending one. -/
def takeMc (c : Nat) (s : State) : State :=
  match (s.core c).ev.mc with
  | [] => s
  | m :: rest =>
    if s.takesEvents c then
      let s := s.modCore c (fun k => { k with ev := { k.ev with mc := rest } })
      s.takeEvent c { vec := 2, sub := m } true { code := 4, detail := 1 } 2
    else s
def execAsyncMachineCheck (c : Fin 256) (s : State) : Ans := .next (if s.mode mREPLAY then s else takeMc c s)

/-- SINGLE_STEP_TRAP (R191): vector 18 in the world of the stepped syllable; in a Scene it aborts with code 12. -/
def takeStep (c : Nat) (s : State) : State :=
  let k := s.core c
  if !(s.takesEvents c) || !k.ev.mc.isEmpty || !k.ev.stepDue then s
  else
    let s := s.modCore c (fun k => { k with ev := { k.ev with stepDue := false } })
    if k.psw.sc then s.abortScene c { code := 12, detail := 1 } false
    else s.enterTrap c { vec := 18, noSyl := true } 0 k.ev.stepWorld
def execSingleStepTrap (c : Fin 256) (s : State) : Ans := .next (takeStep c s)

/-- CUE_ROUTER_EVENT (R209): sources 117-127 are never raised. -/
def execCueRouterEvent (src : Fin 128) (s : State) : Ans := .next (if src.val < 117 then s.cueEvent src else s)

/-- LOCAL_TIMER_FIRE (R210). -/
def execLocalTimerFire (c : Fin 256) (t : Fin 2) (s : State) : Ans := .next (s.fireTimer c t)

/-- CUE_IPI (R210). -/
def execCueIpi (w : Bool) (v : BitVec 64) (s : State) : Ans := .next (s.cueIpi w v)

/-- CUE_NMI (R209). -/
def execCueNmi (v : BitVec 64) (s : State) : Ans := .next (s.cueNmi v)

/-- CUE_SRC_WRITE (R209). -/
def execCueSrcWrite (w : Bool) (n : Fin 128) (v : BitVec 64) (s : State) : Ans :=
  .next (s.cueSrcWrite w n (s.reg .CUE_SRC n) v)

/-- CUE_LCTL_WRITE (R210). -/
def execCueLctlWrite (c : Fin 256) (w : Bool) (v : BitVec 64) (s : State) : Ans :=
  .next (s.cueLctlWrite w c (s.reg .CUE_LCTL c) v)

/-- JTAG may halt or step the core (R527): scope FULL, or HOUSE while it runs in House. -/
def State.debugReach (s : State) (c : Nat) : Bool := s.debugScope == 2 || (s.debugScope == 1 && !(s.core c).psw.w)

/-- DEBUG_HALT_REQUEST (R298, R527): the core stops; an active Scene aborts with code 12. -/
def execDebugHaltRequest (c : Fin 256) (s : State) : Ans :=
  .next (if s.debugReach c && s.running c then
    (s.abortScene c { code := 12, detail := 2 } false).modCore c (fun k => { k with debug := true, stepOnce := false }) else s)

/-- DEBUG_RESUME (R527): a core halted for debug goes on, or issues one syllable and stops again. -/
def execDebugResume (c : Fin 256) (step : Bool) (s : State) : Ans :=
  .next (if s.debugReach c && (s.core c).debug then
    s.modCore c (fun k => { k with debug := false, stepOnce := step }) else s)

end Sys2Proof.Machine
end

