-- ==== Sys2Proof/Machine/Tlb.lean ====
section
/-! DEFINITION. The translation instructions (R228-R232, R238-R243): WALK and its result, TLBW, TLBR, TLBI. -/

namespace Sys2Proof.Machine

open Sys2Proof

/-! ### WALK -/

/-- WALK's place in the issue rules (R228, R243). -/
def walkSig : Sig :=
  { syl := 0x4087, rd := 2, takes := 2, leaves := 2, priv := 1, noRep := true, noShadow := false, micro := true,
    depWalk := true, ban := some 5 }

/-- The walker needs no table read: the cluster TLB holds the translation, or every stage is disabled (R215, R236). -/
def State.walkHits (s : State) (c : Nat) (x : Ctx) (input : Nat) : Bool :=
  (!x.s1.en && (x.world || !x.s2.en)) ||
  (s.cluster (clusterOf c)).ctlb.any (fun e => e.isI == x.isI && e.u.world == x.world
    && (x.world || e.u.vmid == x.vmid) && (bit e.u.tte 15 || e.u.asid == x.asid)
    && e.u.base == input / 2 ^ sizeShift (bits e.u.tte 20 17) * 2 ^ sizeShift (bits e.u.tte 20 17))

/-- WALK ( fix1 fix2 -- tte fix3 ) (R228): answered at once on a cluster-TLB hit, otherwise the core freezes until the walker
has made its table reads (WALK_RESULT). -/
def iWalk : Ins :=
  { sig := walkSig
    body := fun l => do
      let r := opd l 0
      let a := opd l 1
      let kind := bits r.datum 1 0
      shadowTrap (fun u => match u with | .sr _ i _ => i == 14 && kind == 2 | _ => false)
      check [{ w := r, pos := 0, ok := ty r == tFIX && kind != 3 }, { w := a, pos := 1, ok := ty a == tFIX }]
      let k ← getCore
      let va := bits a.datum 47 0
      let full := a.datum.toNat
      let hit ← askS (fun s c => s.walkHits c (k.ctx (kind == 2)) (if kind == 2 then va / 4 else va))
      if hit then do
        let c ← me
        let s ← get
        match s.walkAnswer c full kind (bit r.datum 2) false with
        | (s, .inl t) => do
          set s
          raise t
        | (s, .inr ws) => do
          set s
          pure { push := ws }
      else throw (.wait (.walk full kind (bit r.datum 2) false)) }
def execWalk (c : Fin 256) (s : State) : Ans := .next (issue c iWalk s)

/-- WALK_RESULT (R233): the walk of a waiting core ends. -/
def execWalkResult (c : Fin 256) (s : State) : Ans :=
  match (s.core c).wait with
  | some (.walk a kind probe killed) =>
    match s.walkAnswer c a kind probe killed with
    | (s, .inl t) => .next (s.failWait c t)
    | (s, .inr ws) => .next (s.complete c walkSig { push := ws })
  | _ => .next s

/-! ### TLBW and TLBR -/

/-- TLBW ( tte fix -- ), a shadow writer (R230, R231). -/
def iTlbw : Ins :=
  { sig := { syl := 0x4085, rd := 2, takes := 2, priv := 1, noRep := true, noShadow := true, micro := true, depWalk := true,
             ban := some 5 }
    body := fun l => do
      let f := opd l 0
      let t := opd l 1
      check [{ w := f, pos := 0, ok := ty f == tFIX }, { w := t, pos := 1 }]
      let u ← tlbwEntry f t
      pure { shadow := u } }
def execTlbw (c : Fin 256) (s : State) : Ans := .next (issue c iTlbw s)

/-- TLBR ( fix -- any fix1 fix2 ) (R232). -/
def iTlbr : Ins :=
  { sig := { syl := 0x4086, rd := 1, takes := 1, leaves := 3, priv := 1, noRep := true, micro := true, depWalk := true,
             ban := some 5 }
    body := fun l => do
      let f := opd l 0
      check [{ w := f, pos := 0, ok := ty f == tFIX }]
      let ws ← tlbrWords f
      pure { push := ws } }
def execTlbr (c : Fin 256) (s : State) : Ans := .next (issue c iTlbr s)

/-! ### TLBI -/

/-- TLBI.VA and TLBI.VAW (R238, R239). -/
def purgeVa (k : Core) (f1 f2 : W64) (path : Bool) : Purge :=
  let w := k.psw.w
  let vmid := bits k.sr.vmid 7 0
  let isI := bit f1 48
  let a := bits f1 47 0
  let input := if isI then a / 4 else a
  let asid := bits f2 15 0
  let all := bit f2 16
  { leaf := fun sp u => sp == isI && reachLeaf w vmid u && u.covers input && (all || bit u.tte 15 || u.asid == asid)
    wc1 := fun e => path && e.isI == isI && reachWc w vmid e && e.key == input / 2 ^ e.sh && (all || e.asid == asid)
    s2 := fun _ => false }

/-- TLBI.ASID. -/
def purgeAsid (k : Core) (f1 : W64) : Purge :=
  let w := k.psw.w
  let vmid := bits k.sr.vmid 7 0
  { leaf := fun _ u => reachLeaf w vmid u && !(bit u.tte 15) && u.asid == bits f1 15 0
    wc1 := fun e => reachWc w vmid e && e.asid == bits f1 15 0
    s2 := fun _ => false }

/-- TLBI.VMID. -/
def purgeVmid (f1 : W64) : Purge :=
  { leaf := fun _ u => !u.world && u.vmid == bits f1 7 0
    wc1 := fun e => !e.world && e.vmid == bits f1 7 0
    s2 := fun v => v == bits f1 7 0 }

/-- A TLBI with `n` operands, the scope in S0 (R68, R238, R240): core scope completes at once, a wider scope when every
structure has acknowledged (TLBI_COMPLETE). -/
def tlbiIns (syl n priv : Nat) (p : Core → List TWord → Purge) : Ins :=
  { sig := { syl := syl, rd := n, takes := n, priv := priv, noRep := true, micro := true, ban := some 5 }
    body := fun l => do
      let sc := opd l 0
      check [{ w := sc, pos := 0, ok := ty sc == tFIX }]
      if 0 ≤ fixVal sc ∧ fixVal sc ≤ 2 then pure () else raise (tIllegal 1)
      check ((l.drop 1).zipIdx.map (fun (x : TWord × Nat) => ({ w := x.1, pos := x.2 + 1, ok := ty x.1 == tFIX } : Opd)))
      let k ← getCore
      let scope := sc.datum.toNat
      drainMine
      updS (fun s c => s.tlbi c scope (p k l))
      if scope = 0 then pure {} else throw (.wait (.tlbi syl n scope)) }

/-- TLBI.VA ( fix1 fix2 fix3 -- ) (R238, R239). -/
def iTlbiVa : Ins := tlbiIns 0x4080 3 1 (fun k l => purgeVa k (opd l 2).datum (opd l 1).datum false)
def execTlbiVa (c : Fin 256) (s : State) : Ans := .next (issue c iTlbiVa s)

/-- TLBI.VAW ( fix1 fix2 fix3 -- ) (R238, R239). -/
def iTlbiVaw : Ins := tlbiIns 0x4081 3 1 (fun k l => purgeVa k (opd l 2).datum (opd l 1).datum true)
def execTlbiVaw (c : Fin 256) (s : State) : Ans := .next (issue c iTlbiVaw s)

/-- TLBI.ASID ( fix1 fix2 -- ) (R238, R239). -/
def iTlbiAsid : Ins := tlbiIns 0x4082 2 1 (fun k l => purgeAsid k (opd l 1).datum)
def execTlbiAsid (c : Fin 256) (s : State) : Ans := .next (issue c iTlbiAsid s)

/-- TLBI.VMID ( fix1 fix2 -- ), Backstage supervisor only (R238, R239). -/
def iTlbiVmid : Ins := tlbiIns 0x4083 2 2 (fun _ l => purgeVmid (opd l 1).datum)
def execTlbiVmid (c : Fin 256) (s : State) : Ans := .next (issue c iTlbiVmid s)

/-- TLBI.ALL ( fix -- ) (R238, R239). -/
def iTlbiAll : Ins := tlbiIns 0x4084 1 1 (fun k _ => purgeAll k)
def execTlbiAll (c : Fin 256) (s : State) : Ans := .next (issue c iTlbiAll s)

/-- Reads that a core has issued are still to be delivered (R140, R390). -/
def Core.reading (k : Core) : Bool :=
  !(k.pend.all (fun p => p.arrived)) || (match k.wait with | some (.hostRead _ _) => true | some .miss => true | _ => false)

/-- A core has acknowledged an invalidation (R240): its stores are visible and its reads delivered; one that is held or in Curtain
acknowledges at once. -/
def State.acked (s : State) (h : Nat) : Bool :=
  ((s.core h).mem.sq.isEmpty && !(s.core h).reading) || !(s.present h) || (match (s.core h).run with | .held => true | .curtain => true | _ => false)

/-- TLBI_COMPLETE (R240): every core of the scope makes its stores visible, and the waiting TLBI retires. -/
def execTlbiComplete (c : Fin 256) (s : State) : Ans :=
  match (s.core c).wait with
  | some (.tlbi syl n scope) =>
    let l := s.scopeCores c scope
    let s := l.foldl (fun s h => s.drainAll h) s
    if l.all s.acked then .next (s.complete c { syl := syl, takes := n, micro := true } {}) else .next s
  | _ => .next s

end Sys2Proof.Machine
end

