-- ==== Sys2Proof/Machine/Maint.lean ====
section
/-! DEFINITION. Cache maintenance (R253, R270-R274), wings memory (R254, R255), and the steps of the store queue, the misses,
the cluster cache and the Usher that happen on their own (R140, R248, R261, R264, R320). -/

namespace Sys2Proof.Machine

open Sys2Proof

/-- A maintenance instruction by address (R271): `kind` is the access it is checked as; the action sees the line of NORMAL
memory only. -/
def maintIns (syl priv : Nat) (kind : Acc) (act : State → Nat → Nat → State) : Ins :=
  { sig := { syl := syl, rd := 1, takes := 1, priv := priv, micro := true, ban := some 5 }
    body := fun l => do
      check [locOpd (opd l 0) 0 (kind == .write)]
      let lf ← xlate (adr (opd l 0)) kind
      if 2 ≤ lf.mt || place lf.pa == .wings then pure {}
      else do
        drainMine
        updS (fun s c => act s c (lineOf lf.pa))
        pure {} }

/-- CLEAN ( loc -- ) (R270). -/
def iClean : Ins := maintIns 0x4040 0 .read (fun s _ line => s.cleanLine line)
def execClean (c : Fin 256) (s : State) : Ans := .next (issue c iClean s)

/-- FLUSH ( loc -- ) (R270). -/
def iFlush : Ins := maintIns 0x4041 0 .read (fun s _ line => s.flushLine line)
def execFlush (c : Fin 256) (s : State) : Ans := .next (issue c iFlush s)

/-- INVAL ( loc -- ) (R270, R272). -/
def iInval : Ins := maintIns 0x4042 1 .write (fun s c line => s.dropLine (clusterOf c) line)
def execInval (c : Fin 256) (s : State) : Ans := .next (issue c iInval s)

/-- IINVAL ( code -- ) (R253, R271). -/
def iIinval : Ins :=
  { sig := { syl := 0x4043, rd := 1, takes := 1, micro := true, ban := some 5 }
    body := fun l => do
      let w := opd l 0
      check [{ w := w, pos := 0, code := true, ok := ty w == tCODE }]
      let lf ← xlate (adr w) .fetch
      drainMine
      updS (fun s _ => { s with cores := s.cores.map (fun k => k.dropI (lineOf lf.pa)) })
      pure {} }
def execIinval (c : Fin 256) (s : State) : Ans := .next (issue c iIinval s)

/-- A slot number (R255). -/
def slotOpd (w : TWord) : Opd := { w := w, pos := 0, ok := ty w == tFIX && decide (0 ≤ fixVal w) && decide (fixVal w ≤ 31) }

/-- The frame that LOCK binds (R255): a free one, or one given up, its dirty sectors written back. -/
def State.takeFrame (s : State) (c : Nat) : State × Nat :=
  let k := s.core c
  match k.freeFrame with
  | some i => (s, i)
  | none =>
    match k.mem.dframes[Config.victim s.free % Nat.max k.mem.dframes.length 1]? with
    | some v => (({ s with free := s.free + 1 } : State).evictFrame c v, v.idx)
    | none => (s, 0)

/-- LOCK ( fix -- ) (R255). -/
def iLock : Ins :=
  { sig := { syl := 0x4044, rd := 1, takes := 1, priv := 1, noRep := true, micro := true, ban := some 5 }
    body := fun l => do
      let w := opd l 0
      check [slotOpd w]
      let slot := w.datum.toNat
      let k ← getCore
      match k.mem.wings.find? (fun x => x.slot == slot) with
      | some x => if x.world == k.psw.w then pure {} else raise (tProt 7 0)
      | none => do
        updS (fun s c =>
          let (s, i) := s.takeFrame c
          s.modCore c (fun k => { k with mem := { k.mem with
            wings := { slot := slot, frame := i, world := k.psw.w, words := List.replicate 32 wEMPTY } :: k.mem.wings } }))
        pure {} }
def execLock (c : Fin 256) (s : State) : Ans := .next (issue c iLock s)

/-- UNLOCK ( fix -- ) (R255). -/
def iUnlock : Ins :=
  { sig := { syl := 0x4045, rd := 1, takes := 1, priv := 1, noRep := true, micro := true, ban := some 5 }
    body := fun l => do
      let w := opd l 0
      check [slotOpd w]
      let slot := w.datum.toNat
      let k ← getCore
      match k.mem.wings.find? (fun x => x.slot == slot) with
      | some x =>
        if x.world == k.psw.w then do
          modMe (fun k => { k with mem := { k.mem with wings := k.mem.wings.filter (fun x => x.slot != slot) } })
          pure {}
        else raise (tProt 7 0)
      | none => pure {} }
def execUnlock (c : Fin 256) (s : State) : Ans := .next (issue c iUnlock s)

/-- An instruction without operands on the issuing core's caches. -/
def allIns (syl : Nat) (act : State → Nat → State) : Ins :=
  { sig := { syl := syl, priv := 1, noRep := true, micro := true, ban := some 5 }
    body := fun _ => do
      drainMine
      updS act
      pure {} }

/-- CLEAN.ALL ( -- ) (R270). -/
def iCleanAll : Ins := allIns 0x4046 State.cleanAll
def execCleanAll (c : Fin 256) (s : State) : Ans := .next (issue c iCleanAll s)

/-- FLUSH.ALL ( -- ) (R270). -/
def iFlushAll : Ins := allIns 0x4047 (fun s c =>
  (s.cleanAll c).modCore c (fun k => { k with mem := { k.mem with dframes := [] } }))
def execFlushAll (c : Fin 256) (s : State) : Ans := .next (issue c iFlushAll s)

/-- IINVAL.ALL ( -- ) (R270). -/
def iIinvalAll : Ins := allIns 0x4048 (fun s c => s.modCore c (fun k => { k with mem := { k.mem with iframes := [], fbuf := none } }))
def execIinvalAll (c : Fin 256) (s : State) : Ans := .next (issue c iIinvalAll s)

/-! ### Steps of their own -/

/-- SATB_BUFFER_FLUSH (R320): a core's buffer goes to the SATB queue when it has room, and a store that waited for room issues
again. -/
def execSatbBufferFlush (c : Fin 256) (s : State) : Ans :=
  let s := s.flushSatb c
  .next (if (s.core c).wait == some .satb && (s.core c).mem.satb.length < 32 then s.modCore c (fun k => { k with wait := none })
    else s)

/-- The data of a core's misses has arrived (R140). -/
def Core.missData (k : Core) : Core :=
  let here (p : PendRes) : PendRes := { p with arrived := true }
  { k with wait := if k.wait == some .miss then none else k.wait, pend := k.pend.map here }

/-- MISS_DATA_ARRIVES (R140): the data of a core's misses arrives; a freeze for it ends. -/
def execMissDataArrives (c : Fin 256) (s : State) : Ans := .next (s.modCore c Core.missData)

/-- STORE_QUEUE_DRAIN (R248): the k-th queued store leaves the queue, where the order allows it. -/
def execStoreQueueDrain (c : Fin 256) (k : Nat) (s : State) : Ans := .next (s.drainAt c k)

/-- USHER_REQUEST (R264): the home slice serves a request of a cluster's engine for a line, in order of arrival; while a distributed
commit holds the line the request waits. -/
def execUsherRequest (cl : Fin 32) (pa : BitVec 48) (own : Bool) (u : Upset) (s : State) : Ans :=
  let s := s.usherUpset cl u
  if s.nClusters ≤ cl.val || !(match place pa.toNat with | .loc => true | .priv => true | .host => s.hostUp | _ => false) then .next s
  else .next (s.atHome (.usher cl (lineOf pa.toNat) own))

/-- CC_CTL_WAYDIS (R261). -/
def execCcCtlWaydis (cl : Fin 32) (ways : BitVec 16) (s : State) : Ans :=
  .next (if s.nClusters ≤ cl.val then s else s.ccWaydis cl (s.fld f_CC_CTL_WAYDIS cl) ways.toNat)

def execCcCtlFlush (cl : Fin 32) (s : State) : Ans := .next (if s.nClusters ≤ cl.val then s else s.ccFlush cl)

end Sys2Proof.Machine
end

