-- ==== Sys2Proof/Machine/Scenes.lean ====
section
/-! DEFINITION. The Scene instructions (R281-R287, R299, R300, R305). -/

namespace Sys2Proof.Machine

open Sys2Proof

/-- The operands of SCENE and SCENE.S (R282): flags S0, abort handler S1. -/
def sceneOpds (l : List TWord) : List Opd :=
  [{ w := opd l 0, pos := 0, ok := ty (opd l 0) == tFIX && decide ((opd l 0).datum.toNat ≤ 1) },
   { w := opd l 1, pos := 1, ok := ty (opd l 1) == tCODE && hiZero (opd l 1) }]

/-- Step 3 of R283. -/
def checkpoint (k : Core) (handler : Nat) : Checkpoint := { handler := handler, stk := k.stk, sr := k.sr, lp := k.psw.lp }

/-- Begin a Scene (R283), with KEEPAGE and SHORT. -/
def beginScene (handler : Nat) (keep short : Bool) : M Unit := do
  landEarly
  drainMine
  dropOps 2
  let k ← getCore
  let now ← askS (fun s _ => w64 s.time)
  if keep && k.scene.av then pure () else updS (fun s c => s.setReg .CORE_SCAGE c now)
  modMe (fun k => { k with
    psw := { k.psw with sc := true, depth := 1, ss := short }
    scene := { k.scene with ck := some (checkpoint k.applyShadow handler), stat := 0, reads := [], wbuf := [], count := 0, nodes := [],
                            phase := 0, yes := [], hideWin := false } })

/-- SCENE and SCENE.S (R283, R284). -/
def sceneIns (syl : Nat) (short : Bool) : Ins :=
  { sig := { syl := syl, rd := 2, wlc := true, micro := true }
    body := fun l => do
      check (sceneOpds l)
      let k ← getCore
      if !k.psw.sc then do
        beginScene (adr (opd l 1)) (bit (opd l 0).datum 0) short
        pure {}
      else if 15 ≤ k.psw.depth then throw (.abort { code := 8 })
      else do
        dropOps 2
        modMe (fun k => { k with psw := { k.psw with depth := k.psw.depth + 1 } })
        pure {} }

/-- SCENE ( code fix -- ) (R283). -/
def iScene : Ins := sceneIns 0xD000 false
def execScene (c : Fin 256) (s : State) : Ans := .next (issue c iScene s)

/-- SCENE.S ( code fix -- ) (R299). -/
def iSceneS : Ins := sceneIns 0xD004 true
def execSceneS (c : Fin 256) (s : State) : Ans := .next (issue c iSceneS s)

/-- Under REPLAY a commit is what the log holds (R308, R450): the SCENE record is consumed, and any other record stops the
replay. -/
def replayCommit : M Unit := do
  let rp ← askS (fun s _ => s.mode mREPLAY)
  if !rp then pure ()
  else do
    let k ← getCore
    match nextVal k.chunk.vals with
    | some (r, rest) =>
      if r.q0 / 2 ^ 60 % 16 == 5 && bits (w64 r.q1) 3 0 == 0 then
        updS (fun s c => s.modChunk c (fun x => { x with vals := rest }))
      else throw (.wait .replay)
    | none => throw (.wait .replay)

/-- CURTAIN ( -- ) (R284, R300, R305). -/
def iCurtain : Ins :=
  { sig := { syl := 0xD001, wlc := true, micro := true }
    body := fun _ => do
      let k ← getCore
      if !k.psw.sc then pure {}
      else if 1 < k.psw.depth then do
        modMe (fun k => { k with psw := { k.psw with depth := k.psw.depth - 1 } })
        pure {}
      else do
        drainMine
        let rp ← askS (fun s _ => s.mode mREPLAY)
        if rp || k.scene.nodes.isEmpty then do
          replayCommit
          updS (fun s c => s.commitScene c)
          pure {}
        else do
          updS (fun s c => s.prepare c)
          throw (.wait .curtain) }
def execCurtain (c : Fin 256) (s : State) : Ans := .next (issue c iCurtain s).settle

/-- CUT ( fix -- ) (R281, R286). -/
def iCut : Ins :=
  { sig := { syl := 0xD002, rd := 1, takes := 1, wlc := true, micro := true }
    body := fun l => do
      check [fixOpd (opd l 0) 0]
      let k ← getCore
      if k.psw.sc then throw (.abort { code := 6, arg := bits (opd l 0).datum 15 0 }) else pure {} }
def execCut (c : Fin 256) (s : State) : Ans := .next (issue c iCut s)

/-- SCSTAT ( -- fix ) (R287). -/
def iScstat : Ins :=
  { sig := { syl := 0xD003, leaves := 1, noRep := true, micro := true }
    body := fun _ => do
      let k ← getCore
      pure { push := [fixW k.sceneStat] } }
def execScstat (c : Fin 256) (s : State) : Ans := .next (issue c iScstat s)

end Sys2Proof.Machine
end

