-- ==== Sys2Proof/Machine/Remote.lean ====
section
/-! DEFINITION. The remote instructions (R369-R373) and the collector instructions (R318, R319, R324, R332). -/

namespace Sys2Proof.Machine

open Sys2Proof

/-- A syllable that faults, or that waits for a held line, has had none of its effects (R51). -/
def undone {α : Type} (m : M α) : M α := fun c s =>
  match m c s with
  | .error (.trap t) _ => .error (.trap t) s
  | .error (.wait (.line l)) _ => .error (.wait (.line l)) s
  | r => r

/-- The obj operand of the remote instructions (R369): an RREF or a PROXY. -/
def remoteOpd (w : TWord) (pos : Nat) (st : Bool) : Opd :=
  { w := w, pos := pos, deref := true, rref := true, store := st && ty w == tPROXY, ok := ty w == tRREF || ty w == tPROXY }

/-- The RREF that obj names, and FAULTADDR for its failures (R369, R375). -/
def remoteRef (w : TWord) : M (TWord × Nat) := do
  if ty w == tRREF then pure (w, 0)
  else do
    let p ← resolve w 1
    let (a, h) ← hdrOf p false
    if hdrFits tPROXY h then do
      let r ← load (a + 1) false
      check [{ w := r, pos := 15, addr := a + 1, rref := true, ok := ty r == tRREF }]
      pure (r, adr p)
    else memFault sBADHDR h a

/-- The node of an RREF (R30). -/
def refNode (r : TWord) : Nat := bits r.datum 63 50

/-- A place among the 4,096 outstanding requests, or the core freezes (R377). -/
def reqRoom : M Unit := do
  let full ← askS (fun s _ => decide (4096 ≤ s.tour.reqs.length))
  if full then throw (.wait .outHold) else pure ()

/-- Sequence state for a reliable message, or the core freezes (R377). -/
def peerRoom (node : Nat) : M Unit := do
  let ok ← askS (fun s _ => s.peerFree node)
  if ok then pure () else throw (.wait .outHold)

/-- The target becomes a participant of the Scene (R303). -/
def joinNode (node : Nat) : M Unit := do
  let k ← getCore
  if !k.psw.sc || k.scene.nodes.contains node then pure ()
  else if 8 ≤ k.scene.nodes.length then throw (.abort { code := 9, detail := 2, node := node })
  else modMe (fun k => { k with scene := { k.scene with nodes := k.scene.nodes ++ [node] } })

/-- Send a request (R369, R370): it becomes outstanding under a new tag. -/
def sendReq (type : Nat) (kind : ReqKind) (r : TWord) (addr idx : Nat) (val : List TWord) : M Nat := do
  let k ← getCore
  let c ← me
  let s ← get
  let (t, s) := s.newTag
  let sid := if k.psw.sc then [fixW (s.sceneId c)] else []
  let q : OutReq := { tag := t, core := c, kind := kind, node := refNode r, addr := addr, since := s.time, dist := k.psw.sc }
  let s := { s with tour := { s.tour with reqs := s.tour.reqs ++ [q] } }
  set (s.sendMsg { type := type, dest := refNode r, src := s.node, dist := k.psw.sc, tag := t, arg := idx, units := r :: val ++ sid })
  pure t

/-- The next logged response under REPLAY (R450): its status, responding node and word. -/
def loggedReply : M (Nat × Nat × TWord) := do
  let k ← getCore
  match nextVal k.chunk.vals with
  | some (r, rest) =>
    if r.q0 / 2 ^ 60 % 16 == 4 then do
      updS (fun s c => s.modChunk c (fun x => { x with vals := rest }))
      let u (i : Nat) : Nat := r.units.getD i 0
      pure (u 1 % 256, u 0 / 2 ^ 22 % 2 ^ 14, ⟨BitVec.ofNat 8 (u 3), w64 (u 2)⟩)
    else throw (.wait .replay)
  | none => throw (.wait .replay)

/-- A logged response that failed (R298, R375). -/
def replyFault (st node addr : Nat) : M Unit := do
  let k ← getCore
  if st = 0 then pure ()
  else if k.psw.sc then throw (.abort { code := 9, detail := if st = 8 then 3 else 0, node := node })
  else raise { vec := 21, sub := st, addr := addr, xinfo := node }

/-- Open a new export entry for a FUTURE (R373), or collector assist EXPFULL. -/
def exportNew (va weight : Nat) : M Nat := do
  let f ← askS (fun s _ => s.expFree)
  match f with
  | none => raise { vec := 12, sub := 2 }
  | some i => do
    updS (fun s _ => s.expOpen i va weight false tFUTURE)
    pure i

/-- Make a FUTURE (R103, R373) exported with a weight: its pointer, its entry, and its request identifier at +2. -/
def newFuture (weight : Nat) : M (TWord × Nat) := do
  let p ← allocObj tFUTURE 0 [wEMPTY, wEMPTY]
  let i ← exportNew (adr p) weight
  let id ← askS (fun s _ => setBits (s.rref i 0 false).datum 35 35 1)
  initStore (adr p + 2) (fixW id) false
  pure (p, i)

/-- RFETCH ( obj fix -- any ) (R369). -/
def iRfetch : Ins :=
  { sig := rfetchSig
    body := fun l => undone do
      let f := opd l 0
      check [{ w := f, pos := 0, ok := ty f == tFIX && bits f.datum 63 33 == 0 }, remoteOpd (opd l 1) 1 false]
      let (r, a) ← remoteRef (opd l 1)
      let k ← getCore
      let rp ← askS (fun s _ => s.mode mREPLAY)
      let idx := bits f.datum 31 0
      if bit f.datum 32 && !k.psw.sc then do
        if rp then pure () else reqRoom
        let (p, i) ← newFuture 1
        drainMine
        let _ ← sendReq 1 (.future i) r a idx []
        pure { push := [p] }
      else if rp then do
        let (st, node, w) ← loggedReply
        replyFault st node a
        joinNode (refNode r)
        pure { push := [w] }
      else do
        joinNode (refNode r)
        reqRoom
        let t ← sendReq 1 .fetch r a idx []
        throw (.wait (.rfetch t)) }
def execRfetch (c : Fin 256) (s : State) : Ans := .next (issue c iRfetch s).settle

/-- RSTORE ( any obj fix -- ) (R370). -/
def iRstore : Ins :=
  { sig := rstoreSig
    body := fun l => undone do
      let f := opd l 0
      let v := opd l 2
      check [{ w := f, pos := 0, ok := ty f == tFIX && bits f.datum 63 32 == 0 }, remoteOpd (opd l 1) 1 true,
             { w := v, pos := 2, ok := travels (ty v) }]
      let (r, a) ← remoteRef (opd l 1)
      let rp ← askS (fun s _ => s.mode mREPLAY)
      if rp then do
        let (st, node, _) ← loggedReply
        replyFault st node a
        joinNode (refNode r)
        pure {}
      else do
        joinNode (refNode r)
        reqRoom
        let t ← sendReq 3 .store r a (bits f.datum 31 0) [v]
        throw (.wait (.rstore t)) }
def execRstore (c : Fin 256) (s : State) : Ans := .next (issue c iRstore s).settle

/-- A word that leaves the device as a value or an argument, as R40 checks it (R365). -/
def sendOpd (w : TWord) (pos : Nat) : M Opd := do
  let heap ← askS (fun s c => exportable (s.cuptr c) (ty w) && s.heapPtr c w)
  pure { w := w, pos := pos, deref := true, ok := travels (ty w) || ty w == tPROXY || heap }

/-- Words that leave the device, at positions from p on. -/
def sendOpds (p : Nat) : List TWord → M (List Opd)
  | [] => pure []
  | w :: l => do
    let o ← sendOpd w p
    let r ← sendOpds (p + 1) l
    pure (o :: r)

/-- Convert a word that leaves the device (R365); its checks have been made. -/
def sendWord (w : TWord) (pos : Nat) : M TWord := do
  if travels (ty w) then pure w
  else if ty w == tPROXY then do
    let p ← resolve w pos
    let (a, h) ← hdrOf p false
    if !(hdrFits tPROXY h) then memFault sBADHDR h a
    else do
      let r ← load (a + 1) false
      let n ← load (a + 2) false
      check [{ w := n, pos := 15, addr := a + 2, ok := ty n == tFIX }]
      if 2 ≤ n.datum.toNat then do
        let lf ← xlate (a + 2) .write
        writeNow (a + 2) lf (fixN (n.datum.toNat - 2 ^ splitExp n.datum.toNat))
        pure (splitRref r (kBit w) n.datum.toNat)
      else do
        let s ← get
        match s.exportPtr { w with datum := w64 (adr p) } true with
        | .inl sub => raise { vec := 12, sub := sub }
        | .inr (x, s) => do
          set s
          pure x
  else do
    let p ← resolve w pos
    let s ← get
    match s.exportPtr p false with
    | .inl sub => raise { vec := 12, sub := sub }
    | .inr (x, s) => do
      set s
      pure x

/-- Convert a list of words at positions from p on. -/
def sendWords (p : Nat) : List TWord → M (List TWord)
  | [] => pure []
  | w :: l => do
    let x ← sendWord w p
    let r ← sendWords (p + 1) l
    pure (x :: r)

/-- RINVOKE ( x1 … xk obj fix -- future ) (R371). -/
def iRinvoke : Ins :=
  { sig := { syl := 0xD012, rd := 2, leaves := 1, noRep := true, micro := true, depAlloc := true, ban := some 6 }
    body := fun l => undone do
      let f := opd l 0
      let good := ty f == tFIX && decide (0 ≤ fixVal f) && decide (fixVal f ≤ 6)
      let n := if good then f.datum.toNat else 0
      underflow (n + 2)
      strictArgs 2 n
      let xs ← operandsFrom 2 n
      let os ← sendOpds 2 xs
      check ({ w := f, pos := 0, ok := good } :: remoteOpd (opd l 1) 1 false :: os)
      let (r, _) ← remoteRef (opd l 1)
      peerRoom (refNode r)
      let args ← sendWords 2 xs
      let e ← askS (fun s _ => s.fld f_COL_CTL_WSEND 0)
      let (p, i) ← newFuture (2 ^ e)
      drainMine
      let rep ← askS (fun s _ => s.rref i e false)
      let k ← getCore
      updS (fun s c => s.sendReliable { type := 5, dest := refNode r, src := s.node, arg := n, units := r :: rep :: args.reverse }
        (some (c, k.psw.w)))
      dropOps (n + 2)
      pure { push := [p] } }
def execRinvoke (c : Fin 256) (s : State) : Ans := .next (issue c iRinvoke s).settle

/-- RSEND ( any obj fix -- ) (R372). -/
def iRsend : Ins :=
  { sig := { syl := 0xD013, rd := 3, takes := 3, noRep := true, micro := true, ban := some 6 }
    body := fun l => undone do
      let f := opd l 0
      let o := opd l 1
      let res := bit f.datum 16
      let vo ← sendOpd (opd l 2) 2
      check [{ w := f, pos := 0, ok := ty f == tFIX && bits f.datum 63 17 == 0 },
             { remoteOpd o 1 false with ok := ty o == tRREF || (ty o == tPROXY && !res) }, vo]
      let (r, _) ← remoteRef o
      peerRoom (refNode r)
      let v ← sendWord (opd l 2) 2
      drainMine
      let k ← getCore
      updS (fun s c => s.sendReliable
        (if res then { type := 7, dest := refNode r, src := s.node, units := [r, fixN (2 ^ bits r.datum 41 36), v] }
         else { type := 6, dest := refNode r, src := s.node, arg := bits f.datum 15 0, units := [r, v] })
        (some (c, k.psw.w)))
      pure {} }
def execRsend (c : Fin 256) (s : State) : Ans := .next (issue c iRsend s).settle

/-! ### Collector instructions -/

/-- Scan n words from va (R332): the count of heap pointers, each healed in place and, while MARKING, queued as a root. -/
def scanWords (n va : Nat) : M Nat :=
  match n with
  | 0 => pure 0
  | n + 1 => do
    let lf ← xlate va .write
    let w ← readWord va lf false true
    let hp ← askS (fun s c => s.heapPtr c w && hiZero w)
    if !hp then scanWords n (va + 1)
    else do
      let st ← isStale w
      let h ← (if st then heal w else pure w)
      if st then writeNow va lf h else pure ()
      let marking ← askS (fun s _ => s.colOn && s.phase == phMARKING)
      if marking then do
        let b ← ptrBase h
        updS (fun s _ => s.colRootq b)
      else pure ()
      let m ← scanWords n (va + 1)
      pure (m + 1)

/-- SCANSTACK ( loc fix1 -- fix2 ) (R332). -/
def iScanstack : Ins :=
  { sig := { syl := 0xD020, rd := 2, takes := 2, leaves := 1, priv := 1, noRep := true, micro := true, ban := some 6 }
    body := fun l => do
      let f := opd l 0
      check [{ w := f, pos := 0, ok := ty f == tFIX && decide (1 ≤ fixVal f) && decide (fixVal f ≤ 64) }, locOpd (opd l 1) 1 false]
      let p ← resolve (opd l 1) 1
      let n ← scanWords f.datum.toNat (adr p)
      pure { push := [fixN n] } }
def execScanstack (c : Fin 256) (s : State) : Ans := .next (issue c iScanstack s)

/-- BARRIER ( any -- any ) (R324): steps 1-3 of the load barrier on S0. -/
def iBarrier : Ins :=
  { sig := { syl := 0xD021, rd := 1, takes := 1, leaves := 1, noRep := true, micro := true }
    body := fun l => do
      check (plain 0 [opd l 0])
      let w ← resolve (opd l 0) 0
      pure { push := [w] } }
def execBarrier (c : Fin 256) (s : State) : Ans := .next (issue c iBarrier s)

/-- CARD ( loc -- ) (R319): checked as a read under checks 1-6 of R226. -/
def iCard : Ins :=
  { sig := { syl := 0xD022, rd := 1, takes := 1, noRep := true, micro := true }
    body := fun l => do
      check [locOpd (opd l 0) 0 false]
      let p ← resolve (opd l 0) 0
      noteData
      let k ← getCore
      match xlateCore k (adr p) .read 6 with
      | .inl t => raise t
      | .inr _ => do
        let on ← askS (fun s _ => s.colOn)
        if on then markMine (adr p) else pure ()
        pure {} }
def execCard (c : Fin 256) (s : State) : Ans := .next (issue c iCard s)

/-- PACE ( -- fix ) (R318): grants in the pool, or -1 when refills need none. -/
def iPace : Ins :=
  { sig := { syl := 0xD023, leaves := 1, noRep := true, micro := true }
    body := fun _ => do
      let v ← askS (fun s _ => if s.refillFree then BitVec.ofInt 64 (-1) else w64 s.col.grants)
      let (v, _) ← ndval 3 v []
      pure { push := [fixW v] } }
def execPace (c : Fin 256) (s : State) : Ans := .next (issue c iPace s)

end Sys2Proof.Machine
end

