-- ==== Sys2Proof/Machine/Stepped.lean ====
section
/-! DEFINITION. The stepped instructions COPYVEC, FILLVEC, EQUAL, ASSQ, MEMQ and NREVERSE (R105-R111). One command handles
`steps` elements; the instruction goes on at the next command (R105: the length of a step is not architectural). -/

namespace Sys2Proof.Machine

open Sys2Proof

/-- Set PG0-PG3. -/
def setPg (a b c d : TWord) : M Unit :=
  modMe (fun k => { k with sr := { k.sr with pg0 := a, pg1 := b, pg2 := c, pg3 := d } })

/-- First issue: starting values and PSW.STEP (R105). -/
def startStep (a b c d : TWord) : M Unit := do
  setPg a b c d
  modMe (fun k => { k with psw := { k.psw with step := true } })

/-- Run elements until the result is known or the step ends. -/
def runSteps (fuel : Nat) (elem : M (Option (List TWord))) : M Out :=
  match fuel with
  | 0 => pure { push := [], flow := .stay }
  | fuel + 1 => do
    let r ← elem
    match r with
    | some l => pure { push := l }
    | none => runSteps fuel elem

/-- A stepped instruction: checks and starting values at first issue, then its elements (R105). -/
def steppedIns (syl n out steps : Nat) (init : List TWord → M Unit) (elem : List TWord → M (Option (List TWord))) : Ins :=
  { sig := { syl := syl, rd := n, takes := n, leaves := out, micro := true, noRep := true, noShadow := true }
    body := fun l => do
      let k ← getCore
      if k.psw.step then pure () else init l
      runSteps steps (elem l) }

/-- The unit of COPYVEC and FILLVEC is the byte for STR and BVEC (R107). -/
def byteUnit (t : Nat) : Bool := t == tSTR || t == tBVEC

/-- Units in an object. -/
def unitsOf (t : Nat) (h : TWord) : Nat := vlenOf t h

/-- A range [i, i + n) fits in an object of u units. -/
def rangeFits (i n : Int) (u : Nat) : Bool := decide (0 ≤ i) && decide (i + n ≤ u)

/-- Replace byte i mod 8 of a datum. -/
def putByte (d : W64) (i b : Nat) : W64 := setBits d (8 * (i % 8) + 7) (8 * (i % 8)) b

/-- Byte i mod 8 of a datum. -/
def getByte (d : W64) (i : Nat) : Nat := bits d (8 * (i % 8) + 7) (8 * (i % 8))

/-- Write byte i of the object at a. -/
def storeByte (a i b : Nat) : M Unit := do
  let w ← load (a + 1 + i / 8) false
  checkMem w (a + 1 + i / 8)
  store (a + 1 + i / 8) ⟨0, putByte w.datum i b⟩ true false

/-- COPYVEC ( obj1 fix1 obj2 fix2 fix3 -- ): the checks of first issue (R107). -/
def copyInit (l : List TWord) : M Unit := do
  let cu ← askS (fun s c => s.cuptr c)
  let o1 := headedOpd cu (opd l 4) 4 false
  check [fixOpd (opd l 0) 0, fixOpd (opd l 1) 1, headedOpd cu (opd l 2) 2 true, fixOpd (opd l 3) 3,
         { o1 with ok := o1.ok && ty (opd l 2) == ty (opd l 4) }]
  let n := fixVal (opd l 0)
  let t := ty (opd l 4)
  if n < 0 then typeFault sBOUNDS (opd l 0) 0 else pure ()
  let (a1, h1) ← objHdr (opd l 4) 4 false
  let (a2, h2) ← objHdr (opd l 2) 2 false
  if !(rangeFits (fixVal (opd l 3)) n (unitsOf t h1)) then typeFault sBOUNDS (opd l 3) 3
  else if !(rangeFits (fixVal (opd l 1)) n (unitsOf t h2)) then typeFault sBOUNDS (opd l 1) 1
  else startStep (fixN 0) (fixN (b2n (a1 == a2 && decide (fixVal (opd l 3) < fixVal (opd l 1))))) (fixN 0) (fixN 0)

/-- One unit of COPYVEC. The counts in PG0 and PG1 are taken from their datum whatever their tag (log entry 90, DESIGN CHOICE). -/
def copyElem (l : List TWord) : M (Option (List TWord)) := do
  let k ← getCore
  let n := fixVal (opd l 0)
  let done := fixVal k.sr.pg0
  if n ≤ done then pure (some [])
  else do
    let p1 ← resolve (opd l 4) 4
    let p2 ← resolve (opd l 2) 2
    let (a1, _) ← hdrOf p1 false
    let (a2, _) ← hdrOf p2 false
    let j := if fixVal k.sr.pg1 = 1 then n - 1 - done else done
    let i1 := (fixVal (opd l 3) + j).toNat
    let i2 := (fixVal (opd l 1) + j).toNat
    if byteUnit (ty (opd l 4)) then do
      let w ← load (a1 + 1 + i1 / 8) false
      checkMem w (a1 + 1 + i1 / 8)
      storeByte a2 i2 (getByte w.datum i1)
    else do
      let w ← load (a1 + 1 + i1) false
      if !k.psw.l && (ty w == tHDR || ty w == tFWD) then memFault sHDRSTORE w (a1 + 1 + i1) else pure ()
      store (a2 + 1 + i2) w true false
    modMe (fun k => { k with sr := { k.sr with pg0 := fixI (done + 1) } })
    pure none

/-- COPYVEC (R107). -/
def iCopyvec (steps : Nat) : Ins := steppedIns 0x3020 5 0 steps copyInit copyElem
def execCopyvec (c : Fin 256) (steps : Nat) (s : State) : Ans := .next (issue c (iCopyvec steps) s)

/-- FILLVEC ( obj fix1 fix2 any -- ): the checks of first issue (R107). -/
def fillInit (l : List TWord) : M Unit := do
  let cu ← askS (fun s c => s.cuptr c)
  let t := ty (opd l 3)
  let v := opd l 0
  let vo : List Opd :=
    if byteUnit t then [{ w := v, pos := 0, ok := ty v == tFIX && v.datum.toNat ≤ 255 }]
    else if t == tBIG then [{ w := v, pos := 0, ok := ty v == tRAW }] else []
  check (vo ++ [movedOpd v 0, fixOpd (opd l 1) 1, fixOpd (opd l 2) 2, headedOpd cu (opd l 3) 3 true])
  if fixVal (opd l 1) < 0 then typeFault sBOUNDS (opd l 1) 1 else pure ()
  let (_, h) ← objHdr (opd l 3) 3 false
  if !(rangeFits (fixVal (opd l 2)) (fixVal (opd l 1)) (unitsOf t h)) then typeFault sBOUNDS (opd l 2) 2
  else startStep (fixN 0) (fixN 0) (fixN 0) (fixN 0)

/-- One unit of FILLVEC. -/
def fillElem (l : List TWord) : M (Option (List TWord)) := do
  let k ← getCore
  let done := fixVal k.sr.pg0
  if fixVal (opd l 1) ≤ done then pure (some [])
  else do
    let p ← resolve (opd l 3) 3
    let (a, _) ← hdrOf p false
    let i := (fixVal (opd l 2) + done).toNat
    if byteUnit (ty (opd l 3)) then storeByte a i (bits (opd l 0).datum 7 0)
    else store (a + 1 + i) (opd l 0) true false
    modMe (fun k => { k with sr := { k.sr with pg0 := fixI (done + 1) } })
    pure none

/-- FILLVEC (R107). -/
def iFillvec (steps : Nat) : Ins := steppedIns 0x3021 4 0 steps fillInit fillElem
def execFillvec (c : Fin 256) (steps : Nat) (s : State) : Ans := .next (issue c (iFillvec steps) s)

/-- A word used as a pair or object by EQUAL. -/
def equalOpd (w : TWord) (pos addr : Nat) : Opd :=
  { w := w, pos := pos, addr := addr, deref := ty w == tCONS || byteUnit (ty w) }

/-- The current pair of EQUAL is equal: take the next pending pair, or answer TRUE (R108). -/
def equalPop : M (Option (List TWord)) := do
  let k ← getCore
  let n := fixVal k.sr.pg2
  if n ≤ 0 then pure (some [wTRUE])
  else do
    let y ← operandAt 0
    let x ← operandAt 1
    modMe (fun k => { k with stk := { k.stk with sp := va48 (k.stk.sp + 2), regs := k.stk.regs.drop 2 } })
    setPg x y (fixI (n - 1)) (fixN 0)
    pure none

/-- A mismatch in EQUAL: every pending pair is dropped (R108). -/
def equalFail : M (Option (List TWord)) := do
  let k ← getCore
  let n := 2 * (fixVal k.sr.pg2).toNat
  modMe (fun k => { k with stk := { k.stk with sp := va48 (k.stk.sp + n), regs := k.stk.regs.drop n } })
  pure (some [wNIL])

/-- Both words have a type that EQUAL descends into: CONS, STR or BVEC. -/
def bothDeep (x y : TWord) : Bool := ty x == ty y && (ty x == tCONS || byteUnit (ty x))

/-- One element of EQUAL (R107, R108): a pair's CARs, a word of a STR or BVEC, or an EQL comparison. Both CDRs are read and checked
before the CARs are compared (log entry 91, DESIGN CHOICE). -/
def equalElem (_ : List TWord) : M (Option (List TWord)) := do
  let k ← getCore
  let x := k.sr.pg0
  let y := k.sr.pg1
  let n := fixVal k.sr.pg2
  let i := (fixVal k.sr.pg3).toNat
  check [equalOpd y 15 0, equalOpd x 15 0]
  if eqWord x y then equalPop
  else if ty x == tCONS && ty y == tCONS then do
    let p ← resolve x
    let q ← resolve y
    let a ← load (adr p) false
    let b ← load (adr q) false
    check [equalOpd a 15 (adr p), equalOpd b 15 (adr q)]
    let d ← load (adr p + 1) false
    let e ← load (adr q + 1) false
    check [equalOpd d 15 (adr p + 1), equalOpd e 15 (adr q + 1)]
    if bothDeep a b then do
      spillFor 8 2
      modMe (fun k => { k with stk := { k.stk with sp := va48 ((k.stk.sp : Int) - 2), regs := b :: a :: k.stk.regs } })
      setPg d e (fixI (n + 1)) (fixN 0)
      pure none
    else do
      let same ← eql a b
      if same then do
        setPg d e (fixI n) (fixN 0)
        pure none
      else equalFail
  else if bothDeep x y then do
    let (a, h) ← objHdr x 15 false
    let (b, g) ← objHdr y 15 false
    if hdrLen h ≠ hdrLen g ∨ hdrSub h ≠ hdrSub g then equalFail
    else if hdrLen h ≤ i then equalPop
    else do
      let v ← load (a + 1 + i) false
      let w ← load (b + 1 + i) false
      checkMem v (a + 1 + i)
      checkMem w (b + 1 + i)
      if eqWord v w then do
        setPg x y (fixI n) (fixN (i + 1))
        pure none
      else equalFail
  else do
    let same ← eql x y
    if same then equalPop else equalFail

/-- EQUAL ( any1 any2 -- bool ) (R107, R108). -/
def iEqual (steps : Nat) : Ins := steppedIns 0x3022 2 1 steps
  (fun l => do
    check [equalOpd (opd l 0) 0 0, equalOpd (opd l 1) 1 0]
    startStep (opd l 1) (opd l 0) (fixN 0) (fixN 0)) equalElem
def execEqual (c : Fin 256) (steps : Nat) (s : State) : Ans := .next (issue c (iEqual steps) s)

/-- A list word read at an address, or held in PG0 (R109). -/
def tailOpd (w : TWord) (addr : Nat) : Opd :=
  { w := w, pos := 15, addr := addr, deref := true, ok := ty w == tCONS || ty w == tNIL }

/-- The next tail of a list, checked as it is read (R109). -/
def nextTail (p : TWord) : M TWord := do
  let t ← load (adr p + 1) false
  check [tailOpd t (adr p + 1)]
  pure t

/-- One element of ASSQ (R107, R109). -/
def assqElem (l : List TWord) : M (Option (List TWord)) := do
  let k ← getCore
  let r := k.sr.pg0
  check [tailOpd r 0]
  if ty r == tNIL then pure (some [wNIL])
  else do
    let p ← resolve r
    let e ← load (adr p) false
    check [tailOpd e (adr p)]
    let hit ← (if ty e == tNIL then pure false else do
      let q ← load (adr e) false
      checkMem q (adr e)
      pure (eqWord q (opd l 1)))
    if hit then pure (some [e])
    else do
      let t ← nextTail p
      setPg t (fixI (fixVal k.sr.pg1 + 1)) (fixN 0) (fixN 0)
      pure none

/-- ASSQ ( any list -- cons ) (R107). -/
def iAssq (steps : Nat) : Ins := steppedIns 0x3023 2 1 steps
  (fun l => do
    check [listOpd (opd l 0) 0, { w := opd l 1, pos := 1 }]
    startStep (opd l 0) (fixN 0) (fixN 0) (fixN 0)) assqElem
def execAssq (c : Fin 256) (steps : Nat) (s : State) : Ans := .next (issue c (iAssq steps) s)

/-- One element of MEMQ (R107, R109). -/
def memqElem (l : List TWord) : M (Option (List TWord)) := do
  let k ← getCore
  let r := k.sr.pg0
  check [tailOpd r 0]
  if ty r == tNIL then pure (some [wNIL])
  else do
    let p ← resolve r
    let e ← load (adr p) false
    checkMem e (adr p)
    if eqWord e (opd l 1) then pure (some [p])
    else do
      let t ← nextTail p
      setPg t (fixI (fixVal k.sr.pg1 + 1)) (fixN 0) (fixN 0)
      pure none

/-- MEMQ ( any list -- list ) (R107). -/
def iMemq (steps : Nat) : Ins := steppedIns 0x3024 2 1 steps
  (fun l => do
    check [listOpd (opd l 0) 0, { w := opd l 1, pos := 1 }]
    startStep (opd l 0) (fixN 0) (fixN 0) (fixN 0)) memqElem
def execMemq (c : Fin 256) (steps : Nat) (s : State) : Ans := .next (issue c (iMemq steps) s)

/-- One cell of NREVERSE (R107, R109, R111). K=1 on the list operand itself is found here, in the first step, with PSW.STEP=1
(log entry 92, DESIGN CHOICE). -/
def nreverseElem (_ : List TWord) : M (Option (List TWord)) := do
  let k ← getCore
  let r := k.sr.pg0
  let first := fixVal k.sr.pg2 == 0
  let o := tailOpd r (if first then 0 else adr k.sr.pg1 + 1)
  check [{ o with store := true, pos := if first then 0 else 15 }]
  if ty r == tNIL then pure (some [k.sr.pg1])
  else do
    let p ← resolve r
    let t ← nextTail p
    store (adr p + 1) k.sr.pg1 true false
    setPg t p (fixI (fixVal k.sr.pg2 + 1)) (fixN 0)
    pure none

/-- NREVERSE ( list1 -- list2 ) (R107, R111). -/
def iNreverse (steps : Nat) : Ins := steppedIns 0x3025 1 1 steps
  (fun l => do
    check [listOpd (opd l 0) 0]
    startStep (opd l 0) wNIL (fixN 0) (fixN 0)) nreverseElem
def execNreverse (c : Fin 256) (steps : Nat) (s : State) : Ans := .next (issue c (iNreverse steps) s)

end Sys2Proof.Machine
end

