-- ==== Sys2Proof/Machine/Coproc.lean ====
section
/-! DEFINITION. The Match and Lookup units (R338-R355). A CP0 or CP1 syllable checks its operands and freezes its core; the unit
works in turns (COPROCESSOR_TURN) and answers (COPROCESSOR_RESPONSE). -/

namespace Sys2Proof.Machine

open Sys2Proof

/-! ### Requests -/

/-- Count a request that begins (MATCH.REQ, LOOK.REQ). -/
def countReq (port : Nat) : M Unit :=
  updS (fun s c => s.bump (if port = 0 then .MATCH_REQ else .LOOK_REQ) (clusterOf c) 1)

/-- Where CP0 and CP1 syllables may stand (R73, R148, R338, R343). -/
def coprocSig (port op n out : Nat) (susp : Bool) : Sig :=
  { syl := 0xE800 + port * 256 + op, rd := n, takes := n, leaves := out, noRep := true, noShadow := susp, micro := true,
    depTrail := port == 0, port := some port }

/-- A CP0 or CP1 syllable (R338): its checks at first issue; the core's earlier stores become visible, since the unit is another agent
(R246, R277); then the core waits for the unit. -/
def coprocIns (port op n out : Nat) (susp : Bool) (init : List TWord → M Unit) : Ins :=
  { sig := coprocSig port op n out susp
    body := fun l => do
      let k ← getCore
      if k.psw.step then pure () else init l
      drainMine
      if k.psw.step then pure () else countReq port
      throw (.wait (.coproc port op none)) }

/-- A term operand (R342). -/
def termOpd (w : TWord) (pos : Nat) : Opd :=
  { w := w, pos := pos, deref := ty w == tVAR || ty w == tCONS || ty w == tSTRUCT || byteUnit (ty w) }

/-- The operands of UNIFY and MATCH (R343). -/
def unifyInit (l : List TWord) : M Unit := do
  let f := opd l 0
  check [{ w := f, pos := 0, ok := ty f == tFIX && decide (f.datum.toNat ≤ 1) }, termOpd (opd l 1) 1, termOpd (opd l 2) 2]

/-- UNIFY ( any1 any2 fix -- bool ) (R343, R345). -/
def iUnify : Ins := coprocIns 0 0 3 1 true unifyInit
def execUnify (c : Fin 256) (s : State) : Ans := .next (issue c iUnify s)

/-- MATCH ( any1 any2 fix -- bool ) (R343, R346). -/
def iMatch : Ins := coprocIns 0 1 3 1 true unifyInit
def execMatch (c : Fin 256) (s : State) : Ans := .next (issue c iMatch s)

/-- TRAILMARK ( -- fix ) (R349). -/
def iTrailmark : Ins := coprocIns 0 2 0 1 false (fun _ => pure ())
def execTrailmark (c : Fin 256) (s : State) : Ans := .next (issue c iTrailmark s)

/-- UNTRAIL ( fix -- ): an even FIX no greater than TRB (R349). -/
def iUntrail : Ins := coprocIns 0 3 1 0 true (fun l => do
  let f := opd l 0
  let k ← getCore
  let good := ty f == tFIX && decide (0 ≤ fixVal f) && f.datum.toNat % 2 == 0 && decide (f.datum.toNat ≤ k.sr.trb.toNat)
  check [{ w := f, pos := 0, ok := good }])
def execUntrail (c : Fin 256) (s : State) : Ans := .next (issue c iUntrail s)

/-- BIND ( var any -- ) (R347). -/
def iBind : Ins := coprocIns 0 4 2 0 false (fun l => do
  check [{ w := opd l 0, pos := 0 }, movedOpd (opd l 0) 0, { w := opd l 1, pos := 1, deref := true, ok := ty (opd l 1) == tVAR }])
def execBind (c : Fin 256) (s : State) : Ans := .next (issue c iBind s)

/-- DEREF ( any1 -- any2 ) (R342, R347). -/
def iDeref : Ins := coprocIns 0 5 1 1 true (fun l => check [termOpd (opd l 0) 0])
def execDeref (c : Fin 256) (s : State) : Ans := .next (issue c iDeref s)

/-- A key (R351). -/
def keyOk (w : TWord) : Bool :=
  let t := ty w
  !(t == tEMPTY || t == tUNB || t == tCONS || t == tVAR || t == tLOC || t == tFWD)

/-- The table and key operands (R351); LINSERT stores S0 (R37). -/
def tableOpds (l : List TWord) (vp kp : Nat) (st : Bool) : M Unit := do
  let cu ← askS (fun s c => s.cuptr c)
  check ((if vp == 2 then [movedOpd (opd l 0) 0] else []) ++
    [{ w := opd l kp, pos := kp, deref := isHeaded cu (ty (opd l kp)), ok := keyOk (opd l kp) },
     { w := opd l vp, pos := vp, deref := true, store := st, ok := ty (opd l vp) == tVEC }])

/-- LPROBE ( vec any1 -- any2 bool ) (R353). -/
def iLprobe : Ins := coprocIns 1 0 2 2 true (fun l => tableOpds l 1 0 false)
def execLprobe (c : Fin 256) (s : State) : Ans := .next (issue c iLprobe s)

/-- LINSERT ( vec any1 any2 -- bool ) (R353). -/
def iLinsert : Ins := coprocIns 1 1 3 1 true (fun l => tableOpds l 2 1 true)
def execLinsert (c : Fin 256) (s : State) : Ans := .next (issue c iLinsert s)

/-- LDELETE ( vec any -- bool ) (R353). -/
def iLdelete : Ins := coprocIns 1 2 2 1 true (fun l => tableOpds l 1 0 true)
def execLdelete (c : Fin 256) (s : State) : Ans := .next (issue c iLdelete s)

/-! ### Steps of the Match unit -/

/-- One more step done (R344): PG3 and MATCH.STEPS or LOOK.PROBES. -/
def stepDone (port : Nat) : M Unit := do
  modMe (fun k => { k with sr := { k.sr with pg3 := fixW (k.sr.pg3.datum + 1) } })
  updS (fun s c => s.bump (if port = 0 then .MATCH_STEPS else .LOOK_PROBES) (clusterOf c) 1)

/-- A word that names itself through its cell is an unbound variable (R36, R342): the content of a bound one. -/
def derefOne (w : TWord) : M (Option TWord) := do
  if ty w != tVAR then pure none
  else do
    check [termOpd w 15]
    let p ← resolve w
    let v ← load (adr p) false
    check [{ termOpd v 15 with addr := adr p }]
    if eqWord v p then pure none else pure (some v)

/-- Pending pairs and occurs-check words (PG2), and whether an occurs check runs (PG3). -/
def pgPairs (k : Core) : Nat := bits k.sr.pg2.datum 31 0
def pgWords (k : Core) : Nat := bits k.sr.pg2.datum 63 32
def pgOccurs (k : Core) : Bool := bit k.sr.pg3.datum 63

/-- Set PG0 and PG1, the pending counts, and the occurs-check flag. -/
def setTerms (x y : TWord) (pairs words : Nat) (occ : Bool) : M Unit :=
  modMe (fun k => { k with sr := { k.sr with pg0 := x, pg1 := y, pg2 := fixN (pairs + words * 2 ^ 32),
                                             pg3 := fixW (setBits k.sr.pg3.datum 63 63 (b2n occ)) } })

/-- Push a word of pending work onto the operand stack (R344). -/
def pushWork (w : TWord) : M Unit := do
  spillFor 8 1
  modMe (fun k => { k with stk := { k.stk with sp := va48 ((k.stk.sp : Int) - 1), regs := w :: k.stk.regs } })

/-- Pop a word of pending work. -/
def popWork : M TWord := do
  let w ← operandAt 0
  modMe (fun k => { k with stk := { k.stk with sp := va48 (k.stk.sp + 1), regs := k.stk.regs.drop 1 } })
  pure w

/-- Drop n words of pending work. -/
def dropWork (n : Nat) : M Unit :=
  modMe (fun k => { k with stk := { k.stk with sp := va48 (k.stk.sp + n), regs := k.stk.regs.drop n } })

/-- The pair fails: NIL, all pending work dropped (R345). -/
def unifyFail : M (Option (List TWord)) := do
  let k ← getCore
  dropWork (2 * pgPairs k + pgWords k)
  pure (some [wNIL])

/-- The pair agrees: the next pending pair, or TRUE. -/
def unifyNext : M (Option (List TWord)) := do
  let k ← getCore
  match pgPairs k with
  | 0 => pure (some [wTRUE])
  | n + 1 => do
    let y ← popWork
    let x ← popWork
    setTerms x y n 0 false
    pure none

/-- The trail entry of a binding and the binding itself (R347, R348). -/
def bindVar (v t : TWord) (pos : Nat := 15) : M Unit := do
  check [movedOpd t pos, { w := v, pos := 15, deref := true, store := true, ok := ty v == tVAR }]
  let k ← getCore
  let a := k.sr.trb.toNat
  if k.sr.trl.toNat < a + 2 then raise { vec := 14, sub := 2 }
  else if a % 2 == 1 then raise { vec := 5, sub := 1 }
  else do
    let p ← resolve v
    let lf ← xlate a .write
    target a lf true
    store a (word tTRAIL 0) true false
    store (a + 1) p true false
    modMe (fun k => { k with sr := { k.sr with trb := k.sr.trb + 2 } })
    store (adr p) t true false

/-- Kinds of terms (R342). -/
def termKind (w : TWord) : Nat :=
  if ty w == tCONS then 1 else if ty w == tSTRUCT then 2 else if byteUnit (ty w) then 3 else 0

/-- Push the pairs of fields n down to 2 of two compounds. -/
def pushFields (n a b : Nat) : M Unit :=
  match n with
  | 0 => pure ()
  | n + 1 =>
    if n = 0 then pure ()
    else do
      let x ← load (a + 1 + n) false
      let y ← load (b + 1 + n) false
      pushWork x
      pushWork y
      modMe (fun k => { k with sr := { k.sr with pg2 := fixW (k.sr.pg2.datum + 1) } })
      pushFields n a b

/-- Words i upwards of two objects are the same. -/
def sameWords (n a b : Nat) : M Bool :=
  match n with
  | 0 => pure true
  | n + 1 => do
    let x ← load a false
    let y ← load b false
    checkMem x a
    checkMem y b
    if eqWord x y then sameWords n (a + 1) (b + 1) else pure false

/-- A pair without variables (R342): atoms, strings, list cells and compounds. -/
def pairTerms (x y : TWord) : M (Option (List TWord)) := do
  let k ← getCore
  if termKind x != termKind y then unifyFail
  else
    match termKind x with
    | 1 => do
      let p ← resolve x
      let q ← resolve y
      let a ← load (adr p) false
      let b ← load (adr q) false
      let d ← load (adr p + 1) false
      let e ← load (adr q + 1) false
      pushWork d
      pushWork e
      setTerms a b (pgPairs k + 1) 0 false
      pure none
    | 2 => do
      let (a, h) ← objHdr x 15 false
      let (b, g) ← objHdr y 15 false
      if hdrSub h != hdrSub g || hdrLen h != hdrLen g then unifyFail
      else if hdrLen h = 0 then unifyNext
      else do
        pushFields (hdrLen h) a b
        let x1 ← load (a + 1) false
        let y1 ← load (b + 1) false
        let k ← getCore
        setTerms x1 y1 (pgPairs k) 0 false
        pure none
    | 3 => do
      let (a, h) ← objHdr x 15 false
      let (b, g) ← objHdr y 15 false
      if ty x != ty y || hdrSub h != hdrSub g || hdrLen h != hdrLen g then unifyFail
      else do
        let ok ← sameWords (hdrLen h) (a + 1) (b + 1)
        if ok then unifyNext else unifyFail
    | _ => do
      let ok ← eql x y
      if ok then unifyNext else unifyFail

/-- Bind a variable to a non-variable: with OCHK the other term is walked first (R345). The term itself stays on the stack as
the deepest occurs-check word (log entry 39, DESIGN CHOICE). -/
def bindTerm (ochk : Bool) (v t : TWord) : M (Option (List TWord)) := do
  if ochk then do
    let k ← getCore
    check [{ w := v, pos := 15, deref := true, store := true, ok := ty v == tVAR }]
    pushWork t
    setTerms v t (pgPairs k) 1 true
    pure none
  else do
    bindVar v t
    unifyNext

/-- One step on the current pair of UNIFY (R345) or MATCH (R346). -/
def unifyPair (isMatch ochk : Bool) : M (Option (List TWord)) := do
  let k ← getCore
  let x := k.sr.pg0
  let y := k.sr.pg1
  check [termOpd y 15, termOpd x 15]
  let x' ← derefOne x
  match x' with
  | some v => do
    setTerms v y (pgPairs k) 0 false
    pure none
  | none => do
    let y' ← derefOne y
    match y' with
    | some v => do
      setTerms x v (pgPairs k) 0 false
      pure none
    | none =>
      if ty x == tVAR && ty y == tVAR then
        if adr x = adr y then unifyNext
        else if isMatch then do
          bindVar x y
          unifyNext
        else if adr x < adr y then do
          bindVar y x
          unifyNext
        else do
          bindVar x y
          unifyNext
      else if ty x == tVAR then bindTerm ochk x y
      else if ty y == tVAR then (if isMatch then unifyFail else bindTerm ochk y x)
      else pairTerms x y

/-- Push n subterms for an occurs check. -/
def pushSubterms (n a : Nat) : M Unit :=
  match n with
  | 0 => pure ()
  | n + 1 => do
    let w ← load (a + n) false
    pushWork w
    modMe (fun k => { k with sr := { k.sr with pg2 := fixW (k.sr.pg2.datum + w64 (2 ^ 32)) } })
    pushSubterms n a

/-- The subterm does not hold the variable: the next one; the deepest word is the term, which is then bound. -/
def occursNext : M (Option (List TWord)) := do
  let k ← getCore
  let w ← popWork
  if pgWords k ≤ 1 then do
    bindVar k.sr.pg0 w
    setTerms k.sr.pg0 w (pgPairs k) 0 false
    unifyNext
  else do
    setTerms k.sr.pg0 w (pgPairs k) (pgWords k - 1) true
    pure none

/-- One step of an occurs check (R345). -/
def occursStep : M (Option (List TWord)) := do
  let k ← getCore
  let v := k.sr.pg0
  let t := k.sr.pg1
  check [termOpd t 15]
  let t' ← derefOne t
  match t' with
  | some w => do
    setTerms v w (pgPairs k) (pgWords k) true
    pure none
  | none =>
    if ty t == tVAR then (if adr t = adr v then unifyFail else occursNext)
    else
      match termKind t with
      | 1 => do
        let p ← resolve t
        pushSubterms 2 (adr p)
        occursNext
      | 2 => do
        let (a, h) ← objHdr t 15 false
        pushSubterms (hdrLen h) (a + 1)
        occursNext
      | _ => occursNext

/-- One step of UNTRAIL (R349). -/
def untrailStep (mark : Nat) : M (Option (List TWord)) := do
  let k ← getCore
  let a := k.sr.trb.toNat
  if a ≤ mark then pure (some [])
  else do
    let e ← load (a - 2) false
    checkMem e (a - 2)
    if ty e != tTRAIL || bits e.datum 63 60 ≠ 0 then memFault sWRONG e (a - 2)
    else do
      let v ← load (a - 1) false
      check [{ w := v, pos := 15, addr := a - 1, deref := true, store := true, ok := ty v == tVAR }]
      store (adr v) v true false
      modMe (fun k => { k with sr := { k.sr with trb := k.sr.trb - 2 } })
      pure none

/-- DEREF and BIND follow a chain (R342). -/
def derefAll (fuel : Nat) (w : TWord) : M TWord :=
  match fuel with
  | 0 => pure w
  | fuel + 1 => do
    let v ← derefOne w
    match v with
    | some v => do
      stepDone 0
      derefAll fuel v
    | none => pure w

/-! ### Steps of the Lookup unit -/

/-- k of a table of LENGTH 2 × 2^k (R351). -/
def tableExp (h : TWord) : Option Nat := (List.range 31).find? (fun k => 3 ≤ k && hdrLen h == 2 * 2 ^ k)

/-- The hash of a key (R352): HASH of a headed object, assigned if it has none. -/
def keyHash (w : TWord) : M W64 := do
  let cu ← askS (fun s c => s.cuptr c)
  if isHeaded cu (ty w) then do
    let p ← resolve w
    let (a, h) ← hdrOf p false
    if bit h.datum 44 then pure (w64 (bits h.datum 63 48))
    else do
      let x := bits (w64 a) 15 0 ^^^ bits (w64 a) 31 16 ^^^ bits (w64 a) 47 32
      let lf ← xlate a .write
      writeNow a lf { h with datum := setBits (setBits h.datum 63 48 x) 44 44 1 }
      updS (fun s c => s.bump .LOOK_HASHSET (clusterOf c) 1)
      pure (w64 x)
  else pure (w.datum ^^^ w64 (ty w * 2 ^ 58))

/-- The home bucket (R352). -/
def homeBucket (x : W64) (k : Nat) : Nat := bits (x * 0x9E3779B97F4A7C15) 63 (64 - k)

/-- The table of a Lookup operand (R351): its base and k. -/
def tableOf (v : TWord) (pos : Nat) : M (Nat × Nat) := do
  let (a, h) ← objHdr v pos false
  match tableExp h with
  | some k => pure (a, k)
  | none => typeFault sWRONG v pos

/-- What ends a probe: the key at a bucket, or no such key. -/
inductive Probe where
  | more
  | found (i : Nat)
  | absent (free : Option Nat)
  deriving DecidableEq, Repr

/-- One probe (R352, R353): PG0 the next bucket, PG1 the first tombstone + 1, PG3 the probes made. -/
def probe (a k : Nat) (key : TWord) : M Probe := do
  let c ← getCore
  let n := c.sr.pg3.datum.toNat
  let tomb : Option Nat := match c.sr.pg1.datum.toNat with | 0 => none | t + 1 => some t
  if 2 ^ k ≤ n then pure (.absent tomb)
  else do
    let i := c.sr.pg0.datum.toNat % 2 ^ k
    let w ← load (a + 1 + 2 * i) false
    checkMem w (a + 1 + 2 * i)
    stepDone 1
    if ty w == tEMPTY then pure (.absent (some (tomb.getD i)))
    else if eqWord w key then pure (.found i)
    else do
      let next := fixN ((i + 1) % 2 ^ k)
      let t := if ty w == tUNB && tomb.isNone then fixN (i + 1) else c.sr.pg1
      modMe (fun q => { q with sr := { q.sr with pg0 := next, pg1 := t } })
      pure .more

/-- The key's first bucket at the start of a lookup. -/
def startProbe (k : Nat) (key : TWord) : M Unit := do
  let x ← keyHash key
  startStep (fixN (homeBucket x k)) (fixN 0) (fixN 0) (fixN 0)

/-- One probe of a Lookup instruction (R353); `l` is its operands. -/
def lookStep (op : Nat) (l : List TWord) : M (Option (List TWord)) := do
  let vp := if op = 1 then 2 else 1
  let key ← resolve (opd l (vp - 1)) (vp - 1)
  let (a, k) ← tableOf (opd l vp) vp
  let c ← getCore
  if c.psw.step then pure () else startProbe k key
  let r ← probe a k key
  match op, r with
  | _, .more => pure none
  | 0, .found i => do
    let v ← load (a + 2 + 2 * i) false
    pure (some [v, wTRUE])
  | 0, .absent _ => pure (some [wEMPTY, wNIL])
  | 1, .found i => do
    store (a + 2 + 2 * i) (opd l 0) true false
    pure (some [wNIL])
  | 1, .absent none => typeFault sBOUNDS (opd l 2) 2
  | 1, .absent (some i) => do
    store (a + 2 + 2 * i) (opd l 0) true false
    store (a + 1 + 2 * i) key true false
    pure (some [wTRUE])
  | _, .found i => do
    store (a + 1 + 2 * i) (word tUNB 0) true false
    store (a + 2 + 2 * i) wEMPTY true false
    pure (some [wTRUE])
  | _, .absent _ => pure (some [wNIL])

/-! ### Turns -/

/-- One step of a suspendable CP0 instruction, its starting values set first (R344, R345); `l` is its operands. -/
def matchStep (op : Nat) (l : List TWord) : M (Option (List TWord)) := do
  let k ← getCore
  match op with
  | 3 => do
    if k.psw.step then pure () else startStep (fixN 0) (fixN 0) (fixN 0) (fixN 0)
    let r ← untrailStep (opd l 0).datum.toNat
    if r.isNone then stepDone 0 else pure ()
    pure r
  | 5 => do
    if k.psw.step then pure () else startStep (opd l 0) (fixN 0) (fixN 0) (fixN 0)
    let k ← getCore
    let v ← derefOne k.sr.pg0
    match v with
    | some v => do
      modMe (fun k => { k with sr := { k.sr with pg0 := v } })
      stepDone 0
      pure none
    | none => pure (some [k.sr.pg0])
  | _ => do
    if k.psw.step then pure () else startStep (opd l 2) (opd l 1) (fixN 0) (fixN 0)
    let k ← getCore
    let r ← (if pgOccurs k then occursStep else unifyPair (op == 1) (bit (opd l 0).datum 0))
    stepDone 0
    pure r

/-- An instruction of a unit that is not suspendable, whole. -/
def wholeStep (op : Nat) (l : List TWord) : M (Option (List TWord)) := do
  let k ← getCore
  if op = 2 then pure (some [fixW k.sr.trb])
  else do
    let v ← derefAll 65536 (opd l 1)
    if ty v != tVAR then typeFault sWRONG v 1
    else do
      bindVar v (opd l 0) 0
      pure (some [])

/-- The operands of a waiting request: they lie under the pending work (R344). -/
def requestOpds (port op n : Nat) : M (List TWord) := do
  let k ← getCore
  let under := if port = 0 && op ≤ 1 && k.psw.step then 2 * pgPairs k + pgWords k else 0
  operandsFrom under n

/-- Up to `fuel` steps of a request. -/
def turnSteps (fuel port op n : Nat) : M (Option (List TWord)) :=
  match fuel with
  | 0 => pure none
  | fuel + 1 => do
    let l ← requestOpds port op n
    let r ← (if port = 1 then lookStep op l else if op = 2 || op = 4 then wholeStep op l else matchStep op l)
    match r with
    | some x => pure (some x)
    | none => turnSteps fuel port op n

/-- Operands and results of the CP0 and CP1 instructions (R343). -/
def coprocArity (port op : Nat) : Nat × Nat × Bool :=
  match port, op with
  | 0, 0 => (3, 1, true)
  | 0, 1 => (3, 1, true)
  | 0, 2 => (0, 1, false)
  | 0, 3 => (1, 0, true)
  | 0, 4 => (2, 0, false)
  | 0, _ => (1, 1, true)
  | _, 0 => (2, 2, true)
  | _, 1 => (3, 1, true)
  | _, _ => (2, 1, true)

/-- A turn for core c (R341): the unit works as the core (R339, R340). -/
def State.turnFor (s : State) (c port op : Nat) : State :=
  let first := !(s.core c).psw.step
  match (if first then .inl s else s.shortCount c : State ⊕ State) with
  | .inr s => s
  | .inl s =>
    let off (s : State) : State := s.modCore c (fun k => { k with unit := false, mem := { k.mem with miss := false } })
    let steps (s : State) : State := s.modChunk c (fun k => { k with steps := bits (s.core c).sr.pg3.datum 62 0 })
    match (turnSteps 256 port op (coprocArity port op).1).run c (s.modCore c (fun k => { k with unit := true })) with
    | .ok none t => steps (off t)
    | .ok (some l) t => (off t).modCore c (fun k => { k with wait := some (.coproc port op (some l)) })
    | .error (.trap x) t => (off t).failWait c x
    | .error (.abort d) t => (off t).abortScene c d false
    | .error .gone t => off t
    | .error (.wait w) t => if w.again then (off t).modCore c (fun k => { k with wait := some w }) else off t

/-- A core of the cluster waits for a turn of a unit. -/
def State.wantsTurn (s : State) (port c : Nat) : Option Nat :=
  match (s.core c).wait with
  | some (.coproc p op none) => if p = port && s.running c then some op else none
  | _ => none

/-- COPROCESSOR_TURN (R341): the next waiting core in ascending order takes a turn of up to 256 steps. -/
def execCoprocessorTurn (cl : Fin 32) (look : Bool) (s : State) : Ans :=
  let port := b2n look
  let last := if look then (s.cluster cl).turnL else (s.cluster cl).turnM
  let order := (List.range 8).map (fun i => 8 * cl.val + (last + 1 + i) % 8)
  .next (match order.findSome? (fun c => (s.wantsTurn port c).map (fun op => (c, op))) with
    | none => s
    | some (c, op) =>
      let s := s.modCluster cl (fun k => if look then { k with turnL := c % 8 } else { k with turnM := c % 8 })
      s.turnFor c port op)

/-- COPROCESSOR_RESPONSE (R338): the unit's answer completes the frozen core's instruction. -/
def execCoprocessorResponse (c : Fin 256) (s : State) : Ans :=
  .next (match (s.core c).wait with
    | some (.coproc port op (some l)) =>
      let (n, out, susp) := coprocArity port op
      s.complete c (coprocSig port op n out susp) { push := l }
    | _ => s)

end Sys2Proof.Machine
end

