-- ==== Sys2Proof/Machine/Stack.lean ====
section
/-! DEFINITION. Stack and literal instructions (R86, R87). -/

namespace Sys2Proof.Machine

open Sys2Proof

/-- NOP (R86). -/
def iNop : Ins := pureIns { syl := 0x0000 } 1 (fun _ => [])
def execNop (c : Fin 256) (s : State) : Ans := .next (issue c iNop s)

/-- DUP ( a -- a a ) (R86). -/
def iDup : Ins := pureIns { syl := 0x0001, rd := 1, leaves := 1 } 1 (fun l => [opd l 0])
def execDup (c : Fin 256) (s : State) : Ans := .next (issue c iDup s)

/-- DROP ( a -- ) (R86). -/
def iDrop : Ins := pureIns { syl := 0x0002, takes := 1 } 1 (fun _ => [])
def execDrop (c : Fin 256) (s : State) : Ans := .next (issue c iDrop s)

/-- SWAP ( a b -- b a ) (R86). -/
def iSwap : Ins := pureIns { syl := 0x0003, rd := 2, takes := 2, leaves := 2 } 1 (fun l => [opd l 0, opd l 1])
def execSwap (c : Fin 256) (s : State) : Ans := .next (issue c iSwap s)

/-- OVER ( a b -- a b a ) (R86): it reads position 1 alone. -/
def iOver : Ins := pureIns { syl := 0x0004, deep := some 1, leaves := 1 } 1 (fun l => [opd l 0])
def execOver (c : Fin 256) (s : State) : Ans := .next (issue c iOver s)

/-- ROT ( a b c -- b c a ) (R86). -/
def iRot : Ins := pureIns { syl := 0x0005, rd := 3, takes := 3, leaves := 3 } 1 (fun l => [opd l 1, opd l 0, opd l 2])
def execRot (c : Fin 256) (s : State) : Ans := .next (issue c iRot s)

/-- NIP ( a b -- b ) (R86). -/
def iNip : Ins := pureIns { syl := 0x0006, rd := 1, takes := 2, leaves := 1 } 1 (fun l => [opd l 0])
def execNip (c : Fin 256) (s : State) : Ans := .next (issue c iNip s)

/-- TUCK ( a b -- b a b ) (R86). -/
def iTuck : Ins := pureIns { syl := 0x0007, rd := 2, takes := 2, leaves := 3 } 1 (fun l => [opd l 0, opd l 1, opd l 0])
def execTuck (c : Fin 256) (s : State) : Ans := .next (issue c iTuck s)

/-- 2DUP ( a b -- a b a b ) (R86). -/
def iTwoDup : Ins := pureIns { syl := 0x0008, rd := 2, leaves := 2 } 1 (fun l => [opd l 1, opd l 0])
def execTwoDup (c : Fin 256) (s : State) : Ans := .next (issue c iTwoDup s)

/-- 2DROP ( a b -- ) (R86). -/
def iTwoDrop : Ins := pureIns { syl := 0x0009, takes := 2 } 1 (fun _ => [])
def execTwoDrop (c : Fin 256) (s : State) : Ans := .next (issue c iTwoDrop s)

/-- PICK n ( … -- … x ): a copy of the word at position n (R86, R50). -/
def iPick (n : Nat) : Ins := pureIns { syl := 0x0010 + n, deep := some n, leaves := 1 } 1 (fun l => [opd l 0])
def execPick (c : Fin 256) (n : Fin 16) (s : State) : Ans := .next (issue c (iPick n) s)

/-- PUT n ( … x -- … ): pops S0 and writes it to position n of the rest, directly to its home slot when it lies beyond
the registers (R86, R50). -/
def iPut (n : Nat) : Ins :=
  { sig := { syl := 0x0020 + n, rd := 1, takes := 1, ovr := [n + 1] }
    body := fun l => do
      let k ← getCore
      if n + 1 < k.stk.regs.length then
        modMe (fun k => { k with stk := { k.stk with regs := k.stk.regs.set (n + 1) (opd l 0) } })
      else do
        store (k.stk.sp + n + 1) (opd l 0) true false
        updS (fun s c => s.bump .CORE_SPILLS c 1)
      pure { push := [] } }
def execPut (c : Fin 256) (n : Fin 16) (s : State) : Ans := .next (issue c (iPut n) s)

/-- >C ( a -- ) C:( -- a ) (R86, R52). -/
def iToControl : Ins :=
  { sig := { syl := 0x0040, rd := 1, takes := 1, depCtl := true }
    body := fun l => do
      cPush (opd l 0)
      pure { push := [] } }
def execToControl (c : Fin 256) (s : State) : Ans := .next (issue c iToControl s)

/-- C> ( -- a ) C:( a -- ) (R86, R52). -/
def iFromControl : Ins :=
  { sig := { syl := 0x0041, leaves := 1, depCtl := true }
    body := fun _ => do
      let w ← cRead 0 0
      cDrop 1
      pure { push := [w] } }
def execFromControl (c : Fin 256) (s : State) : Ans := .next (issue c iFromControl s)

/-- C@ ( -- a ) C:( a -- a ) (R86, R52). -/
def iCopyControl : Ins :=
  { sig := { syl := 0x0042, leaves := 1, depCtl := true }
    body := fun _ => do
      let w ← cRead 0 0
      pure { push := [w] } }
def execCopyControl (c : Fin 256) (s : State) : Ans := .next (issue c iCopyControl s)

/-- LIT ( -- fix ): the sign-extended imm12 (R87). -/
def iLit (imm : Nat) : Ins := pureIns { syl := 0x5000 + imm, leaves := 1 } 1 (fun _ => [fixI (sext 12 imm)])
def execLit (c : Fin 256) (imm : BitVec 12) (s : State) : Ans := .next (issue c (iLit imm.toNat) s)

/-- LITX ( fix1 -- fix2 ): S0 shifted left by 12, imm12 below (R87). -/
def iLitx (imm : Nat) : Ins :=
  { sig := { syl := 0x6000 + imm, rd := 1, takes := 1, leaves := 1 }
    body := fun l => do
      let w := opd l 0
      check [{ w := w, pos := 0, ok := ty w == tFIX }]
      pure { push := [fixW ((w.datum <<< 12) ||| w64 imm)] } }
def execLitx (c : Fin 256) (imm : BitVec 12) (s : State) : Ans := .next (issue c (iLitx imm.toNat) s)

end Sys2Proof.Machine
end

