-- ==== Sys2Proof/Machine/Rep.lean ====
section
/-! DEFINITION. The opcode map as the core decodes it (R65-R76), REP (R83, R122, R123), a syllable that fails a decode check, and
customer microcode as the core runs it (R165, R168, R172, R178). -/

namespace Sys2Proof.Machine

open Sys2Proof

/-! ### MCLOAD and customer opcodes -/

/-- MCLOAD ( fix1 fix2 -- fix3 ) (R178). -/
def iMcload : Ins :=
  { sig := { syl := 0xC109, rd := 2, takes := 2, leaves := 1, priv := 2, noRep := true, micro := true, ban := some 4 }
    body := fun l => do
      let o := opd l 0
      let a := opd l 1
      check [{ w := o, pos := 0, ok := ty o == tFIX }, { w := a, pos := 1, ok := ty a == tFIX }]
      drainMine
      let n ← askS (fun s _ => (s.mcload (fixVal a) (fixVal o)).1)
      updS (fun s _ => (s.mcload (fixVal a) (fixVal o)).2)
      pure { push := [fixN n] } }
def execMcload (c : Fin 256) (s : State) : Ans := .next (issue c iMcload s)

/-- A customer opcode (R72, R162, R168, R173): what its dispatch entry says; one that the image leaves undefined has the entry that the
loader fills in. -/
def State.custIns (s : State) (c u : Nat) : Ins :=
  let syl := 0xE000 + u % 2048
  let i := 0x800 + u % 2048
  let own := ((s.cluster (clusterOf c)).bank (c % 2 == 1)).defines i
  let e := if own then s.dword c i else 0
  let bad : Option Trap := if s.custLoaded c then none else some (tIllegal 4)
  let cont := (s.core c).micro.isSome
  { sig := { syl := syl, rd := if cont then 0 else nbits e 13 12, priv := nbits e 14 14, noRep := true, micro := !cont, bad := bad }
    body := fun _ => do
      let _ ← bankWord (fun s c => s.dword c i)
      if own then microEnter (0x3000 + nbits e 11 0) syl else raise (tIllegal 0) }
def execCustomerOpcode (c : Fin 256) (u : BitVec 11) (s : State) : Ans := .next (issue c (s.custIns c u.toNat) s)

/-- MICRO_TIMEOUT (R165): the watchdog abandons the instruction that the core runs. -/
def execMicroTimeout (c : Fin 256) (s : State) : Ans :=
  .next (if s.canIssue c then
    let syl := (s.core c).syl
    (s.noteWdog c).takeTrap c tTimeout syl
  else s)

/-! ### The opcode map -/

/-- The syllables of R66 to R70 that have no operand field. -/
def fixedStack : List (Nat × Ins) :=
  [(0x0000, iNop), (0x0001, iDup), (0x0002, iDrop), (0x0003, iSwap), (0x0004, iOver), (0x0005, iRot), (0x0006, iNip), (0x0007, iTuck),
   (0x0008, iTwoDup), (0x0009, iTwoDrop), (0x0040, iToControl), (0x0041, iFromControl), (0x0042, iCopyControl)]
def fixedGeneric : List (Nat × Ins) :=
  [(0x1000, iAdd), (0x1001, iSub), (0x1002, iMul), (0x1003, iDiv), (0x1004, iQuo), (0x1005, iMod), (0x1006, iRem), (0x1007, iNeg),
   (0x1008, iAbs), (0x1009, iInc), (0x100A, iDec), (0x1010, iAnd), (0x1011, iOr), (0x1012, iXor), (0x1013, iNot), (0x1014, iAsh),
   (0x1015, iLsh), (0x1018, iMax), (0x1019, iMin)]
def fixedArith : List (Nat × Ins) :=
  [(0x1100, iFixAdd), (0x1101, iFixSub), (0x1102, iFixMul), (0x1103, iFixQuo), (0x1104, iFixRem), (0x1105, iFixAnd), (0x1106, iFixOr),
   (0x1107, iFixXor), (0x1108, iFixShl), (0x1109, iFixShr), (0x1200, iFloAdd), (0x1201, iFloSub), (0x1202, iFloMul), (0x1203, iFloDiv),
   (0x1204, iFloSqrt), (0x1205, iFloFma), (0x1206, iFloCvt), (0x1207, iFloTrunc)]
def fixedCompare : List (Nat × Ins) :=
  [(0x2000, iEq), (0x2001, iEql), (0x2002, iNumEqual), (0x2003, iNumLess), (0x2004, iNumGreater), (0x2005, iNumLessEqual),
   (0x2006, iNumGreaterEqual), (0x2007, iZerop)]
def fixedObject : List (Nat × Ins) :=
  [(0x3000, iCar), (0x3001, iCdr), (0x3002, iCons), (0x3003, iRplaca), (0x3004, iRplacd), (0x3010, iAlloc), (0x3011, iVref),
   (0x3012, iVset), (0x3013, iVlen), (0x3030, iSymval), (0x3031, iSymset), (0x3032, iSymfn)]
def fixedMemory : List (Nat × Ins) :=
  [(0x4000, iFetch), (0x4001, iStore), (0x4002, iFetch2), (0x4003, iStore2), (0x4004, iLoc), (0x4008, iCas), (0x4009, iXchg),
   (0x400A, iFadd), (0x4010, iFenceAcq), (0x4011, iFenceRel), (0x4012, iFenceFull), (0x4020, iPfetch), (0x4021, iPstore),
   (0x4030, iGettag), (0x4031, iSettag), (0x4040, iClean), (0x4041, iFlush), (0x4042, iInval), (0x4043, iIinval), (0x4044, iLock),
   (0x4045, iUnlock), (0x4046, iCleanAll), (0x4047, iFlushAll), (0x4048, iIinvalAll), (0x4080, iTlbiVa), (0x4081, iTlbiVaw),
   (0x4082, iTlbiAsid), (0x4083, iTlbiVmid), (0x4084, iTlbiAll), (0x4085, iTlbw), (0x4086, iTlbr), (0x4087, iWalk)]
def fixedControl : List (Nat × Ins) :=
  [(0x9000, iCall), (0x9001, iTcall), (0x9002, iRet), (0x9500, iGate), (0x9501, iGret), (0xA200, iLeave), (0xA201, iLcget),
   (0xA202, iLcset), (0xB000, iIn), (0xB001, iOut), (0xC100, iRte), (0xC101, iHalt), (0xC102, iMfsr), (0xC103, iMtsr),
   (0xC104, iSetipl), (0xC105, iBrk), (0xC106, iSync), (0xC107, iTime), (0xC108, iRand), (0xC109, iMcload), (0xC10A, iRtq)]
def fixedRest : List (Nat × Ins) :=
  [(0xD000, iScene), (0xD001, iCurtain), (0xD002, iCut), (0xD003, iScstat), (0xD004, iSceneS), (0xD010, iRfetch), (0xD011, iRstore),
   (0xD012, iRinvoke), (0xD013, iRsend), (0xD020, iScanstack), (0xD021, iBarrier), (0xD022, iCard), (0xD023, iPace),
   (0xE800, iUnify), (0xE801, iMatch), (0xE802, iTrailmark), (0xE803, iUntrail), (0xE804, iBind), (0xE805, iDeref),
   (0xE900, iLprobe), (0xE901, iLinsert), (0xE902, iLdelete)]

/-- The first entry of a list for a code. -/
def pickIns (n : Nat) : List (Nat × Ins) → Option Ins
  | [] => none
  | x :: l => if x.1 = n then some x.2 else pickIns n l

/-- The instruction of a code without operand field. -/
def fixedIns (n : Nat) : Option Ins :=
  match n / 2 ^ 12 with
  | 0x0 => pickIns n fixedStack
  | 0x1 => if n < 0x1100 then pickIns n fixedGeneric else pickIns n fixedArith
  | 0x2 => pickIns n fixedCompare
  | 0x3 => pickIns n fixedObject
  | 0x4 => pickIns n fixedMemory
  | 0xD => pickIns n fixedRest
  | 0xE => pickIns n fixedRest
  | _ => pickIns n fixedControl

/-- The instruction with an operand field that a code spells (R65). `steps` is how far a stepped instruction runs. -/
def fieldIns (n steps : Nat) : Option Ins :=
  match n / 2 ^ 12 with
  | 0x0 =>
    if n / 16 = 1 then some (iPick (n % 16))
    else if n / 16 = 2 then some (iPut (n % 16))
    else none
  | 0x2 =>
    if n / 64 = 0x81 then some (iTypep (n % 64))
    else if n / 64 = 0x82 then some (iCheck (n % 64))
    else if n / 8 = 0x418 then some (iClassp (n % 8))
    else none
  | 0x3 =>
    match n with
    | 0x3020 => some (iCopyvec steps)
    | 0x3021 => some (iFillvec steps)
    | 0x3022 => some (iEqual steps)
    | 0x3023 => some (iAssq steps)
    | 0x3024 => some (iMemq steps)
    | 0x3025 => some (iNreverse steps)
    | _ => none
  | 0x5 => some (iLit (n % 4096))
  | 0x6 => some (iLitx (n % 4096))
  | 0x7 => some (iBr (n % 4096))
  | 0x8 =>
    match n / 1024 % 4 with
    | 0 => some (iBrnil (n % 1024))
    | 1 => some (iBrt (n % 1024))
    | 2 => some (iBrz (n % 1024))
    | _ => some (iBrnz (n % 1024))
  | 0x9 =>
    match n / 256 % 16 with
    | 1 => some (iEnter (n % 256))
    | 2 => some (iLocal (n % 256))
    | 3 => some (iSetlocal (n % 256))
    | 4 => some (iArg (n % 256))
    | _ => none
  | 0xA => if n / 256 = 0xA1 then some (iLoop (n % 256)) else none
  | 0xB =>
    if n / 1024 = 0x2E then some (iInb (n % 1024))
    else if n / 1024 = 0x2F then some (iOutb (n % 1024))
    else none
  | 0xC => if n / 32 = 0x600 then some (iTrap (n % 32)) else none
  | _ => none

/-- A syllable that only raises a decode fault (R74). -/
def badIns (syl : Nat) (t : Trap) : Ins := { sig := { syl := syl, bad := some t }, body := fun _ => pure {} }

/-- What a syllable decodes to on a core (R66-R74). The absent ports CP2 to CP7 fail the sixth check (R73). Of REP this is only what
the decode checks need: its effect takes in the syllable after it (State.repStep). -/
def State.insOf (s : State) (c n steps : Nat) : Ins :=
  match fixedIns n with
  | some i => i
  | none =>
    match fieldIns n steps with
    | some i => i
    | none =>
      if n / 2048 = 0x1C then s.custIns c n
      else if 0xEA00 ≤ n && n ≤ 0xEFFF then { sig := { syl := n, port := some (n / 256 % 8) }, body := fun _ => pure {} }
      else if n = 0xA000 then { sig := { syl := n, wlc := true }, body := fun _ => pure {} }
      else badIns n (tIllegal 0)

/-! ### REP -/

/-- Syllables that REP may not precede (R76, R83, R123, R173, R240, R274, R281, R338). -/
def repRefused (i : Ins) : Bool :=
  let n := i.sig.syl
  i.sig.wlc || i.sig.noRep || n == 0xA000 || n == 0x1002 || n == 0x1102 || (0x1200 ≤ n && n ≤ 0x1202) || n == 0x1205 ||
    (0x3020 ≤ n && n ≤ 0x3025) || (0x4044 ≤ n && n ≤ 0x4048) || (0x4080 ≤ n && n ≤ 0x4087) || n == 0xC101 ||
    (0xC103 ≤ n && n ≤ 0xC106 && n != 0xC104) || n == 0xC104 || n == 0xC109 || n == 0xD003 || (0xD010 ≤ n && n ≤ 0xD013) ||
    (0xD020 ≤ n && n ≤ 0xD023) || (0xE000 ≤ n && n ≤ 0xE9FF)

/-- The decode fault of the syllable after REP, orders 1 to 4 of R74 (R76). -/
def repBad (i : Ins) : Option Trap :=
  match i.sig.bad with
  | some t => some { t with own := some i.sig.syl }
  | none => if repRefused i then some { tIllegal 3 with own := some i.sig.syl } else none

/-- REP as it first issues (R76, R122): decode of both syllables, then the count. -/
def iRep (i : Ins) : Ins :=
  { sig := { syl := 0xA000, rd := 1, takes := 1, wlc := true, noLp := true, depLoop := true, priv := i.sig.priv,
             noShadow := i.sig.noShadow, unit := some i.sig.syl, port := i.sig.port, bad := repBad i }
    body := fun l => do
      let w := opd l 0
      check [{ w := w, pos := 0, ok := ty w == tFIX }]
      let k ← getCore
      modMe (fun k => { k with sr := { k.sr with lc := w.datum } })
      if fixVal w ≤ 0 then pure { flow := .jump (va48 ((k.pc : Int) + 2)) }
      else do
        modMe (fun k => { k with psw := { k.psw with repp := true } })
        pure { flow := .rep } }

/-- One iteration (R122): the syllable, then LC and, after the last one, REPP. -/
def iIteration (i : Ins) : Ins :=
  { sig := { i.sig with bad := repBad i }
    body := fun l => do
      let o ← i.body l
      let k ← getCore
      let n := k.sr.lc - 1
      let last := decide (n.toInt ≤ 0)
      modMe (fun k => { k with sr := { k.sr with lc := n }, psw := { k.psw with repp := !last } })
      pure { o with flow := if last then .jump (va48 ((k.pc : Int) + 2)) else .again } }

/-- Results of earlier iterations land, and their windows close, before the next one issues (R83). -/
def Core.landRep (k : Core) : Core :=
  let k := { (k.landList (k.pend.filter fun p => p.sa == k.pc)) with pend := k.pend.filter fun p => p.sa != k.pc }
  { k with wins := k.wins.filter fun w => w.sa != k.pc }

/-- REP and the syllable n after it (R122): its start while REPP=0, one iteration while REPP=1. -/
def State.repStep (s : State) (c n steps : Nat) : State :=
  let i := s.insOf c n steps
  if (s.core c).psw.repp then issue c (iIteration i) (if s.canIssue c then s.modCore c Core.landRep else s)
  else issue c (iRep i) s

/-- REP syl (R122). -/
def execRep (c : Fin 256) (syl : BitVec 16) (steps : Nat) (s : State) : Ans := .next (s.repStep c syl.toNat steps)

/-! ### A fetched word -/

/-- Syllable i of an INS word (R33). -/
def sylOf (w : TWord) (i : Nat) : Nat := w.datum.toNat / 2 ^ (16 * (3 - i % 4)) % 2 ^ 16

/-- The syllable after the one at PC, which lies in the fetched word w, or in the next word as fetch delivers it (R251). -/
def State.nextSyl (s : State) (c : Nat) (w : TWord) : Nat :=
  let k := s.core c
  if k.pc % 4 < 3 then sylOf w (k.pc + 1)
  else match xlateCore k (va48 ((k.pc : Int) + 1)) .fetch 7 with
    | .inr lf => sylOf ((k.code lf.pa).getD (s.rd lf.pa)) 0
    | .inl _ => 0

/-- UNDEFINED_OPCODE (R33, R61, R74): the core reaches the fetched word w. POISON raises machine check POISON (R252),
any other word that is not INS raises NOTCODE; its syllable
that fails a decode check raises that check's fault, and one that fails none runs. -/
def execUndefinedOpcode (c : Fin 256) (w : TWord) (s : State) : Ans :=
  let n := sylOf w (s.core c).pc
  .next (if ty w == tPOISON then issue c (badIns n { vec := 2, sub := 0, tag := w.tag.toNat, pos := 15, addr := (s.core c).pc, noSyl := true }) s
  else if ty w != tINS then issue c (badIns n { vec := 4, sub := 5, addr := (s.core c).pc, noSyl := true }) s
  else if n = 0xA000 then s.repStep c (s.nextSyl c w) 1
  else issue c (s.insOf c n 1) s)

end Sys2Proof.Machine
end

