-- ==== Sys2Proof/Machine/Snap.lean ====
section
/-! DEFINITION. The snapshot image (R447), its restoration (R449), and the chunks of a replayed log (R450). -/

namespace Sys2Proof.Machine

open Sys2Proof

/-! ### Contexts -/

/-- World-banked special registers (R55). -/
def srBanked : List Nat := [9, 10, 11, 13, 14, 15]

/-- The core with the bank of a world in view. -/
def Core.inWorld (k : Core) (w : Bool) : Core := { k with psw := { k.psw with w := w } }

/-- Words of a locked wings slot, FIX 0 for a free one. -/
def Core.slotWords (k : Core) (i : Nat) : List TWord :=
  match k.mem.wings.find? (fun x => x.slot == i) with
  | some x => x.words
  | none => List.replicate 32 (fixN 0)

/-- The context of core c (R447): 1,088 words. -/
def State.context (s : State) (c : Nat) : List TWord :=
  let k := s.core c
  let sr (i : Nat) : TWord := s.srWord c (if srBanked.contains i then k.inWorld false else k) i
  (List.range 36).map sr ++ [fixN k.pc, fixN k.dst] ++
    (List.range 8).map (fun i => k.stk.regs.getD i wEMPTY) ++ (List.range 4).map (fun i => k.stk.cregs.getD i wEMPTY) ++
    srBanked.map (fun i => s.srWord c (k.inWorld true) i) ++ [fixN (k.wingBits true)] ++ List.replicate 7 (fixN 0) ++
    (List.range 32).flatMap (fun i => k.slotWords i)

/-- Word i of a context. -/
def ctxAt (l : List TWord) (i : Nat) : TWord := l.getD i (fixN 0)

/-- The locked slots of a context; frames are numbered as they are found (R254). -/
def ctxWings (l : List TWord) : List Wing :=
  let m := (ctxAt l 56).datum
  ((List.range 32).filter (fun i => bit m i)).map (fun i =>
    { slot := i, frame := i, world := bit m (32 + i), words := (List.range 32).map (fun j => ctxAt l (64 + 32 * i + j)) })

/-- A core takes the registers, stacks and wings of a context (R449). -/
def Core.fromContext (k : Core) (l : List TWord) : Core :=
  let put (w : Bool) (k : Core) (x : Nat × TWord) : Core := k.applyNow (.sr w x.1 x.2)
  let k := (((List.range 34).drop 1).map (fun i => (i, ctxAt l i))).foldl (put false) k
  let k := ((List.range 6).map (fun j => (srBanked.getD j 9, ctxAt l (50 + j)))).foldl (put true) k
  let n := bits (ctxAt l 1).datum 51 48
  let m := bits (ctxAt l 4).datum 51 48
  { k with
    psw := Psw.unpack (ctxAt l 0).datum, pc := bits (ctxAt l 36).datum 47 0, dst := bits (ctxAt l 37).datum 47 0
    stk := { k.stk with regs := (List.range n).map (fun i => ctxAt l (38 + i)), cregs := (List.range m).map (fun i => ctxAt l (46 + i)) }
    pend := [], wins := [], newWins := [], shadow := none, micro := none, scene := {}, wait := none
    mem := { wings := ctxWings l } }

/-! ### The snapshot -/

/-- A pa lies in the Rehearsal ring or in the staging area, which an image does not hold (R447). -/
def State.offImage (s : State) (pa : Nat) : Bool :=
  let b := s.fld f_REH_RING_BASE 0
  (b ≤ pa && pa < b + s.fld f_REH_RING_SIZE 0 * 2 ^ 18) || (stagingLo ≤ pa && pa < stagingHi)

/-- SNAPSHOT_COMPLETE (R447): the image has gone to the host, and the hold ends. -/
def execSnapshotComplete (s : State) : Ans :=
  .next (if s.flag f_REH_STAT_SNAPHOLD 0 then
    let mem := s.mem.filter (fun x => isLocal x.1 && !(s.offImage x.1))
    let ctx (c : Nat) : List TWord := if s.recordedAgent c then s.context c else []
    let w := Wire.image (s.reg .REH_SNAP 0).toNat s.beginWords mem s.emptied ((List.range s.nCores).map ctx)
    let s : State := { s with wire := w :: s.wire }
    (s.setFld f_REH_STAT_SNAPHOLD 0 0).retryHeld
  else s)

/-- Memory becomes that of an image, but for the ring and the staging area (R449). -/
def State.restoreMem (s : State) (image : List (Nat × TWord)) : State :=
  let s := (List.range s.nClusters).foldl (fun (s : State) cl => s.emptyCluster cl) s
  let keep := s.mem.filter (fun x => s.offImage x.1 || !(isLocal x.1))
  let inside (r : Nat × Nat) : Bool := s.offImage r.1 && s.offImage (r.1 + r.2 - 1)
  let new := image.filter (fun x => isLocal x.1 && !(s.offImage x.1))
  (keep ++ new).foldl (fun (s : State) x => s.wr x.1 x.2) { s with mem := [], emptied := s.emptied.filter inside, home := [] }

/-- REPLAY_PREP (R449): the log's words, and the image where RESTORE asks for one: its memory and its contexts, by core. -/
def execReplayPrep (log : List (BitVec 64)) (image : Option (List (BitVec 48 × TWord))) (ctxs : List (List TWord)) (s : State) : Ans :=
  .next (if s.mode mREPLAY then s
  else
    let (ok, s) := s.prepStart.prepCheck (log.map (fun x => x.toNat)) image.isSome
    if !ok || !(s.flag f_REH_RPCTL_RESTORE 0) then s
    else
      let s := s.restoreMem ((image.getD []).map (fun x => (x.1.toNat, x.2)))
      (List.range s.nCores).foldl (fun (s : State) c =>
        let l := ctxs.getD c []
        if s.recordedAgent c && !l.isEmpty then s.modCore c (fun k => k.fromContext l) else s) s)

/-! ### Replayed chunks -/

/-- The event of an INTR record is delivered to its agent (R450). -/
def State.replayIntr (s : State) (c : Nat) (r : Recd) : State :=
  let w := r.q1.testBit 16
  let vec := r.q1 / 256 % 256
  let sub := r.q1 % 256
  let s := s.modCore c (fun k => { k with wait := if k.wait == some .replay then none else k.wait })
  match r.q0 / 2 ^ 40 % 8 with
  | 1 =>
    let ev := (s.core c).ev
    let s := s.modCore c (fun k => { k with ev := { k.ev with mc := [], stepDue := false, nmi := true } })
    (takeNmi c s).modCore c (fun k => { k with ev := { k.ev with mc := ev.mc, stepDue := ev.stepDue, nmi := ev.nmi } })
  | 2 => s.takeEvent c { vec := 2, sub := sub } true { code := 4, detail := 1 } 2
  | _ => s.takeEvent c { vec := vec, sub := sub } w { code := 4 } 0

/-- A record of a type for an agent stands first in the rest of the log. -/
def State.nextIs (s : State) (type a : Nat) : Option Recd :=
  match s.reh.log with
  | r :: _ => if r.q0 / 2 ^ 60 % 16 == type && r.q0 / 2 ^ 51 % 512 == a then some r else none
  | [] => none

/-- The chunk in progress ends where its record says (R450): an INTR record is delivered, a HASH record is compared with the agent's
hash, which no rule fixes (log entry 5). -/
def State.closeChunk (s : State) (a : Nat) : State :=
  let s := match s.nextIs 1 a with
    | some r => (s.consume r s.reh.log.tail).replayIntr a r
    | none => if s.recording then s.endChunk a s.curEnd [] else s
  let s := State.commitAll s.reh.queue.length s
  match s.nextIs 6 a with
  | some r =>
    let (h, s) := s.fresh
    let s := s.consume r s.reh.log.tail
    if h.toNat == r.q1 then s else s.replayStop 6 0 a (r.q0 % 2 ^ 40)
  | none => s

/-- The agent of the chunk in progress has run it to its end. -/
def State.chunkRun (s : State) (a : Nat) : Bool :=
  let k := s.chunkOf a
  k.left == 0 && k.stepGoal ≤ k.steps

/-- REPLAY_CHUNK (R450, R452): the chunk in progress is complete, and the next one begins. -/
def execReplayChunk (s : State) : Ans :=
  .next (if !(s.mode mREPLAY) || s.fld f_REH_RPSTAT_CODE 0 != 3 || s.status != 4 then s
  else
    match s.reh.cur with
    | none => State.replayNext s.reh.log.length false s
    | some (a, _) =>
      if !(s.chunkRun a) then s
      else if (s.chunkOf a).vals.any (fun v => v.q0 / 2 ^ 60 % 16 != 7) then s.replayStop 6 2 a s.curSeq
      else
        let s := s.closeChunk a
        let s : State := { s with reh := { s.reh with cur := none } }
        if s.fld f_REH_RPSTAT_CODE 0 == 3 then State.replayNext s.reh.log.length false s else s)

end Sys2Proof.Machine
end

