-- ==== Sys2Proof/Machine/Dispatch.lean ====
section
/-! DEFINITION. The dispatch: one arm per command, each one direct call of its meaning. -/

namespace Sys2Proof.Machine

open Sys2Proof

/-- The effect of a command on everything but the queue. -/
def exec (i : Instr) (s : State) : Host.Outcome State Fault Refusal :=
  match i with
  | .nop c => Sys2Proof.Machine.execNop c s
  | .dup c => Sys2Proof.Machine.execDup c s
  | .drop c => Sys2Proof.Machine.execDrop c s
  | .swap c => Sys2Proof.Machine.execSwap c s
  | .over c => Sys2Proof.Machine.execOver c s
  | .rot c => Sys2Proof.Machine.execRot c s
  | .nip c => Sys2Proof.Machine.execNip c s
  | .tuck c => Sys2Proof.Machine.execTuck c s
  | .twoDup c => Sys2Proof.Machine.execTwoDup c s
  | .twoDrop c => Sys2Proof.Machine.execTwoDrop c s
  | .pick c n => Sys2Proof.Machine.execPick c n s
  | .put c n => Sys2Proof.Machine.execPut c n s
  | .toControl c => Sys2Proof.Machine.execToControl c s
  | .fromControl c => Sys2Proof.Machine.execFromControl c s
  | .copyControl c => Sys2Proof.Machine.execCopyControl c s
  | .lit c imm => Sys2Proof.Machine.execLit c imm s
  | .litx c imm => Sys2Proof.Machine.execLitx c imm s
  | .add c => Sys2Proof.Machine.execAdd c s
  | .sub c => Sys2Proof.Machine.execSub c s
  | .mul c => Sys2Proof.Machine.execMul c s
  | .div c => Sys2Proof.Machine.execDiv c s
  | .quo c => Sys2Proof.Machine.execQuo c s
  | .mod c => Sys2Proof.Machine.execMod c s
  | .rem c => Sys2Proof.Machine.execRem c s
  | .neg c => Sys2Proof.Machine.execNeg c s
  | .abs c => Sys2Proof.Machine.execAbs c s
  | .inc c => Sys2Proof.Machine.execInc c s
  | .dec c => Sys2Proof.Machine.execDec c s
  | .and c => Sys2Proof.Machine.execAnd c s
  | .or c => Sys2Proof.Machine.execOr c s
  | .xor c => Sys2Proof.Machine.execXor c s
  | .not c => Sys2Proof.Machine.execNot c s
  | .ash c => Sys2Proof.Machine.execAsh c s
  | .lsh c => Sys2Proof.Machine.execLsh c s
  | .max c => Sys2Proof.Machine.execMax c s
  | .min c => Sys2Proof.Machine.execMin c s
  | .fixAdd c => Sys2Proof.Machine.execFixAdd c s
  | .fixSub c => Sys2Proof.Machine.execFixSub c s
  | .fixMul c => Sys2Proof.Machine.execFixMul c s
  | .fixQuo c => Sys2Proof.Machine.execFixQuo c s
  | .fixRem c => Sys2Proof.Machine.execFixRem c s
  | .fixAnd c => Sys2Proof.Machine.execFixAnd c s
  | .fixOr c => Sys2Proof.Machine.execFixOr c s
  | .fixXor c => Sys2Proof.Machine.execFixXor c s
  | .fixShl c => Sys2Proof.Machine.execFixShl c s
  | .fixShr c => Sys2Proof.Machine.execFixShr c s
  | .floAdd c => Sys2Proof.Machine.execFloAdd c s
  | .floSub c => Sys2Proof.Machine.execFloSub c s
  | .floMul c => Sys2Proof.Machine.execFloMul c s
  | .floDiv c => Sys2Proof.Machine.execFloDiv c s
  | .floSqrt c => Sys2Proof.Machine.execFloSqrt c s
  | .floFma c => Sys2Proof.Machine.execFloFma c s
  | .floCvt c => Sys2Proof.Machine.execFloCvt c s
  | .floTrunc c => Sys2Proof.Machine.execFloTrunc c s
  | .eq c => Sys2Proof.Machine.execEq c s
  | .eql c => Sys2Proof.Machine.execEql c s
  | .numEqual c => Sys2Proof.Machine.execNumEqual c s
  | .numLess c => Sys2Proof.Machine.execNumLess c s
  | .numGreater c => Sys2Proof.Machine.execNumGreater c s
  | .numLessEqual c => Sys2Proof.Machine.execNumLessEqual c s
  | .numGreaterEqual c => Sys2Proof.Machine.execNumGreaterEqual c s
  | .zerop c => Sys2Proof.Machine.execZerop c s
  | .typep c t => Sys2Proof.Machine.execTypep c t s
  | .check c t => Sys2Proof.Machine.execCheck c t s
  | .classp c k => Sys2Proof.Machine.execClassp c k s
  | .car c => Sys2Proof.Machine.execCar c s
  | .cdr c => Sys2Proof.Machine.execCdr c s
  | .cons c => Sys2Proof.Machine.execCons c s
  | .rplaca c => Sys2Proof.Machine.execRplaca c s
  | .rplacd c => Sys2Proof.Machine.execRplacd c s
  | .alloc c => Sys2Proof.Machine.execAlloc c s
  | .vref c => Sys2Proof.Machine.execVref c s
  | .vset c => Sys2Proof.Machine.execVset c s
  | .vlen c => Sys2Proof.Machine.execVlen c s
  | .copyvec c steps => Sys2Proof.Machine.execCopyvec c steps s
  | .fillvec c steps => Sys2Proof.Machine.execFillvec c steps s
  | .equal c steps => Sys2Proof.Machine.execEqual c steps s
  | .assq c steps => Sys2Proof.Machine.execAssq c steps s
  | .memq c steps => Sys2Proof.Machine.execMemq c steps s
  | .nreverse c steps => Sys2Proof.Machine.execNreverse c steps s
  | .symval c => Sys2Proof.Machine.execSymval c s
  | .symset c => Sys2Proof.Machine.execSymset c s
  | .symfn c => Sys2Proof.Machine.execSymfn c s
  | .fetch c u => Sys2Proof.Machine.execFetch c u s
  | .store c u => Sys2Proof.Machine.execStore c u s
  | .fetch2 c => Sys2Proof.Machine.execFetch2 c s
  | .store2 c => Sys2Proof.Machine.execStore2 c s
  | .loc c => Sys2Proof.Machine.execLoc c s
  | .cas c => Sys2Proof.Machine.execCas c s
  | .xchg c => Sys2Proof.Machine.execXchg c s
  | .fadd c => Sys2Proof.Machine.execFadd c s
  | .fenceAcq c => Sys2Proof.Machine.execFenceAcq c s
  | .fenceRel c => Sys2Proof.Machine.execFenceRel c s
  | .fenceFull c => Sys2Proof.Machine.execFenceFull c s
  | .pfetch c => Sys2Proof.Machine.execPfetch c s
  | .pstore c => Sys2Proof.Machine.execPstore c s
  | .gettag c => Sys2Proof.Machine.execGettag c s
  | .settag c => Sys2Proof.Machine.execSettag c s
  | .satbBufferFlush c => Sys2Proof.Machine.execSatbBufferFlush c s
  | .clean c => Sys2Proof.Machine.execClean c s
  | .flush c => Sys2Proof.Machine.execFlush c s
  | .inval c => Sys2Proof.Machine.execInval c s
  | .iinval c => Sys2Proof.Machine.execIinval c s
  | .lock c => Sys2Proof.Machine.execLock c s
  | .unlock c => Sys2Proof.Machine.execUnlock c s
  | .cleanAll c => Sys2Proof.Machine.execCleanAll c s
  | .flushAll c => Sys2Proof.Machine.execFlushAll c s
  | .iinvalAll c => Sys2Proof.Machine.execIinvalAll c s
  | .tlbiVa c => Sys2Proof.Machine.execTlbiVa c s
  | .tlbiVaw c => Sys2Proof.Machine.execTlbiVaw c s
  | .tlbiAsid c => Sys2Proof.Machine.execTlbiAsid c s
  | .tlbiVmid c => Sys2Proof.Machine.execTlbiVmid c s
  | .tlbiAll c => Sys2Proof.Machine.execTlbiAll c s
  | .tlbiComplete c => Sys2Proof.Machine.execTlbiComplete c s
  | .tlbw c => Sys2Proof.Machine.execTlbw c s
  | .tlbr c => Sys2Proof.Machine.execTlbr c s
  | .walk c => Sys2Proof.Machine.execWalk c s
  | .walkResult c => Sys2Proof.Machine.execWalkResult c s
  | .br c off => Sys2Proof.Machine.execBr c off s
  | .brnil c off => Sys2Proof.Machine.execBrnil c off s
  | .brt c off => Sys2Proof.Machine.execBrt c off s
  | .brz c off => Sys2Proof.Machine.execBrz c off s
  | .brnz c off => Sys2Proof.Machine.execBrnz c off s
  | .call c => Sys2Proof.Machine.execCall c s
  | .tcall c => Sys2Proof.Machine.execTcall c s
  | .ret c => Sys2Proof.Machine.execRet c s
  | .enter c n => Sys2Proof.Machine.execEnter c n s
  | .localI c n => Sys2Proof.Machine.execLocal c n s
  | .setlocal c n => Sys2Proof.Machine.execSetlocal c n s
  | .arg c n => Sys2Proof.Machine.execArg c n s
  | .gate c => Sys2Proof.Machine.execGate c s
  | .gret c => Sys2Proof.Machine.execGret c s
  | .rep c syl steps => Sys2Proof.Machine.execRep c syl steps s
  | .loop c n => Sys2Proof.Machine.execLoop c n s
  | .leave c => Sys2Proof.Machine.execLeave c s
  | .lcget c => Sys2Proof.Machine.execLcget c s
  | .lcset c => Sys2Proof.Machine.execLcset c s
  | .in c => Sys2Proof.Machine.execIn c s
  | .out c => Sys2Proof.Machine.execOut c s
  | .inb c n => Sys2Proof.Machine.execInb c n s
  | .outb c n => Sys2Proof.Machine.execOutb c n s
  | .registerWrite c w addr v => Sys2Proof.Machine.execRegisterWrite c w addr v s
  | .trap c n => Sys2Proof.Machine.execTrap c n s
  | .rte c => Sys2Proof.Machine.execRte c s
  | .rtq c => Sys2Proof.Machine.execRtq c s
  | .halt c => Sys2Proof.Machine.execHalt c s
  | .mfsr c => Sys2Proof.Machine.execMfsr c s
  | .mtsr c => Sys2Proof.Machine.execMtsr c s
  | .setipl c => Sys2Proof.Machine.execSetipl c s
  | .brk c => Sys2Proof.Machine.execBrk c s
  | .sync c => Sys2Proof.Machine.execSync c s
  | .time c => Sys2Proof.Machine.execTime c s
  | .rand c => Sys2Proof.Machine.execRand c s
  | .mcload c => Sys2Proof.Machine.execMcload c s
  | .undefinedOpcode c w => Sys2Proof.Machine.execUndefinedOpcode c w s
  | .customerOpcode c u => Sys2Proof.Machine.execCustomerOpcode c u s
  | .microTimeout c => Sys2Proof.Machine.execMicroTimeout c s
  | .scene c => Sys2Proof.Machine.execScene c s
  | .sceneS c => Sys2Proof.Machine.execSceneS c s
  | .curtain c => Sys2Proof.Machine.execCurtain c s
  | .cut c => Sys2Proof.Machine.execCut c s
  | .scstat c => Sys2Proof.Machine.execScstat c s
  | .rfetch c => Sys2Proof.Machine.execRfetch c s
  | .rstore c => Sys2Proof.Machine.execRstore c s
  | .rinvoke c => Sys2Proof.Machine.execRinvoke c s
  | .rsend c => Sys2Proof.Machine.execRsend c s
  | .scanstack c => Sys2Proof.Machine.execScanstack c s
  | .barrier c => Sys2Proof.Machine.execBarrier c s
  | .card c => Sys2Proof.Machine.execCard c s
  | .pace c => Sys2Proof.Machine.execPace c s
  | .unify c => Sys2Proof.Machine.execUnify c s
  | .matchI c => Sys2Proof.Machine.execMatch c s
  | .trailmark c => Sys2Proof.Machine.execTrailmark c s
  | .untrail c => Sys2Proof.Machine.execUntrail c s
  | .bind c => Sys2Proof.Machine.execBind c s
  | .deref c => Sys2Proof.Machine.execDeref c s
  | .lprobe c => Sys2Proof.Machine.execLprobe c s
  | .linsert c => Sys2Proof.Machine.execLinsert c s
  | .ldelete c => Sys2Proof.Machine.execLdelete c s
  | .coprocessorTurn cl look => Sys2Proof.Machine.execCoprocessorTurn cl look s
  | .coprocessorResponse c => Sys2Proof.Machine.execCoprocessorResponse c s
  | .missDataArrives c => Sys2Proof.Machine.execMissDataArrives c s
  | .storeQueueDrain c k => Sys2Proof.Machine.execStoreQueueDrain c k s
  | .usherRequest cl pa own u => Sys2Proof.Machine.execUsherRequest cl pa own u s
  | .ccCtlWaydis cl ways => Sys2Proof.Machine.execCcCtlWaydis cl ways s
  | .ccCtlFlush cl => Sys2Proof.Machine.execCcCtlFlush cl s
  | .interruptTaken c => Sys2Proof.Machine.execInterruptTaken c s
  | .nmiTaken c => Sys2Proof.Machine.execNmiTaken c s
  | .asyncMachineCheck c => Sys2Proof.Machine.execAsyncMachineCheck c s
  | .singleStepTrap c => Sys2Proof.Machine.execSingleStepTrap c s
  | .cueRouterEvent src => Sys2Proof.Machine.execCueRouterEvent src s
  | .localTimerFire c t => Sys2Proof.Machine.execLocalTimerFire c t s
  | .cueIpi w v => Sys2Proof.Machine.execCueIpi w v s
  | .cueNmi v => Sys2Proof.Machine.execCueNmi v s
  | .cueSrcWrite w n v => Sys2Proof.Machine.execCueSrcWrite w n v s
  | .cueLctlWrite c w v => Sys2Proof.Machine.execCueLctlWrite c w v s
  | .debugHaltRequest c => Sys2Proof.Machine.execDebugHaltRequest c s
  | .controlStoreLoad => Sys2Proof.Machine.execControlStoreLoad s
  | .controlStoreRefresh => Sys2Proof.Machine.execControlStoreRefresh s
  | .mcsRfctlRfnow cl => Sys2Proof.Machine.execMcsRfctlRfnow cl s
  | .colHeapbaseWrite v => Sys2Proof.Machine.execColHeapbaseWrite v s
  | .colRset v => Sys2Proof.Machine.execColRset v s
  | .colRootq va => Sys2Proof.Machine.execColRootq va s
  | .markFull => Sys2Proof.Machine.execMarkFull s
  | .markYoung => Sys2Proof.Machine.execMarkYoung s
  | .evacuate count => Sys2Proof.Machine.execEvacuate count s
  | .finish => Sys2Proof.Machine.execFinish s
  | .colIdle => Sys2Proof.Machine.execColIdle s
  | .colAbort => Sys2Proof.Machine.execColAbort s
  | .stagehandStep cl => Sys2Proof.Machine.execStagehandStep cl s
  | .sthErrResume cl => Sys2Proof.Machine.execSthErrResume cl s
  | .barrierCopyDone c => Sys2Proof.Machine.execBarrierCopyDone c s
  | .pacingGrant c => Sys2Proof.Machine.execPacingGrant c s
  | .pacelimExpiry c => Sys2Proof.Machine.execPacelimExpiry c s
  | .rdreq p h0 h1 units => Sys2Proof.Machine.execRdreq p h0 h1 units s
  | .rdrsp p h0 h1 units => Sys2Proof.Machine.execRdrsp p h0 h1 units s
  | .wrreq p h0 h1 units => Sys2Proof.Machine.execWrreq p h0 h1 units s
  | .wrrsp p h0 h1 units => Sys2Proof.Machine.execWrrsp p h0 h1 units s
  | .invoke p h0 h1 units => Sys2Proof.Machine.execInvoke p h0 h1 units s
  | .send p h0 h1 units => Sys2Proof.Machine.execSend p h0 h1 units s
  | .result p h0 h1 units => Sys2Proof.Machine.execResult p h0 h1 units s
  | .wret p h0 h1 units => Sys2Proof.Machine.execWret p h0 h1 units s
  | .eack p h0 h1 units => Sys2Proof.Machine.execEack p h0 h1 units s
  | .prepare p h0 h1 units => Sys2Proof.Machine.execPrepare p h0 h1 units s
  | .vote p h0 h1 units => Sys2Proof.Machine.execVote p h0 h1 units s
  | .commit p h0 h1 units => Sys2Proof.Machine.execCommit p h0 h1 units s
  | .abort p h0 h1 units => Sys2Proof.Machine.execAbort p h0 h1 units s
  | .notice p h0 h1 units => Sys2Proof.Machine.execNotice p h0 h1 units s
  | .oquery p h0 h1 units => Sys2Proof.Machine.execOquery p h0 h1 units s
  | .oreply p h0 h1 units => Sys2Proof.Machine.execOreply p h0 h1 units s
  | .mgmt p h0 h1 units => Sys2Proof.Machine.execMgmt p h0 h1 units s
  | .prepareTimeout c => Sys2Proof.Machine.execPrepareTimeout c s
  | .oqueryTimer slot => Sys2Proof.Machine.execOqueryTimer slot s
  | .originUnreachable slot => Sys2Proof.Machine.execOriginUnreachable slot s
  | .retransmitTimeout node => Sys2Proof.Machine.execRetransmitTimeout node s
  | .requestTimeout tag => Sys2Proof.Machine.execRequestTimeout tag s
  | .portSignalDetect p lanes => Sys2Proof.Machine.execPortSignalDetect p lanes s
  | .linkTrainingDone p w4 => Sys2Proof.Machine.execLinkTrainingDone p w4 s
  | .trainTimeout p => Sys2Proof.Machine.execTrainTimeout p s
  | .flitLockDone p => Sys2Proof.Machine.execFlitLockDone p s
  | .lockTimeout p => Sys2Proof.Machine.execLockTimeout p s
  | .hello p node nport w2 seal' sysid idbad cert sig => Sys2Proof.Machine.execHello p node nport w2 seal' sysid idbad cert sig s
  | .flitNak p good => Sys2Proof.Machine.execFlitNak p good s
  | .flitIdle p ack credits crdl => Sys2Proof.Machine.execFlitIdle p ack credits crdl s
  | .flitTsync p t1 t2 t3 t4 degraded => Sys2Proof.Machine.execFlitTsync p t1 t2 t3 t4 degraded s
  | .flitError p tag => Sys2Proof.Machine.execFlitError p tag s
  | .ackTimeout p => Sys2Proof.Machine.execAckTimeout p s
  | .keyRollover p => Sys2Proof.Machine.execKeyRollover p s
  | .creditStall p => Sys2Proof.Machine.execCreditStall p s
  | .tsyncExchange => Sys2Proof.Machine.execTsyncExchange s
  | .tourPctlRetrain p => Sys2Proof.Machine.execTourPctlRetrain p s
  | .tourPctlEn p en => Sys2Proof.Machine.execTourPctlEn p en s
  | .tourScres v => Sys2Proof.Machine.execTourScres v s
  | .tourInqhWrite v => Sys2Proof.Machine.execTourInqhWrite v s
  | .sqTailDoorbell q t => Sys2Proof.Machine.execSqTailDoorbell q t s
  | .cqHeadDoorbell q h => Sys2Proof.Machine.execCqHeadDoorbell q h s
  | .hostCqtWrite q v => Sys2Proof.Machine.execHostCqtWrite q v s
  | .msixTableWrite n addr data mask => Sys2Proof.Machine.execMsixTableWrite n addr data mask s
  | .mailboxGetstatus => Sys2Proof.Machine.execMailboxGetstatus s
  | .mailboxProfsel prof => Sys2Proof.Machine.execMailboxProfsel prof s
  | .mailboxFlashwr off data => Sys2Proof.Machine.execMailboxFlashwr off data s
  | .mailboxFlashchk copyB => Sys2Proof.Machine.execMailboxFlashchk copyB s
  | .mailboxBbread off => Sys2Proof.Machine.execMailboxBbread off s
  | .bar2Access off wr v => Sys2Proof.Machine.execBar2Access off wr v s
  | .hdm0Write addr data mask poison => Sys2Proof.Machine.execHdm0Write addr data mask poison s
  | .hdm1Write addr tags mask => Sys2Proof.Machine.execHdm1Write addr tags mask s
  | .hostMemRead addr => Sys2Proof.Machine.execHostMemRead addr s
  | .hostSnoop addr own => Sys2Proof.Machine.execHostSnoop addr own s
  | .hdmDecoderCommit second base => Sys2Proof.Machine.execHdmDecoderCommit second base s
  | .hostReadCompletion pa data poison err => Sys2Proof.Machine.execHostReadCompletion pa data poison err s
  | .hostBiascmd v => Sys2Proof.Machine.execHostBiascmd v s
  | .hostBiascmdAbort => Sys2Proof.Machine.execHostBiascmdAbort s
  | .hostCtlViral => Sys2Proof.Machine.execHostCtlViral s
  | .viralReceived => Sys2Proof.Machine.execViralReceived s
  | .linkDown => Sys2Proof.Machine.execLinkDown s
  | .perstNAssert => Sys2Proof.Machine.execPerstNAssert s
  | .flr => Sys2Proof.Machine.execFlr s
  | .cxlReset => Sys2Proof.Machine.execCxlReset s
  | .cxlResetMemClr => Sys2Proof.Machine.execCxlResetMemClr s
  | .ideIntegrityFailure cm => Sys2Proof.Machine.execIdeIntegrityFailure cm s
  | .getVersion => Sys2Proof.Machine.execGetVersion s
  | .getCapabilities => Sys2Proof.Machine.execGetCapabilities s
  | .negotiateAlgorithms ok => Sys2Proof.Machine.execNegotiateAlgorithms ok s
  | .getDigests => Sys2Proof.Machine.execGetDigests s
  | .getCertificate slot off len => Sys2Proof.Machine.execGetCertificate slot off len s
  | .challenge slot nonce => Sys2Proof.Machine.execChallenge slot nonce s
  | .getMeasurements blk nonce => Sys2Proof.Machine.execGetMeasurements blk nonce s
  | .keyExchange share wantMutual => Sys2Proof.Machine.execKeyExchange share wantMutual s
  | .spdmFinish ok => Sys2Proof.Machine.execSpdmFinish ok s
  | .keyProg cm key => Sys2Proof.Machine.execKeyProg cm key s
  | .kSetGo cm => Sys2Proof.Machine.execKSetGo cm s
  | .kSetStop cm => Sys2Proof.Machine.execKSetStop cm s
  | .spdmUnsupportedRequest => Sys2Proof.Machine.execSpdmUnsupportedRequest s
  | .cdatRead => Sys2Proof.Machine.execCdatRead s
  | .patrolScrub pa err shadow late => Sys2Proof.Machine.execPatrolScrub pa err shadow late s
  | .hbmRefresh m => Sys2Proof.Machine.execHbmRefresh m s
  | .hbmTemperatureRead m temp => Sys2Proof.Machine.execHbmTemperatureRead m temp s
  | .periodicCalibration m chan => Sys2Proof.Machine.execPeriodicCalibration m chan s
  | .mcCalcmd m chan => Sys2Proof.Machine.execMcCalcmd m chan s
  | .forcedRecalComplete m chan => Sys2Proof.Machine.execForcedRecalComplete m chan s
  | .devModeWrite v => Sys2Proof.Machine.execDevModeWrite v s
  | .cluModeWrite cl v => Sys2Proof.Machine.execCluModeWrite cl v s
  | .modeChange => Sys2Proof.Machine.execModeChange s
  | .lockstepDivergence c => Sys2Proof.Machine.execLockstepDivergence c s
  | .selftestWayRotation cl fail => Sys2Proof.Machine.execSelftestWayRotation cl fail s
  | .selftestIdleCore c fail => Sys2Proof.Machine.execSelftestIdleCore c fail s
  | .devStreq cls idx => Sys2Proof.Machine.execDevStreq cls idx s
  | .selftestStart => Sys2Proof.Machine.execSelftestStart s
  | .selftestDeadline => Sys2Proof.Machine.execSelftestDeadline s
  | .selftestResult pass => Sys2Proof.Machine.execSelftestResult pass s
  | .devStreqAbort => Sys2Proof.Machine.execDevStreqAbort s
  | .chunkEnd a => Sys2Proof.Machine.execChunkEnd a s
  | .chunkCommit => Sys2Proof.Machine.execChunkCommit s
  | .snapshotComplete => Sys2Proof.Machine.execSnapshotComplete s
  | .hostpushDrain => Sys2Proof.Machine.execHostpushDrain s
  | .rehCtlAbort => Sys2Proof.Machine.execRehCtlAbort s
  | .rehMark c v => Sys2Proof.Machine.execRehMark c v s
  | .rehRheadWrite v => Sys2Proof.Machine.execRehRheadWrite v s
  | .rehHheadWrite v => Sys2Proof.Machine.execRehHheadWrite v s
  | .replayPrep log image ctxs => Sys2Proof.Machine.execReplayPrep log image ctxs s
  | .replayReady => Sys2Proof.Machine.execReplayReady s
  | .replayChunk => Sys2Proof.Machine.execReplayChunk s
  | .replayResume => Sys2Proof.Machine.execReplayResume s
  | .replayAbort => Sys2Proof.Machine.execReplayAbort s
  | .traceLossEntry => Sys2Proof.Machine.execTraceLossEntry s
  | .rehTctlFrozenClear => Sys2Proof.Machine.execRehTctlFrozenClear s
  | .porNAssert => Sys2Proof.Machine.execPorNAssert s
  | .porNRelease profile paddr recover => Sys2Proof.Machine.execPorNRelease profile paddr recover s
  | .aonrcOk => Sys2Proof.Machine.execAonrcOk s
  | .greenRoomClockSwitch => Sys2Proof.Machine.execGreenRoomClockSwitch s
  | .aon32Good => Sys2Proof.Machine.execAon32Good s
  | .aon32Timeout => Sys2Proof.Machine.execAon32Timeout s
  | .pllLoss p => Sys2Proof.Machine.execPllLoss p s
  | .pllRelock p => Sys2Proof.Machine.execPllRelock p s
  | .sysrefLost => Sys2Proof.Machine.execSysrefLost s
  | .sysrefRestored => Sys2Proof.Machine.execSysrefRestored s
  | .fallbackSlow => Sys2Proof.Machine.execFallbackSlow s
  | .clkTpllWrite t core cch => Sys2Proof.Machine.execClkTpllWrite t core cch s
  | .tpllChangeDone t => Sys2Proof.Machine.execTpllChangeDone t s
  | .clkGreqGate cls idx => Sys2Proof.Machine.execClkGreqGate cls idx s
  | .clkGreqUngate cls idx => Sys2Proof.Machine.execClkGreqUngate cls idx s
  | .gateAck => Sys2Proof.Machine.execGateAck s
  | .gateTimeout => Sys2Proof.Machine.execGateTimeout s
  | .pwrCmdDark => Sys2Proof.Machine.execPwrCmdDark s
  | .pwrCmdAbort => Sys2Proof.Machine.execPwrCmdAbort s
  | .darkCommit => Sys2Proof.Machine.execDarkCommit s
  | .darkWake => Sys2Proof.Machine.execDarkWake s
  | .avsFailure t => Sys2Proof.Machine.execAvsFailure t s
  | .powerEstimate watts => Sys2Proof.Machine.execPowerEstimate watts s
  | .thermalThrottle tile temp => Sys2Proof.Machine.execThermalThrottle tile temp s
  | .thermtrip tile temp => Sys2Proof.Machine.execThermtrip tile temp s
  | .timeAdjStep ns => Sys2Proof.Machine.execTimeAdjStep ns s
  | .timeAdjSlew ns => Sys2Proof.Machine.execTimeAdjSlew ns s
  | .tsyncInEdge => Sys2Proof.Machine.execTsyncInEdge s
  | .tsyncOutPulse => Sys2Proof.Machine.execTsyncOutPulse s
  | .loadIn pllOk bistBad sysBist => Sys2Proof.Machine.execLoadIn pllOk bistBad sysBist s
  | .hbmTrainingDone ok => Sys2Proof.Machine.execHbmTrainingDone ok s
  | .memoryClearingDone => Sys2Proof.Machine.execMemoryClearingDone s
  | .loadinNextWrite v sticky prof => Sys2Proof.Machine.execLoadinNextWrite v sticky prof s
  | .loadinCmdWarm => Sys2Proof.Machine.execLoadinCmdWarm s
  | .loadinCmdCreset cl => Sys2Proof.Machine.execLoadinCmdCreset cl s
  | .loadinStart c sa => Sys2Proof.Machine.execLoadinStart c sa s
  | .warmNEdge => Sys2Proof.Machine.execWarmNEdge s
  | .warmReset => Sys2Proof.Machine.execWarmReset s
  | .clusterReset cl => Sys2Proof.Machine.execClusterReset cl s
  | .vddAonLoss => Sys2Proof.Machine.execVddAonLoss s
  | .ksuFuse k back => Sys2Proof.Machine.execKsuFuse k back s
  | .ksuRevoke k back => Sys2Proof.Machine.execKsuRevoke k back s
  | .ksuProvlock k back => Sys2Proof.Machine.execKsuProvlock k back s
  | .ksuZeroize => Sys2Proof.Machine.execKsuZeroize s
  | .ksuReseed ok => Sys2Proof.Machine.execKsuReseed ok s
  | .drbgAutoReseed => Sys2Proof.Machine.execDrbgAutoReseed s
  | .entropyHealthFailure => Sys2Proof.Machine.execEntropyHealthFailure s
  | .prompterStatus => Sys2Proof.Machine.execPrompterStatus s
  | .telem => Sys2Proof.Machine.execTelem s
  | .prompterBbread off count => Sys2Proof.Machine.execPrompterBbread off count s
  | .bbclear => Sys2Proof.Machine.execBbclear s
  | .prompterProfsel v => Sys2Proof.Machine.execPrompterProfsel v s
  | .modeset v => Sys2Proof.Machine.execModeset v s
  | .prompterReset kind cl => Sys2Proof.Machine.execPrompterReset kind cl s
  | .calib v => Sys2Proof.Machine.execCalib v s
  | .prompterWake => Sys2Proof.Machine.execPrompterWake s
  | .prompterDark => Sys2Proof.Machine.execPrompterDark s
  | .chal => Sys2Proof.Machine.execChal s
  | .pauth sig => Sys2Proof.Machine.execPauth sig s
  | .pend => Sys2Proof.Machine.execPend s
  | .dbgunlock scope sig => Sys2Proof.Machine.execDbgunlock scope sig s
  | .attest nonce blk => Sys2Proof.Machine.execAttest nonce blk s
  | .prompterZeroize magic => Sys2Proof.Machine.execPrompterZeroize magic s
  | .prompterFlashwr off data => Sys2Proof.Machine.execPrompterFlashwr off data s
  | .prompterFlashchk copy => Sys2Proof.Machine.execPrompterFlashchk copy s
  | .mbwrite msg => Sys2Proof.Machine.execMbwrite msg s
  | .mbread => Sys2Proof.Machine.execMbread s
  | .responseRead => Sys2Proof.Machine.execResponseRead s
  | .alertResponse => Sys2Proof.Machine.execAlertResponse s
  | .smbusTimeout => Sys2Proof.Machine.execSmbusTimeout s
  | .sessionTimeout => Sys2Proof.Machine.execSessionTimeout s
  | .lockoutExpiry => Sys2Proof.Machine.execLockoutExpiry s
  | .prompterMbctlWrite clearIn setOut len => Sys2Proof.Machine.execPrompterMbctlWrite clearIn setOut len s
  | .perstNDeassert => Sys2Proof.Machine.execPerstNDeassert s
  | .hostLinkUp cxl width fast => Sys2Proof.Machine.execHostLinkUp cxl width fast s
  | .configurationRequest wr dword v => Sys2Proof.Machine.execConfigurationRequest wr dword v s
  | .prompterRejectedRequest kind opc => Sys2Proof.Machine.execPrompterRejectedRequest kind opc s
  | .mailboxUnknownOpcode op => Sys2Proof.Machine.execMailboxUnknownOpcode op s
  | .tourReservedMessage p h0 h1 units => Sys2Proof.Machine.execTourReservedMessage p h0 h1 units s
  | .debugResume c step => Sys2Proof.Machine.execDebugResume c step s
  | .drbgInstantiated => Sys2Proof.Machine.execDrbgInstantiated s
  | .hostWriteRefused => Sys2Proof.Machine.execHostWriteRefused s

end Sys2Proof.Machine
end

