-- ==== Sys2Proof/Machine/Tick.lean ====
section
/-! DEFINITION. What one step on an empty queue does: one nanosecond passes (R475, log entry 4, DESIGN CHOICE). -/

namespace Sys2Proof.Machine

open Sys2Proof

/-- The part of a slew that one nanosecond makes, in units of 10^-4 ns: at most 500 parts per million (R476). -/
def slewPart (slew : Int) : Int := max (-5) (min 5 slew)

/-- The time base advances by one nanosecond, more or less by a slew in progress; it is never set back (R475, R476). -/
def State.advance (s : State) : State :=
  if !s.clk.timeOn then s
  else
    let p := slewPart s.clk.slew
    let acc := s.clk.slewAcc + p
    let n := if 10000 ≤ acc then 2 else if acc ≤ -10000 then 0 else 1
    let acc := if 10000 ≤ acc then acc - 10000 else if acc ≤ -10000 then acc + 10000 else acc
    ({ s with clk := { s.clk with slew := s.clk.slew - p, slewAcc := acc } } : State).stepTime n

/-- Counters of nanoseconds: STALL waits of the ring (R445), channels held for a forced recalibration (R413), suppression by
temperature and by power (R470-R472). -/
def State.countNs (s : State) : State :=
  let s := if s.recording && !s.reh.queue.isEmpty && !(s.ringRoom 1) then s.bump .REH_STALLNS 0 1 else s
  let s := (List.range 4).foldl (fun (s : State) m =>
    if s.recal.any (fun r => r.mc == m && !r.deferred) then s.bump .MC_CALHOLD m 1 else s) s
  let s := if s.clk.thSup.any (fun n => n != 0) then s.bump .PWR_THROTNS 0 1 else s
  if s.clk.pwSup != 0 then s.bump .PWR_PLIMNS 0 1 else s

/-- Work that waits for nothing but time: requests parked at a home slice, messages of this node, held arrivals, reliable messages, ended chunks, the bias command's next
page, an accepted cold reset. -/
def State.background (s : State) : State :=
  let s := s.serveParked.settle.retryHeld.retryWaiting
  let s := State.commitAll s.reh.queue.length s
  s.biasStep.coldDue

/-- One nanosecond passes. -/
def State.tick (s : State) : State :=
  if !s.clk.aon || s.clk.por then s else s.advance.countNs.background

end Sys2Proof.Machine
end

