-- ==== Sys2Proof/Safety.lean ====
section
/-! DEFINITION. What counts as a safe run of the block, and when a core issues a syllable with nothing else to do first, in the
terms that the statements use. -/

/-- The core as its syllable's own program finds it: the syllable is noted, nothing else has changed. -/
def Sys2Proof.Machine.State.ready (s : Sys2Proof.Machine.State) (c syl : Nat) : Sys2Proof.Machine.State :=
  s.modCore c (fun k => { k with wait := none, traceN := 0, syl := syl })

namespace Sys2Proof.Safety

open Sys2Proof Sys2Proof.Machine

/-- Memory has its canonical form: for given cleared ranges, equal memories are equal data (log entry 2, DESIGN CHOICE). -/
def MemoryCanonical (s : State) : Prop := Memory.wf s = true

/-- The next step answers a next state: no fault and no refusal of the model. -/
def Continues (s : State) : Prop := ∃ t, step s = .next t

/-- A state from which a run goes on safely. -/
def Safe (s : State) : Prop := MemoryCanonical s ∧ Continues s

/-- A run of n steps that stays safe. -/
def SafeRun : Nat → State → Prop
  | 0, s => Safe s
  | n + 1, s => Safe s ∧ ∀ t, step s = .next t → SafeRun n t

/-- Core c issues, and meets nothing but its syllable: no event, Scene, replay, recording, trace, STRICT, branch in its delay
slot, loop at its end, pending result, store window, shadow, stepped or repeated syllable, single step or frame miss; no request waits
at a home slice, and the line at its PC is in its I-frames with a word there that is not POISON. -/
structure Quiet (s : State) (c : Nat) : Prop where
  issues : s.canIssue c = true
  remote : (s.core c).ev.remote = []
  noParked : s.parked = []
  noReplay : s.mode mREPLAY = false
  noRecord : s.recording = false
  noTrace : s.tracing c = false
  noStrict : s.strict c = false
  noScene : (s.core c).psw.sc = false
  noSlot : (s.core c).psw.ds = false
  noLoop : (s.core c).psw.lp = false
  noStep : (s.core c).psw.step = false
  noRep : (s.core c).psw.repp = false
  noPend : (s.core c).pend = []
  noWins : (s.core c).wins = []
  noNewWins : (s.core c).newWins = []
  noSpills : (s.core c).spills = []
  noBuf : (s.core c).hostBuf = []
  noShadow : (s.core c).shadow = none
  noMicro : (s.core c).micro = none
  noMiss : (s.core c).mem.miss = false
  noSingle : (s.core c).stepOnce = false
  noTrap : s.stepDue c (!(s.core c).psw.l) (s.core c).psw.w = false
  fetch : ∃ lf, fetchOk (s.core c) = .inr lf ∧ (s.core c).hasLine (lineOf lf.pa) = true ∧ (s.core c).poisoned lf.pa = false

/-- The operand stack of core c holds at least n entries (R48, R50). -/
def Deep (s : State) (c n : Nat) : Prop := n = 0 ∨ (s.core c).stk.sp + (n - 1) < sbaseOf (s.core c)

/-- The operand words `ops` (position 0 first) are the topmost entries of core c's operand stack and lie in its registers; the
stack holds what the syllable removes, and `grow` more registers are free, so that nothing is spilled or filled (R49, R50). -/
structure Stacked (s : State) (c : Nat) (ops : List TWord) (takes grow : Nat) : Prop where
  top : (s.core c).stk.regs.take ops.length = ops
  room : (s.core c).stk.regs.length + grow ≤ 8
  deep : Deep s c (Nat.max ops.length takes)

/-- The core after a syllable has retired (R49, R113, R137): the operands removed, the results pushed, PC at the next syllable. -/
def retired (k : Core) (syl takes : Nat) (push : List TWord) : Core :=
  { k with wait := none, syl := syl, traceN := 1, pc := va48 ((k.pc : Int) + 1)
           stk := { k.stk with sp := va48 ((k.stk.sp + takes : Nat) - (push.length : Int))
                               regs := push.reverse ++ k.stk.regs.drop takes } }

/-- The state after a syllable of core c has retired and changed nothing but its core's stack, PC and counts (R137). -/
def after (s : State) (c syl takes : Nat) (push : List TWord) : State :=
  (s.modCore c (fun k => retired k syl takes push)).bump .CORE_RET c 1

/-- The state after a syllable whose one result has distance d > 1 (R139, R140): S0 keeps the old content of its slot until the
result lands. -/
def afterLate (s : State) (c syl takes d : Nat) (w : TWord) : State :=
  (s.modCore c (fun k =>
    let old := if takes = 0 then wEMPTY else k.stk.regs.getD (takes - 1) wEMPTY
    { retired k syl takes [old] with
      pend := [{ slot := va48 ((k.stk.sp + takes : Nat) - 1), val := w, arrived := true, remain := d, gone := 0,
                 sa := k.pc, syl := syl }] })).bump .CORE_RET c 1

/-- An integer that a FIX word holds (R27). -/
def InFix (n : Int) : Prop := -(2 ^ 63 : Int) ≤ n ∧ n < 2 ^ 63

/-- The number of a FIX or FLO word, as the generic operations take it (R88, R89). -/
def realOf (w : TWord) : RealN := if ty w = tFLO then .fl w.datum.toNat else .ex w.datum.toInt 1

/-- FIX and FLO words, at least one of them a FLO: the generic operation is binary64 (R89). -/
def SomeFlo (x y : TWord) : Prop := (ty x = tFLO ∧ (ty y = tFLO ∨ ty y = tFIX)) ∨ (ty x = tFIX ∧ ty y = tFLO)

/-- A word that any syllable may consume: neither POISON nor of a reserved or customer type (R40 steps 1-3). -/
def Sound (w : TWord) : Prop := ty w ≠ tPOISON ∧ ty w < 0x20

/-- At most four operand registers are in use: a microcoded syllable spills nothing (R162). -/
def MicroRoom (s : State) (c : Nat) : Prop := (s.core c).stk.regs.length ≤ 4

/-- The state after a syllable of core c has retired and changed nothing but its core, as `f` says (R137). -/
def changed (s : State) (c : Nat) (f : Core → Core) : State := (s.modCore c f).bump .CORE_RET c 1

/-! ### Memory accesses that complete at once -/

/-- An access at va `a` causes no prefetch (R258): prefetching is off, or the access is no miss and no stride stream predicts it. -/
def Calm (k : Core) (a : Nat) (missed : Bool) : Prop :=
  bits k.sr.cctl 5 4 = 0 ∨ (missed = false ∧ (bits k.sr.cctl 5 4 ≠ 2 ∨ k.mem.streams.find? (fun x => x.predicts a) = none))

/-- A read of va `a` by core c through `lf` hits its D-frames: NORMAL-WB memory of the device, no fence condition unmet, no prefetch
(R226, R247, R258, R279). -/
structure Hit (s : State) (c a : Nat) (lf : Leaf) : Prop where
  leaf : xlateCore (s.core c) a .read 7 = .inr lf
  wb : lf.mt = 0
  here : place lf.pa = .loc ∨ place lf.pa = .priv
  frame : (s.core c).dstate (lineOf lf.pa) ≠ .inv
  fence : (s.core c).mem.fence = false
  core : (s.core c).unit = false
  calm : Calm (s.core c) a false

/-- Nobody contends for a line (R160, R293, R304): no core is in a Scene, no distributed Scene holds a slot here, and no core's microcode
holds a word. -/
structure Uncontested (s : State) : Prop where
  scenes : ∀ h, (s.core h).psw.sc = false
  slots : s.tour.slots = []
  micro : ∀ h, (s.core h).micro = none

/-- The load barrier leaves the word alone (R310, R322): barriers are off, it is no pointer, or it points outside the heap. -/
def Settled (s : State) (c : Nat) (w : TWord) : Prop :=
  (isPtr (s.cuptr c) (ty w) && s.colOn && hiZero w) = false ∨ s.regionOf (adr w) = none

/-- The state after the core's D-frame of a pa has been used (R247: the frames' order of use). -/
def touched (s : State) (c pa : Nat) : State := s.fillFrame c (lineOf pa) ((s.core c).dstate (lineOf pa))

/-- A plain read of the word w at va `a` that hits, leaving t. -/
def Sees (s t : State) (c a : Nat) (w : TWord) : Prop :=
  ∃ lf, Hit s c a lf ∧ w = s.coreSees c lf.pa ∧ t = touched s c lf.pa

/-- A load of the word w at va `a` that hits and that the load barrier leaves alone, leaving t. -/
def Reads (s t : State) (c a : Nat) (w : TWord) : Prop := Sees s t c a w ∧ Settled s c w

/-- The header h of the object at va `a` (R39), read by a hit, leaving t. -/
def HeaderAt (s t : State) (c a : Nat) (h : TWord) : Prop := Sees s t c a h ∧ ty h = tHDR

/-- A pointer that a syllable may dereference (R26, R40, R82): well formed, on an even address if a CONS, and not stale. -/
def Pointer (s : State) (c : Nat) (p : TWord) (t : Nat) : Prop :=
  ty p = t ∧ hiZero p = true ∧ (ty p = tCONS → adr p % 2 = 0) ∧ Settled s c p

/-- A store to va `a` of core c through `lf` enters the store queue (R248): NORMAL memory of the device, room in
the queue, no prefetch. -/
structure Storable (s : State) (c a : Nat) (lf : Leaf) : Prop where
  leaf : xlateCore (s.core c) a .write 7 = .inr lf
  mt : lf.mt ≤ 1
  here : place lf.pa = .loc ∨ place lf.pa = .priv
  room : (s.core c).mem.sq.length < 8
  fence : (s.core c).mem.fence = false
  core : (s.core c).unit = false
  calm : Calm (s.core c) a ((s.core c).dstate (lineOf lf.pa) == .inv && !((s.core c).mem.sq.any (fun x => lineOf x.pa == lineOf lf.pa)))

/-- A store of v over `old` neither marks a card nor logs the old word (R319, R320). -/
def NoBarrier (s : State) (c : Nat) (old v : TWord) : Prop :=
  s.colOn = false ∨ (s.heapPtr c old = false ∧ s.heapPtr c v = false)

/-- A user-level store of HDR or FWD is refused (R37); others may be stored. -/
def MayStore (s : State) (c : Nat) (v : TWord) : Prop := (s.core c).psw.l = true ∨ (ty v ≠ tHDR ∧ ty v ≠ tFWD)

/-- The queued store of v through `lf` (R248). -/
def queued (k : Core) (lf : Leaf) (v : TWord) (alloc : Bool) : QStore :=
  { pa := lf.pa, val := v, epoch := k.mem.epoch, strict := false, alloc := alloc, nc := lf.mt != 0 }

/-- The core with stores queued. -/
def Core.withQueue (k : Core) (l : List QStore) : Core := { k with mem := { k.mem with sq := k.mem.sq ++ l } }

/-- The window of R144 that a store through `lf` over `old` opens. -/
def window (k : Core) (syl : Nat) (lf : Leaf) (old : TWord) : StoreWin :=
  { pa := lf.pa, old := old, remain := 2, sa := k.pc, syl := syl }

/-- The state after a syllable whose only effects beside its core's stack are queued stores and their windows. -/
def afterStores (s : State) (c syl takes : Nat) (push : List TWord) (l : Core → List QStore) (w : Core → List StoreWin) : State :=
  changed s c (fun k => { (Core.withQueue (retired k syl takes push) (l k)) with wins := w k })

/-- The same at the end of a stepped instruction (R105): PG0-PG3 are cleared. -/
def afterSteps (s : State) (c syl takes : Nat) (push : List TWord) (l : Core → List QStore) : State :=
  changed s c (fun k =>
    let r := Core.withQueue (retired k syl takes push) (l k)
    { r with sr := { r.sr with pg0 := fixN 0, pg1 := fixN 0, pg2 := fixN 0, pg3 := fixN 0 } })

/-- In a quiet core with the operands `ops`, where `ok` holds, the command's next state is `t`. -/
def Leads (i : Fin 256 → Instr) (ops : List TWord) (takes grow : Nat) (ok : State → Nat → Prop) (t : State → Nat → State) : Prop :=
  ∀ (s : State) (c : Fin 256), Quiet s c → Stacked s c ops takes grow → ok s c → exec (i c) s = .next (t s c)

/-- The command pops `takes` entries, pushes `push` (the last word becomes S0), retires, and does nothing else. -/
def Gives (i : Fin 256 → Instr) (syl : Nat) (ops : List TWord) (takes grow : Nat) (push : List TWord) : Prop :=
  Leads i ops takes grow (fun _ _ => True) (fun s c => after s c syl takes push)

/-- The same for one result of distance d. -/
def GivesLate (i : Fin 256 → Instr) (syl : Nat) (ops : List TWord) (takes grow d : Nat) (w : TWord) : Prop :=
  Leads i ops takes grow (fun _ _ => True) (fun s c => afterLate s c syl takes d w)

/-- The command raises the trap `x` and has no other effect: the exception is taken (R189). -/
def Raises (i : Fin 256 → Instr) (syl : Nat) (ops : List TWord) (takes grow : Nat) (ok : State → Nat → Prop) (x : Trap) : Prop :=
  Leads i ops takes grow ok (fun s c => (s.ready c syl).takeTrap c x syl)

/-! ### Waiting cores -/

/-- The state after core c has frozen on a request (R138): its syllable has handed the request over and waits for the answer. -/
def frozen (s : State) (c syl : Nat) (w : Wait) : State :=
  s.modCore c (fun k => { k with wait := some w, traceN := 0, syl := syl })

/-- Core c waits on `w` with the syllable `syl` and is otherwise quiet. -/
structure Waits (s : State) (c syl : Nat) (w : Wait) : Prop where
  wait : (s.core c).wait = some w
  quiet : Quiet (s.modCore c (fun k => { k with wait := none })) c
  syl : (s.core c).syl = syl
  traceN : (s.core c).traceN = 0

/-! ### Messages of the tour fabric -/

/-- The message m reaches this node on port p (R361, R366): the port is UP, the device has a node ID and is awake, nothing else is being
delivered, no request waits at a home slice, and neither a session nor a Scene takes part. -/
structure Arrives (s : State) (p : Nat) (m : Msg) : Prop where
  up : s.portUp p = true
  port : p < s.tour.ports.length
  dest : m.dest = s.node
  node : s.node ≠ 0x3FFF
  other : m.src ≠ s.node
  awake : s.status ≠ 5 ∧ s.clk.dark = false
  loop : s.tour.loop = []
  parked : s.parked = []
  noReplay : s.mode mREPLAY = false
  noRecord : s.recording = false

/-- The state after the link layer has taken the flits of m (R361). -/
def received (s : State) (p : Nat) (m : Msg) : State :=
  s.modPort p (fun q => { q with good := (q.good + s.flitsOf p m) % 4096, tagFails := 0 })

/-- The state after port p has returned the credits of m (R368). -/
def credited (t : State) (p n : Nat) (m : Msg) : State := { t with wire := .credit p m.lane n (t.port p).good :: t.wire }

/-- The message of type `type` that the header words h0 and h1 and the units spell (R363). -/
def spelled (type : Nat) (h0 h1 : W64) (units : List TWord) : Msg := { Msg.ofWords h0 h1 (units.take 16) with type := type }

/-- The state after the reliable message m has been delivered, leaving t: the next sequence is expected and m is acknowledged (R376). -/
def acknowledged (t : State) (q : Peer) (m : Msg) : State :=
  (t.putPeer { q with nextRx := some ((m.tag + 1) % 2 ^ 32) }).eack m.src m.tag

/-! ### Requests of the Prompter -/

/-- The Prompter takes a request (R502, R504): the Green Room runs, no request is being carried out, no cold reset has been accepted, and no
session or lockout ends at this time. -/
structure Listens (s : State) : Prop where
  up : s.pmUp = true
  settled : s.pmSettle = s
  idle : s.pm.rst ≠ 6
  cold : s.pm.coldAt = none

/-- The request with command byte `opc` is one that this state serves (R507, R508); `kind` is the kind of a RESET. -/
structure Serves (s : State) (opc kind : Nat) : Prop where
  listens : Listens s
  session : classA opc = true → s.flag f_PROMPTER_STAT_SESSION 0 = true
  serve : serveOf opc kind s.pmState = .yes

/-- The accepted request `opc` has been counted; its response is the status `rst` and the payload `data` (R504, R505, R511). -/
def replied (s : State) (opc rst : Nat) (data : List Nat) : State :=
  { s.bump .PROMPTER_CMDS 0 1 with pm := { s.pm with rst := rst, ropc := opc, data := data, last := s.time } }

/-- The state t with another response. -/
def responds (t : State) (rst : Nat) (data : List Nat) : State := { t with pm := { t.pm with rst := rst, data := data } }

end Sys2Proof.Safety
end

