-- ==== Sys2Proof/WellFormed.lean ====
section
/-! DEFINITION. Which commands are well formed: the operands that the outside supplies have the sizes that the spec gives
them. The meanings are total and need no command to be well formed. -/

namespace Sys2Proof

/-- TYPE and LEN of a message header (R363). -/
def headerType (h0 : BitVec 64) : Nat := h0.toNat / 2 ^ 56
def headerLen (h0 : BitVec 64) : Nat := h0.toNat / 2 ^ 13 % 32

/-- A message of a type: the header names the type, and LEN counts its payload units, of which there are 0 to 16 (R363,
R364). -/
def messageOk (type : Nat) (h0 : BitVec 64) (units : List TWord) : Bool :=
  decide (headerType h0 = type ∧ headerLen h0 = units.length ∧ units.length ≤ 16)

/-- The types that R364 defines. -/
def definedTypes : List Nat := [1, 2, 3, 4, 5, 6, 7, 8, 9, 0x10, 0x11, 0x12, 0x13, 0x14, 0x15, 0x16, 0x20]

/-- A message with a reserved TYPE (R364). -/
def reservedOk (h0 : BitVec 64) (units : List TWord) : Bool :=
  decide (headerType h0 ∉ definedTypes ∧ headerLen h0 = units.length ∧ units.length ≤ 16)

/-- A host read answers a line of the host-memory window or one word of the host MMIO and peer range (R389). -/
def completionOk (pa : BitVec 48) (data : List (BitVec 64)) : Bool :=
  if 0x002000000000 ≤ pa.toNat then decide (data.length = 1) else decide (data.length = 8)

/-- The command is well formed. -/
def Instr.wellFormed (c : Instr) : Bool :=
  match c with
  | .copyvec _ steps => decide (1 ≤ steps)
  | .fillvec _ steps => decide (1 ≤ steps)
  | .equal _ steps => decide (1 ≤ steps)
  | .assq _ steps => decide (1 ≤ steps)
  | .memq _ steps => decide (1 ≤ steps)
  | .nreverse _ steps => decide (1 ≤ steps)
  | .rep _ _ steps => decide (1 ≤ steps)
  | .storeQueueDrain _ k => decide (k < 8)
  | .rdreq _ h0 _ units => messageOk 0x01 h0 units
  | .rdrsp _ h0 _ units => messageOk 0x02 h0 units
  | .wrreq _ h0 _ units => messageOk 0x03 h0 units
  | .wrrsp _ h0 _ units => messageOk 0x04 h0 units
  | .invoke _ h0 _ units => messageOk 0x05 h0 units
  | .send _ h0 _ units => messageOk 0x06 h0 units
  | .result _ h0 _ units => messageOk 0x07 h0 units
  | .wret _ h0 _ units => messageOk 0x08 h0 units
  | .eack _ h0 _ units => messageOk 0x09 h0 units
  | .prepare _ h0 _ units => messageOk 0x10 h0 units
  | .vote _ h0 _ units => messageOk 0x11 h0 units
  | .commit _ h0 _ units => messageOk 0x12 h0 units
  | .abort _ h0 _ units => messageOk 0x13 h0 units
  | .notice _ h0 _ units => messageOk 0x14 h0 units
  | .oquery _ h0 _ units => messageOk 0x15 h0 units
  | .oreply _ h0 _ units => messageOk 0x16 h0 units
  | .mgmt _ h0 _ units => messageOk 0x20 h0 units
  | .hello _ _ _ _ _ _ _ _ sig => decide (sig.length = 96)
  | .mailboxFlashwr _ data => decide (1 ≤ data.length ∧ data.length ≤ 4096)
  | .hdm0Write _ data _ _ => decide (data.length = 8)
  | .hostReadCompletion pa data _ _ => completionOk pa data
  | .keyExchange share _ => decide (share.length = 96)
  | .replayPrep log _ _ => decide (log.length % 2 = 0)
  | .pauth sig => decide (sig.length = 96)
  | .dbgunlock _ sig => decide (sig.length = 96)
  | .prompterFlashwr _ data => decide (1 ≤ data.length ∧ data.length ≤ 240)
  | .mbwrite msg => decide (1 ≤ msg.length ∧ msg.length ≤ 64)
  | .tourReservedMessage _ h0 _ units => reservedOk h0 units
  -- No operand of the rest comes in a size of its own.
  | .nop .. | .dup .. | .drop .. | .swap .. | .over .. | .rot .. | .nip .. | .tuck .. | .twoDup .. | .twoDrop ..
  | .pick .. | .put .. | .toControl .. | .fromControl .. | .copyControl .. | .lit .. | .litx .. | .add .. | .sub ..
  | .mul .. | .div .. | .quo .. | .mod .. | .rem .. | .neg .. | .abs .. | .inc .. | .dec .. | .and .. | .or ..
  | .xor .. | .not .. | .ash .. | .lsh .. | .max .. | .min .. | .fixAdd .. | .fixSub .. | .fixMul .. | .fixQuo ..
  | .fixRem .. | .fixAnd .. | .fixOr .. | .fixXor .. | .fixShl .. | .fixShr .. | .floAdd .. | .floSub .. | .floMul ..
  | .floDiv .. | .floSqrt .. | .floFma .. | .floCvt .. | .floTrunc .. | .eq .. | .eql .. | .numEqual .. | .numLess ..
  | .numGreater .. | .numLessEqual .. | .numGreaterEqual .. | .zerop .. | .typep .. | .check .. | .classp .. | .car ..
  | .cdr .. | .cons .. | .rplaca .. | .rplacd .. | .alloc .. | .vref .. | .vset .. | .vlen .. | .symval ..
  | .symset .. | .symfn .. | .fetch .. | .store .. | .fetch2 .. | .store2 .. | .loc .. | .cas .. | .xchg .. | .fadd ..
  | .fenceAcq .. | .fenceRel .. | .fenceFull .. | .pfetch .. | .pstore .. | .gettag .. | .settag ..
  | .satbBufferFlush .. | .clean .. | .flush .. | .inval .. | .iinval .. | .lock .. | .unlock .. | .cleanAll ..
  | .flushAll .. | .iinvalAll .. | .tlbiVa .. | .tlbiVaw .. | .tlbiAsid .. | .tlbiVmid .. | .tlbiAll ..
  | .tlbiComplete .. | .tlbw .. | .tlbr .. | .walk .. | .walkResult .. | .br .. | .brnil .. | .brt .. | .brz ..
  | .brnz .. | .call .. | .tcall .. | .ret .. | .enter .. | .localI .. | .setlocal .. | .arg .. | .gate .. | .gret ..
  | .loop .. | .leave .. | .lcget .. | .lcset .. | .in .. | .out .. | .inb .. | .outb .. | .registerWrite ..
  | .trap .. | .rte .. | .rtq .. | .halt .. | .mfsr .. | .mtsr .. | .setipl .. | .brk .. | .sync .. | .time ..
  | .rand .. | .mcload .. | .undefinedOpcode .. | .customerOpcode .. | .microTimeout .. | .scene .. | .sceneS ..
  | .curtain .. | .cut .. | .scstat .. | .rfetch .. | .rstore .. | .rinvoke .. | .rsend .. | .scanstack ..
  | .barrier .. | .card .. | .pace .. | .unify .. | .matchI .. | .trailmark .. | .untrail .. | .bind .. | .deref ..
  | .lprobe .. | .linsert .. | .ldelete .. | .coprocessorTurn .. | .coprocessorResponse .. | .missDataArrives ..
  | .usherRequest .. | .ccCtlWaydis .. | .ccCtlFlush .. | .interruptTaken .. | .nmiTaken .. | .asyncMachineCheck ..
  | .singleStepTrap .. | .cueRouterEvent .. | .localTimerFire .. | .cueIpi .. | .cueNmi .. | .cueSrcWrite ..
  | .cueLctlWrite .. | .debugHaltRequest .. | .controlStoreLoad | .controlStoreRefresh | .mcsRfctlRfnow ..
  | .colHeapbaseWrite .. | .colRset .. | .colRootq .. | .markFull | .markYoung | .evacuate .. | .finish | .colIdle
  | .colAbort | .stagehandStep .. | .sthErrResume .. | .barrierCopyDone .. | .pacingGrant .. | .pacelimExpiry ..
  | .prepareTimeout .. | .oqueryTimer .. | .originUnreachable .. | .retransmitTimeout .. | .requestTimeout ..
  | .portSignalDetect .. | .linkTrainingDone .. | .trainTimeout .. | .flitLockDone .. | .lockTimeout .. | .flitNak ..
  | .flitIdle .. | .flitTsync .. | .flitError .. | .ackTimeout .. | .keyRollover .. | .creditStall .. | .tsyncExchange
  | .tourPctlRetrain .. | .tourPctlEn .. | .tourScres .. | .tourInqhWrite .. | .sqTailDoorbell .. | .cqHeadDoorbell ..
  | .hostCqtWrite .. | .msixTableWrite .. | .mailboxGetstatus | .mailboxProfsel .. | .mailboxFlashchk ..
  | .mailboxBbread .. | .bar2Access .. | .hdm1Write .. | .hostMemRead .. | .hostSnoop .. | .hdmDecoderCommit ..
  | .hostBiascmd .. | .hostBiascmdAbort | .hostCtlViral | .viralReceived | .linkDown | .perstNAssert | .flr
  | .cxlReset | .cxlResetMemClr | .ideIntegrityFailure .. | .getVersion | .getCapabilities | .negotiateAlgorithms ..
  | .getDigests | .getCertificate .. | .challenge .. | .getMeasurements .. | .spdmFinish .. | .keyProg .. | .kSetGo ..
  | .kSetStop .. | .spdmUnsupportedRequest | .cdatRead | .patrolScrub .. | .hbmRefresh .. | .hbmTemperatureRead ..
  | .periodicCalibration .. | .mcCalcmd .. | .forcedRecalComplete .. | .devModeWrite .. | .cluModeWrite ..
  | .modeChange | .lockstepDivergence .. | .selftestWayRotation .. | .selftestIdleCore .. | .devStreq ..
  | .selftestStart | .selftestDeadline | .selftestResult .. | .devStreqAbort | .chunkEnd .. | .chunkCommit
  | .snapshotComplete | .hostpushDrain | .rehCtlAbort | .rehMark .. | .rehRheadWrite .. | .rehHheadWrite ..
  | .replayReady | .replayChunk | .replayResume | .replayAbort | .traceLossEntry | .rehTctlFrozenClear | .porNAssert
  | .porNRelease .. | .aonrcOk | .greenRoomClockSwitch | .aon32Good | .aon32Timeout | .pllLoss .. | .pllRelock ..
  | .sysrefLost | .sysrefRestored | .fallbackSlow | .clkTpllWrite .. | .tpllChangeDone .. | .clkGreqGate ..
  | .clkGreqUngate .. | .gateAck | .gateTimeout | .pwrCmdDark | .pwrCmdAbort | .darkCommit | .darkWake
  | .avsFailure .. | .powerEstimate .. | .thermalThrottle .. | .thermtrip .. | .timeAdjStep .. | .timeAdjSlew ..
  | .tsyncInEdge | .tsyncOutPulse | .loadIn .. | .hbmTrainingDone .. | .memoryClearingDone | .loadinNextWrite ..
  | .loadinCmdWarm | .loadinCmdCreset .. | .loadinStart .. | .warmNEdge | .warmReset | .clusterReset .. | .vddAonLoss
  | .ksuFuse .. | .ksuRevoke .. | .ksuProvlock .. | .ksuZeroize | .ksuReseed .. | .drbgAutoReseed
  | .entropyHealthFailure | .prompterStatus | .telem | .prompterBbread .. | .bbclear | .prompterProfsel ..
  | .modeset .. | .prompterReset .. | .calib .. | .prompterWake | .prompterDark | .chal | .pend | .attest ..
  | .prompterZeroize .. | .prompterFlashchk .. | .mbread | .responseRead | .alertResponse | .smbusTimeout
  | .sessionTimeout | .lockoutExpiry | .prompterMbctlWrite .. | .perstNDeassert | .hostLinkUp ..
  | .configurationRequest .. | .prompterRejectedRequest .. | .mailboxUnknownOpcode .. | .debugResume ..
  | .drbgInstantiated | .hostWriteRefused => true

end Sys2Proof
end

