-- ==== Sys2Proof/Certificates/Slice0/Obligations.lean ====
section
/-! DEFINITION. The statements about the model, each with the rules of spec/ that it formalises. Operand lists are given with
position 0 (S0) at the front; pushed lists with the word that becomes S0 at the end. -/

open Sys2Proof Sys2Proof.Machine Sys2Proof.Safety

/-- Every command, at the front of the queue of any state, is run by `exec` on the state with the rest of the queue; on an empty queue the
block's own agents take a turn (log entry 4). -/
def Obligations.QueueFront : Prop :=
  (∀ (s : State) (i : Instr) (l : List Instr), step { s with pending := i :: l } = exec i { s with pending := l }) ∧
  (∀ s : State, s.pending = [] → step s = .next s.tick)

/-- R86: the stack instructions, on operands in registers. R50: an operand that the operand stack does not hold raises stack underflow, vector
15, and nothing else happens. -/
def Obligations.StackInstructions : Prop :=
  (∀ a b d : TWord,
     Gives .nop 0x0000 [] 0 0 [] ∧
     Gives .dup 0x0001 [a] 0 1 [a] ∧
     Gives .drop 0x0002 [] 1 0 [] ∧
     Gives .swap 0x0003 [b, a] 2 0 [b, a] ∧
     Gives .over 0x0004 [b, a] 0 1 [a] ∧
     Gives .rot 0x0005 [d, b, a] 3 0 [b, d, a] ∧
     Gives .nip 0x0006 [b] 2 0 [b] ∧
     Gives .tuck 0x0007 [b, a] 2 1 [b, a, b] ∧
     Gives .twoDup 0x0008 [b, a] 0 2 [a, b] ∧
     Gives .twoDrop 0x0009 [] 2 0 [] ∧
     (∀ (n : Fin 16) (l : List TWord), l.length = n.val + 1 →
       Gives (fun c => .pick c n) (0x0010 + n.val) l 0 1 [l.getD n.val wEMPTY]) ∧
     (∀ (n : Fin 16) (l : List TWord), l.length = n.val + 1 →
       Leads (fun c => .put c n) (a :: l) 1 0 (fun _ _ => True) (fun s c => changed s c (fun k =>
         let r := retired k (0x0020 + n.val) 1 []
         { r with stk := { r.stk with regs := r.stk.regs.set n.val a } })))) ∧
  (∀ (s : State) (c : Fin 256), Quiet s c →
     (¬ Deep s c 1 → exec (.dup c) s = .next ((s.ready c 0x0001).takeTrap c { vec := 15 } 0x0001) ∧
       exec (.drop c) s = .next ((s.ready c 0x0002).takeTrap c { vec := 15 } 0x0002)) ∧
     (¬ Deep s c 2 → exec (.swap c) s = .next ((s.ready c 0x0003).takeTrap c { vec := 15 } 0x0003) ∧
       exec (.add c) s = .next ((s.ready c 0x1000).takeTrap c { vec := 15 } 0x1000)))

/-- R86, R87, R52, R119: literals, and the moves between the operand stack and a control stack that has registers free, or holds the word in
its registers. -/
def Obligations.LiteralsAndControlStack : Prop :=
  ∀ (a : TWord) (imm : BitVec 12) (n : BitVec 8),
    Gives (fun c => .lit c imm) (0x5000 + imm.toNat) [] 0 1 [fixI imm.toInt] ∧
    (ty a = tFIX → Gives (fun c => .litx c imm) (0x6000 + imm.toNat) [a] 1 0 [fixW ((a.datum <<< 12) ||| imm.setWidth 64)]) ∧
    Leads .toControl [a] 1 0 (fun s c => (s.core c).stk.cregs.length ≤ 3) (fun s c => changed s c (fun k =>
      let r := retired k 0x0040 1 []
      { r with stk := { r.stk with csp := va48 ((k.stk.csp : Int) - 1), cregs := a :: k.stk.cregs } })) ∧
    Leads .fromControl [] 0 1 (fun s c => (s.core c).stk.cregs.head? = some a) (fun s c => changed s c (fun k =>
      let r := retired k 0x0041 0 [a]
      { r with stk := { r.stk with csp := va48 ((k.stk.csp : Int) + 1), cregs := k.stk.cregs.tail } })) ∧
    Leads .copyControl [] 0 1 (fun s c => (s.core c).stk.cregs.head? = some a) (fun s c => after s c 0x0042 0 [a]) ∧
    Leads (fun c => .localI c n) [] 0 1 (fun s c => (s.core c).stk.cregs[n.toNat]? = some a)
      (fun s c => afterLate s c (0x9200 + n.toNat) 0 3 a) ∧
    Leads (fun c => .setlocal c n) [a] 1 0 (fun s c => n.toNat < (s.core c).stk.cregs.length) (fun s c => changed s c (fun k =>
      let r := retired k (0x9300 + n.toNat) 1 []
      { r with stk := { r.stk with cregs := k.stk.cregs.set n.toNat a } }))

/-- R88, R44: generic arithmetic on two FIX words x (S1) and y (S0), or one FIX word x, with a result in the FIX range. R88, R89: generic
logic, shifts, MAX and MIN on FIX words. R88, R89, R95: generic arithmetic and comparison with a FLO operand is binary64 on both operands. -/
def Obligations.GenericArithmetic : Prop :=
  (∀ x y : TWord, ty x = tFIX → ty y = tFIX →
     let a := x.datum.toInt
     let b := y.datum.toInt
     (InFix (a + b) → Gives .add 0x1000 [y, x] 2 0 [fixI (a + b)]) ∧
     (InFix (a - b) → Gives .sub 0x1001 [y, x] 2 0 [fixI (a - b)]) ∧
     (InFix (a * b) → GivesLate .mul 0x1002 [y, x] 2 0 4 (fixI (a * b))) ∧
     (b ≠ 0 → a % b = 0 → InFix (a / b) → Gives .div 0x1003 [y, x] 2 0 [fixI (a / b)]) ∧
     (b ≠ 0 → InFix (a.tdiv b) → Gives .quo 0x1004 [y, x] 2 0 [fixI (a.tdiv b)]) ∧
     (b ≠ 0 → Gives .mod 0x1005 [y, x] 2 0 [fixI (a.fmod b)]) ∧
     (b ≠ 0 → Gives .rem 0x1006 [y, x] 2 0 [fixI (a.tmod b)]) ∧
     (InFix (-a) → Gives .neg 0x1007 [x] 1 0 [fixI (-a)]) ∧
     (InFix a.natAbs → Gives .abs 0x1008 [x] 1 0 [fixI a.natAbs]) ∧
     (InFix (a + 1) → Gives .inc 0x1009 [x] 1 0 [fixI (a + 1)]) ∧
     (InFix (a - 1) → Gives .dec 0x100A [x] 1 0 [fixI (a - 1)])) ∧
  (∀ x y : TWord, ty x = tFIX → ty y = tFIX →
     let a := x.datum.toInt
     let n := y.datum.toInt
     Gives .and 0x1010 [y, x] 2 0 [fixW (x.datum &&& y.datum)] ∧
     Gives .or 0x1011 [y, x] 2 0 [fixW (x.datum ||| y.datum)] ∧
     Gives .xor 0x1012 [y, x] 2 0 [fixW (x.datum ^^^ y.datum)] ∧
     Gives .not 0x1013 [x] 1 0 [fixW (~~~x.datum)] ∧
     (0 ≤ n → n ≤ 64 → InFix (a * 2 ^ n.toNat) → Gives .ash 0x1014 [y, x] 2 0 [fixI (a * 2 ^ n.toNat)]) ∧
     (n < 0 → Gives .ash 0x1014 [y, x] 2 0 [fixI (a / 2 ^ (-n).toNat)]) ∧
     (0 ≤ n → n < 64 → Gives .lsh 0x1015 [y, x] 2 0 [fixW (x.datum <<< n.toNat)]) ∧
     (-64 < n → n < 0 → Gives .lsh 0x1015 [y, x] 2 0 [fixW (x.datum >>> (-n).toNat)]) ∧
     (64 ≤ n.natAbs → Gives .lsh 0x1015 [y, x] 2 0 [fixW 0]) ∧
     Gives .max 0x1018 [y, x] 2 0 [if a < n then y else x] ∧
     Gives .min 0x1019 [y, x] 2 0 [if n < a then y else x]) ∧
  (∀ x y : TWord, SomeFlo x y →
     let a := (realOf x).toFl
     let b := (realOf y).toFl
     let gives (i : Fin 256 → Instr) (syl : Nat) (w : TWord) : Prop :=
       Leads i [y, x] 2 0 MicroRoom (fun s c => after s c syl 2 [w])
     gives .add 0x1000 (floN (fpAdd a b)) ∧
     gives .sub 0x1001 (floN (fpSub a b)) ∧
     gives .mul 0x1002 (floN (fpMul a b)) ∧
     gives .div 0x1003 (floN (fpDiv a b)) ∧
     gives .quo 0x1004 (floN (fpQuo a b)) ∧
     gives .mod 0x1005 (floN (fpMod a b)) ∧
     gives .rem 0x1006 (floN (fpRem a b)) ∧
     ((realOf x).isNaN = false → (realOf y).isNaN = false →
       gives .numEqual 0x2002 (wBool ((realOf x).cmp (realOf y) == .eq)) ∧
       gives .numLess 0x2003 (wBool ((realOf x).cmp (realOf y) == .lt)) ∧
       gives .numGreater 0x2004 (wBool ((realOf x).cmp (realOf y) == .gt)) ∧
       gives .numLessEqual 0x2005 (wBool ((realOf x).cmp (realOf y) != .gt)) ∧
       gives .numGreaterEqual 0x2006 (wBool ((realOf x).cmp (realOf y) != .lt))) ∧
     ((realOf x).isNaN = true ∨ (realOf y).isNaN = true →
       gives .numEqual 0x2002 wNIL ∧ gives .numLess 0x2003 wNIL ∧ gives .numGreater 0x2004 wNIL ∧
       gives .numLessEqual 0x2005 wNIL ∧ gives .numGreaterEqual 0x2006 wNIL))

/-- R93: the FIX.* instructions wrap at 64 bits; FIX.MUL has distance 4; FIX.QUO and FIX.REM are microcoded and truncate. The FLO.*
instructions work on binary64 bits. An operand of any other type raises WRONGTYPE, the one at the lower position first. -/
def Obligations.FixFloInstructions : Prop :=
  (∀ x y : TWord, ty x = tFIX → ty y = tFIX →
     Gives .fixAdd 0x1100 [y, x] 2 0 [fixW (x.datum + y.datum)] ∧
     Gives .fixSub 0x1101 [y, x] 2 0 [fixW (x.datum - y.datum)] ∧
     GivesLate .fixMul 0x1102 [y, x] 2 0 4 (fixW (x.datum * y.datum)) ∧
     (y.datum ≠ 0 → Gives .fixQuo 0x1103 [y, x] 2 4 [fixI (x.datum.toInt.tdiv y.datum.toInt)]) ∧
     (y.datum ≠ 0 → Gives .fixRem 0x1104 [y, x] 2 4 [fixI (x.datum.toInt.tmod y.datum.toInt)]) ∧
     (y.datum = 0 → Raises .fixQuo 0x1103 [y, x] 2 4 (fun _ _ => True) { vec := 7, sub := 0, tag := y.tag.toNat, pos := 0 }) ∧
     (y.datum = 0 → Raises .fixRem 0x1104 [y, x] 2 4 (fun _ _ => True) { vec := 7, sub := 0, tag := y.tag.toNat, pos := 0 }) ∧
     Gives .fixAnd 0x1105 [y, x] 2 0 [fixW (x.datum &&& y.datum)] ∧
     Gives .fixOr 0x1106 [y, x] 2 0 [fixW (x.datum ||| y.datum)] ∧
     Gives .fixXor 0x1107 [y, x] 2 0 [fixW (x.datum ^^^ y.datum)] ∧
     Gives .fixShl 0x1108 [y, x] 2 0 [fixW (x.datum <<< (y.datum.toNat % 64))] ∧
     Gives .fixShr 0x1109 [y, x] 2 0 [fixW (x.datum.sshiftRight (y.datum.toNat % 64))]) ∧
  (∀ w x y : TWord, ty w = tFLO → ty x = tFLO → ty y = tFLO →
     let a := w.datum.toNat
     let b := x.datum.toNat
     let d := y.datum.toNat
     GivesLate .floAdd 0x1200 [y, x] 2 0 4 (floN (fpAdd b d)) ∧
     GivesLate .floSub 0x1201 [y, x] 2 0 4 (floN (fpSub b d)) ∧
     GivesLate .floMul 0x1202 [y, x] 2 0 4 (floN (fpMul b d)) ∧
     Gives .floDiv 0x1203 [y, x] 2 4 [floN (fpDiv b d)] ∧
     Gives .floSqrt 0x1204 [y] 1 4 [floN (fpSqrt d)] ∧
     GivesLate .floFma 0x1205 [y, x, w] 3 0 5 (floN (fpFma a b d)) ∧
     Gives .floTrunc 0x1207 [y] 1 0 [fixI (fpTrunc d)] ∧
     (∀ z : TWord, ty z = tFIX → Gives .floCvt 0x1206 [z] 1 0 [floN (fpOfInt z.datum.toInt)])) ∧
  (∀ x y z : TWord, Sound x → Sound z →
    let wrong (pos : Nat) : Trap := { vec := 7, sub := 0, tag := z.tag.toNat, pos := pos }
    (ty z ≠ tFIX →
      (∀ p ∈ [((Instr.fixAdd : Fin 256 → Instr), 0x1100, 0), (.fixSub, 0x1101, 0), (.fixMul, 0x1102, 0), (.fixQuo, 0x1103, 4), (.fixRem, 0x1104, 4),
          (.fixAnd, 0x1105, 0), (.fixOr, 0x1106, 0), (.fixXor, 0x1107, 0), (.fixShl, 0x1108, 0), (.fixShr, 0x1109, 0)],
        Raises p.1 p.2.1 [z, x] 2 p.2.2 (fun _ _ => True) (wrong 0) ∧
        (ty y = tFIX → Raises p.1 p.2.1 [y, z] 2 p.2.2 (fun _ _ => True) (wrong 1))) ∧
      Raises .floCvt 0x1206 [z] 1 0 (fun _ _ => True) (wrong 0)) ∧
    (ty z ≠ tFLO →
      (∀ p ∈ [((Instr.floAdd : Fin 256 → Instr), 0x1200, 0), (.floSub, 0x1201, 0), (.floMul, 0x1202, 0), (.floDiv, 0x1203, 4)],
        Raises p.1 p.2.1 [z, x] 2 p.2.2 (fun _ _ => True) (wrong 0) ∧
        (ty y = tFLO → Raises p.1 p.2.1 [y, z] 2 p.2.2 (fun _ _ => True) (wrong 1))) ∧
      Raises .floSqrt 0x1204 [z] 1 4 (fun _ _ => True) (wrong 0) ∧
      Raises .floTrunc 0x1207 [z] 1 0 (fun _ _ => True) (wrong 0) ∧
      (∀ v : TWord, Sound v →
        Raises .floFma 0x1205 [z, x, v] 3 0 (fun _ _ => True) (wrong 0) ∧
        (ty y = tFLO → Raises .floFma 0x1205 [y, z, v] 3 0 (fun _ _ => True) (wrong 1)) ∧
        (ty y = tFLO → ty x = tFLO → Raises .floFma 0x1205 [y, x, z] 3 0 (fun _ _ => True) (wrong 2)))))

/-- R94, R95: comparisons on FIX words; the predicates on words of any type that may be consumed. -/
def Obligations.Comparisons : Prop :=
  (∀ x y : TWord, ty x = tFIX → ty y = tFIX →
    let a := x.datum.toInt
    let b := y.datum.toInt
    Gives .eq 0x2000 [y, x] 2 0 [wBool (decide (x.datum = y.datum))] ∧
    Gives .eql 0x2001 [y, x] 2 0 [wBool (decide (x.datum = y.datum))] ∧
    Gives .numEqual 0x2002 [y, x] 2 0 [wBool (decide (a = b))] ∧
    Gives .numLess 0x2003 [y, x] 2 0 [wBool (decide (a < b))] ∧
    Gives .numGreater 0x2004 [y, x] 2 0 [wBool (decide (b < a))] ∧
    Gives .numLessEqual 0x2005 [y, x] 2 0 [wBool (decide (a ≤ b))] ∧
    Gives .numGreaterEqual 0x2006 [y, x] 2 0 [wBool (decide (b ≤ a))] ∧
    Gives .zerop 0x2007 [y] 1 0 [wBool (decide (b = 0))]) ∧
  (∀ (x y : TWord) (t : BitVec 6) (k : Fin 8), Sound x → Sound y → t.toNat < 0x30 →
    Gives .eq 0x2000 [y, x] 2 0 [wBool (decide (ty x = ty y ∧ x.datum = y.datum))] ∧
    Gives (fun c => .typep c t) (0x2040 + t.toNat) [y] 1 0 [wBool (decide (ty y = t.toNat))] ∧
    (ty y = t.toNat → Gives (fun c => .check c t) (0x2080 + t.toNat) [y] 0 0 []) ∧
    (ty y ≠ t.toNat → Raises (fun c => .check c t) (0x2080 + t.toNat) [y] 0 0 (fun _ _ => True)
      { vec := 7, sub := 0, tag := y.tag.toNat, pos := 0 }) ∧
    Gives (fun c => .classp c k) (0x20C0 + k.val) [y] 1 0 [wBool (decide (dclass (ty y) = k.val))])

/-- R97, R98, R102, R118: the load class on words in the core's D-frames. The result has distance 3. R97: FETCH2 reads the words at an even
address and above it; both results have distance 3. -/
def Obligations.Loads : Prop :=
  (∀ (s t : State) (c : Fin 256) (p w : TWord) (n : BitVec 8), Quiet s c →
     (Stacked s c [p] 1 0 → ty p = tLOC ∨ ty p = tVAR → Pointer s c p (ty p) → Reads s t c (adr p) w →
       exec (.fetch c .none) s = .next (afterLate t c 0x4000 1 3 w) ∧
       exec (.pfetch c) s = .next (afterLate t c 0x4020 1 3 w)) ∧
     (Stacked s c [p] 1 0 → Pointer s c p tCONS →
       (Reads s t c (adr p) w → exec (.car c) s = .next (afterLate t c 0x3000 1 3 w)) ∧
       (Reads s t c (adr p + 1) w → exec (.cdr c) s = .next (afterLate t c 0x3001 1 3 w))) ∧
     (Stacked s c [p] 1 0 → ty p = tNIL →
       exec (.car c) s = .next (afterLate s c 0x3000 1 3 wNIL) ∧ exec (.cdr c) s = .next (afterLate s c 0x3001 1 3 wNIL)) ∧
     (Stacked s c [] 0 1 → Reads s t c (va48 ((sbaseOf (s.core c) : Int) - 1 - (n.toNat : Int))) w →
       exec (.arg c n) s = .next (afterLate t c (0x9400 + n.toNat) 0 3 w))) ∧
  (∀ (s t u : State) (c : Fin 256) (p v w : TWord), Quiet s c → Stacked s c [p] 1 1 →
     ty p = tLOC ∨ ty p = tCONS → Pointer s c p (ty p) → adr p % 2 = 0 →
     Reads s t c (adr p) v → Reads t u c (adr p + 1) w →
     exec (.fetch2 c) s = .next (changed u c (fun k =>
       let r := retired k 0x4002 1 [p, wEMPTY]
       let slot (i : Nat) : Nat := va48 ((k.stk.sp + 1 : Nat) - 2) + i
       { r with pend := [{ slot := slot 1, val := v, arrived := true, remain := 3, gone := 0, sa := k.pc, syl := 0x4002 },
                         { slot := slot 0, val := w, arrived := true, remain := 3, gone := 0, sa := k.pc, syl := 0x4002 }] })))

/-- R98, R102, R39: reads of a headed object at va a whose header h the core's D-frames hold, by an index within LENGTH. R41, R98: an index
outside LENGTH raises BOUNDS naming its position; a LOC of a pair takes 0 and 1 only. -/
def Obligations.ObjectReads : Prop :=
  (∀ (s t u : State) (c : Fin 256) (p i h w : TWord), Quiet s c →
     Pointer s c p (ty p) → HeaderAt s t c (adr p) h → hdrFits (ty p) h = true →
     (Stacked s c [i, p] 2 0 → isHeaded (s.cuptr c) (ty p) = true → Sound p → ty i = tFIX → 0 ≤ i.datum.toInt → i.datum.toInt < hdrLen h →
       (Reads t u c (adr p + 1 + i.datum.toNat) w → exec (.vref c) s = .next (afterLate u c 0x3011 2 3 w)) ∧
       exec (.loc c) s = .next (afterLate t c 0x4004 2 3
         ⟨mkTag (kBit p) (eBit p) tLOC, w64 (adr p + 1 + i.datum.toNat)⟩)) ∧
     (Stacked s c [p] 1 0 → isHeaded (s.cuptr c) (ty p) = true → Sound p →
       exec (.vlen c) s = .next (afterLate t c 0x3013 1 3 (fixN
         (if ty p = tSTR ∨ ty p = tBVEC then 8 * hdrLen h - hdrSub h % 8 else hdrLen h)))) ∧
     (Stacked s c [p] 1 0 → ty p = tSYM →
       (Reads t u c (adr p + 2) w → exec (.symval c) s = .next (afterLate u c 0x3030 1 3 w)) ∧
       (Reads t u c (adr p + 3) w → exec (.symfn c) s = .next (afterLate u c 0x3032 1 3 w)))) ∧
  (∀ (s t : State) (c : Fin 256) (p i h : TWord), Quiet s c → Stacked s c [i, p] 2 0 → ty i = tFIX → Sound p →
     Pointer s c p (ty p) →
     (isHeaded (s.cuptr c) (ty p) = true → HeaderAt s t c (adr p) h → hdrFits (ty p) h = true →
       ¬ (0 ≤ i.datum.toInt ∧ i.datum.toInt < hdrLen h) →
       exec (.vref c) s = .next ((s.ready c 0x3011).takeTrap c { vec := 7, sub := 5, tag := i.tag.toNat, pos := 0 } 0x3011)) ∧
     (ty p = tCONS → i.datum.toInt ≠ 0 → i.datum.toInt ≠ 1 →
       exec (.loc c) s = .next ((s.ready c 0x4004).takeTrap c { vec := 7, sub := 5, tag := i.tag.toNat, pos := 0 } 0x4004)))

/-- R97, R102, R144, R248: stores enter the store queue, and each opens a window on the word it overwrites. R97: STORE2 stores two words as
one access, one entry of the store queue: the deeper one at the even address, the other above it. R102: VSET and SYMSET store into an
object whose header the D-frames hold. -/
def Obligations.Stores : Prop :=
  (∀ (s : State) (c : Fin 256) (p v : TWord) (lf : Leaf), Quiet s c → MayStore s c v → NoBarrier s c (s.coreSees c lf.pa) v →
     kBit p = false → Pointer s c p (ty p) →
     let done (syl takes : Nat) (alloc : Bool) : State := afterStores s c syl takes [] (fun k => [queued k lf v alloc])
       (fun k => [window k syl lf (s.coreSees c lf.pa)])
     (Stacked s c [p, v] 2 0 → ty p = tLOC ∨ ty p = tVAR → Storable s c (adr p) lf →
       exec (.store c .none) s = .next (done 0x4001 2 true) ∧ exec (.pstore c) s = .next (done 0x4021 2 false)) ∧
     (Stacked s c [v, p] 2 0 → ty p = tCONS →
       (Storable s c (adr p) lf → exec (.rplaca c) s = .next (done 0x3003 2 true)) ∧
       (Storable s c (adr p + 1) lf → exec (.rplacd c) s = .next (done 0x3004 2 true)))) ∧
  (∀ (s : State) (c : Fin 256) (p v w : TWord) (lf : Leaf), Quiet s c → Stacked s c [p, w, v] 3 0 →
     ty p = tLOC ∨ ty p = tCONS → Pointer s c p (ty p) → kBit p = false → adr p % 2 = 0 → MayStore s c v → MayStore s c w →
     Storable s c (adr p) lf →
     NoBarrier s c (s.coreSees c lf.pa) v → NoBarrier s c (s.coreSees c (lf.pa + 1)) w →
     exec (.store2 c) s = .next (afterStores s c 0x4003 3 []
       (fun k => [{ queued k lf v true with more := [w] }])
       (fun k => [window k 0x4003 lf (s.coreSees c lf.pa), window k 0x4003 { lf with pa := lf.pa + 1 } (s.coreSees c (lf.pa + 1))]))) ∧
  (∀ (s t : State) (c : Fin 256) (p i v h : TWord) (lf : Leaf), Quiet s c → MayStore s c v → Pointer s c p (ty p) → kBit p = false →
     HeaderAt s t c (adr p) h → hdrFits (ty p) h = true → NoBarrier t c (t.coreSees c lf.pa) v →
     let done (syl takes : Nat) : State := afterStores t c syl takes [] (fun k => [queued k lf v true])
       (fun k => [window k syl lf (t.coreSees c lf.pa)])
     (Stacked s c [v, i, p] 3 0 → isHeaded (s.cuptr c) (ty p) = true → Sound p → ty i = tFIX → 0 ≤ i.datum.toInt →
       i.datum.toInt < hdrLen h → (ty p = tSTR ∨ ty p = tBVEC ∨ ty p = tBIG → ty v = tRAW) →
       Storable t c (adr p + 1 + i.datum.toNat) lf → exec (.vset c) s = .next (done 0x3012 3)) ∧
     (Stacked s c [v, p] 2 0 → ty p = tSYM → Storable t c (adr p + 2) lf → exec (.symset c) s = .next (done 0x3031 2)))

/-- R97, R99: the atomics on a line that the core holds modified: one indivisible access, whose old word is the result. -/
def Obligations.Atomics : Prop :=
  ∀ (s t : State) (c : Fin 256) (p v w x : TWord) (lf : Leaf), Quiet s c → ty p = tLOC ∨ ty p = tVAR → Pointer s c p (ty p) →
    kBit p = false → Reads s t c (adr p) w → xlateCore (s.core c) (adr p) .read 7 = .inr lf → Storable s c (adr p) lf →
    (s.core c).dstate (lineOf lf.pa) = .mod → (s.core c).mem.sq = [] → Uncontested s → s.needsHost (lineOf lf.pa) = false →
    Sound w →
    let done (syl takes : Nat) (n : TWord) : State := after (t.storeWord lf.pa n true) c syl takes [w]
    (Stacked s c [v, p] 2 4 → MayStore s c v → NoBarrier s c w v → exec (.xchg c) s = .next (done 0x4009 2 v)) ∧
    (Stacked s c [v, p] 2 4 → ty v = tFIX → ty w = tFIX → exec (.fadd c) s = .next (done 0x400A 2 (fixW (w.datum + v.datum)))) ∧
    (Stacked s c [v, x, p] 3 4 → MayStore s c v → Sound x → NoBarrier s c w v →
      (w = x → exec (.cas c) s = .next (done 0x4008 3 v)) ∧
      (w ≠ x → exec (.cas c) s = .next (after t c 0x4008 3 [w])))

/-- R103, R104, R316: CONS and ALLOC take their words from the allocation buffer AB to AL; the stores are initialising. The new pointer
carries its region's EPOCH. R97, R45, R47, R101: fences, GETTAG and SETTAG. -/
def Obligations.AllocationFencesTags : Prop :=
  (∀ (s : State) (c : Fin 256) (v w : TWord) (pa : Nat) (mt : Nat) (tte : Option W64), Quiet s c →
     let k := s.core c
     let a := k.sr.ab.toNat
     let lf (i : Nat) : Leaf := { pa := pa + i, mt := mt, tte := tte }
     let e := match s.regionOf a with | some r => rEpoch (s.region0 r) | none => false
     (Stacked s c [w, v] 2 0 → MayStore s c v → MayStore s c w → bufferHolds k 2 = true → k.mem.sq.length < 7 →
       (∀ i, i < 2 → Storable s c (a + i) (lf i)) →
       exec (.cons c) s = .next (changed s c (fun k =>
         let r := Core.withQueue (retired k 0x3002 2 [⟨mkTag false e tCONS, w64 a⟩]) [queued k (lf 0) v true, queued k (lf 1) w true]
         { r with sr := { r.sr with ab := k.sr.ab + 2 },
                  wins := [window k 0x3002 (lf 1) (s.coreSees c (pa + 1)), window k 0x3002 (lf 0) (s.coreSees c pa)] }))) ∧
     (∀ len : Nat, Stacked s c [w, v] 2 4 → v = fixN len → len ≤ 6 → w = fixN tVEC → bufferHolds k (objSize len) = true →
       k.mem.sq.length + len < 8 → (∀ i, i ≤ len → Storable s c (a + i) (lf i)) →
       exec (.alloc c) s = .next (changed s c (fun k =>
         let r := Core.withQueue (retired k 0x3010 2 [⟨mkTag false e tVEC, w64 a⟩])
           (queued k (lf 0) (mkHdr 0 len) true :: (List.range len).map (fun i => queued k (lf (i + 1)) wEMPTY true))
         { r with sr := { r.sr with ab := k.sr.ab + w64 (objSize len) } })))) ∧
  (Gives .fenceAcq 0x4010 [] 0 0 [] ∧
   Leads .fenceRel [] 0 0 (fun _ _ => True) (fun s c => changed s c (fun k =>
     let r := retired k 0x4011 0 []
     { r with mem := { r.mem with epoch := r.mem.epoch + 1 } })) ∧
   Leads .fenceFull [] 0 0 (fun _ _ => True) (fun s c => changed s c (fun k =>
     let r := retired k 0x4012 0 []
     { r with mem := { r.mem with epoch := r.mem.epoch + 1, fence := true } })) ∧
   (∀ w f : TWord, Sound w → ty f = tFIX →
     Gives .gettag 0x4030 [w] 1 0 [fixN w.tag.toNat] ∧
     (let tag : BitVec 8 := f.datum.setWidth 8
      let t := f.datum.toNat % 64
      ¬ (t = tNIL ∨ t = tTRUE ∨ t = tUNB ∨ t = tEMPTY) → t < 0x20 →
      let view : Prop := t = ty w ∧ bit f.datum 7 = true
      (t = tRAW ∨ t = tFIX ∨ t = tFLO → ¬ view → Gives .settag 0x4031 [f, w] 2 0 [⟨tag, w.datum⟩]) ∧
      (t ≠ tCHR → view → Leads .settag [f, w] 2 0 (fun s c => (s.core c).psw.l = false)
        (fun s c => after s c 0x4031 2 [⟨mkTag true (eBit w) t, w.datum⟩])) ∧
      (t ≠ tCHR → t ≠ tCAP → Leads .settag [f, w] 2 0 (fun s c => (s.core c).psw.l = true)
        (fun s c => after s c 0x4031 2 [⟨tag, w.datum⟩])) ∧
      (openType t = false → ¬ view →
        Raises .settag 0x4031 [f, w] 2 0 (fun s c => (s.core c).psw.l = false) { vec := 8, sub := 6, tag := tag.toNat }))))

/-- R105, R107-R111: the stepped instructions; `n` is how many elements the command may handle. At the end PG0-PG3 are cleared. R107: FILLVEC
and COPYVEC of one word of VEC objects. COPYVEC has five operands, so that its deepest one is spilled first (R162). -/
def Obligations.SteppedInstructions : Prop :=
  (∀ (s t u : State) (c : Fin 256) (p x e q : TWord) (n : Nat), Quiet s c → Sound x → 1 ≤ n →
     (Stacked s c [p, x] 2 4 → ty p = tNIL →
       exec (.assq c n) s = .next (afterSteps s c 0x3023 2 [wNIL] (fun _ => [])) ∧
       exec (.memq c n) s = .next (afterSteps s c 0x3024 2 [wNIL] (fun _ => []))) ∧
     (Stacked s c [p, x] 2 4 → Pointer s c p tCONS → Reads s t c (adr p) e →
       (ty e = tCONS → hiZero e = true → adr e % 2 = 0 → Reads t u c (adr e) q → Sound q → eqWord q x = true →
         exec (.assq c n) s = .next (afterSteps u c 0x3023 2 [e] (fun _ => []))) ∧
       (Sound e → eqWord e x = true → exec (.memq c n) s = .next (afterSteps t c 0x3024 2 [p] (fun _ => [])))) ∧
     (Stacked s c [p] 1 4 → ty p = tNIL → exec (.nreverse c n) s = .next (afterSteps s c 0x3025 1 [wNIL] (fun _ => []))) ∧
     (∀ lf, Stacked s c [p] 1 4 → 2 ≤ n → Pointer s c p tCONS → kBit p = false → Reads s t c (adr p + 1) wNIL →
       Storable t c (adr p + 1) lf → t.coreSees c lf.pa = wNIL →
       exec (.nreverse c n) s = .next (afterSteps t c 0x3025 1 [p] (fun k => [queued k lf wNIL true]))) ∧
     (Stacked s c [p, x] 2 4 → ty x = ty p → ty x = tFIX ∨ ty x = tCHR ∨ ty x = tSYM ∨ ty x = tNIL →
       exec (.equal c n) s = .next (afterSteps s c 0x3022 2 [wBool (eqWord x p)] (fun _ => [])))) ∧
  (∀ (s s1 t1 t2 t3 t4 t5 : State) (c : Fin 256) (p q g h i j v w : TWord) (lf sp : Leaf) (n : Nat), Quiet s c → 2 ≤ n →
     Pointer s c q tVEC → kBit q = false → ty j = tFIX → 0 ≤ j.datum.toInt → j.datum.toInt < hdrLen h →
     (Stacked s c [v, fixN 1, j, q] 4 4 → MayStore s c v →
       HeaderAt s t1 c (adr q) h → HeaderAt t1 t2 c (adr q) h → Storable t2 c (adr q + 1 + j.datum.toNat) lf →
       NoBarrier t2 c (t2.coreSees c lf.pa) v →
       exec (.fillvec c n) s = .next (afterSteps t2 c 0x3021 4 [] (fun k => [queued k lf v true]))) ∧
     ((s.core c).stk.regs = [fixN 1, j, q, i, p] → Deep s c 5 → Pointer s c p tVEC → ty i = tFIX → 0 ≤ i.datum.toInt →
       i.datum.toInt < hdrLen g →
       bits (s.core c).stk.slim 47 0 ≤ (s.core c).stk.sp + 4 → Storable s c ((s.core c).stk.sp + 4) sp →
       NoBarrier s c (s.coreSees c sp.pa) p →
       s1 = (s.modCore c (fun k => { (Core.withQueue k [queued k sp p true]) with stk := { k.stk with regs := [fixN 1, j, q, i] } })).bump
         .CORE_SPILLS c 1 →
       HeaderAt s1 t1 c (adr p) g → HeaderAt t1 t2 c (adr q) h → HeaderAt t2 t3 c (adr p) g → HeaderAt t3 t4 c (adr q) h →
       Reads t4 t5 c (adr p + 1 + i.datum.toNat) w → MayStore s c w → Storable t5 c (adr q + 1 + j.datum.toNat) lf →
       NoBarrier t5 c (t5.coreSees c lf.pa) w →
       exec (.copyvec c n) s = .next (afterSteps t5 c 0x3020 5 [] (fun k => [queued k lf w true]))))

/-- R112, R113, R65: a branch goes through its delay slot; DST is the target, or the syllable after the slot. -/
def Obligations.Branches : Prop :=
  ∀ (w : TWord) (o12 : BitVec 12) (o10 : BitVec 10), Sound w →
    let goes (syl takes : Nat) (d : Core → Int) (s : State) (c : Nat) : State := changed s c (fun k =>
      { retired k syl takes [] with dst := va48 (d k), psw := { k.psw with ds := true } })
    let far (k : Core) : Int := (k.pc : Int) + o10.toInt
    let past (k : Core) : Int := (k.pc : Int) + 2
    Leads (fun c => .br c o12) [] 0 0 (fun _ _ => True) (goes (0x7000 + o12.toNat) 0 (fun k => (k.pc : Int) + o12.toInt)) ∧
    Leads (fun c => .brnil c o10) [w] 1 0 (fun _ _ => True) (goes (0x8000 + o10.toNat) 1 (if ty w = tNIL then far else past)) ∧
    Leads (fun c => .brt c o10) [w] 1 0 (fun _ _ => True) (goes (0x8400 + o10.toNat) 1 (if ty w ≠ tNIL then far else past)) ∧
    (ty w = tFIX →
      Leads (fun c => .brz c o10) [w] 1 0 (fun _ _ => True) (goes (0x8800 + o10.toNat) 1 (if w.datum = 0 then far else past)) ∧
      Leads (fun c => .brnz c o10) [w] 1 0 (fun _ _ => True) (goes (0x8C00 + o10.toNat) 1 (if w.datum ≠ 0 then far else past))) ∧
    (ty w ≠ tFIX →
      Raises (fun c => .brz c o10) (0x8800 + o10.toNat) [w] 1 0 (fun _ _ => True) { vec := 7, sub := 0, tag := w.tag.toNat })

/-- R113, R125, R126: the syllable in a delay slot is followed by DST; the last syllable of a loop by LOOPLS while LC exceeds 1, and by the
next one when the loop ends; LEAVE ends a loop. The core is quiet but for its delay slot or its loop. R124, R126, R147: LOOP, LEAVE
outside a loop, LCGET and the shadow that LCSET opens. -/
def Obligations.HardwareLoops : Prop :=
  (∀ (s : State) (c : Fin 256),
     Quiet (s.modCore c (fun k => { k with psw := { k.psw with ds := false, lp := false } })) c → (s.core c).stk.regs.length ≤ 8 →
     ((s.core c).psw.ds = true → (s.core c).psw.lp = false →
       exec (.nop c) s = .next (changed s c (fun k => { retired k 0 0 [] with pc := k.dst, psw := { k.psw with ds := false } }))) ∧
     ((s.core c).psw.lp = true → (s.core c).psw.ds = false → w64 (s.core c).pc = (s.core c).sr.le →
       (1 < (s.core c).sr.lc.toInt → exec (.nop c) s = .next (changed s c (fun k =>
         { retired k 0 0 [] with pc := bits k.sr.ls 47 0, sr := { k.sr with lc := k.sr.lc - 1 } }))) ∧
       ((s.core c).sr.lc.toInt ≤ 1 → exec (.nop c) s = .next (changed s c (fun k =>
         { retired k 0 0 [] with sr := { k.sr with lc := 0 }, psw := { k.psw with lp := false } })))) ∧
     ((s.core c).psw.lp = true → (s.core c).psw.ds = false → w64 (s.core c).pc ≠ (s.core c).sr.le →
       exec (.nop c) s = .next (after s c 0 0 []) ∧
       exec (.leave c) s = .next (changed s c (fun k => { retired k 0xA200 0 [] with
         pc := va48 ((bits k.sr.le 47 0 : Int) + 1), sr := { k.sr with lc := 0 }, psw := { k.psw with lp := false } })))) ∧
  (∀ (w : TWord) (n : BitVec 8), ty w = tFIX → n ≠ 0 →
     let goes (s : State) (c : Nat) : State := changed s c (fun k =>
       let r := retired k (0xA100 + n.toNat) 1 []
       let ls := va48 ((k.pc : Int) + 1)
       let le := va48 ((k.pc : Int) + (n.toNat : Int))
       let r := { r with sr := { k.sr with ls := w64 ls, le := w64 le } }
       if 1 ≤ w.datum.toInt then { r with pc := ls, sr := { r.sr with lc := w.datum }, psw := { k.psw with lp := true } }
       else { r with pc := va48 ((le : Int) + 1) })
     Leads (fun c => .loop c n) [w] 1 0 (fun _ _ => True) goes ∧
     Gives .leave 0xA200 [] 0 0 [] ∧
     (∀ v : W64, Leads .lcget [] 0 1 (fun s c => (s.core c).sr.lc = v) (fun s c => after s c 0xA201 0 [fixW v])) ∧
     Leads .lcset [w] 1 0 (fun _ _ => True) (fun s c => changed s c (fun k =>
       { retired k 0xA202 1 [] with shadow := some { remain := 2, sa := k.pc, syl := 0xA202, upd := .sr false 6 w } })) ∧
     Raises (fun c => .loop c 0) 0xA100 [] 1 0 (fun _ _ => True) (tIllegal 1) ∧
     (∀ z : TWord, Sound z → ty z ≠ tFIX →
       let wrong : Trap := { vec := 7, sub := 0, tag := z.tag.toNat }
       Raises (fun c => .loop c n) (0xA100 + n.toNat) [z] 1 0 (fun _ _ => True) wrong ∧
       Raises .lcset 0xA202 [z] 1 0 (fun _ _ => True) wrong) ∧
     (∀ (s : State) (c : Fin 256), Quiet (s.modCore c (fun k => { k with psw := { k.psw with lp := false } })) c → (s.core c).psw.lp = true →
       exec (.loop c n) s = .next ((s.ready c (0xA100 + n.toNat)).takeTrap c (tIllegal 3) (0xA100 + n.toNat))) ∧
     (∀ (s : State) (c : Fin 256) (sa : Nat), Quiet (s.modCore c (fun k => { k with shadow := none })) c → (s.core c).stk.regs.length ≤ 8 →
       (s.core c).shadow = some { remain := 1, sa := sa, syl := 0xA202, upd := .sr false 6 w } →
       exec (.nop c) s = .next (changed s c (fun k =>
         let r := retired k 0 0 []
         { r with shadow := none, sr := { k.sr with lc := w.datum } }))))

/-- R76, R122: REP starts with its count in LC, or skips its syllable, for every syllable it may precede; one it may not precede is refused
before the count is looked at; each iteration runs the syllable and counts LC down. -/
def Obligations.Repeat : Prop :=
  ∀ (w a b : TWord) (n : BitVec 16) (steps : Nat), ty w = tFIX →
    let may (s : State) (c : Nat) : Prop :=
      let g := (s.insOf c n.toNat steps).sig
      repBad (s.insOf c n.toNat steps) = none ∧ (g.priv = 0 ∨ (s.core c).psw.l = true ∧ (g.priv = 1 ∨ (s.core c).psw.w = true)) ∧
        s.portOk c g.port = true
    let iterates (syl : Nat) (ops : List TWord) (takes : Nat) (push : List TWord) : Prop :=
      ∀ (s : State) (c : Fin 256), Quiet (s.modCore c (fun k => { k with psw := { k.psw with repp := false } })) c →
        (s.core c).psw.repp = true → Stacked s c ops takes push.length →
        (2 ≤ (s.core c).sr.lc.toInt → exec (.rep c (BitVec.ofNat 16 syl) steps) s = .next (changed s c (fun k =>
          { retired k syl takes push with pc := k.pc, sr := { k.sr with lc := k.sr.lc - 1 } }))) ∧
        ((s.core c).sr.lc.toInt = 1 → exec (.rep c (BitVec.ofNat 16 syl) steps) s = .next (changed s c (fun k =>
          { retired k syl takes push with pc := va48 ((k.pc : Int) + 2), sr := { k.sr with lc := 0 }, psw := { k.psw with repp := false } })))
    (1 ≤ w.datum.toInt → Leads (fun c => .rep c n steps) [w] 1 0 may (fun s c => s.modCore c (fun k =>
      { retired k 0xA000 1 [] with pc := k.pc, traceN := 0, sr := { k.sr with lc := w.datum }, psw := { k.psw with repp := true } }))) ∧
    (w.datum.toInt ≤ 0 → Leads (fun c => .rep c n steps) [w] 1 0 may (fun s c => changed s c (fun k =>
      { retired k 0xA000 1 [] with pc := va48 ((k.pc : Int) + 2), sr := { k.sr with lc := w.datum } }))) ∧
    (∀ syl ∈ [0x9000, 0x9002, 0xA000, 0xC000, 0xC103, 0x1002, 0x1205, 0x3020, 0x4080, 0xD010, 0xE800],
      Raises (fun c => .rep c (BitVec.ofNat 16 syl) steps) 0xA000 [w] 1 0 (fun _ _ => True) { tIllegal 3 with own := some syl }) ∧
    iterates 0x0000 [] 0 [] ∧ iterates 0x0001 [a] 0 [a] ∧ iterates 0x0002 [a] 1 [] ∧ iterates 0x0003 [a, b] 2 [a, b] ∧
    iterates 0x0006 [a, b] 2 [a]

/-- R117, R119-R121, R52: calls and returns whose frames lie in the control-stack registers. -/
def Obligations.Calls : Prop :=
  ∀ (s : State) (c : Fin 256) (t ret base x : TWord) (n : BitVec 8) (lf : Leaf), Quiet s c →
    let k := s.core c
    (∀ m : Nat, k.stk.regs = [fixN m, t] → m ≤ 255 → ty t = tCODE → hiZero t = true → Deep s c (m + 2) → k.stk.cregs.length ≤ 2 →
      exec (.call c) s = .next (changed s c (fun k =>
        let r := retired k 0x9000 2 []
        { r with pc := adr t, stk := { r.stk with csp := va48 ((k.stk.csp : Int) - 2)
                                                  cregs := mkFrame 0 false 0 (va48 ((k.pc : Int) + 1)) ::
                                                    mkFrame 1 false 0 (bits k.stk.sbase 47 0) :: k.stk.cregs
                                                  sbase := w64 (va48 ((k.stk.sp : Int) + 2 + m)) } }))) ∧
    (k.stk.regs = [fixN 1, t, x] → Deep s c 3 → ty t = tCODE → hiZero t = true → k.stk.cregs.head? = some ret → isFrame ret 0 = true →
      frameCount ret = 0 → k.stk.cregs.length ≤ 4 → Storable s c (sbaseOf k - 1) lf → NoBarrier s c (s.coreSees c lf.pa) x → 0 < sbaseOf k →
      exec (.tcall c) s = .next (changed s c (fun k =>
        let r := Core.withQueue (retired k 0x9001 3 []) [queued k lf x true]
        { r with pc := adr t, stk := { r.stk with sp := va48 ((sbaseOf k : Int) - 1), csp := va48 (k.stk.csp : Int)
                                                  cregs := mkFrame 0 (frameLsv ret) 0 (adr ret) :: k.stk.cregs.tail } }))) ∧
    (k.stk.cregs.head? = some ret → isFrame ret 0 = true → frameLsv ret = false → k.stk.regs.length ≤ 4 →
      k.stk.cregs[frameCount ret + 1]? = some base → isFrame base 1 = true →
      exec (.ret c) s = .next (changed s c (fun k =>
        let r := retired k 0x9002 0 []
        { r with pc := adr ret, stk := { r.stk with csp := va48 ((k.stk.csp : Int) + frameCount ret + 2)
                                                    cregs := k.stk.cregs.drop (frameCount ret + 2), sbase := w64 (adr base) } }))) ∧
    (k.stk.cregs.head? = some ret → isFrame ret 0 = true → frameCount ret + n.toNat ≤ 255 → k.stk.cregs.length + n.toNat ≤ 4 →
      k.stk.regs.length ≤ 4 →
      exec (.enter c n) s = .next (changed s c (fun k =>
        let r := retired k (0x9100 + n.toNat) 0 []
        { r with stk := { r.stk with csp := va48 ((k.stk.csp : Int) - n.toNat)
                                     cregs := mkFrame 0 (frameLsv ret) (frameCount ret + n.toNat) (adr ret) ::
                                       (List.replicate n.toNat wEMPTY ++ k.stk.cregs.tail) } })))

/-- R64, R438: IN and INB deliver the value that the addressed register reads as; OUT, OUTB and a register write write it with the effects
that the register has (R7, R548); an I/O access marks the core's chunk. Of registers without such effects the value left is stated in
full. R64: an I/O address outside 32 bits, at no register, of a Backstage register from House, or at user level without U, is refused by
the exception that R64 names, and nothing is read or written. -/
def Obligations.InputOutput : Prop :=
  (∀ (s : State) (c : Fin 256) (a v : TWord) (n : BitVec 10) (row : RegRow) (i : Nat), Quiet s c → Sound v →
     (s.core c).mem.fence = false → (s.core c).mem.sq = [] →
     let k := s.core c
     let risky (t : State) : State := t.modChunk c (fun k => { k with isUnsafe := true })
     let old := s.reg row.reg i
     let based := bits k.sr.iob 31 0 + n.toNat
     let reaches (write : Bool) (x : Nat) : Prop := s.ioTarget (some c) k.psw.w k.psw.l write x = .inr (row, i) ∧ x < 2 ^ 32
     let wrote (syl : Nat) : State := (s.ready c syl).ioWrite (some c) k.psw.w row i v.datum
     let kept (syl : Nat) : Prop := Quiet (wrote syl) c ∧ (wrote syl).core c = (s.ready c syl).core c
     (reaches false a.datum.toNat → ty a = tFIX → Stacked s c [a] 1 4 →
       exec (.in c) s = .next (after (risky s) c 0xB000 1 [fixW ((s.ready c 0xB000).ioValue row i k.psw.w)])) ∧
     (reaches false based → Stacked s c [] 0 4 →
       exec (.inb c n) s = .next (after (risky s) c (0xB800 + n.toNat) 0 [fixW ((s.ready c (0xB800 + n.toNat)).ioValue row i k.psw.w)])) ∧
     (reaches true a.datum.toNat → ty a = tFIX → Stacked s c [a, v] 2 4 → kept 0xB001 →
       exec (.out c) s = .next (after (risky (wrote 0xB001)) c 0xB001 2 [])) ∧
     (reaches true based → Stacked s c [v] 1 4 → kept (0xBC00 + n.toNat) →
       exec (.outb c n) s = .next (after (risky (wrote (0xBC00 + n.toNat))) c (0xBC00 + n.toNat) 1 [])) ∧
     (∀ (w : Bool) (ad : BitVec 32) (x : BitVec 64) (e : IoRef),
       (s.ioTarget (some c) w true true ad.toNat = .inr (row, i) → exec (.registerWrite c w ad x) s = .next (s.ioWrite (some c) w row i x)) ∧
       (s.ioTarget (some c) w true true ad.toNat = .inl e → exec (.registerWrite c w ad x) s = .next s)) ∧
     (row.reg = .MATCH_CTL ∨ row.reg = .LOOK_CTL ∨ row.reg = .TOUR_INQT ∨ row.reg = .CORE_ERR →
       (∀ syl, (s.ready c syl).ioValue row i k.psw.w = s.ioValue row i k.psw.w) ∧
       ((rowWrite row k.psw.w old v.datum).2 = false →
         let set := s.setReg row.reg i (rowWrite row k.psw.w old v.datum).1
         (reaches true a.datum.toNat → ty a = tFIX → Stacked s c [a, v] 2 4 → exec (.out c) s = .next (after (risky set) c 0xB001 2 [])) ∧
         (reaches true based → Stacked s c [v] 1 4 → exec (.outb c n) s = .next (after (risky set) c (0xBC00 + n.toNat) 1 []))) ∧
       (∀ (w : Bool) (ad : BitVec 32) (x : BitVec 64), s.ioTarget (some c) w true true ad.toNat = .inr (row, i) →
         (rowWrite row w old x).2 = false → exec (.registerWrite c w ad x) s = .next (s.setReg row.reg i (rowWrite row w old x).1)))) ∧
  (∀ (a : TWord) (e : IoRef), ty a = tFIX →
     (¬ (0 ≤ a.datum.toInt ∧ a.datum.toInt < 2 ^ 32) →
       Raises .in 0xB000 [a] 1 4 (fun _ _ => True) { vec := 6, sub := 1, addr := a.datum.toNat }) ∧
     (0 ≤ a.datum.toInt → a.datum.toInt < 2 ^ 32 →
       Raises .in 0xB000 [a] 1 4 (fun s c => s.ioTarget (some c) (s.core c).psw.w (s.core c).psw.l false a.datum.toNat = .inl e)
         (match e with
           | .bus => { vec := 6, sub := 0, addr := a.datum.toNat }
           | .world => { vec := 8, sub := 3, addr := a.datum.toNat }
           | .priv => { vec := 8, sub := 4, addr := a.datum.toNat })))

/-- R54-R56: MFSR delivers each readable special register. R55, R56, R147, R188: MTSR checks its operand and opens a shadow with the new
value; an unaligned VBR or TSBR is refused. -/
def Obligations.SpecialRegisters : Prop :=
  (∀ (s : State) (c : Fin 256) (i : Nat) (w : TWord), Quiet s c → Stacked s c [fixN i] 1 4 →
     let k := s.core c
     let gives : Prop := exec (.mfsr c) s = .next (after s c 0xC102 1 [w])
     ((i, w) ∈ [(0, fixW (k.psw.pack (s.strict c))), (2, fixW k.stk.slim), (3, fixW k.stk.sbase), (5, fixW k.stk.clim), (6, fixW k.sr.lc),
         (7, fixW k.sr.ls), (8, fixW k.sr.le), (12, fixW k.sr.pkr), (18, fixW k.sr.ab), (19, fixW k.sr.al), (20, k.sr.pg0),
         (21, k.sr.pg1), (22, k.sr.pg2), (23, k.sr.pg3), (24, fixW k.sr.iob), (25, fixW k.sr.trb), (26, fixW k.sr.trl),
         (34, fixW (s.coreId c)), (35, fixW (s.mcver (c.val / 8))),
         (4, fixN (k.stk.csp + k.stk.cregs.length * 2 ^ 48)),
         (1, fixN (va48 ((k.stk.sp : Int) + 1) + (k.stk.regs.length - 1) * 2 ^ 48))] → gives) ∧
     (k.psw.l = true →
       let b := if k.psw.w then k.back else k.house
       (i, w) ∈ [(9, fixW b.vbr), (10, fixW b.tsbr), (11, fixW b.ftsbr), (13, fixW b.asid), (14, fixW b.itbr), (15, fixW b.dtbr),
         (27, fixW k.quick.qpc), (28, fixW k.quick.qpsw), (29, k.quick.qs0), (30, k.quick.qs1), (31, fixW k.sr.cctl),
         (32, fixW k.sr.timecmp0), (33, fixW k.sr.timecmp1)] → gives) ∧
     (k.psw.l = true → k.psw.w = true → (i, w) ∈ [(16, fixW k.sr.vmid), (17, fixW k.sr.s2tbr)] → gives) ∧
     (36 ≤ i → i < 64 → exec (.mfsr c) s = .next
       (after ((s.setFld f_CORE_ERR_RSVSR c 1).setFld f_CORE_ERR_RSVIDX c i) c 0xC102 1 [fixN 0])) ∧
     (k.psw.l = false → 9 ≤ i ∧ i ≤ 11 ∨ 13 ≤ i ∧ i ≤ 17 ∨ 27 ≤ i ∧ i ≤ 33 →
       exec (.mfsr c) s = .next ((s.ready c 0xC102).takeTrap c (tIllegal 2) 0xC102))) ∧
  (∀ (i : Nat) (v : TWord), ty v = tFIX →
     let opens (x : TWord) (s : State) (c : Nat) : State := changed s c (fun k =>
       { retired k 0xC103 2 [] with shadow := some { remain := 2, sa := k.pc, syl := 0xC103, upd := .sr k.psw.w i x } })
     (i ∈ [2, 3, 5, 6, 7, 8, 18, 19, 25, 26] → Leads .mtsr [fixN i, v] 2 4 (fun _ _ => True) (opens (fixW v.datum))) ∧
     (i ∈ [20, 21, 22, 23] → Leads .mtsr [fixN i, v] 2 4 (fun _ _ => True) (opens v)) ∧
     (i = 12 ∨ i = 24 → Leads .mtsr [fixN i, v] 2 4 (fun _ _ => True) (opens (fixW (v.datum &&& 0xFFFFFFFF)))) ∧
     (i = 9 → v.datum.toNat % 2 ^ 8 = 0 → v.datum.toNat < 2 ^ 48 → Leads .mtsr [fixN i, v] 2 4 (fun s c => (s.core c).psw.l = true) (opens (fixW v.datum))) ∧
     (i = 9 → v.datum.toNat % 2 ^ 8 ≠ 0 →
       Raises .mtsr 0xC103 [fixN i, v] 2 4 (fun s c => (s.core c).psw.l = true) { vec := 5, sub := 3 }) ∧
     (i = 10 ∨ i = 11 → v.datum.toNat % 2 ^ 6 ≠ 0 →
       Raises .mtsr 0xC103 [fixN i, v] 2 4 (fun s c => (s.core c).psw.l = true) { vec := 5, sub := 2 }) ∧
     (i = 34 ∨ i = 35 → Leads .mtsr [fixN i, v] 2 4 (fun _ _ => True) (fun s c => changed (s.setFld f_CORE_ERR_RSVSR c 1) c (fun k =>
       { retired k 0xC103 2 [] with shadow := some { remain := 2, sa := k.pc, syl := 0xC103, upd := .none } }))))

/-- R128-R134, R178, R74: the system instructions of a quiet core, and the privileged ones at user level. -/
def Obligations.SystemInstructions : Prop :=
  ∀ (s : State) (c : Fin 256) (f a : TWord) (n : Fin 32), Quiet s c → (s.core c).stk.regs.length ≤ 4 →
    let k := s.core c
    exec (.trap c n) s = .next ((after s c (0xC000 + n.val) 0 []).takeTrap c { vec := 32 + n.val } (0xC000 + n.val)) ∧
    exec (.brk c) s = .next ((s.ready c 0xC105).takeTrap c { vec := 17 } 0xC105) ∧
    (k.psw.l = true → k.ev.nmi = true → exec (.halt c) s = .next (after s c 0xC101 0 [])) ∧
    (k.psw.l = true → k.ev.nmi = false → exec (.halt c) s = .next (changed (s.bump .CORE_HALTS c 1) c (fun k =>
      { retired k 0xC101 0 [] with run := .halt, haltAt := s.time }))) ∧
    (k.psw.l = false → ∀ p ∈ [(Instr.halt c, 0xC101), (.setipl c, 0xC104), (.rte c, 0xC100), (.rtq c, 0xC10A), (.mcload c, 0xC109),
        (.inval c, 0x4042), (.lock c, 0x4044), (.unlock c, 0x4045), (.cleanAll c, 0x4046), (.flushAll c, 0x4047), (.iinvalAll c, 0x4048),
        (.tlbiVa c, 0x4080), (.tlbiVaw c, 0x4081), (.tlbiAsid c, 0x4082), (.tlbiVmid c, 0x4083), (.tlbiAll c, 0x4084), (.tlbw c, 0x4085),
        (.tlbr c, 0x4086), (.walk c, 0x4087), (.scanstack c, 0xD020)],
      exec p.1 s = .next ((s.ready c p.2).takeTrap c (tIllegal 2) p.2)) ∧
    (k.psw.w = false → ∀ p ∈ [(Instr.mcload c, 0xC109), (.tlbiVmid c, 0x4083)],
      exec p.1 s = .next ((s.ready c p.2).takeTrap c (tIllegal 2) p.2)) ∧
    (k.psw.l = true → Stacked s c [f] 1 4 → ty f = tFIX → f.datum.toNat ≤ 15 →
      exec (.setipl c) s = .next (changed s c (fun k => { retired k 0xC104 1 [fixN k.psw.ipl] with
        shadow := some { remain := 2, sa := k.pc, syl := 0xC104, upd := .ipl f.datum.toNat } }))) ∧
    (k.mem.sq = [] → exec (.sync c) s = .next (changed s c (fun k =>
      let r := retired k 0xC106 0 []
      { r with mem := { r.mem with fence := false } }))) ∧
    exec (.time c) s = .next (after s c 0xC107 0 [fixW (w64 s.time)]) ∧
    (s.fld f_KSU_DRBG_STATE 0 ≠ 2 → exec (.rand c) s = .next (after s.drawDrbg.2 c 0xC108 0 [fixW s.drawDrbg.1])) ∧
    (s.fld f_KSU_DRBG_STATE 0 = 2 → exec (.rand c) s = .next ((s.ready c 0xC108).takeTrap c { vec := 2, sub := 4 } 0xC108)) ∧
    (k.psw.l = true → k.psw.w = true → k.mem.sq = [] → Stacked s c [fixN 2, a] 2 4 → ty a = tFIX → s.mcs.job = none → s.mcs.want = [] →
      (s.mode mSEALED = false → s.mode mRECORD = false → exec (.mcload c) s = .next
        (after (({ s with mcs := { s.mcs with job := some { op := 2, image := [] } } } : State).ldstat true 1 2 0 0) c 0xC109 2 [fixN 0])) ∧
      (s.mode mSEALED = true → exec (.mcload c) s = .next (after s c 0xC109 2 [fixN 2])))

/-- R33, R61, R71-R74: what a fetched word that is no defined syllable raises. R155, R160, R165, R168: a customer routine of one micro-word
that only ends; and the watchdog of microcode. -/
def Obligations.UndefinedAndCustomer : Prop :=
  (∀ (s : State) (c : Fin 256) (w : TWord) (u : BitVec 11), Quiet s c → (s.core c).stk.regs.length ≤ 8 →
     let n := w.datum.toNat / 2 ^ (16 * (3 - (s.core c).pc % 4)) % 2 ^ 16
     let raises (i : Instr) (n : Nat) (t : Trap) : Prop := exec i s = .next ((s.ready c n).takeTrap c t n)
     (ty w ≠ tINS → ty w ≠ tPOISON → raises (.undefinedOpcode c w) n { vec := 4, sub := 5, addr := (s.core c).pc, noSyl := true }) ∧
     (ty w = tPOISON → raises (.undefinedOpcode c w) n
       { vec := 2, sub := 0, tag := w.tag.toNat, pos := 15, addr := (s.core c).pc, noSyl := true }) ∧
     (ty w = tINS → 0xF000 ≤ n → raises (.undefinedOpcode c w) n (tIllegal 0)) ∧
     (ty w = tINS → 0xEA00 ≤ n → n < 0xF000 → raises (.undefinedOpcode c w) n { vec := 20, sub := n / 256 % 8 }) ∧
     (s.custLoaded c = false → raises (.customerOpcode c u) (0xE000 + u.toNat) (tIllegal 4)) ∧
     (s.custLoaded c = true → bit (w64 (s.dword (c.val / 8) (0x800 + u.toNat))) 15 = false →
       raises (.customerOpcode c u) (0xE000 + u.toNat) (tIllegal 0)) ∧
     (∀ t : BitVec 6, 0x30 ≤ t.toNat → raises (.typep c t) (0x2040 + t.toNat) (tIllegal 1) ∧
       raises (.check c t) (0x2080 + t.toNat) (tIllegal 1))) ∧
  (∀ (s : State) (c : Fin 256) (u : BitVec 11) (off a : Nat), Quiet s c → (s.core c).stk.regs.length ≤ 4 →
     (let bank := (s.cluster (c.val / 8)).bank (c.val % 2 == 1)
      s.custLoaded c = true →
       (bank.defines (0x800 + u.toNat) = true → s.lockstep c = false → off < 2 ^ 12 → s.dword c (0x800 + u.toNat) = 0x8000 + off → a < 2 ^ 12 →
         s.patched (c.val / 8) (0x3000 + off) = 0x3000 + off → s.uword c (0x3000 + off) = a * 2 ^ 12 + 0x900 →
         s.nword c a = 7 * 2 ^ 105 + 6 * 2 ^ 118 + 6 * 2 ^ 114 →
         exec (.customerOpcode c u) s = .next (after { s with free := s.free + 1 } c (0xE000 + u.toNat) 0 [])) ∧
       (bank.defines (0x800 + u.toNat) = false → s.lockstep c = false →
         exec (.customerOpcode c u) s = .next ((s.ready c (0xE000 + u.toNat)).takeTrap c (tIllegal 0) (0xE000 + u.toNat)))) ∧
     (s.custLoaded c = false →
       exec (.customerOpcode c u) s = .next ((s.ready c (0xE000 + u.toNat)).takeTrap c (tIllegal 4) (0xE000 + u.toNat))) ∧
     exec (.microTimeout c) s = .next ((s.noteWdog c).takeTrap c { vec := 19, part := true } (s.core c).syl))

/-- R192, R193, R195, R188, R190: full entry of an exception of vectors 4 to 63 from a core outside any Scene. The TSB at TSBR gets the
context, TSBR its NEXT link, the stacks' registers are emptied, and execution goes on at the vector's entry. R197: the quick entry of
vectors 9 and 11 outside a delay slot: QPC, QPSW, QS0 and QS1 take the context, S0 and S1 become the fault address and its syllable, and
QT is set at IPL 15. -/
def Obligations.ExceptionEntry : Prop :=
  (∀ (s a b d u e : State) (c : Fin 256) (t : Trap) (syl next pa pc : Nat), (s.core c).run = .run →
     4 ≤ t.vec → t.vec < 64 → t.vec ≠ 9 → t.vec ≠ 11 → t.vec ≠ 18 → t.dv = none → t.ia = none → t.own = none →
     (t.vec = 10 ∧ t.back = true → (s.core c).psw.w = true) →
     (s.core c).psw.sc = false → (s.core c).psw.qt = false → (s.core c).pend = [] → (s.core c).shadow = none →
     let a0 := s.modCore c (fun k => { k with wins := [], newWins := [], hostBuf := [], spills := [], wait := none, micro := none, scene := { k.scene with av := false }
                                              ev := { k.ev with stepDue := false }, mem := { k.mem with latch := .empty } })
     let k := a0.core c
     let w := k.psw.w
     let base := bits k.bank.tsbr 47 0
     let sAt (i : Nat) : TWord := k.stk.regs.getD i wEMPTY
     let cAt (i : Nat) : TWord := k.stk.cregs.getD i wEMPTY
     a0.tsbLink c w base 32 = (a, .inr next) → a.xbase c w base .write = (b, some pa) →
     b.physWrites c w pa [word tCODE k.pc, fixW (s.pswOf c), fixN (k.stk.sp + k.stk.regs.length * 2 ^ 48),
       fixN (k.stk.csp + k.stk.cregs.length * 2 ^ 48), fixW k.sr.lc, fixW k.sr.ls, fixW k.sr.le,
       if k.psw.ds = true then word tCODE k.dst else fixN 0,
       sAt 0, sAt 1, sAt 2, sAt 3, sAt 4, sAt 5, sAt 6, sAt 7, cAt 0, cAt 1, cAt 2, cAt 3,
       k.sr.pg0, k.sr.pg1, k.sr.pg2, k.sr.pg3,
       fixN (t.vec * 2 ^ 8 + t.sub % 256), fixN t.addr, fixW (t.aux syl), fixW k.sceneStat,
       fixW k.sr.ab, fixW k.sr.al, fixW k.sr.pkr, fixW k.bank.asid] = some d →
     d.vectorOf c w t.vec = (u, .inr pc) → u.tracing c = false →
     e = (u.bump .CORE_XCOUNT c 1).modCore c (fun k => (({ k with
         pc := pc, psw := { w := w, l := true, ipl := k.psw.ipl, tr := k.psw.tr },
         stk := { k.stk with regs := [], cregs := [] }, run := .run } : Core).setTsbr w next)) →
     s.takeTrap c t syl = e) ∧
  (∀ (s u : State) (c : Fin 256) (t : Trap) (syl pc : Nat), (t.vec = 9 ∨ t.vec = 11) → t.dv = none → t.ia = none → t.own = none →
     (s.core c).psw.sc = false → (s.core c).psw.qt = false → (s.core c).psw.ds = false → (s.core c).pend = [] → (s.core c).shadow = none →
     let s0 := if t.vec = 11 then s else s.bump (if t.fx then .CORE_IMISS else .CORE_DMISS) c 1
     let a := s0.modCore c (fun k => { k with wins := [], newWins := [], hostBuf := [], spills := [], wait := none, micro := none, scene := { k.scene with av := false }
                                              ev := { k.ev with stepDue := false }, mem := { k.mem with latch := .empty } })
     a.vectorOf c (s.core c).psw.w t.vec = (u, .inr pc) → u.core c = a.core c → u.strict c = a.strict c → u.tracing c = false →
     s.takeTrap c t syl = (u.bump .CORE_QCOUNT c 1).modCore c (fun k => { k with
       quick := { qpc := w64 k.pc, qpsw := w64 ((k.psw.pack (u.strict c)).toNat + k.stk.regs.length * 2 ^ 20),
                  qs0 := k.stk.regs.getD 0 wEMPTY, qs1 := k.stk.regs.getD 1 wEMPTY,
                  vec := t.vec, sub := t.sub, syl := syl, addr := t.addr }
       stk := { k.stk with regs := fixN t.addr :: fixN (syl % 2 ^ 16 * 2 ^ 16 + t.vec * 256 + t.sub) :: k.stk.regs.drop 2 }
       psw := { k.psw with l := true, qt := true, ipl := 15, step := false, ds := false, lp := false, repp := false }
       pc := pc
       run := .run }))

/-- R201, R202: an entry whose TSB is not accessible is a double fault; while a double fault is being handled (CORE.XSTAT.DF) the core halts
in Curtain and CORE.HALT names the world, the vector and the subcode. R200, R198, R187: RTE in Backstage restores the context that the
previous TSB holds, and TSBR becomes that TSB; RTQ restores from the quick-trap registers. SC, SS and DEPTH stay as they are; RTQ stays in
the handler's world (R185). -/
def Obligations.CurtainAndReturn : Prop :=
  (∀ (s a : State) (c : Fin 256) (t : Trap) (syl n addr : Nat), 4 ≤ t.vec → t.vec < 64 → t.vec ≠ 9 → t.vec ≠ 11 → t.vec ≠ 10 → t.vec ≠ 18 → t.dv = none →
     t.ia = none → t.own = none → (s.core c).psw.sc = false → (s.core c).psw.qt = false → (s.core c).pend = [] → (s.core c).shadow = none →
     c.val < s.cores.length → a.flag f_CORE_XSTAT_DF c = true → a.cores.length = s.cores.length → (a.core c).psw = (s.core c).psw →
     (s.modCore c Core.beforeEntry).tsbLink c (s.core c).psw.w (bits (s.core c).bank.tsbr 47 0) 32 = (a, .inl (n, addr)) →
     let e := s.takeTrap c t syl
     (e.core c).run = .curtain ∧
     e.reg .CORE_HALT c = w64 (2 ^ 63 + b2n (s.core c).psw.w * 2 ^ 16 + t.vec * 256 + n)) ∧
  ((∀ (s : State) (c : Fin 256) (p : Nat) (ws : List TWord) (link : TWord), Quiet s c → (s.core c).stk.regs.length ≤ 4 →
     let k := s.core c
     let base := bits k.back.tsbr 47 0
     let d (i : Nat) : W64 := (ws.getD i wEMPTY).datum
     let saved := Psw.unpack (d 1)
     k.psw.w = true → k.psw.l = true → s.flag f_CORE_XSTAT_DF c = false → k.nmiAt ≠ some p →
     place base ≠ .none ∧ place base ≠ .mmio → place p ≠ .none ∧ place p ≠ .mmio →
     s.physRead c true (base + 33) = some link → ty link = tFRAME → frameKind link = 5 → bits link.datum 59 48 = 0 → adr link = p → p % 64 = 0 →
     ws.length = 32 → (∀ i, i < 32 → s.physRead c true (p + i) = some (ws.getD i wEMPTY)) →
     (∀ i, i < 32 → (i = 0 ∨ i = 7 ∧ saved.ds = true → ty (ws.getD i wEMPTY) = tCODE) ∧
       (i ≠ 0 → ¬ (i = 7 ∧ saved.ds = true) → ¬ (8 ≤ i ∧ i ≤ 23) → ty (ws.getD i wEMPTY) = tFIX) ∧
       (8 + bits (d 2) 51 48 ≤ i ∧ i ≤ 15 ∨ 16 + bits (d 3) 50 48 ≤ i ∧ i ≤ 19 → ty (ws.getD i wEMPTY) = tEMPTY)) →
     pswReserved (d 1) = false → saved.qt = false → saved.w = true →
     exec (.rte c) s = .next (changed s c (fun k => ({ k with
       wait := none, syl := 0xC100, traceN := 1
       pc := adr (ws.getD 0 wEMPTY)
       psw := { saved with sc := false, ss := k.psw.ss, depth := k.psw.depth }
       dst := if saved.ds then adr (ws.getD 7 wEMPTY) else 0
       stk := { k.stk with sp := bits (d 2) 47 0, regs := (ws.drop 8).take (Nat.min 8 (bits (d 2) 51 48))
                           csp := bits (d 3) 47 0, cregs := (ws.drop 16).take (Nat.min 4 (bits (d 3) 50 48)) }
       sr := { k.sr with lc := d 4, ls := d 5, le := d 6, pg0 := ws.getD 20 wEMPTY, pg1 := ws.getD 21 wEMPTY, pg2 := ws.getD 22 wEMPTY,
                         pg3 := ws.getD 23 wEMPTY, ab := d 28, al := d 29, pkr := w64 (bits (d 30) 31 0) }
       scene := { k.scene with stat := setBits (d 27) 17 17 0, av := bit (d 27) 16 }
       back := { k.back with asid := w64 (bits (d 31) 15 0), tsbr := w64 p }
       mem := { k.mem with latch := .empty } } : Core)))) ∧
   (∀ (s : State) (c : Fin 256), Quiet s c → (s.core c).stk.regs.length ≤ 4 → 2 ≤ (s.core c).stk.regs.length → Deep s c 2 → (s.core c).psw.l = true →
     ((s.core c).psw.qt = false → exec (.rtq c) s = .next ((s.ready c 0xC10A).takeTrap c (tIllegal 2) 0xC10A)) ∧
     ((s.core c).psw.qt = true → 2 ≤ bits (s.core c).quick.qpsw 23 20 →
       exec (.rtq c) s = .next (changed s c (fun k => { k with
         wait := none, syl := 0xC10A, traceN := 1
         pc := bits k.quick.qpc 47 0
         psw := { Psw.unpack k.quick.qpsw with w := k.psw.w, sc := false, ss := k.psw.ss, depth := k.psw.depth }
         stk := { k.stk with sp := va48 (k.stk.sp : Int), regs := k.quick.qs0 :: k.quick.qs1 :: k.stk.regs.drop 2 } })))))

/-- R203, R204: GATE through a record of another stack with no arguments, whose four slots on the target's control stack are stored to; the
record and the slots are read as the microcode reads them, leaving s1 and s2. R205: GRET without results through a GATE FRAME that
switched stacks restores the caller's stacks, PKR, world, level, IPL and TR. -/
def Obligations.Gates : Prop :=
  (∀ (s s1 s2 : State) (c : Fin 256) (cap : TWord) (r : GateRec) (l0 l1 l2 l3 : Leaf), Quiet s c → Stacked s c [cap] 0 4 →
     ty cap = tCAP → bits cap.datum 63 49 = 0 → hiZero cap = true ∨ bit cap.datum 48 = true →
     (gateRecord (bit cap.datum 48) (adr cap)).run c (s.ready c 0x9500) = .ok r s1 → r.size ≠ 0 → r.narg = 0 →
     let slim := va48 ((r.top : Int) - r.size * 2048)
     let k := s2.core c
     let pkr := if r.w && !k.psw.w then 0 else k.sr.pkr
     let psw := fixW (s2.pswOf c)
     (gateSlots r.w r.l pkr slim 4).run c s1 = .ok [l0, l1, l2, l3] s2 → s1.core c = s2.core c → s1.strict c = s2.strict c →
     Quiet s2 c → k.psw = (s.core c).psw → k.traceN = 0 → k.wait = none → k.syl = 0x9500 → k.stk.regs = [cap] → k.stk.cregs = [] → k.mem.sq = [] → k.mem.fence = false → k.unit = false →
     s2.colOn = false → bits k.sr.cctl 5 4 = 0 → (∀ lf ∈ [l0, l1, l2, l3], lf.mt = 0 ∧ place lf.pa = .loc) →
     exec (.gate c) s = .next (changed s2 c (fun k =>
       let r0 := Core.withQueue (retired k 0x9500 1 []) [queued k l0 psw true, queued k l1 (fixW k.sr.pkr) true,
         queued k l2 (fixN (va48 (va48 ((k.stk.sp : Int) + 1)))) true, queued k l3 (fixW k.stk.sbase) true]
       { r0 with
         pc := r.sa
         psw := { k.psw with w := r.w, l := r.l }
         sr := { k.sr with pkr := pkr }
         stk := { sp := va48 (r.top : Int), regs := [], sbase := w64 r.top, slim := w64 slim, clim := w64 (va48 ((r.top : Int) - r.size * 4096))
                  csp := va48 ((slim : Int) - 8)
                  cregs := [gateFrame true k.psw.w k.psw.l (va48 ((k.pc : Int) + 1)), fixW k.stk.clim, fixN k.stk.csp, fixW k.stk.slim] } }))) ∧
  (∀ (s s1 : State) (c : Fin 256) (f g : TWord) (fs : List TWord), Quiet s c → Stacked s c [f] 0 4 → f = fixN 0 →
     (cRead 0 0).run c (s.ready c 0x9501) = .ok g s1 → s1 = s.ready c 0x9501 → isFrame g 4 = true → bits g.datum 55 50 = 0 → bit g.datum 56 = true →
     ∀ s2, (cFixes 1 7).run c s1 = .ok fs s2 → Quiet s2 c → (s2.core c).traceN = 0 → (s2.core c).wait = none →
     (s2.core c).syl = 0x9501 → (s2.core c).psw = (s.core c).psw → Stacked s2 c [f] 0 4 →
     let d (i : Nat) : W64 := (fs.getD (i - 1) wEMPTY).datum
     let w := (s.core c).psw.w
     let gw := bit g.datum 48
     let gl := bit g.datum 49
     gw = w → gl = false ∨ (s.core c).psw.l = true → bit (d 7) 0 = gw → bit (d 7) 1 = gl →
     exec (.gret c) s = .next (changed s2 c (fun k => { retired k 0x9501 1 [] with
       pc := bits g.datum 47 0
       psw := { k.psw with w := gw, l := gl, ipl := bits (d 7) 5 2, tr := bit (d 7) 15 }
       sr := { k.sr with pkr := w64 (bits (d 6) 31 0) }
       stk := { sp := va48 (bits (d 5) 47 0 : Int), regs := [], csp := bits (d 2) 47 0, cregs := [], sbase := d 4, slim := d 3, clim := d 1 } })))

/-- R189-R191, R208: events are taken at instruction boundaries, the first one due: the exception is entered and what was pending is cleared.
No recording runs and no Scene is active. -/
def Obligations.EventsTaken : Prop :=
  ∀ (s : State) (c : Fin 256), s.takesEvents c = true → (s.core c).run = .run → s.mode mREPLAY = false → s.recording = false →
    (s.core c).psw.sc = false →
    let k := s.core c
    (∀ back v, k.ev.mc = [] → k.ev.stepDue = false → s.nmiReady c = false → k.topInterrupt = some (back, v) →
      exec (.interruptTaken c) s = .next ((s.modCore c (fun k =>
        if back then { k with ev := { k.ev with back := k.ev.back.filter (fun x => x != v) } }
        else { k with ev := { k.ev with house := k.ev.house.filter (fun x => x != v) } })).enterTrap c { vec := v, noSyl := true } 0 back)) ∧
    (∀ m l, k.ev.mc = m :: l → exec (.asyncMachineCheck c) s = .next
      ((s.modCore c (fun k => { k with ev := { k.ev with mc := l } })).enterTrap c { vec := 2, sub := m, noSyl := true } 0 true)) ∧
    (k.ev.mc = [] → k.ev.stepDue = true → exec (.singleStepTrap c) s = .next
      ((s.modCore c (fun k => { k with ev := { k.ev with stepDue := false } })).enterTrap c { vec := 18, noSyl := true } 0 k.ev.stepWorld)) ∧
    (k.ev.mc = [] → k.ev.stepDue = false → s.nmiReady c = true → k.psw.qt = false →
      ∃ t, exec (.nmiTaken c) s = .next t ∧ t.flag f_CORE_XSTAT_NMIACT c = true ∧ t.mem = ((s.modCore c (fun k =>
        { k with ev := { k.ev with nmi := false } })).enterTrap c { vec := 1, noSyl := true } 0 true).mem) ∧
    (k.ev.mc = [] → k.ev.stepDue = false → s.nmiReady c = false → k.topInterrupt = none →
      exec (.interruptTaken c) s = .next s ∧ exec (.nmiTaken c) s = .next s ∧ exec (.singleStepTrap c) s = .next s ∧
      exec (.asyncMachineCheck c) s = .next s)

/-- R209, R210: the Cue. A vector becomes pending, once, in the world of its source on a core that is present and neither held nor in Curtain.
R209, R210, R527: what a write to a router entry or to a core's CUE.LCTL leaves, by the world that writes; debug halts and goes on only
within its scope. -/
def Obligations.CueRouting : Prop :=
  (∀ (s : State) (c : Fin 256) (src : Fin 128) (w : Bool) (v : BitVec 64) (t : Fin 2), s.mode mREPLAY = false →
     let pends (s : State) (c : Nat) (w : Bool) (vec : Nat) : State := s.modCore c (fun k =>
       if w then { k with ev := { k.ev with back := if k.ev.back.contains vec then k.ev.back else vec :: k.ev.back } }
       else { k with ev := { k.ev with house := if k.ev.house.contains vec then k.ev.house else vec :: k.ev.house } })
     let takes (d : Nat) : Prop := s.present d = true ∧ (s.core d).run ≠ .held ∧ (s.core d).run ≠ .curtain
     let k := s.core c
     (src.val < 117 → s.flag f_CUE_SRC_EN src = false → exec (.cueRouterEvent src) s = .next s) ∧
     (src.val < 117 → s.flag f_CUE_SRC_EN src = true → takes (s.fld f_CUE_SRC_CORE src) → s.flag f_REH_TCTL_EEN 0 = false →
       exec (.cueRouterEvent src) s = .next (pends s (s.fld f_CUE_SRC_CORE src)
         (s.flag f_CUE_SRC_OWN src && s.flag f_CUE_SRC_W src) (s.fld f_CUE_SRC_VECTOR src))) ∧
     (117 ≤ src.val → exec (.cueRouterEvent src) s = .next s) ∧
     (t = 0 → takes c → k.ev.arm0 = true → s.flag f_CUE_LCTL_T0EN c = true → k.sr.timecmp0.toInt ≤ s.time →
       exec (.localTimerFire c t) s = .next (pends (s.modCore c (fun k => { k with ev := { k.ev with arm0 := false } })) c
         (s.flag f_CUE_LCTL_T0W c) 0xE0)) ∧
     (t = 1 → takes c → k.ev.arm1 = true → s.flag f_CUE_LCTL_T1EN c = true → k.sr.timecmp1.toInt ≤ s.time →
       exec (.localTimerFire c t) s = .next (pends (s.modCore c (fun k => { k with ev := { k.ev with arm1 := false } })) c
         (s.flag f_CUE_LCTL_T1W c) 0xE1)) ∧
     (bits v 7 0 < 64 → exec (.cueIpi w v) s = .next (s.setFld f_CUE_ERR_RSVW 0 1)) ∧
     (64 ≤ bits v 7 0 → takes (bits v 15 8) → exec (.cueIpi w v) s = .next (pends s (bits v 15 8) (bit v 32 && w) (bits v 7 0))) ∧
     (64 ≤ bits v 7 0 → ¬ takes (bits v 15 8) → exec (.cueIpi w v) s = .next (s.bump .CUE_DROPS 0 1)) ∧
     (takes (bits v 7 0) → exec (.cueNmi v) s = .next (s.modCore (bits v 7 0) (fun k => { k with ev := { k.ev with nmi := true } }))) ∧
     (¬ takes (bits v 7 0) → exec (.cueNmi v) s = .next (s.bump .CUE_DROPS 0 1))) ∧
  (∀ (s : State) (c : Fin 256) (n : Fin 128) (v : BitVec 64),
     let old := s.reg .CUE_SRC n
     let lc := s.reg .CUE_LCTL c
     let entry (own w : Bool) : W64 := w64 (b2n (bit v 63) * 2 ^ 63 + b2n own * 2 ^ 33 + b2n w * 2 ^ 32 + bits v 15 8 * 256 + bits v 7 0)
     (64 ≤ bits v 7 0 →
       exec (.cueSrcWrite true n v) s = .next (s.setReg .CUE_SRC n (entry (bit v 33) (bit v 33 && bit v 32))) ∧
       (bit old 33 = false → exec (.cueSrcWrite false n v) s = .next (s.setReg .CUE_SRC n (entry false false)))) ∧
     (bit old 33 = true → exec (.cueSrcWrite false n v) s = .next (s.setReg .CUE_SRC n old)) ∧
     ((s.core c).ev.arm0 = false → (s.core c).ev.arm1 = false →
       exec (.cueLctlWrite c true v) s = .next (s.setReg .CUE_LCTL c (w64 (v.toNat % 16))) ∧
       (bits lc 3 2 = 0 → exec (.cueLctlWrite c false v) s = .next (s.setReg .CUE_LCTL c (w64 (v.toNat % 4))))) ∧
     (s.debugScope = 0 → exec (.debugHaltRequest c) s = .next s ∧ ∀ b, exec (.debugResume c b) s = .next s) ∧
     (s.debugScope = 2 → s.running c = true → (s.core c).psw.sc = false →
       exec (.debugHaltRequest c) s = .next (s.modCore c (fun k => { k with debug := true, stepOnce := false }))) ∧
     (∀ b, s.debugScope = 2 → (s.core c).debug = true →
       exec (.debugResume c b) s = .next (s.modCore c (fun k => { k with debug := false, stepOnce := b }))))

/-- R253, R255, R270-R273: cache maintenance by a core whose store queue is empty, on NORMAL memory that is no wings memory, and LOCK and
UNLOCK of a wings slot. An instruction by address acts on nothing where the address is of DEVICE type. -/
def Obligations.CacheMaintenance : Prop :=
  ∀ (s : State) (c : Fin 256) (p : TWord) (lf : Leaf), Quiet s c → (s.core c).mem.sq = [] → (s.core c).unit = false →
    let k := s.core c
    let line := lineOf lf.pa
    (Stacked s c [p] 1 4 → ty p = tLOC ∨ ty p = tVAR → hiZero p = true → place lf.pa ≠ .wings →
      (xlateCore k (adr p) .read 7 = .inr lf → lf.mt < 2 →
        exec (.clean c) s = .next (after (s.cleanLine line) c 0x4040 1 []) ∧
        exec (.flush c) s = .next (after (s.flushLine line) c 0x4041 1 [])) ∧
      (xlateCore k (adr p) .read 7 = .inr lf → 2 ≤ lf.mt →
        exec (.clean c) s = .next (after s c 0x4040 1 []) ∧ exec (.flush c) s = .next (after s c 0x4041 1 [])) ∧
      (xlateCore k (adr p) .write 7 = .inr lf → lf.mt < 2 → kBit p = false → k.psw.l = true →
        exec (.inval c) s = .next (after (s.dropLine (c.val / 8) line) c 0x4042 1 []))) ∧
    (Stacked s c [p] 1 4 → ty p = tCODE → hiZero p = true → xlateCore k (adr p) .fetch 7 = .inr lf →
      exec (.iinval c) s = .next (after { s with cores := s.cores.map (fun k => k.dropI line) } c 0x4043 1 [])) ∧
    (∀ (n i : Nat), Stacked s c [fixN n] 1 4 → n ≤ 31 → k.psw.l = true →
      ((∀ x ∈ k.mem.wings, x.slot ≠ n) → k.freeFrame = some i →
        exec (.lock c) s = .next (changed s c (fun k =>
          let r := retired k 0x4044 1 []
          { r with mem := { r.mem with
              wings := { slot := n, frame := i, world := k.psw.w, words := List.replicate 32 wEMPTY } :: k.mem.wings } })) ∧
        exec (.unlock c) s = .next (after s c 0x4045 1 [])) ∧
      (∀ x, k.mem.wings.find? (fun y => y.slot == n) = some x → x.world = k.psw.w →
        exec (.lock c) s = .next (after s c 0x4044 1 []) ∧
        exec (.unlock c) s = .next (changed s c (fun k =>
          let r := retired k 0x4045 1 []
          { r with mem := { r.mem with wings := k.mem.wings.filter (fun y => y.slot != n) } }))) ∧
      (∀ x, k.mem.wings.find? (fun y => y.slot == n) = some x → x.world ≠ k.psw.w →
        exec (.lock c) s = .next ((s.ready c 0x4044).takeTrap c (tProt 7 0) 0x4044) ∧
        exec (.unlock c) s = .next ((s.ready c 0x4045).takeTrap c (tProt 7 0) 0x4045))) ∧
    (Stacked s c [] 0 4 → k.psw.l = true →
      exec (.cleanAll c) s = .next (after (s.cleanAll c) c 0x4046 0 []) ∧
      exec (.flushAll c) s = .next (changed (s.cleanAll c) c (fun k =>
        let r := retired k 0x4047 0 []
        { r with mem := { r.mem with dframes := [] } })) ∧
      exec (.iinvalAll c) s = .next (changed s c (fun k =>
        let r := retired k 0x4048 0 []
        { r with mem := { r.mem with iframes := [], fbuf := none } })))

/-- R228-R233: WALK answers at once from the cluster TLB, and otherwise freezes its core until WALK_RESULT; its answer goes into the
walk-result latch. -/
def Obligations.Walks : Prop :=
  ∀ (s : State) (c : Fin 256) (kind a : Nat) (e : CtlbE), kind < 3 → a < 2 ^ 64 →
    let k := s.core c
    let x := k.ctx (kind == 2)
    let input := if kind = 2 then a % 2 ^ 48 / 4 else a % 2 ^ 48
    let acc : Acc := if kind = 1 then .write else if kind = 2 then .fetch else .read
    let found : Prop := (s.cluster (c.val / 8)).ctlb.find? (fun e => e.isI == x.isI && e.u.world == x.world
      && (x.world || e.u.vmid == x.vmid) && (bit e.u.tte 15 || e.u.asid == x.asid)
      && e.u.base == input / 2 ^ sizeShift (bits e.u.tte 20 17) * 2 ^ sizeShift (bits e.u.tte 20 17)
      && (acc != .write || bit e.u.tte 21)) = some e ∧
      leafFault x e.u.tte e.org (e.org.ia + (input - e.u.base)) acc (oaOf e.u.tte + (input - e.u.base)) = none
    let tte : TWord := ⟨BitVec.ofNat 8 tTTE, e.u.tte⟩
    let fix3 : TWord := fixN (2 ^ 49 + (if kind = 2 then 2 ^ 48 else 0) + a % 2 ^ 48)
    let answered (latch : Latch) : State :=
      after (((s.bump .WALK_WALKS (c.val / 8) 1).bump .WALK_CTLBHIT (c.val / 8) 1).modCore c (fun k =>
        { k with mem := { k.mem with latch := latch } })) c 0x4087 2 [tte, fix3]
    (Quiet s c → Stacked s c [fixN kind, fixN a] 2 4 → k.psw.l = true →
      (found → exec (.walk c) s = .next (answered (.valid tte fix3 e.org))) ∧
      (s.walkHits c x input = false → exec (.walk c) s = .next (frozen s c 0x4087 (.walk a kind false false)))) ∧
    (∀ dead, Waits s c 0x4087 (.walk a kind false dead) → Stacked s c [fixN kind, fixN a] 2 0 → found →
      exec (.walkResult c) s = .next (answered (if dead then .killed tte fix3 else .valid tte fix3 e.org)))

/-- R230-R232: TLBW opens a shadow with its entry; in House only with what the walk-result latch holds. TLBR reads an entry. R238-R240: TLBI
with core scope purges the core's own entries and retires; with a wider scope the core freezes until every core in scope has made its
stores visible and its reads have been delivered. -/
def Obligations.TlbInstructions : Prop :=
  (∀ (s : State) (c : Fin 256) (f t : TWord) (org : Origin), Quiet s c → (s.core c).psw.l = true → ty f = tFIX →
     let k := s.core c
     let isI := bit f.datum 48
     let index := bits f.datum 54 50
     let input := if isI then adr f / 4 else adr f
     let sz := 2 ^ sizeShift (bits t.datum 20 17)
     let x := k.ctx isI
     let entry (i : Option Origin) : Utlb :=
       { tte := t.datum, base := input / sz * sz, world := x.world, asid := x.asid, vmid := x.vmid, wire := bit f.datum 55, org := i }
     let opens (i : Option Origin) : State := changed s c (fun k =>
       let r := retired k 0x4085 2 []
       { r with mem := { r.mem with latch := .empty }
                shadow := some { remain := 2, sa := k.pc, syl := 0x4085, upd := .tlb isI index none (entry i) } })
     (isI = true → index ≤ 15) →
     (Stacked s c [f, t] 2 4 → Sound t →
       (k.psw.w = true → utlbOk t = true → k.mem.latch = .empty → bit f.datum 49 = false → exec (.tlbw c) s = .next (opens none)) ∧
       (k.psw.w = true → utlbOk t = false →
         exec (.tlbw c) s = .next ((s.ready c 0x4085).takeTrap c { vec := 7, sub := 0, tag := t.tag.toNat, pos := 1 } 0x4085)) ∧
       (k.psw.w = false → k.mem.latch = .valid t f org → bit f.datum 49 = false → exec (.tlbw c) s = .next (opens (some org))) ∧
       (k.psw.w = false → k.mem.latch = .empty →
         exec (.tlbw c) s = .next ((s.ready c 0x4085).takeTrap c (tProt 1 0) 0x4085))) ∧
     (Stacked s c [f] 1 4 →
       let slot := (if isI then k.mem.itlb else k.mem.dtlb).getD index none
       (slot = none → exec (.tlbr c) s = .next (after s c 0x4086 1 [wEMPTY, fixN 0, fixN 0])) ∧
       (∀ u, slot = some u → k.psw.w = true ∨ u.world = false ∧ u.vmid = bits k.sr.vmid 7 0 →
         exec (.tlbr c) s = .next (after s c 0x4086 1 [⟨BitVec.ofNat 8 tTTE, u.tte⟩, fixN (if isI then u.base * 4 else u.base),
           fixN (2 ^ 26 + b2n u.wire * 2 ^ 25 + b2n u.world * 2 ^ 24 + u.vmid % 256 * 2 ^ 16 + u.asid % 2 ^ 16)])))) ∧
  (∀ (s : State) (c : Fin 256) (f g : TWord) (scope : Nat), ty f = tFIX → ty g = tFIX →
     let k := s.core c
     let does (i : Instr) (syl n : Nat) (p : Core → Purge) : Prop :=
       (scope = 0 → exec i s = .next (changed s c (fun k => (retired k syl n []).purge (p k)))) ∧
       (scope = 1 ∨ scope = 2 → exec i s = .next (frozen (s.tlbi c scope (p k)) c syl (.tlbi syl n scope))) ∧
       (3 ≤ scope → scope < 2 ^ 63 → exec i s = .next ((s.ready c syl).takeTrap c (tIllegal 1) syl))
     (Quiet s c → k.psw.l = true → k.mem.sq = [] →
       (Stacked s c [fixN scope, g, f] 3 4 →
         does (.tlbiVa c) 0x4080 3 (fun k => purgeVa k f.datum g.datum false) ∧
         does (.tlbiVaw c) 0x4081 3 (fun k => purgeVa k f.datum g.datum true)) ∧
       (Stacked s c [fixN scope, f] 2 4 →
         does (.tlbiAsid c) 0x4082 2 (fun k => purgeAsid k f.datum) ∧
         (k.psw.w = true → does (.tlbiVmid c) 0x4083 2 (fun _ => purgeVmid f.datum))) ∧
       (Stacked s c [fixN scope] 1 4 → does (.tlbiAll c) 0x4084 1 purgeAll)) ∧
     (∀ syl n, Waits s c syl (.tlbi syl n scope) → n ≤ (s.core c).stk.regs.length → (∀ h ∈ s.scopeCores c scope, (s.core h).mem.sq = [] ∧ (s.core h).reading = false) →
       exec (.tlbiComplete c) s = .next (after s c syl n [])))

/-- R282-R284, R287, R299, R300: a Scene begins with its checkpoint, nests, and commits at the outermost CURTAIN: the words it has written
become visible in one step. The lines of the write set are held modified, and the store queue is empty. R283-R287, R300: inside a Scene
that is not short and that writes only lines its core holds modified, nesting counts the depth, the outermost CURTAIN commits, and CUT
aborts: the checkpoint is restored, nothing the Scene wrote remains, and SCENESTAT says why. -/
def Obligations.Scenes : Prop :=
  (∀ (s : State) (c : Fin 256) (f h : TWord), ty f = tFIX → f.datum.toNat ≤ 1 → ty h = tCODE → hiZero h = true →
     (s.core c).mem.sq = [] → s.tour.loop = [] →
     (Quiet s c → Stacked s c [f, h] 2 4 →
       let begun (syl : Nat) (short : Bool) : State :=
         changed (if bit f.datum 0 = true ∧ (s.core c).scene.av = true then s else s.setReg .CORE_SCAGE c (w64 s.time)) c (fun k =>
           let r := retired k syl 2 []
           { r with psw := { k.psw with sc := true, depth := 1, ss := short }
                    scene := { k.scene with ck := some { handler := adr h, stk := r.stk, sr := k.sr, lp := k.psw.lp }, stat := 0, reads := [],
                                            wbuf := [], count := 0, nodes := [], phase := 0, yes := [], hideWin := false } })
       exec (.scene c) s = .next (begun 0xD000 false) ∧ exec (.sceneS c) s = .next (begun 0xD004 true)) ∧
     (Quiet s c → Stacked s c [] 0 4 →
       exec (.curtain c) s = .next (after s c 0xD001 0 []) ∧
       exec (.scstat c) s = .next (after s c 0xD003 0 [fixW (s.core c).sceneStat])) ∧
     (Quiet s c → Stacked s c [f] 1 4 → exec (.cut c) s = .next (after s c 0xD002 1 []))) ∧
  (∀ (s : State) (c : Fin 256) (f h : TWord) (ck : Checkpoint), ty f = tFIX → ty h = tCODE → hiZero h = true →
     Quiet (s.modCore c (fun k => { k with psw := { k.psw with sc := false } })) c → (s.core c).psw.sc = true → (s.core c).psw.ss = false →
     (s.core c).mem.sq = [] → s.tour.loop = [] → (s.core c).scene.nodes = [] →
     let k := s.core c
     (Stacked s c [f, h] 2 4 → f.datum.toNat ≤ 1 → 1 ≤ k.psw.depth → k.psw.depth < 15 →
       exec (.scene c) s = .next (changed s c (fun k =>
         { retired k 0xD000 2 [] with psw := { k.psw with depth := k.psw.depth + 1 } }))) ∧
     (Stacked s c [] 0 4 → 2 ≤ k.psw.depth →
       exec (.curtain c) s = .next (changed s c (fun k =>
         { retired k 0xD001 0 [] with psw := { k.psw with depth := k.psw.depth - 1 } }))) ∧
     (Stacked s c [] 0 4 → exec (.scstat c) s = .next (after s c 0xD003 0
       [fixW (SceneStat.pack { depth := k.psw.depth, active := true, av := k.scene.av })])) ∧
     (Stacked s c [] 0 4 → k.psw.depth = 1 → (∀ x ∈ k.scene.wbuf, k.dstate (lineOf x.1) = .mod) →
       exec (.curtain c) s = .next (changed
         ((k.scene.wbuf.reverse.foldl (fun t x => t.storeWord x.1 x.2 true) s).bump .CORE_SCCOMMIT c 1) c (fun k =>
           { retired k 0xD001 0 [] with
             psw := { k.psw with sc := false, ss := false, depth := 0 }
             scene := { k.scene with ck := none, stat := 0, av := false, reads := [], wbuf := [], count := 0, nodes := [],
                                     phase := 0, yes := [] } }))) ∧
     (Stacked s c [f] 1 4 → k.scene.ck = some ck →
       ∃ t, exec (.cut c) s = .next t ∧ t.mem = s.mem ∧ (t.core c).pc = ck.handler ∧ (t.core c).stk = ck.stk ∧
         (t.core c).psw.sc = false ∧ (t.core c).psw.depth = 0 ∧ (t.core c).psw.lp = ck.lp ∧ (t.core c).sr.lc = ck.sr.lc ∧
         (t.core c).sr.ls = ck.sr.ls ∧ (t.core c).sr.le = ck.sr.le ∧ (t.core c).sr.ab = ck.sr.ab ∧ (t.core c).sr.al = ck.sr.al ∧
         (t.core c).scene.wbuf = [] ∧ (t.core c).scene.av = false ∧
         (t.core c).scene.stat = SceneStat.pack { arg := bits f.datum 15 0, depth := k.psw.depth, code := 6 }))

/-- R369, R370, R30: RFETCH and RSTORE on an RREF of another node that a route reaches: the request becomes outstanding under the next tag,
goes out by the route's port, and the core freezes until its response. R371-R373, R376: RSEND hands a reliable message over and retires;
RINVOKE without arguments makes its FUTURE p, exported as entry n (leaving u and, its stores made visible, w) and hands the invocation
over. -/
def Obligations.RemoteInstructions : Prop :=
  (∀ (s : State) (c : Fin 256) (r v : TWord) (i p : Nat) (wrap : Bool), Quiet s c → s.tour.loop = [] → s.tour.reqs.length < 4096 → ty r = tRREF →
     bits r.datum 35 18 = 0 → refNode r ≠ s.node → s.route (refNode r) = some (p, wrap) → i < 2 ^ 32 →
     let tag := s.tour.nextTag
     let asks (kind : ReqKind) : State := { s with tour := { s.tour with
       nextTag := (tag + 1) % 2 ^ 32
       reqs := s.tour.reqs ++ [{ tag := tag, core := c, kind := kind, node := refNode r, addr := 0, since := s.time, dist := false }] } }
     (Stacked s c [fixN i, r] 2 4 → exec (.rfetch c) s = .next (frozen ((asks .fetch).portSend p
       { type := 1, dest := refNode r, src := s.node, dl := wrap, tag := tag, arg := i, units := [r] }) c 0xD010 (.rfetch tag))) ∧
     (Stacked s c [fixN i, r, v] 3 4 → travels (ty v) = true → exec (.rstore c) s = .next (frozen ((asks .store).portSend p
       { type := 3, dest := refNode r, src := s.node, dl := wrap, tag := tag, arg := i, units := [r, v] }) c 0xD011 (.rstore tag)))) ∧
  (∀ (s u w : State) (c : Fin 256) (r v p : TWord) (i n q : Nat) (wrap : Bool), Quiet s c → (s.core c).mem.sq = [] → s.tour.loop = [] →
     ty r = tRREF → bits r.datum 35 18 = 0 → refNode r ≠ s.node → s.route (refNode r) = some (q, wrap) → s.peerFree (refNode r) = true → i < 2 ^ 16 →
     let by' : Option (Nat × Bool) := some (c.val, (s.core c).psw.w)
     (Stacked s c [fixN i, r, v] 3 4 → travels (ty v) = true →
       exec (.rsend c) s = .next (after (s.sendReliable { type := 6, dest := refNode r, src := s.node, arg := i, units := [r, v] } by')
         c 0xD013 3 [])) ∧
     (Stacked s c [fixN (2 ^ 16), r, v] 3 4 → travels (ty v) = true →
       exec (.rsend c) s = .next (after (s.sendReliable
         { type := 7, dest := refNode r, src := s.node, units := [r, fixN (2 ^ bits r.datum 41 36), v] } by') c 0xD013 3 [])) ∧
     (Stacked s c [fixN 0, r] 2 4 → (newFuture (2 ^ s.fld f_COL_CTL_WSEND 0)).run c (s.ready c 0xD012) = .ok (p, n) u → w = u.drainAll c →
       Quiet w c → (w.core c).mem.sq = [] → (w.core c).traceN = 0 → (w.core c).wait = none → (w.core c).syl = 0xD012 →
       (w.core c).psw = (s.core c).psw → (w.core c).stk = (s.core c).stk → w.tour = s.tour → w.mode mREPLAY = false → w.node = s.node →
       w.fld f_COL_CTL_WSEND 0 = s.fld f_COL_CTL_WSEND 0 → w.route (refNode r) = some (q, wrap) →
       exec (.rinvoke c) s = .next (after (w.sendReliable
         { type := 5, dest := refNode r, src := s.node, units := [r, w.rref n (s.fld f_COL_CTL_WSEND 0) false] } by') c 0xD012 2 [p])))

/-- R318, R319, R324, R332: the collector's instructions on words that the load barrier leaves alone. -/
def Obligations.CollectorInstructions : Prop :=
  ∀ (s t : State) (c : Fin 256) (p w : TWord) (lf : Leaf), Quiet s c →
    (Stacked s c [w] 1 4 → Sound w → (ty w = tFIX ∨ Settled s c w) → exec (.barrier c) s = .next (after s c 0xD021 1 [w])) ∧
    (∀ g d u, Stacked s c [p] 1 4 → ty p = tLOC ∨ ty p = tVAR → hiZero p = true → (s.core c).unit = false →
      xlateCore (s.core c) (adr p) .read 6 = .inr lf →
      (s.colOn = true → s.regionOf (adr p) = some g → (s.core c).mem.look = [(g, d)] → rState d ≠ gEVAC →
        (s.ready c 0xD022).markCard c (adr p) = some u → Quiet u c → (u.core c).traceN = 0 → (u.core c).psw = (s.core c).psw →
        exec (.card c) s = .next (after u c 0xD022 1 [])) ∧
      (s.colOn = false → exec (.card c) s = .next (after s c 0xD022 1 []))) ∧
    (Stacked s c [] 0 4 → exec (.pace c) s = .next (after s c 0xD023 0 [fixW (if s.refillFree then -1 else w64 s.col.grants)])) ∧
    (Stacked s c [fixN 1, p] 2 4 → (s.core c).psw.l = true → ty p = tLOC ∨ ty p = tVAR → Pointer s c p (ty p) → Sees s t c (adr p) w →
      (∃ lf, xlateCore (s.core c) (adr p) .write 7 = .inr lf ∧ Hit s c (adr p) lf) →
      (s.heapPtr c w = false → exec (.scanstack c) s = .next (after t c 0xD020 2 [fixN 0])) ∧
      (s.heapPtr c w = true → hiZero w = true → s.colOn = false →
        exec (.scanstack c) s = .next (after t c 0xD020 2 [fixN 1])))

/-- R338, R341-R349, R351: a CP0 or CP1 instruction checks its operands, counts its request and freezes its core; its unit's answer completes
it. R338, R341, R345, R347, R349: a unit gives the next of its cluster's waiting cores a turn, and its answer completes the frozen
syllable. -/
def Obligations.Coprocessors : Prop :=
  (∀ (s : State) (c : Fin 256) (x y f : TWord), (s.core c).mem.sq = [] →
     let asks (i : Instr) (port op : Nat) : Prop := s.portOk c (some port) = true →
       exec i s = .next (frozen (s.bump (if port = 0 then .MATCH_REQ else .LOOK_REQ) (c.val / 8) 1) c (0xE800 + port * 256 + op)
         (.coproc port op none))
     let absent (i : Instr) (port op : Nat) : Prop := s.portOk c (some port) = false →
       exec i s = .next ((s.ready c (0xE800 + port * 256 + op)).takeTrap c { vec := 20, sub := port } (0xE800 + port * 256 + op))
     let both (i : Instr) (port op : Nat) : Prop := asks i port op ∧ absent i port op
     (Quiet s c → ty f = tFIX → f.datum.toNat ≤ 1 → ty x = tFIX → ty y = tFIX →
       (Stacked s c [f, y, x] 3 4 → both (.unify c) 0 0 ∧ both (.matchI c) 0 1) ∧
       (Stacked s c [] 0 4 → both (.trailmark c) 0 2) ∧
       (Stacked s c [f] 1 4 → f.datum = 0 → both (.untrail c) 0 3) ∧
       (Stacked s c [x] 1 4 → both (.deref c) 0 5)) ∧
     (Quiet s c → Sound x → ty x ≠ tHDR → ty x ≠ tFWD → ty y = tVAR → hiZero y = true → Stacked s c [x, y] 2 4 → both (.bind c) 0 4) ∧
     (Quiet s c → ty x = tFIX → ty y = tVEC → hiZero y = true → kBit y = false → Sound f →
       (Stacked s c [x, y] 2 4 → both (.lprobe c) 1 0 ∧ both (.ldelete c) 1 2) ∧
       (Stacked s c [f, x, y] 3 4 → ty f ≠ tHDR → ty f ≠ tFWD → both (.linsert c) 1 1))) ∧
  (∀ (s : State) (c : Fin 256) (x y f : TWord) (l : List TWord),
     let port (i : Nat × Nat × Nat × Nat) : Nat := i.1
     (∀ i ∈ [(0, 0, 3, 1), (0, 1, 3, 1), (0, 2, 0, 1), (0, 3, 1, 0), (0, 4, 2, 0), (0, 5, 1, 1), (1, 0, 2, 2), (1, 1, 3, 1), (1, 2, 2, 1)],
       Waits s c (0xE800 + port i * 256 + i.2.1) (.coproc (port i) i.2.1 (some l)) → i.2.2.1 ≤ (s.core c).stk.regs.length →
       l.length = i.2.2.2 →
       exec (.coprocessorResponse c) s = .next (after s c (0xE800 + port i * 256 + i.2.1) i.2.2.1 l)) ∧
     (let cl : Fin 32 := ⟨c.val / 8, by omega⟩
      (∀ h, h / 8 = c.val / 8 → h ≠ c.val → s.wantsTurn 0 h = none) → s.running c = true →
       (Waits s c 0xE802 (.coproc 0 2 none) →
         exec (.coprocessorTurn cl false) s = .next ((s.modCluster cl (fun k => { k with turnM := c.val % 8 })).modCore c (fun k =>
           { k with unit := false, mem := { k.mem with miss := false }, wait := some (.coproc 0 2 (some [fixW k.sr.trb])) }))) ∧
       (Waits s c 0xE800 (.coproc 0 0 none) → Stacked s c [f, y, x] 3 4 → ty f = tFIX → ty x = tFIX → ty y = tFIX →
         ∃ t, exec (.coprocessorTurn cl false) s = .next t ∧
           (t.core c).wait = some (.coproc 0 0 (some [wBool (decide (x.datum = y.datum))])) ∧ t.mem = s.mem)))

/-- R310, R315, R325-R331: the collector's registers and commands. MARK starts only in IDLE, EVACUATE and IDLE only in MARKED, FINISH only in
FIXUP with BUSY=0; a command refused sets CMDERR and has no other effect. -/
def Obligations.CollectorCommands : Prop :=
  ∀ (s : State) (v : BitVec 64) (va : BitVec 48) (n : BitVec 16),
    let refused : State := s.setFld f_COL_STAT_CMDERR 0 1
    let r := bits v 15 0
    let d := s.region0 r
    let barred : Prop := bits v 18 16 = gEVAC ∨ rState d = gEVAC ∨ s.currentRegion r = true ∨ rSel d = true ∨ 262144 < bits v 44 26 ∨ 6 ≤ bits v 18 16
    (s.phase = 0 → s.fld f_COL_FREE_COUNT 0 = 65536 →
      exec (.colHeapbaseWrite v) s = .next (s.setFld f_COL_HEAPBASE_BASE 0 (bits v 47 18))) ∧
    (s.phase ≠ 0 ∨ s.fld f_COL_FREE_COUNT 0 ≠ 65536 → exec (.colHeapbaseWrite v) s = .next (s.setFld f_COL_STAT_BASEERR 0 1)) ∧
    (barred → exec (.colRset v) s = .next ((if 6 ≤ bits v 18 16 then s.setFld (Reg.rsvw .COL_RSET) 0 1 else s).setFld f_COL_STAT_RSETERR 0 1)) ∧
    (¬ barred → rState d ≠ gFREE ∨ bits v 18 16 = gFREE →
      exec (.colRset v) s = .next (s.setRegion0 r (setBits (setBits d 44 26 (bits v 44 26)) 2 0 (bits v 18 16)))) ∧
    (s.phase = 1 → ∀ g, s.regionOf va.toNat = some g →
      exec (.colRootq va) s = .next (s.modCluster (s.ownerOf g) (fun k => { k with engine := { k.engine with jobs := k.engine.jobs ++ [.root va.toNat] } }))) ∧
    (s.phase ≠ 1 → exec (.colRootq va) s = .next s) ∧
    (s.phase ≠ 0 ∨ s.colOn = false → exec .markFull s = .next refused ∧ exec .markYoung s = .next refused) ∧
    (s.phase = 0 → s.colOn = true →
      (∃ t, exec .markFull s = .next t ∧ t.phase = 1 ∧ t.colBusy = true ∧ t.flag f_COL_PHASE_YOUNG 0 = false ∧ t.col.live = []) ∧
      (∃ t, exec .markYoung s = .next t ∧ t.phase = 1 ∧ t.colBusy = true ∧ t.flag f_COL_PHASE_YOUNG 0 = true ∧ t.col.live = [])) ∧
    (s.phase ≠ 2 ∨ s.colOn = false → exec (.evacuate n) s = .next refused ∧ exec .colIdle s = .next refused) ∧
    (s.phase = 2 → s.colOn = true →
      (∃ t, exec (.evacuate n) s = .next t ∧ t.phase = 2 ∧ t.colBusy = true) ∧
      (∃ t, exec .colIdle s = .next t ∧ t.phase = 0 ∧ t.colBusy = false ∧ t.col.sel = [])) ∧
    (s.phase ≠ 4 ∨ s.colBusy = true ∨ s.colOn = false → exec .finish s = .next refused) ∧
    (s.phase = 4 → s.colBusy = false → s.colOn = true → Memory.wf s = true →
      ∃ t, exec .finish s = .next t ∧ t.phase = 0 ∧
        ∀ g, g < 65536 → (rState (s.region0 g) = gEVAC → t.region0 g = w64 (b2n (rEpoch (s.region0 g)) * 8)) ∧
          (rState (s.region0 g) ≠ gEVAC → t.region0 g = s.region0 g)) ∧
    (s.phase = 0 → exec .colAbort s = .next (s.setFld f_COL_STAT_ABRES 0 0)) ∧
    (s.phase = 1 → ∃ t, exec .colAbort s = .next t ∧ t.phase = 0 ∧ t.colBusy = false ∧ t.fld f_COL_STAT_ABRES 0 = 1 ∧
      ∀ q, (t.cluster q).engine.jobs = [] ∧ (t.cluster q).engine.rescan = []) ∧
    (s.phase = 2 → s.colBusy = true → ∃ t, exec .colAbort s = .next t ∧ t.phase = 2 ∧ t.colBusy = false ∧ t.fld f_COL_STAT_ABRES 0 = 1 ∧ t.col.sel = []) ∧
    (s.phase = 2 ∧ s.colBusy = false ∨ 3 ≤ s.phase → exec .colAbort s = .next (s.setFld f_COL_STAT_ABRES 0 2))

/-- R317, R322, R325, R327, R329, R333: the Stagehand's engines work through what they have, resume after a stop, copy for a waiting load
barrier; pacing cores get their grants in order of arrival, or an allocation failure once COL.PACELIM has passed. -/
def Obligations.StagehandWork : Prop :=
  ∀ (s t u : State) (c : Fin 256) (cl : Fin 32) (va a base since : Nat) (l : List Nat) (r : Nat × Bool), s.recording = false → s.mode mREPLAY = false → s.parked = [] →
    let e := (s.cluster cl).engine
    (s.engineRuns cl = false → exec (.stagehandStep cl) s = .next s) ∧
    (s.engineRuns cl = true → e.jobs = [] → e.rescan = va :: l →
      exec (.stagehandStep cl) s = .next (s.modCluster cl (fun k => { k with engine := { jobs := [.trace va], rescan := l } }))) ∧
    (s.engineRuns cl = true → e.jobs = [.flip] → s.col.sel = [] →
      exec (.stagehandStep cl) s = .next ((s.modCluster cl (fun k => { k with engine := { k.engine with jobs := [] } })).setPhase 3)) ∧
    (s.engineRuns cl = true → s.phase = 4 → s.colBusy = true → s.enginesIdle = true → e = {} →
      exec (.stagehandStep cl) s = .next ((s.setFld f_COL_STAT_BUSY 0 0).cueEvent (80 + s.firstCluster))) ∧
    (cl.val < s.nClusters → exec (.sthErrResume cl) s = .next (s.setFld f_STH_ERR_STOP cl 0)) ∧
    ((s.core c).wait = some (.barrierCopy base) → s.flag f_STH_ERR_STOP (c.val / 8) = false → eForward base (engine (c.val / 8)) s = .ok r t →
      exec (.barrierCopyDone c) s = .next (t.modCore c (fun k => { k with wait := none }))) ∧
    ((s.core c).wait = some (.pacing since) → s.firstPacing = some c.val → s.refillFree = false → s.mayGrant c = true →
      s.takeChunk (c.val / 8) = some (a, u) → u.recording = false → u.col.pacing = s.col.pacing →
      exec (.pacingGrant c) s = .next (({ u with col := { u.col with
          grants := u.col.grants - 1, pacing := s.col.pacing.filter (fun x => x != c.val) } }.setFld f_COL_PACE_GRANTS 0 (Nat.min (u.col.grants - 1) 0xFFFF)).modCore c
        (fun k => { k with wait := none, sr := { k.sr with ab := w64 a, al := w64 (a + 65536) } }))) ∧
    ((s.core c).wait = some (.pacing since) →
      ((s.reg .COL_PACELIM 0).toNat ≤ s.time - since → exec (.pacelimExpiry c) s = .next
        ((({ s with col := { s.col with pacing := s.col.pacing.filter (fun x => x != c.val) } } : State).bump .COL_PACEFAIL 0 1).modCore c
          (fun k => { k with wait := none }) |>.takeTrap c { vec := 16 } (s.core c).syl)) ∧
      (s.time - since < (s.reg .COL_PACELIM 0).toNat → exec (.pacelimExpiry c) s = .next s))

/-- R140, R248, R261, R264, R320: what the memory side does on its own. A stored word leaves the queue into memory; the SATB buffer goes to
the queue in private memory; the home slice's directory names the new owner; disabled or flushed ways hold no line. -/
def Obligations.MemoryAgents : Prop :=
  ∀ (s : State) (c : Fin 256) (cl : Fin 32) (pa : BitVec 48) (own : Bool) (x : QStore) (l : List QStore) (ways : BitVec 16), s.parked = [] →
    let k := s.core c
    ((s.core c).wait = some .miss → exec (.missDataArrives c) s = .next (s.modCore c (fun k =>
      { k with wait := none, pend := k.pend.map (fun p => { p with arrived := true }) }))) ∧
    (k.mem.sq = x :: l → c.val < s.cores.length → place x.pa = .loc → k.unit = false → x.nc = false → x.dev = false → x.more = [] → s.needsHost (lineOf x.pa) = false → k.dstate (lineOf x.pa) = .mod →
      s.recording = false → s.arbitrate (.core c) (lineOf x.pa) true = .go s →
      exec (.storeQueueDrain c 0) s = .next ((s.storeWord x.pa x.val true).modCore c (fun k =>
        { k with mem := { k.mem with sq := l } }))) ∧
    (Memory.wf s = true → c.val < s.cores.length → s.col.satbCount + k.mem.satb.length ≤ satbMax →
      ∃ t, exec (.satbBufferFlush c) s = .next t ∧ t.col.satbCount = s.col.satbCount + k.mem.satb.length ∧ (t.core c).mem.satb = [] ∧
        (∀ i, i < k.mem.satb.length → t.rd (0x0004094C0000 + s.col.satbCount + i) = k.mem.satb.getD i wRAW0) ∧
        (∀ a, a < 0x0004094C0000 + s.col.satbCount ∨ 0x0004094C0000 + s.col.satbCount + k.mem.satb.length ≤ a → t.rd a = s.rd a)) ∧
    (cl.val < s.nClusters → place pa.toNat = .loc → Uncontested s → (∀ q, (s.cluster q).lost = []) →
      ∃ t e, exec (.usherRequest cl pa own .none) s = .next t ∧ t.dirOf (lineOf pa.toNat) = some e ∧
        (own = true → e.owner = some cl.val ∧ e.sharers = []) ∧
        (own = false → s.dirOf (lineOf pa.toNat) = none → e.owner = some cl.val ∧ e.sharers = []) ∧
        (own = false → ∀ f o, s.dirOf (lineOf pa.toNat) = some f → f.owner = some o → o ≠ cl.val → e.owner = none ∧ e.sharers = [o, cl.val])) ∧
    (cl.val < s.nClusters →
      (∃ t, exec (.ccCtlWaydis cl ways) s = .next t ∧ t.fld f_CC_CTL_WAYDIS cl = ways.toNat ∧
        ∀ y ∈ (t.cluster cl).lines, ¬ (ways.toNat.testBit y.way = true ∧ (s.fld f_CC_CTL_WAYDIS cl).testBit y.way = false)) ∧
      (∃ t, exec (.ccCtlFlush cl) s = .next t ∧ t.fld f_CC_CTL_FLUSH cl = 0 ∧ (t.cluster cl).lines = []))

/-- R176-R180, R184: a load or removal of a control-store image, and a refresh, of a device with one enabled cluster whose cores can be held:
the checks of an image that fail leave the stores alone and say why; a removal empties the customer part; a cluster whose cores have not
stopped is put under a hold. -/
def Obligations.ControlStores : Prop :=
  ∀ (s u : State) (cl : Fin 32) (j : McsJob) (code area addr : Nat), s.enabledClusters = [cl.val] →
    (s.mcs.job = none → exec .controlStoreLoad s = .next s) ∧
    (s.mcs.job = some j → j.passed = false → j.op < 2 → s.imageVerify (j.op + 1) j.image = (some (code, area, addr), u) → s.mcs.want = [] →
      exec .controlStoreLoad s = .next { (u.setReg .MCS_LDSTAT cl (w64 (code * 2 ^ 56 + j.op * 2 ^ 48 + area * 2 ^ 30 + addr))) with
        mcs := { s.mcs with job := none } }) ∧
    (s.mcs.job = some j → j.op = 2 → j.next ≤ cl.val → s.holdable cl = true → s.mcs.want = [] →
      let t := (((s.abortCluster cl 4).setHold cl false).dropMicro cl).putCust cl none
      exec .controlStoreLoad s = .next { (t.setReg .MCS_LDSTAT cl (w64 (2 * 2 ^ 56 + 2 * 2 ^ 48))) with
        mcs := { t.mcs with job := none, cust := none } }) ∧
    (s.mcs.job = some j → j.op = 2 → j.next ≤ cl.val → s.holdable cl = false →
      exec .controlStoreLoad s =
        .next (({ s with mcs := { s.mcs with job := some { j with passed := true, next := cl.val } } } : State).setHold cl true)) ∧
    (s.mcs.job = none → s.mcs.want = [] → s.holdable cl = true →
      let refreshed (t : State) : State :=
        ((({ t with mcs := { t.mcs with want := [cl.val] } } : State).refreshCluster cl).setHold cl false).setFld f_MCS_LDSTAT_BUSY cl 0
      (s.fld f_MCS_RFCTL_RFINT cl ≠ 0 → s.fld f_MCS_RFCTL_RFINT cl * 1000000000 ≤ s.time - (s.cluster cl).refreshed →
        exec .controlStoreRefresh s = .next (refreshed s)) ∧
      (s.fld f_MCS_RFCTL_RFINT cl = 0 → exec .controlStoreRefresh s = .next s) ∧
      exec (.mcsRfctlRfnow cl) s = .next (refreshed (s.setFld f_MCS_RFCTL_RFNOW cl 1)))

/-- R364, R367, R369-R374: requests and responses that arrive on a port. A request through an RREF to no valid export entry is answered with
status 1; a valid one with what the remote agent found; a response completes the core that waits for it, or fails its syllable. -/
def Obligations.RemoteMessages : Prop :=
  ∀ (s t : State) (p : Fin 12) (h0 h1 : BitVec 64) (units : List TWord) (c : Fin 256) (rq : OutReq) (v : TWord) (st q : Nat) (us : List TWord) (wrap : Bool),
    let m (type : Nat) : Msg := spelled type h0 h1 units
    let n := s.flitsOf p (m 1)
    let lands (type : Nat) (i : Instr) (u : State) : Prop := exec i s = .next (credited u p n (m type))
    let reply (type status : Nat) (u : List TWord) : Msg :=
      { type := type, dest := (m 1).src, src := s.node, dl := wrap, dist := (m 1).dist, tag := (m 1).tag, arg := status, units := u }
    let r := units.getD 0 wEMPTY
    let e := bits r.datum 17 0
    (Arrives s p (m 1) → s.route (m 1).src = some (q, wrap) →
      (ty r ≠ tRREF ∨ s.expValid e = false ∨ s.expGen e ≠ bits r.datum 49 42 →
        lands 1 (.rdreq p h0 h1 units) ((received s p (m 1)).portSend q (reply 2 1 [])) ∧
        lands 3 (.wrreq p h0 h1 units) ((received s p (m 3)).portSend q (reply 4 1 []))) ∧
      (ty r = tRREF → s.expValid e = true → s.expGen e = bits r.datum 49 42 → s.flag f_EXP_E0_IND e = false → (m 1).dist = false →
        t.tour = (received s p (m 1)).tour → t.node = s.node → t.mode mREPLAY = false → t.status = s.status → t.route (m 1).src = some (q, wrap) →
        (remoteAccess (s.expObj e) (m 1).arg none ((received s p (m 1)).remote (.tour (m 1).src)) (received s p (m 1)) = .ok (st, us) t →
          lands 1 (.rdreq p h0 h1 units) (t.portSend q (reply 2 st us))) ∧
        (remoteAccess (s.expObj e) (m 1).arg (some ((units.take 16).getD 1 wEMPTY)) ((received s p (m 3)).remote (.tour (m 1).src)) (received s p (m 3)) =
            .ok (st, us) t → lands 3 (.wrreq p h0 h1 units) (t.portSend q (reply 4 st us))))) ∧
    (Arrives s p (m 1) → s.tour.reqs.find? (fun x => x.tag == (m 2).tag) = some rq → rq.core = c.val → rq.dist = false →
      let done : State := { received s p (m 2) with tour := { (received s p (m 2)).tour with reqs := s.tour.reqs.filter (fun x => x.tag != rq.tag) } }
      (rq.kind = .fetch → Waits s c 0xD010 (.rfetch rq.tag) → 2 ≤ (s.core c).stk.regs.length → (m 2).arg % 256 = 0 → units.head? = some v →
        lands 2 (.rdrsp p h0 h1 units) (after done c 0xD010 2 [v])) ∧
      (rq.kind = .store → Waits s c 0xD011 (.rstore rq.tag) → 3 ≤ (s.core c).stk.regs.length → (m 2).arg % 256 = 0 →
        lands 4 (.wrrsp p h0 h1 units) (after done c 0xD011 3 [])) ∧
      (rq.kind = .fetch → (s.core c).wait = some (.rfetch rq.tag) → (m 2).arg % 256 ≠ 0 →
        lands 2 (.rdrsp p h0 h1 units) ((done.modCore c (fun k => { k with wait := none })).takeTrap c
          { vec := 21, sub := (m 2).arg % 256, addr := rq.addr, xinfo := (m 2).src } (s.core c).syl))) ∧
    (Arrives s p (m 1) → s.tour.reqs.find? (fun x => x.tag == (m 2).tag) = none →
      lands 2 (.rdrsp p h0 h1 units) (received s p (m 2)) ∧ lands 4 (.wrrsp p h0 h1 units) (received s p (m 4)))

/-- R336, R364, R371-R373, R376-R378: reliable messages are delivered in sequence and acknowledged. INVOKE, SEND and MGMT become entries of
the inbound ring; a bad RESULT or WRET is counted; EACK ends what it acknowledges. A duplicate is acknowledged again, no more. -/
def Obligations.ReliableMessages : Prop :=
  ∀ (s t : State) (p : Fin 12) (h0 h1 : BitVec 64) (units : List TWord) (q : Peer),
    let m (type : Nat) : Msg := spelled type h0 h1 units
    let n := s.flitsOf p (m 1)
    let r := units.getD 0 wEMPTY
    let e := bits r.datum 17 0
    let lands (type : Nat) (i : Instr) (u : State) : Prop := exec i s = .next (credited u p n (m type))
    let at' := s.fld f_TOUR_INQT_INDEX 0
    let pa := s.fld f_TOUR_INQB_BASE 0 + at' % s.ringEntries * 16
    let queues (type : Nat) (i : Instr) : Prop := ∃ u, exec i s = .next u ∧ u.fld f_TOUR_INQT_INDEX 0 = (at' + 1) % 2 ^ 32 ∧
      u.rd pa = fixN (type * 2 ^ 56 + (m 1).src * 2 ^ 36 + (units.take 16).length * 2 ^ 31 + (if type = 6 then (m 1).arg % 2 ^ 16 else 0)) ∧
      (∀ a, a < pa ∨ pa + 16 ≤ a → u.rd a = s.rd a) ∧
      (u.tour.peers.find? (fun x => x.node == (m 1).src)).bind (fun x => x.nextRx) = some (((m 1).tag + 1) % 2 ^ 32)
    Arrives s p (m 1) → s.tour.peers.find? (fun x => x.node == (m 1).src) = some q → s.tour.wait = [] →
    (q.nextRx = none ∨ q.nextRx = some (m 1).tag → s.ringFull = false → Memory.wf s = true → Uncontested s →
      pa + 16 ≤ 2 ^ 34 → (∀ a, pa ≤ a → a < pa + 16 → place a = .loc ∨ place a = .priv) → pa % 16 = 0 → units.length < 16 →
      (ty r = tRREF → s.expValid e = true → s.expGen e = bits r.datum 49 42 →
        queues 5 (.invoke p h0 h1 units) ∧ queues 6 (.send p h0 h1 units)) ∧
      queues 0x20 (.mgmt p h0 h1 units)) ∧
    (q.nextRx = none ∨ q.nextRx = some (m 1).tag →
      (ty r ≠ tRREF ∨ s.expValid e = false ∨ s.expGen e ≠ bits r.datum 49 42 →
        (s.ringFull = false → lands 5 (.invoke p h0 h1 units) (acknowledged (received s p (m 5)) q (m 5)) ∧
          lands 6 (.send p h0 h1 units) (acknowledged (received s p (m 6)) q (m 6))) ∧
        lands 7 (.result p h0 h1 units) (acknowledged ((received s p (m 7)).bump .COL_WRETBAD 0 1) q (m 7))) ∧
      (ty r = tRREF → s.expValid e = true → s.expGen e = bits r.datum 49 42 → t.tour = (received s p (m 7)).tour → t.mode mREPLAY = false → t.node = s.node →
        (received s p (m 7)).completeFuture (m 7).src e ((units.take 16)[2]?) 0 ((units.take 16).getD 1 wEMPTY).datum.toNat = some t →
        lands 7 (.result p h0 h1 units) (acknowledged t q (m 7))) ∧
      (s.expValid ((m 8).arg % 2 ^ 18) = false →
        lands 8 (.wret p h0 h1 units) (acknowledged ((received s p (m 8)).bump .COL_WRETBAD 0 1) q (m 8))) ∧
      (let i := (m 8).arg % 2 ^ 18
       s.expValid i = true → s.expGen i = (m 8).arg / 2 ^ 18 % 256 → r.datum.toNat < (s.reg .EXP_E1 i).toNat →
        lands 8 (.wret p h0 h1 units) (acknowledged ((received s p (m 8)).setReg .EXP_E1 i (s.reg .EXP_E1 i - r.datum)) q (m 8)))) ∧
    (∀ w, q.nextRx = some w → w ≠ (m 1).tag → (w + 2 ^ 32 - (m 1).tag) % 2 ^ 32 < 2 ^ 31 →
      lands 7 (.result p h0 h1 units) (((received s p (m 7)).putPeer q).eack (m 7).src (m 7).tag)) ∧
    lands 9 (.eack p h0 h1 units) ((received s p (m 9)).putPeer { q with
      flights := q.flights.dropWhile (fun f => ((m 9).arg + 2 ^ 32 - f.msg.tag) % 2 ^ 32 < 2 ^ 31) })

/-- R304-R306, R364, R379: the messages of distributed Scenes, and a message of a reserved type. -/
def Obligations.SceneMessages : Prop :=
  ∀ (s : State) (p : Fin 12) (h0 h1 : BitVec 64) (units : List TWord) (q : Peer) (x : Slot) (c : Fin 256) (pa res : Nat) (w : TWord) (rt : Nat) (wrap : Bool),
    let m (type : Nat) : Msg := spelled type h0 h1 units
    let n := s.flitsOf p (m 1)
    let id := (units.getD 0 wEMPTY).datum
    let lands (type : Nat) (i : Instr) (u : State) : Prop := exec i s = .next (credited u p n (m type))
    let reply (type arg : Nat) (dist : Bool) : Msg :=
      { type := type, dest := (m 1).src, src := s.node, dl := wrap, dist := dist, tag := (m 1).tag, arg := arg }
    Arrives s p (m 1) → s.route (m 1).src = some (rt, wrap) →
    s.tour.peers.find? (fun y => y.node == (m 1).src) = some q → q.nextRx = some (m 1).tag →
    (s.slotOf id = none →
      lands 0x10 (.prepare p h0 h1 units) ((received s p (m 0x10)).portSend rt (reply 0x11 0 true)) ∧
      lands 0x12 (.commit p h0 h1 units) (acknowledged (received s p (m 0x12)) q (m 0x12)) ∧
      lands 0x13 (.abort p h0 h1 units) (acknowledged (received s p (m 0x13)) q (m 0x13))) ∧
    (s.slotOf id = some x →
      lands 0x10 (.prepare p h0 h1 units) (((received s p (m 0x10)).putSlot { x with voted := true, asked := s.time, votedAt := s.time }).portSend rt
        (reply 0x11 256 true)) ∧
      lands 0x13 (.abort p h0 h1 units) (acknowledged ((received s p (m 0x13)).freeSlot x) q (m 0x13)) ∧
      (x.writes = [(pa, w)] → place pa = .loc → Memory.wf s = true → s.home = [] → (∀ q, (s.cluster q).lost = []) →
        (∀ y ∈ s.tour.slots, y.id = id → y.slot = x.slot) →
        ∃ u, exec (.commit p h0 h1 units) s = .next u ∧ u.slotOf id = none ∧ u.rd pa = w ∧ ∀ a, a ≠ pa → u.rd a = s.rd a)) ∧
    (let k := s.core c
     let votes (u : State) : Prop := exec (.vote p h0 h1 units) s = .next (credited u p n (m 0x11))
     s.lowest (fun h => (s.core h).scene.phase == 1 && (s.core h).scene.prepTag == (m 1).tag) = some c.val → k.scene.nodes.contains (m 1).src = true →
      k.scene.nodes.contains s.node = false →
      ((m 1).arg % 256 ≠ 0 → votes ((received s p (m 0x11)).abortScene c { code := 9, node := (m 1).src } false)) ∧
      ((m 1).arg % 256 = 0 → (m 1).arg.testBit 8 = false → votes ((received s p (m 0x11)).abortScene c { code := 1, node := (m 1).src } false)) ∧
      ((m 1).arg % 256 = 0 → (m 1).arg.testBit 8 = true → s.time - k.scene.prepAt ≤ 50000 → k.scene.yes.contains (m 1).src = false →
        k.scene.yes.length + 1 < k.scene.nodes.length → votes ((received s p (m 0x11)).modCore c (fun k =>
          { k with scene := { k.scene with yes := (m 1).src :: k.scene.yes } })))) ∧
    (s.lowest (fun h => (s.core h).scene.phase == 1 && (s.core h).scene.prepTag == (m 1).tag) = none →
      lands 0x11 (.vote p h0 h1 units) (received s p (m 0x11))) ∧
    (let a := (received s p (m 0x14)).abortScene c
        { code := 1, node := (m 0x14).src, arg := ((m 0x14).units.getD 1 wEMPTY).datum.toNat % 256 * 256 } false
     idNode id = s.node → idCore id = c.val → (s.core c).psw.sc = true → s.sceneId c = id → (s.core c).scene.nodes.contains s.node = false →
      lands 0x14 (.notice p h0 h1 units) (acknowledged a ((a.tour.peers.find? (fun y => y.node == (m 1).src)).getD q) (m 0x14))) ∧
    (idNode id ≠ s.node → lands 0x14 (.notice p h0 h1 units) (acknowledged (received s p (m 0x14)) q (m 0x14))) ∧
    (res = (match s.tour.outcomes.find? (fun y => y.1 == id) with | some y => y.2 | none => 3) →
      lands 0x15 (.oquery p h0 h1 units) ((received s p (m 0x15)).portSend rt (reply 0x16 res false))) ∧
    (s.tour.slots.find? (fun y => y.voted && y.askTag == (m 1).tag) = none → lands 0x16 (.oreply p h0 h1 units) (received s p (m 0x16))) ∧
    (s.tour.slots.find? (fun y => y.voted && y.askTag == (m 1).tag) = some x → (m 1).arg = 2 →
      lands 0x16 (.oreply p h0 h1 units) ((received s p (m 0x16)).freeSlot x)) ∧
    (knownType (bits h0 63 56) = false → lands (bits h0 63 56) (.tourReservedMessage p h0 h1 units)
      ((received s p (m (bits h0 63 56))).bump .TOUR_UNDELIV 0 1))

/-- R305, R375-R377, R379: the fabric's timers, and what software does with the ring and with orphaned slots. Before its time a timer does
nothing. -/
def Obligations.FabricTimers : Prop :=
  ∀ (s : State) (c : Fin 256) (i : Fin 64) (x : Slot) (node : BitVec 14) (tag : BitVec 32) (v : BitVec 64) (q : Peer) (f : Flight) (r : OutReq) (rt : Nat) (wrap : Bool),
    s.mode mREPLAY = false → s.tour.loop = [] → s.tour.held = [] →
    let k := s.core c
    (k.scene.phase = 1 → 50000 ≤ s.time - k.scene.prepAt → exec (.prepareTimeout c) s = .next (s.abortScene c
      { code := 9, detail := 1, node := (k.scene.nodes.find? (fun n => !(k.scene.yes.contains n))).getD 0 } false)) ∧
    (s.time - k.scene.prepAt < 50000 → exec (.prepareTimeout c) s = .next s) ∧
    (s.slotNo i = some x → x.voted = true → x.orphan = false → 200000 ≤ s.time - x.asked → idNode x.id ≠ s.node → s.route (idNode x.id) = some (rt, wrap) →
      exec (.oqueryTimer i) s = .next ((({ s with tour := { s.tour with nextTag := (s.tour.nextTag + 1) % 2 ^ 32 } } : State).putSlot
        { x with asked := s.time, askTag := s.tour.nextTag }).portSend rt
          { type := 0x15, dest := idNode x.id, src := s.node, dl := wrap, tag := s.tour.nextTag, units := [fixW x.id] })) ∧
    (s.slotNo i = some x → s.time - x.asked < 200000 → exec (.oqueryTimer i) s = .next s) ∧
    (s.slotNo i = some x → s.time - x.votedAt < 10000000 → exec (.originUnreachable i) s = .next s) ∧
    (s.slotNo i = some x → x.voted = true → x.orphan = false → 10000000 ≤ s.time - x.votedAt → s.ringFull = true →
      ∃ t y, exec (.originUnreachable i) s = .next t ∧ t.slotNo i = some y ∧ y = { x with orphan := true }) ∧
    (s.slotNo (bits v 5 0) = some x → x.orphan = true → bit v 7 = false → exec (.tourScres v) s = .next (s.freeSlot x)) ∧
    (s.slotNo (bits v 5 0) = some x → x.orphan = true → bit v 7 = true → exec (.tourScres v) s = .next (s.applySlot x)) ∧
    (s.slotNo (bits v 5 0) = some x → x.orphan = false → exec (.tourScres v) s = .next s) ∧
    exec (.tourInqhWrite v) s = .next (s.setFld f_TOUR_INQH_INDEX 0 (bits v 31 0)) ∧
    (s.tour.peers.find? (fun y => y.node == node.toNat) = some q → q.flights = [f] → 100000 ≤ s.time - f.sent → f.tries < 16 →
      s.route f.msg.dest = some (rt, wrap) →
      exec (.retransmitTimeout node) s = .next ((s.putPeer { q with flights := [{ f with sent := s.time, tries := f.tries + 1 }] }).portSend rt
        { f.msg with dl := wrap })) ∧
    (s.tour.peers.find? (fun y => y.node == node.toNat) = some q → q.flights = [f] → s.time - f.sent < 100000 →
      exec (.retransmitTimeout node) s = .next s) ∧
    (s.tour.reqs.find? (fun y => y.tag == tag.toNat) = some r → r.kind = .fetch → r.core = c.val → r.dist = false → k.wait = some (.rfetch r.tag) →
      ((s.reg .TOUR_RTMO 0).toNat ≤ s.time - r.since → exec (.requestTimeout tag) s = .next
        ((({ s with tour := { s.tour with reqs := s.tour.reqs.filter (fun y => y.tag != r.tag) } } : State).modCore c (fun k => { k with wait := none })).takeTrap c
          { vec := 21, sub := 9, addr := r.addr, xinfo := r.node } k.syl)) ∧
      (s.time - r.since < (s.reg .TOUR_RTMO 0).toNat → exec (.requestTimeout tag) s = .next s))

/-- R357-R362, R368, R378, R380: the link of a tour port. It comes up through DETECT, TRAIN, LOCK and HELLO to UP; what takes it DOWN records
its CAUSE; flits are acknowledged, replayed, discarded; credits and timestamps arrive. No request waits on the port's routes, and what
waits for credit is reliable and has no other route, so that it waits for its retransmission. -/
def Obligations.TourPorts : Prop :=
  ∀ (s : State) (p : Fin 12) (lanes : BitVec 4) (w4 w2 seal' bad deg tg : Bool) (node : BitVec 14) (np : BitVec 4) (ack : BitVec 12) (cr : BitVec 16)
    (sysid t1 t2 t3 t4 : BitVec 64) (cert sig : List (BitVec 8)) (fm : Msg) (fq fi : Nat), p.val < s.nPorts → p.val < s.tour.ports.length →
    let q := s.port p
    let st := s.portState p
    let up : Prop := s.portUp p = true
    let enters (s : State) (n : Nat) : State := (s.setFld f_TOUR_PSTAT_STATE p n).modPort p (fun q => { q with since := s.time })
    let after' (cause : Option Nat) (s : State) : State :=
      let a := enters s 0
      let b := match cause with | some n => a.setFld f_TOUR_PSTAT_CAUSE p n | none => a
      let d := (b.setFld f_TOUR_PSTAT_SEALED p 0).modPort p (fun _ => { since := s.time })
      let e := if s.portUp p = true then (d.bump .TOUR_DOWNS p 1).cueEvent (64 + p) else d
      if s.flag f_TOUR_PCTL_EN p = true then (enters e 1).setFld f_TOUR_PSTAT_W2 p 0 else e
    let down (cause : Option Nat) : State := after' cause s
    s.tour.reqs = [] → (∀ m ∈ q.queue, reliable m.type = true ∧ bit (s.reg .TOUR_RT m.dest) 63 = false) → s.clk.noPort = [] →
    (st = 1 → lanes.toNat % 4 = 3 →
      exec (.portSignalDetect p lanes) s = .next ((enters s 2).setFld f_TOUR_PSTAT_W2 p (if lanes = 15 then 0 else 1))) ∧
    (st = 1 → lanes.toNat % 4 ≠ 3 → exec (.portSignalDetect p lanes) s = .next s) ∧
    (st = 2 → exec (.linkTrainingDone p w4) s = .next ((enters s 3).setFld f_TOUR_PSTAT_W2 p
      (b2n (s.flag f_TOUR_PSTAT_W2 p || !w4 || s.mode mECONOMY)))) ∧
    (st = 2 → 500000000 ≤ s.time - q.since → exec (.trainTimeout p) s = .next (down (some 1))) ∧
    (st = 2 → s.time - q.since < 500000000 → exec (.trainTimeout p) s = .next s) ∧
    (st = 3 → exec (.flitLockDone p) s = .next { enters s 4 with
      wire := .hello p s.node p (if s.flag f_TOUR_PSTAT_W2 p then 2 else 4) (s.flag f_TOUR_PCTL_SEAL p) :: s.wire }) ∧
    (st = 3 → 10000000 ≤ s.time - q.since → exec (.lockTimeout p) s = .next (down (some 2))) ∧
    (st = 3 → s.time - q.since < 10000000 → exec (.lockTimeout p) s = .next s) ∧
    (let want := seal' || s.flag f_TOUR_PCTL_SEAL p
     let keys := s.helloKeys p node.toNat np.toNat sysid bad cert sig
     (st = 4 → node.toNat = s.node → want = false → exec (.hello p node np w2 seal' sysid bad cert sig) s = .next (down (some 3))) ∧
     (st = 4 → want = true → keys = false → Config.helloOk [s.node, p, node.toNat, np.toNat] cert sig = true →
      exec (.hello p node np w2 seal' sysid bad cert sig) s = .next (down (some 3))) ∧
     (st = 4 → node.toNat ≠ s.node → (want = true → keys = true) →
      exec (.hello p node np w2 seal' sysid bad cert sig) s = .next ((((((((s.setFld f_TOUR_PSTAT_NNODE p node.toNat).setFld
        f_TOUR_PSTAT_NPORT p np.toNat).setFld f_TOUR_PSTAT_SEALED p (b2n want)).setFld f_TOUR_PSTAT_W2 p
          (b2n (w2 || s.flag f_TOUR_PSTAT_W2 p))).setFld f_TOUR_PSTAT_STATE p 5).modPort p (fun _ =>
            { since := s.time, ackAt := s.time, creditAt := [s.time, s.time, s.time, s.time] })).cueEvent (64 + p))))) ∧
    (up → q.replay = [(fq, fm, fi)] → 2048 ≤ (ack.toNat + 4096 - fq) % 4096 →
      (q.tries < 8 → exec (.flitNak p ack) s = .next { s.modPort p (fun q => { q with tries := q.tries + 1, keyed := q.keyed + 1 }) with
        wire := .flit p (1 + fi) fq q.good (some (fm, fi)) :: s.wire }) ∧
      (8 ≤ q.tries → exec (.flitNak p ack) s = .next (down (some 4)))) ∧
    (up → q.replay = [(fq, fm, fi)] → (16000 ≤ s.time - q.ackAt → exec (.ackTimeout p) s = .next (down (some 5))) ∧
      (s.time - q.ackAt < 16000 → exec (.ackTimeout p) s = .next s)) ∧
    (up → q.queue = [] → q.credit.length = 8 → q.creditAt.length = 4 → q.replay = [] →
      ∃ t, exec (.flitIdle p ack cr deg) s = .next t ∧ ∀ vc, vc < 4 →
        (t.port p).credit.getD (vc * 2 + b2n deg) 0 = (if cr.toNat / 16 ^ vc % 16 = 0 then q.credit.getD (vc * 2 + b2n deg) 0
          else Nat.min (if vc < 2 then 64 else 32) (q.credit.getD (vc * 2 + b2n deg) 0 + cr.toNat / 16 ^ vc % 16)) ∧
        (t.port p).credit.getD (vc * 2 + b2n (!deg)) 0 = q.credit.getD (vc * 2 + b2n (!deg)) 0) ∧
    (up → exec (.flitTsync p t1 t2 t3 t4 deg) s = .next (s.modPort p (fun q =>
      { q with offset := some (((t1.toNat : Int) - t2.toNat + (t4.toNat : Int) - t3.toNat) / 2), degraded := deg }))) ∧
    (let fails := if tg && s.flag f_TOUR_PSTAT_SEALED p then q.tagFails + 1 else 0
     let counted := (s.bump .TOUR_CRC p 1).modPort p (fun q => { q with tagFails := fails })
     up → (fails < 16 → exec (.flitError p tg) s = .next { counted with wire := .flit p 3 q.seq q.good none :: s.wire }) ∧
      (16 ≤ fails → exec (.flitError p tg) s = .next (after' (some 6) counted))) ∧
    (up → s.flag f_TOUR_PSTAT_SEALED p = true → (2 ^ 40 ≤ q.keyed → exec (.keyRollover p) s = .next (down none)) ∧
      (q.keyed < 2 ^ 40 → exec (.keyRollover p) s = .next s)) ∧
    (up → (q.queue = [] → exec (.creditStall p) s = .next s) ∧
      (q.queue = [fm] → 10000000 ≤ s.time - q.creditAt.getD (msgVc fm.type) 0 → exec (.creditStall p) s = .next (down (some 7)))) ∧
    (s.flag f_TOUR_PCTL_EN p = true → exec (.tourPctlRetrain p) s = .next (down none)) ∧
    (st = 0 → exec (.tourPctlEn p true) s = .next ((enters (s.setFld f_TOUR_PCTL_EN p 1) 1).setFld f_TOUR_PSTAT_W2 p 0)) ∧
    (st ≠ 0 → exec (.tourPctlEn p false) s = .next (after' (some 8) (s.setFld f_TOUR_PCTL_EN p 0))) ∧
    (let ms := s.fld f_TOUR_TSYNC_MASTER 0
     let pp := bits (s.reg .TOUR_RT ms) 3 0
     (ms = s.node → exec .tsyncExchange s = .next s) ∧
     (ms ≠ s.node → bit (s.reg .TOUR_RT ms) 63 = true → s.portUp pp = true → (s.port pp).degraded = false →
      ((s.port pp).offset = none → exec .tsyncExchange s = .next { s.setFld f_TOUR_TSYNC_PARENT 0 pp with wire := .tsync pp s.time :: s.wire }) ∧
      (∀ off : Int, (s.port pp).offset = some off → -10000 ≤ off → exec .tsyncExchange s = .next
        { (((s.setFld f_TOUR_TSYNC_PARENT 0 pp).setFld f_TOUR_TSYNC_OFFSET 0 (sat16 off)).setFld f_TOUR_TSYNC_ALIGNED 0
            (b2n (decide (off.natAbs ≤ 15)))).modPort pp (fun q => { q with offset := none }) with
          clk := { s.clk with slew := -off * 1000 }, wire := .tsync pp s.time :: s.wire })))

/-- R391-R394, R397, R513: doorbells, completion tails, the MSI-X table, the mailbox and BAR2, while the host reaches BAR0 and neither a
recording nor a replay runs. A doorbell that its ring does not accept is rejected and counted. -/
def Obligations.HostQueues : Prop :=
  ∀ (s : State) (q n : Fin 64) (t : BitVec 16) (a : BitVec 64) (d : BitVec 32) (b : Bool) (prof : BitVec 2) (off : BitVec 32) (bytes : List (BitVec 8))
    (op : BitVec 8) (win : BitVec 26) (row : RegRow) (i : Nat), s.barUp = true → s.mode mREPLAY = false → s.recording = false →
    let sz := ringSize (s.reg .HOST_SQCFG q)
    let cz := ringSize (s.reg .HOST_CQCFG q)
    let rejected : State := (s.bump .HOST_DBREJ q 1).setFld f_HOST_ERR_DBREJ 0 1
    let sq : Prop := s.flag f_HOST_SQCFG_EN q = true ∧ t.toNat < sz ∧
      ringDist sz (s.fld f_HOST_SQT_INDEX q) (s.fld f_HOST_SQH_INDEX q) ≤ ringDist sz t.toNat (s.fld f_HOST_SQH_INDEX q)
    let cq : Prop := s.flag f_HOST_CQCFG_EN q = true ∧ t.toNat < cz ∧
      ringDist cz (s.fld f_HOST_CQT_INDEX q) t.toNat ≤ ringDist cz (s.fld f_HOST_CQT_INDEX q) (s.fld f_HOST_CQH_INDEX q)
    let tail : Prop := t.toNat < cz ∧
      ringDist cz (s.fld f_HOST_CQT_INDEX q) (s.fld f_HOST_CQH_INDEX q) ≤ ringDist cz t.toNat (s.fld f_HOST_CQH_INDEX q)
    let ends (s : State) (op st : Nat) (data : List Nat) : State :=
      (s.modHost (fun h => { h with mbOp := op, mbStatus := st, mbData := data })).msix (s.fld f_HOST_CTL_MBIV 0)
    (sq → t.toNat ≠ s.fld f_HOST_SQT_INDEX q → s.status ≠ 5 → s.clk.dark = false →
      exec (.sqTailDoorbell q t) s = .next ((s.setFld f_HOST_SQT_INDEX q t.toNat).cueEvent q)) ∧
    (¬ sq → exec (.sqTailDoorbell q t) s = .next rejected) ∧
    (cq → exec (.cqHeadDoorbell q t) s = .next (s.setFld f_HOST_CQH_INDEX q t.toNat)) ∧
    (¬ cq → exec (.cqHeadDoorbell q t) s = .next rejected) ∧
    (tail → s.flag f_HOST_CQCFG_IE q = true → t.toNat ≠ s.fld f_HOST_CQT_INDEX q →
      exec (.hostCqtWrite q t) s = .next ((s.setFld f_HOST_CQT_INDEX q t.toNat).msix (s.fld f_HOST_CQCFG_IV q))) ∧
    (tail → s.flag f_HOST_CQCFG_IE q = false → exec (.hostCqtWrite q t) s = .next (s.setFld f_HOST_CQT_INDEX q t.toNat)) ∧
    (¬ tail → exec (.hostCqtWrite q t) s = .next (s.setFld f_HOST_ERR_CQOVR 0 1)) ∧
    (let e := s.host.msix.getD n {}
     let sets (p : Bool) : State := { s with host := { s.host with msix := s.host.msix.set n { addr := a.toNat, data := d.toNat, masked := b, pend := p } } }
     (b = true → exec (.msixTableWrite n a d b) s = .next (sets e.pend)) ∧
     (b = false → e.pend = false → exec (.msixTableWrite n a d b) s = .next (sets false)) ∧
     (b = false → e.pend = true → exec (.msixTableWrite n a d b) s = .next { sets false with wire := .msix a.toNat d.toNat :: s.wire })) ∧
    exec .mailboxGetstatus s = .next (ends s 1 0
      [s.status, s.fld f_DEV_ID_PART 0, s.fld f_DEV_ID_STEP 0, (s.reg .HOST_LINK 0).toNat, (s.reg .DEV_EVAL 0).toNat]) ∧
    (s.status ≠ 4 → exec (.mailboxProfsel prof) s = .next (ends s 2 2 [])) ∧
    (s.status = 4 → s.flag f_HOST_CTL_MBAUTH 0 = false → exec (.mailboxProfsel prof) s = .next (ends s 2 3 [])) ∧
    (s.status = 4 → s.flag f_HOST_CTL_MBAUTH 0 = true → exec (.mailboxProfsel prof) s =
      .next (ends ((s.setFld f_HOST_CTL_MBAUTH 0 0).setReg .LOADIN_NEXT 0 (w64 (2 ^ 63 + prof.toNat))) 2 0 [])) ∧
    (s.status ≠ 6 → exec (.mailboxFlashwr off bytes) s = .next (ends s 3 2 []) ∧ exec (.mailboxFlashchk b) s = .next (ends s 4 2 [])) ∧
    (s.status = 6 → 1 ≤ bytes.length → bytes.length ≤ 4096 → off.toNat + bytes.length ≤ 2 ^ s.load.flash.log2 →
      exec (.mailboxFlashwr off bytes) s = .next (ends (s.flashWrite off.toNat (bytes.map BitVec.toNat)) 3 0 [])) ∧
    (s.status = 6 → exec (.mailboxFlashchk b) s = .next (ends s 4 0 [s.flashCheck b])) ∧
    (t.toNat ≤ 0xF000 → exec (.mailboxBbread t) s = .next (ends s 5 0 ((List.range 4096).map (fun j => s.bbByte (t.toNat + j))))) ∧
    (0xF000 < t.toNat → exec (.mailboxBbread t) s = .next (ends s 5 4 [])) ∧
    (op.toNat = 0 ∨ 5 < op.toNat → exec (.mailboxUnknownOpcode op) s = .next (ends s op.toNat 1 [])) ∧
    (∀ x, s.pwinAddr win.toNat = none → exec (.bar2Access win x a) s = .next { s.bump .HOST_PWREF 0 1 with wire := .completion 1 [] :: s.wire }) ∧
    (∀ ad, s.pwinAddr win.toNat = some ad → s.ioTarget none false true false ad = .inr (row, i) →
      exec (.bar2Access win false a) s = .next { s with wire := .completion 0 [(s.ioValue row i false).toNat] :: s.wire }) ∧
    (∀ ad, s.pwinAddr win.toNat = some ad → s.flag f_HOST_PWIN_RO (win.toNat / 2 ^ 22) = false → s.ioTarget none false true true ad = .inr (row, i) →
      row.reg = .MATCH_CTL ∨ row.reg = .LOOK_CTL → (rowWrite row false (s.reg row.reg i) a).2 = false →
      exec (.bar2Access win true a) s = .next { s.setReg row.reg i (rowWrite row false (s.reg row.reg i) a).1 with wire := .completion 0 [] :: s.wire })

/-- R384-R386, R389, R390, R399: the host's accesses through HDM0 and HDM1, its snoops, and the data of device reads. Nobody contends for a
line, no request waits at a home slice, no home value differs from its line, and neither a recording nor a replay runs. -/
def Obligations.HostMemory : Prop :=
  ∀ (s : State) (addr tags : BitVec 64) (data : List (BitVec 64)) (mask : BitVec 64) (m8 : BitVec 8) (poison own : Bool) (base off : Nat) (pa : BitVec 48) (c : Fin 256) (va : Nat),
    Memory.wf s = true → s.mode mREPLAY = false → s.recording = false → Uncontested s → s.parked = [] → s.home = [] → (∀ k ∈ s.clusters, k.lost = []) →
    (s.cxlMem = true → s.flag f_REH_STAT_SNAPHOLD 0 = false → addr.toNat = base + off →
      (s.host.hdm0 = some base → off < hdm0Size →
        ∃ t, exec (.hdm0Write addr data mask poison) s = .next t ∧ t.wire.head? = some (.completion 0 []) ∧
          (∀ i, i < 8 → t.rd (off / 64 * 8 + i) =
            let old := s.rd (off / 64 * 8 + i)
            if mask.toNat / 256 ^ i % 256 = 0 then old
            else if poison then wPOISON
            else ⟨if s.flag f_HOST_CTL_DPRESERVE 0 && !(s.mode mSEALED) then old.tag else 0,
              w64 (mergeBytes old.datum.toNat (data.getD i 0).toNat (mask.toNat / 256 ^ i % 256))⟩) ∧
          ∀ a, a / 8 ≠ off / 64 → t.rd a = s.rd a) ∧
      (s.host.hdm1 = some base → off < hdm1Size → s.tagWrites = true →
        ∃ t, exec (.hdm1Write addr tags m8) s = .next t ∧ t.wire.head? = some (.completion 0 []) ∧
          (∀ i, i < 8 → t.rd (off / 8 * 8 + i) = if m8.toNat.testBit i then ⟨BitVec.ofNat 8 (tags.toNat / 256 ^ i), (s.rd (off / 8 * 8 + i)).datum⟩
            else s.rd (off / 8 * 8 + i)) ∧
          ∀ a, a / 8 ≠ off / 8 → t.rd a = s.rd a) ∧
      (s.host.hdm1 = some base → off < hdm1Size → s.tagWrites = false →
        exec (.hdm1Write addr tags m8) s = .next { s.bump .HOST_TAGWRDROP 0 1 with wire := .completion 0 [] :: s.wire })) ∧
    (s.cxlMem = true → addr.toNat = base + off → s.host.hdm0 = some base → off < hdm0Size → s.dirOf (off / 64) = none →
      (∀ i, i < 8 → ty (s.rd (off / 64 * 8 + i)) ≠ tPOISON) →
      exec (.hostMemRead addr) s = .next { s.countUreq (off / 64) with
        wire := .completion 0 ((List.range 8).map (fun i => (s.rd (off / 64 * 8 + i)).datum.toNat)) :: s.wire }) ∧
    (let hb := (s.reg .HOST_CACHEBASE 0).toNat / 8 * 8
     let line := lineOf (0x001000000000 + (addr.toNat - hb) / 8)
     s.linkUp = true → s.flag f_HOST_LINK_CXL 0 = true → hb ≤ addr.toNat → place (line * 8) = .host → place (0x001000000000 + (addr.toNat - hb) / 8) = .host → s.status ≠ 5 → s.dirOf line = none →
      (∀ cl, s.clDirty cl line = false) → s.held.contains line = false →
      exec (.hostSnoop addr own) s = .next { s.bump .HOST_USNOOP 0 1 with wire := .snoop line false [] :: s.wire }) ∧
    (s.barUp = true → s.flag f_HOST_LINK_CXL 0 = true → s.hostStage = true →
      exec (.hdmDecoderCommit false addr) s = .next { s with host := { s.host with hdm0 := some addr.toNat, cxlOff := false } } ∧
      exec (.hdmDecoderCommit true addr) s = .next { s with host := { s.host with hdm1 := some addr.toNat, cxlOff := false } }) ∧
    ((∀ h, h ≠ c.val → (s.core h).waitsHost pa.toNat = none) → (s.core c).wait = some (.hostRead pa.toNat va) → c.val < s.nCores →
      (let failed := (s.modCore c (fun k => { k with wait := none })).takeTrap c { vec := 6, sub := 3, addr := va } (s.core c).syl
       exec (.hostReadCompletion pa data poison true) s =
        .next (if place pa.toNat = .mmio then failed else { failed with asked := failed.asked.filter (fun x => x != lineOf pa.toNat) })) ∧
      (place pa.toNat = .mmio → exec (.hostReadCompletion pa data poison false) s = .next (s.modCore c (fun k =>
        { k with wait := none, hostBuf := k.hostBuf ++ [(pa.toNat, data.getD 0 0)] }))) ∧
      (place pa.toNat = .host →
        ∃ t, exec (.hostReadCompletion pa data poison false) s = .next t ∧ (t.core c).wait = none ∧ t.held.contains (lineOf pa.toNat) = true ∧
          (∀ i, i < 8 → t.rd (pa.toNat / 8 * 8 + i) = if poison then wPOISON else ⟨0, data.getD i 0⟩) ∧ ∀ a, a / 8 ≠ pa.toNat / 8 → t.rd a = s.rd a)) ∧
    exec .hostWriteRefused s = .next (s.bump .HOST_UNCORR 0 1)

/-- R382, R383, R388, R390, R397, R398, R400, R494: bias commands, viral, the link's coming and going, PERST_N, function-level reset, CXL
Reset, configuration requests and CDAT. No core waits for the host. -/
def Obligations.HostLink : Prop :=
  ∀ (s : State) (v : BitVec 64) (dw : BitVec 10) (x : BitVec 32) (cxl fast : Bool) (width : Fin 3), (∀ c, ∀ p va, (s.core c).wait ≠ some (.hostRead p va)) →
    let w := bits (s.reg .HOST_LINK 0) 13 12
    (s.host.bias = none → exec (.hostBiascmd v) s = .next { s.setReg .HOST_BIASCMD 0 (w64 (2 ^ 63 + bits v 59 59 * 2 ^ 59 + bits v 55 40 * 2 ^ 40 + bits v 24 0)) with
      host := { s.host with bias := some (bits v 24 0, bits v 55 40 + 1, bit v 59, false) } }) ∧
    (s.host.bias ≠ none → exec (.hostBiascmd v) s =
      .next ((s.setReg .HOST_BIASCMD 0 (s.reg .HOST_BIASCMD 0)).setFld f_HOST_ERR_BIASBUSY 0 1)) ∧
    (∀ p n d a, s.host.bias = some (p, n, d, a) → exec .hostBiascmdAbort s = .next { s.setFld f_HOST_BIASCMD_ABORT 0 0 with
      host := { s.host with bias := some (p, n, d, true) } }) ∧
    (s.host.bias = none → exec .hostBiascmdAbort s = .next ((s.setFld f_HOST_BIASCMD_ABORT 0 0).setFld f_HOST_BIASCMD_STATUS 0 3)) ∧
    exec .hostCtlViral s = .next { s.setFld f_HOST_CTL_VIRAL 0 1 with wire := .viral :: s.wire } ∧
    (s.linkUp = true → exec .viralReceived s =
      .next (({ s with host := { s.host with viralIn := true } }.setFld f_HOST_ERR_VIRALIN 0 1).cueEvent 113)) ∧
    (s.linkUp = true → exec .linkDown s = .next (((s.setReg .HOST_LINK 0 (w64 (w * 2 ^ 12))).setFld f_HOST_ERR_LINKDOWN 0 1).cueEvent 113)) ∧
    (s.linkUp = false → exec .linkDown s = .next s ∧ exec .viralReceived s = .next s) ∧
    (s.host.perst = false → ∃ t, exec .perstNAssert s = .next t ∧ t.host.perst = true ∧ t.host.hdm0 = none ∧ t.host.hdm1 = none ∧ t.host.viralIn = false ∧
      t.host.msix = List.replicate 64 {} ∧ t.reg .HOST_LINK 0 = 0 ∧ t.flag f_HOST_CTL_VIRAL 0 = false ∧
      ∀ q, q < 64 → t.fld f_HOST_SQT_INDEX q = 0 ∧ t.fld f_HOST_SQH_INDEX q = 0 ∧ t.fld f_HOST_CQT_INDEX q = 0 ∧ t.fld f_HOST_CQH_INDEX q = 0) ∧
    (s.host.perst = true → exec .perstNAssert s = .next s ∧ exec .perstNDeassert s = .next { s with host := { s.host with perst := false, perstAt := s.time } }) ∧
    (s.host.perst = false → s.status ≠ 0 → exec (.hostLinkUp cxl width fast) s = .next { s.setReg .HOST_LINK 0
      (w64 (w * 2 ^ 12 + 2 ^ 11 + b2n cxl * 2 ^ 10 + (1 + b2n fast) * 2 ^ 8 + 4 * 2 ^ width.val)) with host := { s.host with cxlOff := false } }) ∧
    (s.linkUp = true → ∃ t, exec .flr s = .next t ∧ t.host.msix = List.replicate 64 {} ∧ t.host.cfg = [] ∧ t.mem = s.mem ∧ t.cores = s.cores ∧
      ∀ q, q < 64 → t.fld f_HOST_SQT_INDEX q = 0 ∧ t.fld f_HOST_SQH_INDEX q = 0 ∧ t.fld f_HOST_CQT_INDEX q = 0 ∧ t.fld f_HOST_CQH_INDEX q = 0) ∧
    (s.linkUp = true → s.retryStatus = true → exec (.configurationRequest cxl dw x) s = .next { s with wire := .completion 2 [] :: s.wire }) ∧
    (s.linkUp = true → s.retryStatus = false →
      exec (.configurationRequest false dw x) s = .next { s with wire := .completion 0 [s.cfgRead dw.toNat] :: s.wire } ∧
      (dw ≠ 0 → dw ≠ 2 → exec (.configurationRequest true dw x) s = .next { s with
        wire := .completion 0 [] :: s.wire, host := { s.host with cfg := (dw.toNat, x.toNat) :: s.host.cfg.filter (fun y => y.1 != dw.toNat) } })) ∧
    (s.barUp = true → exec .cdatRead s = .next { s with wire := .doe 2 [0, hdm0Size, hdm0Size, hdm1Size] :: s.wire }) ∧
    (s.linkUp = true → s.hostStage = true → s.hostLines = [] →
      (∃ t, exec .cxlReset s = .next t ∧ t.host.cxlOff = true ∧ t.host.viralIn = false ∧ t.mem = s.mem) ∧
      (∃ t, exec .cxlResetMemClr s = .next t ∧ t.host.cxlOff = true ∧ ∀ a, place a = .loc → (∀ r ∈ s.emptied, place r.1 = .loc ∨ 2 ^ 34 ≤ r.1) → t.rd a = wRAW0))

/-- R518-R522, R534: the key store's commands and what its DRBG goes through, while the Green Room runs. -/
def Obligations.KeyStore : Prop :=
  ∀ (s : State) (k : Fin 8) (back : Bool), s.greenUp = true →
    let ends (t : State) (code : Nat) : State := t.setReg .KSU_RES 0 (w64 code)
    let owner : Prop := k.val ≠ 4 ∧ k.val ≠ 7
    let others : Prop := ∃ j, j < 4 ∧ j ≠ k.val ∧ s.slotFused j = true ∧ s.slotRevoked j = false
    let inUse : Prop := k.val < 4 ∧ s.load.secs ≠ [] ∧ k.val = s.load.keyslot
    (¬ owner → exec (.ksuFuse k back) s = .next (ends s 5) ∧ exec (.ksuRevoke k back) s = .next (ends s 5) ∧ exec (.ksuProvlock k back) s = .next (ends s 5)) ∧
    (owner →
      (s.mode mSEALED = true ∨ s.flag f_KSU_STATE_PROVLOCK 0 = true ∨ s.slotFused k = true → exec (.ksuFuse k back) s = .next (ends s 2)) ∧
      (s.mode mSEALED = false → s.flag f_KSU_STATE_PROVLOCK 0 = false → s.slotFused k = false →
        exec (.ksuFuse k false) s = .next (ends s 6) ∧
        exec (.ksuFuse k true) s = .next (ends { s.setFld f_KSU_STATE_FUSED 0 (s.fld f_KSU_STATE_FUSED 0 ||| 2 ^ k.val) with
          ksu := { s.ksu with hash := s.ksu.hash.set k s.ksuData } } 1)) ∧
      (inUse → exec (.ksuRevoke k back) s = .next (ends s 3)) ∧
      (¬ inUse → k.val < 4 → ¬ others → exec (.ksuRevoke k back) s = .next (ends s 4)) ∧
      (¬ inUse → (k.val < 4 → others) →
        exec (.ksuRevoke k false) s = .next (ends s 6) ∧
        exec (.ksuRevoke k true) s = .next (ends (s.setFld f_KSU_STATE_REVOKED 0 (s.fld f_KSU_STATE_REVOKED 0 ||| 2 ^ k.val)) 1)) ∧
      exec (.ksuProvlock k false) s = .next (ends s 6) ∧
      exec (.ksuProvlock k true) s = .next (ends (s.setFld f_KSU_STATE_PROVLOCK 0 1) 1)) ∧
    exec (.ksuReseed true) s = .next (ends ({ s with drbg := 0 }.setFld f_KSU_DRBG_STATE 0 1) 1) ∧
    (∃ t, exec (.ksuReseed false) s = .next t ∧ t.fld f_KSU_DRBG_STATE 0 = 2 ∧ t.cores = s.cores ∧ t.mem = s.mem) ∧
    (2 ^ 20 ≤ s.drbg → s.fld f_KSU_DRBG_STATE 0 = 1 → exec .drbgAutoReseed s = .next { s with drbg := 0 }) ∧
    (s.drbg < 2 ^ 20 → exec .drbgAutoReseed s = .next s) ∧
    (s.fld f_KSU_DRBG_STATE 0 = 0 → exec .drbgInstantiated s = .next (s.setFld f_KSU_DRBG_STATE 0 1)) ∧
    (∃ t, exec .entropyHealthFailure s = .next t ∧ t.fld f_KSU_DRBG_STATE 0 = 2 ∧ t.reg .KSU_HEALTH 0 = s.reg .KSU_HEALTH 0 + 1 ∧
      (t.bb.events.head?.map (fun e => e.code)) = some 0x0A) ∧
    (∃ t, exec .ksuZeroize s = .next t ∧ t.status = 0 ∧ t.cores = State.reset.cores ∧ t.bb.count = 2 ∧
      (t.bb.events.map (fun e => (e.code, e.detail))) = [(6, 3), (8, 0)] ∧ t.host.spdm = {} ∧ t.host.ideIo = {} ∧ t.host.ideCm = {} ∧
      t.debugScope = 0 ∧ t.pm.nonce = none ∧ t.reg .LOADIN_NEXT 0 = 0 ∧ t.fld f_KSU_DRBG_STATE 0 = 0 ∧ t.flag f_PROMPTER_STAT_SESSION 0 = false ∧
      ∀ p, p < s.nPorts → t.portState p = 0)

/-- R531, R533, R522, R529: SPDM requests in the order of their connection, and the IDE streams that a session programs. The contents of a
version, of the capabilities and of the algorithms, and the error codes, are the model's (log entry 60). -/
def Obligations.SecureSession : Prop :=
  ∀ (s : State) (slot : Fin 8) (off len : BitVec 16) (nonce key : BitVec 256) (blk : BitVec 8) (share : List (BitVec 8)) (ok m cm : Bool), s.doeUp = true →
    let d := s.host.spdm
    let tells (t : State) (code : Nat) (data : List Nat) : State := { t with wire := .doe 1 (code :: data) :: t.wire }
    let stage (t : State) (f : Spdm → Spdm) : State := { t with host := { t.host with spdm := f t.host.spdm } }
    let error (e : Nat) : State := tells s 0x7F [e]
    let ide := if cm then s.host.ideCm else s.host.ideIo
    let mark (t : State) (n : Nat) : State := t.setFld (if cm then f_HOST_LINK_IDECM else f_HOST_LINK_IDEIO) 0 n
    let live (f : Ide → Ide) : State := { s with host := if cm then { s.host with ideCm := f s.host.ideCm } else { s.host with ideIo := f s.host.ideIo } }
    let able : Prop := d.session = true ∧ (cm = true → s.flag f_HOST_LINK_CXL 0 = true)
    (exec .getVersion s = .next (tells (stage s (fun _ => { stage := 1 })) 4 [0x1200]) ∧ exec .spdmUnsupportedRequest s = .next (error 7)) ∧
    (1 ≤ d.stage → exec .getCapabilities s = .next (tells (stage { s with free := s.free + 1 } (fun d => { d with stage := Nat.max d.stage 2 })) 0x61
      [(Config.freeValue s.free).toNat])) ∧
    (2 ≤ d.stage → exec (.negotiateAlgorithms true) s = .next (tells (stage { s with free := s.free + 1 } (fun d => { d with stage := 3 })) 0x63
      [(Config.freeValue s.free).toNat]) ∧ exec (.negotiateAlgorithms false) s = .next (error 7)) ∧
    (d.stage = 0 → exec .getCapabilities s = .next (error 4)) ∧ (d.stage < 2 → exec (.negotiateAlgorithms ok) s = .next (error 4)) ∧
    (d.stage < 3 → exec .getDigests s = .next (error 4) ∧ exec (.getCertificate slot off len) s = .next (error 4) ∧
      exec (.challenge slot nonce) s = .next (error 4) ∧ exec (.getMeasurements blk nonce) s = .next (error 4) ∧
      exec (.keyExchange share m) s = .next (error 4) ∧ exec (.spdmFinish ok) s = .next (error 4)) ∧
    (3 ≤ d.stage →
      exec .getDigests s = .next (tells s 1 (digestBytes (digestOf certChain))) ∧
      (slot.val = 0 → exec (.getCertificate slot off len) s = .next (tells s 2 ((certChain.drop off.toNat).take len.toNat))) ∧
      (slot.val ≠ 0 → exec (.getCertificate slot off len) s = .next (error 7) ∧ exec (.challenge slot nonce) s = .next (error 7)) ∧
      (slot.val = 0 → ∃ t n sig, exec (.challenge slot nonce) s = .next t ∧ n.length = 32 ∧ sig.length = 96 ∧
        t.wire = .doe 1 (3 :: digestBytes (digestOf certChain) ++ n ++ sig) :: s.wire ∧ t.host = s.host ∧ t.ksu.signed = s.ksu.signed + 1) ∧
      (blk.toNat ≤ 7 → ∃ t n sig, exec (.getMeasurements blk nonce) s = .next t ∧ n.length = 32 ∧ sig.length = 96 ∧
        t.wire = .doe 1 (0x60 :: blk.toNat :: s.measurement blk.toNat ++ n ++ sig) :: s.wire ∧ t.host = s.host ∧ t.ksu.signed = s.ksu.signed + 1) ∧
      (7 < blk.toNat → exec (.getMeasurements blk nonce) s = .next (error 7)) ∧
      exec (.keyExchange share true) s = .next (error 7) ∧
      (s.fld f_KSU_DRBG_STATE 0 = 2 → exec (.keyExchange share false) s = .next (error 5)) ∧
      (s.fld f_KSU_DRBG_STATE 0 ≠ 2 → ∃ t n sig, exec (.keyExchange share false) s = .next t ∧ n.length = 128 ∧ sig.length = 96 ∧
        t.wire = .doe 1 (0x64 :: n ++ sig) :: s.wire ∧ t.host.spdm = { d with keyx := true, session := false }) ∧
      (d.keyx = false → exec (.spdmFinish ok) s = .next (error 4)) ∧
      (d.keyx = true → exec (.spdmFinish true) s = .next (tells (stage s (fun d => { d with keyx := false, session := true })) 0x65 []) ∧
        exec (.spdmFinish false) s = .next (tells (stage s (fun d => { d with keyx := false })) 0x7F [6]))) ∧
    (able → exec (.keyProg cm key) s = .next (live (fun x => { x with prog := some key.toNat })) ∧
      (ide.prog ≠ none → exec (.kSetGo cm) s = .next (mark (live (fun x => { x with live := x.prog })) 1)) ∧
      (ide.prog = none → exec (.kSetGo cm) s = .next s) ∧ exec (.kSetStop cm) s = .next (mark (live (fun _ => {})) 0)) ∧
    (¬ able → exec (.keyProg cm key) s = .next s ∧ exec (.kSetGo cm) s = .next s ∧ exec (.kSetStop cm) s = .next s) ∧
    (ide.live ≠ none → exec (.ideIntegrityFailure cm) s = .next ((((mark (live (fun x => { x with live := none })) 0).setFld f_HOST_ERR_UNCORR 0 1).bump
      .HOST_UNCORR 0 1).cueEvent 113)) ∧
    (ide.live = none → exec (.ideIntegrityFailure cm) s = .next s)

/-- R502-R510, R513, R514: requests of the Prompter that a state serves, those it refuses, and its responses. -/
def Obligations.PrompterRequests : Prop :=
  ∀ (s : State) (v k cl opc : BitVec 8) (off : BitVec 32) (cnt : BitVec 16) (data : List (BitVec 8)) (copy : BitVec 8) (nonce : BitVec 256) (magic : BitVec 32)
    (inb outb : Bool) (len : BitVec 7), Listens s →
    let bytes := data.map BitVec.toNat
    let flashable : Prop := bytes ≠ [] ∧ bytes.length ≤ 240 ∧ off.toNat + bytes.length ≤ 2 ^ s.load.flash.log2
    let classAof : List (Nat × Nat × Instr) := [(0x04, 0, .bbclear), (0x10, 0, .prompterProfsel v), (0x11, v.toNat, .modeset v),
      (0x13, 0, .calib v), (0x14, 0, .prompterWake), (0x15, 0, .prompterDark), (0x22, 0, .pend),
      (0x40, 0, .prompterZeroize magic), (0x50, 0, .prompterFlashwr off data), (0x51, 0, .prompterFlashchk copy), (0x61, 0, .mbread)]
    let classO : List (Nat × Nat × Instr) := [(0x01, 0, .prompterStatus), (0x02, 0, .telem), (0x03, 0, .prompterBbread off cnt), (0x20, 0, .chal),
      (0x21, 0, .pauth data), (0x30, 0, .attest nonce copy)]
    let req (opc : Nat) : State := replied s opc 6 []
    (s.flag f_PROMPTER_STAT_SESSION 0 = false → (∀ x ∈ classAof, exec x.2.2 s = .next (replied s x.1 4 [])) ∧
      (1 ≤ bytes.length → bytes.length ≤ 64 → exec (.mbwrite data) s = .next (replied s 0x60 4 [])) ∧
      (k.toNat ≤ 3 → exec (.prompterReset k cl) s = .next (replied s 0x12 4 []))) ∧
    (s.flag f_PROMPTER_STAT_SESSION 0 = true → (∀ x ∈ classAof, serveOf x.1 x.2.1 s.pmState = .notNow → exec x.2.2 s = .next (replied s x.1 3 [])) ∧
      (s.status = 4 → ∀ x ∈ classAof, (x.1 = 0x50 ∨ x.1 = 0x51 ↔ serveOf x.1 x.2.1 s.pmState = .notNow)) ∧
      (s.status = 6 → ∀ x ∈ classAof, (x.1 = 0x04 ∨ x.1 = 0x11 ∨ x.1 = 0x13 ∨ x.1 = 0x14 ∨ x.1 = 0x15 ∨ x.1 = 0x61 ↔ serveOf x.1 x.2.1 s.pmState = .notNow)) ∧
      (s.status = 5 → s.clk.wake = none →
        exec (.modeset v) s = .next { req 0x11 with pm := { (req 0x11).pm with wait := some (0x11, [v.toNat]) }, clk := { s.clk with wake := some 2, rcAt := s.time } } ∧
        exec .prompterWake s = .next { req 0x14 with pm := { (req 0x14).pm with wait := some (0x14, []) }, clk := { s.clk with wake := some 2, rcAt := s.time } })) ∧
    (∀ x ∈ classO, serveOf x.1 x.2.1 s.pmState = .yes) ∧
    exec .prompterStatus s = .next (replied s 0x01 0 ([s.status, s.powerState] ++ leBytes 2 (s.fld f_DEV_ID_PART 0) ++
      [s.fld f_DEV_ID_STEP 0, (s.reg .DEV_MODE 0).toNat % 256] ++ leBytes 4 (s.reg .LOADIN_STAT 0).toNat ++
      [(s.reg .DEV_EVAL 0).toNat % 32, s.fld f_CLK_STAT_CAUSE 0,
        s.fld f_PROMPTER_STAT_SESSION 0 + 2 * b2n (s.debugScope != 0) + 4 * b2n (s.bb.count != 0) + 8 * b2n s.pmAlert] ++ leBytes 2 s.node ++ leBytes 8 s.time)) ∧
    exec .telem s = .next (replied s 0x02 0 s.telemBytes) ∧ s.telemBytes.length = 25 ∧
    (s.status = 0 ∨ s.status = 1 ∨ s.status = 5 ∨ s.status = 6 → ∀ j, j < 11 → s.telemBytes.getD j 0 = 255) ∧
    (cnt ≠ 0 → cnt.toNat ≤ 240 → off.toNat + cnt.toNat ≤ 0x10000 →
      exec (.prompterBbread off cnt) s = .next (replied s 0x03 0 ((List.range cnt.toNat).map (fun j => s.bbByte (off.toNat + j))))) ∧
    (cnt = 0 ∨ 240 < cnt.toNat ∨ 0x10000 < off.toNat + cnt.toNat → exec (.prompterBbread off cnt) s = .next (replied s 0x03 2 [])) ∧
    (Serves s 0x04 0 → exec .bbclear s = .next { responds (req 0x04) 0 [] with bb := {}, reh := { s.reh with mirror := [], mirrored := 0 } }) ∧
    (Serves s 0x10 0 → exec (.prompterProfsel v) s = .next (responds (if v.toNat.testBit 7 then (req 0x10).setFld f_LOADIN_NEXT_V 0 0
      else (req 0x10).setReg .LOADIN_NEXT 0 (w64 (2 ^ 63 + b2n (v.toNat.testBit 6) * 2 ^ 62 + v.toNat % 4))) 0 [])) ∧
    (Serves s 0x11 v.toNat → s.clk.dark = false → exec (.modeset v) s = .next { req 0x11 with modes := s.modes ++ [.prompter (v.toNat % 256)] }) ∧
    (s.clk.dark = false →
      (Serves s 0x12 0 → k = 0 → exec (.prompterReset k cl) s = .next { responds (req 0x12) 0 [] with
        pm := { (responds (req 0x12) 0 []).pm with coldAt := some (s.time + 1000000) } }) ∧
      (Serves s 0x12 1 → k = 1 → s.load.warm = none → exec (.prompterReset k cl) s = .next { responds (req 0x12) 0 [] with load := { s.load with warm := some 1 } }) ∧
      (Serves s 0x12 2 → k = 2 → cl.toNat ∈ s.enabledClusters → (∀ x ∈ s.load.creset, x.1 ≠ cl.toNat) → exec (.prompterReset k cl) s =
        .next { responds (req 0x12) 0 [] with load := { s.load with creset := s.load.creset ++ [(cl.toNat, 1)] } }) ∧
      (Serves s 0x12 2 → k = 2 → cl.toNat ∉ s.enabledClusters → exec (.prompterReset k cl) s = .next (responds (req 0x12) 2 [])) ∧
      (s.flag f_PROMPTER_STAT_SESSION 0 = true → s.status = 4 → k = 3 → exec (.prompterReset k cl) s = .next ((responds (req 0x12) 8 []).setFld f_LOADIN_STAT_ABRES 0 2)) ∧
      (3 < k.toNat → Serves s 0x12 0 → exec (.prompterReset k cl) s = .next (responds (req 0x12) 2 []))) ∧
    (Serves s 0x13 0 → 4 ≤ v.toNat / 16 → exec (.calib v) s = .next (replied s 0x13 2 [])) ∧
    (Serves s 0x13 0 → v.toNat / 16 < 4 → (∀ r ∈ s.recal, r.mc ≠ v.toNat / 16 ∨ r.chan ≠ v.toNat % 16) → s.flag f_MC_STAT_SREF (v.toNat / 16) = false →
      let r : Recal := { mc := v.toNat / 16, chan := v.toNat % 16, since := s.time, deferred := false }
      exec (.calib v) s = .next { (responds (req 0x13) 6 [v.toNat]).setFld f_MC_CALCMD_STATUS (v.toNat / 16) 2 with recal := s.recal ++ [r] }) ∧
    (Serves s 0x14 0 → s.clk.dark = false → exec .prompterWake s = .next (replied s 0x14 0 [])) ∧
    (Serves s 0x15 0 → s.clk.dark = false → s.darkOk = false → exec .prompterDark s = .next (responds ((req 0x15).setFld f_PWR_STAT_RES 0 4) 7 [4])) ∧
    (Serves s 0x15 0 → s.clk.dark = false → s.darkOk = true →
      ∃ t, exec .prompterDark s = .next t ∧ t.clk.dark = true ∧ t.flag f_PWR_STAT_BUSY 0 = true ∧ t.pm = (req 0x15).pm) ∧
    (Serves s 0x50 0 → flashable → exec (.prompterFlashwr off data) s = .next (responds ((req 0x50).flashWrite off.toNat bytes) 0 [])) ∧
    (Serves s 0x50 0 → ¬ flashable → exec (.prompterFlashwr off data) s = .next (replied s 0x50 2 [])) ∧
    (Serves s 0x51 0 → copy.toNat ≤ 1 → exec (.prompterFlashchk copy) s = .next (replied s 0x51 0 [s.flashCheck (copy.toNat == 1)])) ∧
    (Serves s 0x51 0 → 1 < copy.toNat → exec (.prompterFlashchk copy) s = .next (replied s 0x51 2 [])) ∧
    (Serves s 0x60 0 → s.clk.dark = false → s.flag f_PROMPTER_MBCTL_INFULL 0 = false → 1 ≤ bytes.length → bytes.length ≤ 64 →
      ∃ t : State, exec (.mbwrite data) s = .next (responds (t.cueEvent 115) 0 []) ∧ t.flag f_PROMPTER_MBCTL_INFULL 0 = true ∧
        t.fld f_PROMPTER_MBCTL_INLEN 0 = bytes.length ∧ (∀ j, j < 8 → t.reg .PROMPTER_MBIN j = w64 (leAt bytes (8 * j) 8)) ∧ t.mem = s.mem ∧ t.cores = s.cores) ∧
    (Serves s 0x60 0 → bytes = [] ∨ 64 < bytes.length → exec (.mbwrite data) s = .next (replied s 0x60 2 [])) ∧
    (Serves s 0x61 0 → s.flag f_PROMPTER_MBCTL_OUTFULL 0 = false → exec .mbread s = .next (replied s 0x61 0 [])) ∧
    (Serves s 0x61 0 → s.flag f_PROMPTER_MBCTL_OUTFULL 0 = true → exec .mbread s = .next (responds ((req 0x61).setFld f_PROMPTER_MBCTL_OUTFULL 0 0) 0
      ((List.range (s.fld f_PROMPTER_MBCTL_OUTLEN 0)).map (fun j => (s.reg .PROMPTER_MBOUT (j / 8)).toNat / 256 ^ (j % 8) % 256)))) ∧
    (s.mode mREPLAY = false → exec (.prompterMbctlWrite inb outb len) s = .next (
      let a := if inb then s.setFld f_PROMPTER_MBCTL_INFULL 0 0 else s
      let b := if outb then a.setFld f_PROMPTER_MBCTL_OUTFULL 0 1 else a
      if 1 ≤ len.toNat ∧ len.toNat ≤ 64 then b.setFld f_PROMPTER_MBCTL_OUTLEN 0 len.toNat else b.setFld (Reg.rsvw .PROMPTER_MBCTL) 0 1)) ∧
    exec .responseRead s = .next { s with wire := .response s.pm.rst s.pm.ropc s.pm.data :: s.wire } ∧
    (s.pmAlert = true → exec .alertResponse s = .next { s with wire := .alert (s.fld f_PROMPTER_STAT_ADDR 0) :: s.wire }) ∧
    (s.pmAlert = false → exec .alertResponse s = .next s) ∧
    exec .smbusTimeout s = .next s ∧
    exec (.prompterRejectedRequest 0 opc) s = .next { s.bump .PROMPTER_PECERR 0 1 with pm := { s.pm with rst := 5, ropc := opc.toNat, data := [] } } ∧
    exec (.prompterRejectedRequest 1 opc) s = .next { s.bump .PROMPTER_NACKS 0 1 with pm := { s.pm with rst := 1, ropc := opc.toNat, data := [] } } ∧
    exec (.prompterRejectedRequest 2 opc) s = .next { s with pm := { s.pm with rst := 2, ropc := opc.toNat, data := [] } }

/-- R506, R512, R520, R523, R527, R530, R534: nonces, sessions, debug scopes, attestation and ZEROIZE over the Prompter, and the ends of a
session and of a lockout. -/
def Obligations.PrompterSecurity : Prop :=
  ∀ (s : State) (sig : List (BitVec 8)) (scope blk : BitVec 8) (nonce : BitVec 256) (magic : BitVec 32), Listens s →
    let req (opc : Nat) : State := replied s opc 6 []
    let signed (k : Nat) (n tail : List Nat) : Bool := !(s.slotRevoked k) && Config.slotVerify (BitVec.ofNat 384 (s.slotHash k)) (digestOf (n ++ s.idBytes ++ tail)) sig
    let fails (t : State) : State :=
      let u := responds (t.bump .PROMPTER_AUTHFAIL 0 1) 10 []
      let v : State := { u with pm := { u.pm with fails := 0, lockAt := s.time } }
      if s.pm.fails + 1 < 3 then { u with pm := { u.pm with fails := s.pm.fails + 1 } } else v.setFld f_PROMPTER_STAT_LOCKOUT 0 1
    let taken (t : State) : State := { t with pm := { t.pm with nonce := none } }
    let fine (t : State) : State := responds { t with pm := { t.pm with fails := 0 } } 0 []
    let pauth : List Nat := [0x50, 0x41, 0x55, 0x54, 0x48]
    let unlock : List Nat := scope.toNat :: [0x44, 0x42, 0x47, 0x55, 0x4E, 0x4C, 0x4F, 0x43, 0x4B]
    (s.flag f_PROMPTER_STAT_LOCKOUT 0 = true → exec .chal s = .next (replied s 0x20 3 [])) ∧
    (s.flag f_PROMPTER_STAT_LOCKOUT 0 = false → s.fld f_KSU_DRBG_STATE 0 ≠ 2 →
      ∃ t l, exec .chal s = .next t ∧ l.length = 48 ∧ t.pm = { (replied s 0x20 0 l).pm with nonce := some l } ∧ t.mem = s.mem ∧ t.cores = s.cores) ∧
    (s.flag f_PROMPTER_STAT_LOCKOUT 0 = false → s.fld f_KSU_DRBG_STATE 0 = 2 →
      ∃ x, exec .chal s = .next (responds { req 0x20 with free := s.free + 1 } 7 [x])) ∧
    (sig.length ≠ 96 → exec (.pauth sig) s = .next (replied s 0x21 2 [])) ∧
    (sig.length = 96 → s.slotFused 5 = false → exec (.pauth sig) s = .next (replied s 0x21 7 [1])) ∧
    (sig.length = 96 → s.slotFused 5 = true →
      (s.pm.nonce = none → exec (.pauth sig) s = .next (fails ((taken (req 0x21)).bump .KSU_SIGFAIL 0 1))) ∧
      (∀ n, s.pm.nonce = some n → signed 5 n pauth = false → exec (.pauth sig) s = .next (fails ((taken (req 0x21)).bump .KSU_SIGFAIL 0 1))) ∧
      (∀ n, s.pm.nonce = some n → signed 5 n pauth = true → exec (.pauth sig) s = .next (fine ((taken (req 0x21)).setFld f_PROMPTER_STAT_SESSION 0 1)))) ∧
    (s.flag f_PROMPTER_STAT_SESSION 0 = true → exec .pend s = .next (responds ((req 0x22).setFld f_PROMPTER_STAT_SESSION 0 0) 0 [])) ∧
    (Serves s 0x23 0 →
      (2 < scope.toNat ∨ sig.length ≠ 96 → exec (.dbgunlock scope sig) s = .next (replied s 0x23 2 [])) ∧
      (scope.toNat ≤ 2 → sig.length = 96 → s.slotFused 6 = false → exec (.dbgunlock scope sig) s = .next (replied s 0x23 7 [1])) ∧
      (scope.toNat ≤ 2 → scope ≠ 0 → sig.length = 96 → s.slotFused 6 = true → s.mode mSEALED = true →
        ∃ x, exec (.dbgunlock scope sig) s = .next (responds { req 0x23 with free := s.free + 1 } 7 [x])) ∧
      (scope.toNat ≤ 2 → sig.length = 96 → s.slotFused 6 = true → scope = 0 ∨ s.mode mSEALED = false →
        (∀ n, s.pm.nonce = some n → signed 6 n unlock = true →
          ∃ t, exec (.dbgunlock scope sig) s = .next t ∧ t.debugScope = scope.toNat ∧ t.pm.rst = 0 ∧ t.pm.nonce = none ∧
            (scope = 0 → ∀ c, (t.core c).debug = false) ∧
            (scope ≠ 0 → t.flag f_DEV_EVAL_DEBUG 0 = true ∧ (t.bb.events.head?.map (fun e => (e.code, e.unit))) = some (7, scope.toNat))) ∧
        ((∀ n, s.pm.nonce = some n → signed 6 n unlock = false) →
          exec (.dbgunlock scope sig) s = .next (fails ((taken (req 0x23)).bump .KSU_SIGFAIL 0 1))))) ∧
    (7 < blk.toNat → exec (.attest nonce blk) s = .next (replied s 0x30 2 [])) ∧
    (blk.toNat ≤ 7 → ∃ g, g.length = 96 ∧ exec (.attest nonce blk) s = .next { responds (req 0x30) 0 ([blk.toNat] ++ s.measurement blk.toNat ++ g) with
      ksu := { s.ksu with signed := s.ksu.signed + 1 } }) ∧
    (Serves s 0x40 0 → magic.toNat ≠ 0x4F52455A → exec (.prompterZeroize magic) s = .next (replied s 0x40 2 [])) ∧
    (Serves s 0x40 0 → magic.toNat = 0x4F52455A → ∃ t, exec (.prompterZeroize magic) s = .next t ∧ t.pm.rst = 0 ∧ t.pm.coldAt = some (s.time + 1000000) ∧
      t.cores = State.reset.cores ∧ t.reg .LOADIN_NEXT 0 = 0 ∧ t.debugScope = 0 ∧ t.flag f_PROMPTER_STAT_SESSION 0 = false) ∧
    exec .sessionTimeout s = .next s ∧ exec .lockoutExpiry s = .next s ∧
    (let u (x : Nat) : State := { s with time := s.pm.last + 60000000000 + x, pm := { s.pm with lockAt := s.pm.last } }
     ∀ x, (s.flag f_PROMPTER_STAT_SESSION 0 = true → exec .sessionTimeout (u x) = .next ((u x).setFld f_PROMPTER_STAT_SESSION 0 0)) ∧
      (s.flag f_PROMPTER_STAT_LOCKOUT 0 = true → exec .lockoutExpiry (u x) = .next ((u x).setFld f_PROMPTER_STAT_LOCKOUT 0 0)))

/-- R407, R409-R413, R416: patrol scrub, refresh, temperature reads and calibration of the memory controllers. -/
def Obligations.MemoryControllers : Prop :=
  ∀ (s : State) (pa : BitVec 48) (m : Fin 4) (err : Fin 3) (shadow late : Bool) (temp : BitVec 8) (chan : BitVec 4),
    let a := pa.toNat
    let u := mcOf a
    let scrubs : Prop := isLocal a = true ∧ s.dataPlane = true ∧ s.fld f_MC_SCRUB_PERIOD u ≠ 0 ∧ s.flag f_MC_STAT_SREF u = false
    let begun : State := if late then s.setFld f_MC_STAT_SCRLATE u 1 else s
    let logged (t : State) (recov : Bool) : State := ((t.bump .MC_SCRUBUE u 1).setReg .MC_ERRLOG u (w64 (2 ^ 63 + 2 ^ 62 + b2n recov * 2 ^ 61 + b2n shadow * 2 ^ 60 +
      chanOf a * 2 ^ 52 + a % 2 ^ 48))).cueEvent (76 + u)
    let counts (n : Nat) : Bool := n != 0 && ((begun.reg .MC_CE u) + 1).toNat % n == 0
    let pending : Prop := ∃ r ∈ s.recal, r.mc = m.val ∧ r.chan = chan.toNat
    let ask (deferred : Bool) : Recal := { mc := m, chan := chan.toNat, since := s.time, deferred := deferred }
    let rest := s.recal.filter (fun r => !(r.mc == m.val && r.chan == chan.toNat))
    let finished : State := ({ s with recal := rest }.setFld f_MC_CALCMD_STATUS m 1).cueEvent (76 + m.val)
    (¬ scrubs → exec (.patrolScrub pa err shadow late) s = .next s) ∧
    (scrubs →
      exec (.patrolScrub pa 0 shadow late) s = .next begun ∧
      (counts (s.fld f_MC_CTL_CETHR u) = false → exec (.patrolScrub pa 1 shadow late) s = .next (begun.bump .MC_CE u 1)) ∧
      (counts (s.fld f_MC_CTL_CETHR u) = true → exec (.patrolScrub pa 1 shadow late) s = .next ((begun.bump .MC_CE u 1).cueEvent (76 + u))) ∧
      (s.lineHeld a = true → exec (.patrolScrub pa 2 shadow late) s = .next (logged (begun.cleanLine (lineOf a)) true)) ∧
      (s.lineHeld a = false → s.flag f_MC_CTL_UEMC u = false → exec (.patrolScrub pa 2 shadow late) s = .next (logged (begun.wr a wPOISON) false)) ∧
      (s.lineHeld a = false → s.flag f_MC_CTL_UEMC u = true → ∃ t, exec (.patrolScrub pa 2 shadow late) s = .next t ∧ t.mem = (begun.wr a wPOISON).mem ∧
        t.regs = (logged (begun.wr a wPOISON) false).regs ∧
        (s.fld f_CUE_SRC_CORE (76 + u) < s.cores.length → (t.core (s.fld f_CUE_SRC_CORE (76 + u))).ev.mc.getLast? = some 6))) ∧
    exec (.hbmRefresh m) s = .next s ∧ exec (.periodicCalibration m chan) s = .next s ∧
    (s.dataPlane = true → s.flag f_MC_STAT_SREF m = false →
      (temp.toNat < 95 → exec (.hbmTemperatureRead m temp) s = .next (s.setFld f_MC_STAT_TEMP m temp.toNat)) ∧
      (95 ≤ temp.toNat → exec (.hbmTemperatureRead m temp) s = .next ((s.setFld f_MC_STAT_TEMP m temp.toNat).setFld f_PWR_ALSTAT_ALERT 0
        ((s.setFld f_MC_STAT_TEMP m temp.toNat).fld f_PWR_ALSTAT_ALERT 0 ||| 2 ^ 4)))) ∧
    (s.dataPlane = false ∨ s.flag f_MC_STAT_SREF m = true → exec (.hbmTemperatureRead m temp) s = .next s) ∧
    (pending → exec (.mcCalcmd m chan) s = .next s) ∧
    (¬ pending → s.flag f_MC_STAT_SREF m = false →
      exec (.mcCalcmd m chan) s = .next { s.setFld f_MC_CALCMD_STATUS m 2 with recal := s.recal ++ [ask false] }) ∧
    (¬ pending → s.flag f_MC_STAT_SREF m = true →
      exec (.mcCalcmd m chan) s = .next { s.setFld f_MC_CALCMD_STATUS m 3 with recal := s.recal ++ [ask true] }) ∧
    (pending → (∀ r ∈ s.recal, r.deferred = false) → (∀ r ∈ rest, r.mc ≠ m.val) → exec (.forcedRecalComplete m chan) s = .next finished) ∧
    (pending → (∀ r ∈ s.recal, r.deferred = false) → (∃ r ∈ rest, r.mc = m.val) →
      exec (.forcedRecalComplete m chan) s = .next (finished.setFld f_MC_CALCMD_STATUS m 2)) ∧
    (¬ pending → exec (.forcedRecalComplete m chan) s = .next s)

/-- R417-R421, R424, R425, R429, R430: a mode request waits its turn, is refused with its code, or is made; LOCKSTEP pairs a cluster's cores,
and a divergence stops a pair. -/
def Obligations.OperatingModes : Prop :=
  ∀ (s : State) (v : BitVec 8) (w : BitVec 9) (cl : Fin 32) (c : Fin 256) (rest : List ModeReq),
    let p := c.val / 2 * 2
    let asked (x : Nat) : State := { s with modes := .dev x :: rest }
    let target (x : Nat) : State := { s with modes := rest }.setReg .DEV_MODE 0 (w64 x)
    let refused (code : Nat) : State := { s with modes := rest }.setReg .DEV_MODESTAT 0 (w64 code)
    let serves : Prop := s.status = 4 ∧ s.clk.dark = false ∧ s.flag f_REH_STAT_SNAPHOLD 0 = false
    let now := (s.reg .DEV_MODE 0).toNat
    exec (.devModeWrite v) s = .next { s with modes := s.modes ++ [.dev v.toNat] } ∧
    (cl.val < s.nClusters → (∀ j, j < 4 → w.toNat / 4 ^ j % 4 ≠ 3) → exec (.cluModeWrite cl w) s = .next { s with modes := s.modes ++ [.clu cl w.toNat] }) ∧
    (s.nClusters ≤ cl.val → exec (.cluModeWrite cl w) s = .next s) ∧
    (cl.val < s.nClusters → ∀ q : State, q = (if ∃ j < 4, w.toNat / 4 ^ j % 4 = 3 then s.setFld f_CLU_STAT_RSVW cl 1 else s) →
      ∃ x, exec (.cluModeWrite cl w) s = .next { q with modes := s.modes ++ [.clu cl x] } ∧ x / 256 = w.toNat / 256 ∧
        ∀ j, j < 4 → x / 4 ^ j % 4 = if w.toNat / 4 ^ j % 4 = 3 then (s.reg .CLU_MODE cl).toNat / 4 ^ j % 4 else w.toNat / 4 ^ j % 4) ∧
    (let idle : State := { s with modes := [] }
     let made (t : State) : State :=
       let t := ((idle.differs t f_CLU_MODE_TRACE mTRACE).flatMap coresOf).foldl (fun t h => t.modCore h (fun k => { k with traceN := 0 })) t
       let m := (t.reg .DEV_MODE 0).toNat % 256
       (((t.logBb 9 0 m).traceE 1 114 0 m).setReg .DEV_MODESTAT 0 1).cueEvent 114
     let admits (t : State) : Prop := serves ∧ s.flag f_DEV_MODESTAT_BUSY 0 = false ∧ s.modes = [] ∧ s.mode mREPLAY = false ∧ s.pm.ropc ≠ 0x11 ∧
       idle.differs t f_CLU_MODE_LOCKSTEP mLOCKSTEP = [] ∧ ∀ q ∈ idle.affected t, idle.holdable q = true
     (admits (idle.setReg .DEV_MODE 0 (w64 v.toNat)) → now < 256 → (∀ b ∈ [mRECORD, mREPLAY, mECONOMY, mSEALED], v.toNat / 2 ^ b % 2 = now / 2 ^ b % 2) →
       ∃ u, exec (.devModeWrite v) s = .next u ∧ exec .modeChange u = .next (made (idle.setReg .DEV_MODE 0 (w64 v.toNat)))) ∧
     (admits (idle.setReg .CLU_MODE cl (w64 w.toNat)) → cl.val < s.nClusters → (∀ j, j < 4 → w.toNat / 4 ^ j % 4 ≠ 3) →
       ∃ u, exec (.cluModeWrite cl w) s = .next u ∧ exec .modeChange u = .next (made (idle.setReg .CLU_MODE cl (w64 w.toNat))))) ∧
    (s.modes = [] → exec .modeChange s = .next s) ∧
    (¬ serves → exec .modeChange s = .next s) ∧
    (serves → ∀ x, x < 256 → s.flag f_DEV_MODESTAT_BUSY 0 = true → exec .modeChange (asked x) = .next (refused 2)) ∧
    (serves → s.flag f_DEV_MODESTAT_BUSY 0 = false → now < 256 → ∀ x, x < 256 →
      (x / 4 % 2 = 1 → x / 128 = 1 → exec .modeChange (asked x) = .next (refused 4)) ∧
      (now / 128 = 0 → x / 128 = 1 → x / 4 % 2 = 0 → s.mode mREPLAY = true ∨ s.debugScope ≠ 0 ∨ (∃ q, q < s.nClusters ∧ s.flag f_MCS_STAT_CUST q = true) →
        exec .modeChange (asked x) = .next (refused 3)) ∧
      (now / 4 % 2 = 0 → x / 4 % 2 = 1 → x / 128 = 0 → s.fld f_REH_RPSTAT_CODE 0 ≠ 2 → exec .modeChange (asked x) = .next (refused 5)) ∧
      (now / 2 % 2 = 0 → x / 2 % 2 = 1 → x / 4 % 2 = 0 → x / 128 = 0 → s.fld f_REH_RING_SIZE 0 = 0 → exec .modeChange (asked x) = .next (refused 7)) ∧
      (x % 64 = now % 64 → x / 128 = now / 128 → s.mode mREPLAY = false ∨ x / 128 = 0 →
        s.pm.ropc ≠ 0x11 → exec .modeChange (asked x) =
          .next (((((target x).logBb 9 0 x).traceE 1 114 0 x).setReg .DEV_MODESTAT 0 1).cueEvent 114))) ∧
    (let on : State := { s with modes := rest }.setReg .CLU_MODE cl 0x2
     serves → s.modes = .clu cl 0x2 :: rest → s.flag f_DEV_MODESTAT_BUSY 0 = false → s.reg .CLU_MODE cl = 0 → s.mode mLOCKSTEP = false → s.mode mREPLAY = false →
      s.cores.length = 256 → cl.val ∈ s.enabledClusters → s.holdable cl = true → s.flag f_REH_TCTL_EEN 0 = false →
      (∀ h, (s.core h).frameLines = [] ∧ (s.core h).psw.sc = false) → s.pm.ropc ≠ 0x11 →
      ∃ t, exec .modeChange s = .next t ∧ t.reg .CLU_MODE cl = on.reg .CLU_MODE cl ∧ t.fld f_DEV_MODESTAT_CODE 0 = 1 ∧
        ∀ j, j < 4 → let a := t.core (8 * cl + 2 * j)
          let b := t.core (8 * cl + 2 * j + 1)
          b.stk = a.stk ∧ b.psw = a.psw ∧ b.pc = a.pc ∧ b.sr = a.sr ∧ b.house = a.house ∧ b.back = a.back ∧ b.mem.dtlb = a.mem.dtlb ∧ b.mem.itlb = a.mem.itlb ∧
            b.mem.wings = a.mem.wings ∧ a.mem.dframes = [] ∧ b.mem.dframes = [] ∧ a.mem.iframes = [] ∧ b.mem.iframes = [] ∧ a.stk = (s.core (8 * cl + 2 * j)).stk) ∧
    (¬ (s.status = 4 ∧ s.lockstep p = true ∧ s.running p = true) → exec (.lockstepDivergence c) s = .next s) ∧
    (s.status = 4 → s.lockstep p = true → s.running p = true → p + 1 < s.cores.length →
      ∃ t, exec (.lockstepDivergence c) s = .next t ∧
        (∀ x, x = p ∨ x = p + 1 → (t.core x).wait = none ∧ (t.core x).psw.sc = false ∧
          (s.flag f_CLU_MODE_DEVHALT (clusterOf p) = false → (t.core x).run = .diverged ∧
            t.reg .CORE_HALT x = w64 (2 ^ 63 + b2n (s.core x).psw.w * 2 ^ 16 + 0x203))) ∧
        t.reg .CLU_LSSTAT (clusterOf p) = w64 (2 ^ 63 + p % 8 / 2 * 2 ^ 48 + (s.core p).pc % 2 ^ 48) ∧
        t.reg .CLU_LSTIME (clusterOf p) = w64 s.time ∧ t.reg .CLU_LSDIV (clusterOf p) = s.reg .CLU_LSDIV (clusterOf p) + 1 ∧
        (t.bb.events.head?.map (fun e => (e.code, e.unit, e.detail))) = some (2, p, (s.core p).pc % 2 ^ 40) ∧
        (s.flag f_CLU_MODE_DEVHALT (clusterOf p) = true → t.status = 9))

/-- R426-R428: background tests, requests for a unit's test, their start, result, deadline and abort. -/
def Obligations.SelfTests : Prop :=
  ∀ (s : State) (cl : Fin 32) (c : Fin 256) (k : Fin 16) (idx : BitVec 12) (fail pass : Bool) (t : SelfTest),
    let stres (u : State) (pend : Bool) (code unit : Nat) : State := u.setReg .DEV_STRES 0 (w64 (b2n pend * 2 ^ 63 + code * 2 ^ 56 + unit % 2 ^ 16))
    let background : Prop := s.mode mSELFTEST = true ∧ s.status = 4
    let out (u : State) (q : Nat) : State := (u.ccClean q (fun x => x.way == (s.cluster q).rotNext)).modCluster q (fun k => { k with
      rot := some (s.cluster q).rotNext, rotNext := ((s.cluster q).rotNext + 1) % 16, rotAt := s.time })
    (¬ background → exec (.selftestWayRotation cl fail) s = .next s ∧ exec (.selftestIdleCore c fail) s = .next s) ∧
    (background → cl.val ∈ s.enabledClusters → s.rotDue cl = true → fail = false ∨ (s.cluster cl).rot = none →
      (∀ x ∈ (s.cluster cl).lines, x.way ≠ (s.cluster cl).rotNext) →
      exec (.selftestWayRotation cl fail) s = .next (s.modCluster cl (fun k => { k with
        rot := some k.rotNext, rotNext := (k.rotNext + 1) % 16, rotAt := s.time }))) ∧
    (background → exec (.selftestIdleCore c false) s = .next s) ∧
    (background → s.present c = true → s.testIdle c = true → c.val < s.cores.length → s.flag f_DEV_STRES_PEND 0 = false →
      ∃ u, exec (.selftestIdleCore c true) s = .next u ∧ (u.core c).run = .held ∧ u.reg .DEV_STRES 0 = w64 (2 * 2 ^ 56 + c.val) ∧
        (u.bb.events.head?.map (fun e => e.code)) = some 0x0A) ∧
    (s.flag f_DEV_STRES_PEND 0 = true → exec (.devStreq k idx) s = .next (s.setFld f_DEV_ERR_STBUSY 0 1)) ∧
    (s.flag f_DEV_STRES_PEND 0 = false →
      (6 ≤ k.val → exec (.devStreq k idx) s = .next (s.setFld f_DEV_ERR_RSVW 0 1)) ∧
      (k.val < 6 → s.testPresent k idx.toNat = false → exec (.devStreq k idx) s = .next (stres s false 4 (k * 2 ^ 12 + idx.toNat))) ∧
      (k.val < 6 → s.testPresent k idx.toNat = true → exec (.devStreq k idx) s =
        .next (stres { s with test := some { cls := k, idx := idx.toNat, since := s.time } } true 0 (k * 2 ^ 12 + idx.toNat)))) ∧
    (s.test = none → exec .selftestStart s = .next s ∧ exec .selftestDeadline s = .next s ∧ exec (.selftestResult pass) s = .next s ∧
      exec .devStreqAbort s = .next (s.setFld f_DEV_STRES_CODE 0 6)) ∧
    (s.test = some t →
      (t.running = false → s.status ≠ 5 → s.unitIdle t = true → t.cls ≠ 1 → exec .selftestStart s = .next { s with test := some { t with running := true } }) ∧
      (t.running = false → s.status ≠ 5 → s.unitIdle t = true → t.cls = 1 → exec .selftestStart s = .next (out { s with test := some { t with running := true } } t.idx)) ∧
      (t.running = true ∨ s.unitIdle t = false → exec .selftestStart s = .next s) ∧
      (t.running = false → s.fld f_DEV_STCFG_DEADLINE 0 * 1000 ≤ s.time - t.since → exec .selftestDeadline s =
        .next ((stres { s with test := none } false 3 (t.cls * 2 ^ 12 + t.idx)).bump .DEV_STNOTRUN 0 1)) ∧
      (t.running = true ∨ s.time - t.since < s.fld f_DEV_STCFG_DEADLINE 0 * 1000 → exec .selftestDeadline s = .next s) ∧
      (t.running = false → exec (.selftestResult pass) s = .next s) ∧
      (t.running = true → t.cls ≠ 1 → t.cls ≠ 4 → s.unitIdle t = false → exec (.selftestResult pass) s = .next { s with test := some { t with running := false } }) ∧
      (t.running = true → t.cls ≠ 1 → t.cls = 4 ∨ s.unitIdle t = true →
        exec (.selftestResult true) s = .next (stres { s with test := none } false 1 (t.cls * 2 ^ 12 + t.idx)) ∧
        ∃ u, exec (.selftestResult false) s = .next u ∧ u.test = none ∧ u.reg .DEV_STRES 0 = w64 (2 * 2 ^ 56 + (t.cls * 2 ^ 12 + t.idx) % 2 ^ 16) ∧
          (u.bb.events.head?.map (fun e => e.code)) = some 0x0A ∧ (t.cls = 0 → t.idx < s.cores.length → (u.core t.idx).run = .held)) ∧
      (t.running = true → t.cls = 1 →
        let back : State := if s.mode mSELFTEST = true then s else s.modCluster t.idx (fun k => { k with rot := none })
        exec (.selftestResult true) s = .next (stres { back with test := none } false 1 (t.cls * 2 ^ 12 + t.idx)) ∧
        (∀ w, (s.cluster t.idx).rot = some w → ∃ u, exec (.selftestResult false) s = .next u ∧ u.test = none ∧
          u.fld f_CC_CTL_WAYDIS t.idx = (s.fld f_CC_CTL_WAYDIS t.idx ||| 2 ^ w) % 2 ^ 16)) ∧
      (t.cls ≠ 1 ∨ t.running = false ∨ s.mode mSELFTEST = true → exec .devStreqAbort s = .next (stres { s with test := none } false 5 (t.cls * 2 ^ 12 + t.idx))) ∧
      (t.cls = 1 → t.running = true → s.mode mSELFTEST = false → exec .devStreqAbort s =
        .next (stres { s.modCluster t.idx (fun k => { k with rot := none }) with test := none } false 5 (t.cls * 2 ^ 12 + t.idx))))

/-- R434, R437, R438, R440, R442-R445, R447, R448: chunks end and commit in order, markers, the ring and its heads, the snapshot's end and an
abort. -/
def Obligations.Recording : Prop :=
  ∀ (s : State) (a : Fin 288) (c : Fin 256) (v : BitVec 32) (d : BitVec 64), Memory.wf s = true → s.cores.length = 256 → s.clusters.length = 32 →
    let k := s.chunkOf a
    let tail := s.fld f_REH_RTAIL_INDEX 0
    let head := s.fld f_REH_RHEAD_INDEX 0
    let base := s.fld f_REH_RING_BASE 0
    let cap := s.ringCap * 2
    let seq := s.fld f_REH_STAT_SEQ 0
    let ended (cause : Nat) (steps : Option Nat) : Ended :=
      { agent := a, cause := cause, len := k.len, ret := k.ret, num := k.num + 1, recs := k.recs, steps := steps, after := [] }
    let closed (cause : Nat) (steps : Option Nat) : State := { s.modChunk a (fun k => { k with
      reads := [], writes := [], len := 0, recs := [], due := none, isUnsafe := false, num := k.num + 1 }) with reh := { s.reh with queue := s.reh.queue ++ [ended cause steps] } }
    (k.due = none ∨ s.recording = false → exec (.chunkEnd a) s = .next s) ∧
    (∀ cause, k.due = some cause → s.recording = true →
      ((s.core a).psw.step = false ∨ 256 ≤ a.val → exec (.chunkEnd a) s = .next (closed cause none)) ∧
      ((s.core a).psw.step = true → a.val < 256 → exec (.chunkEnd a) s = .next (closed cause (some k.steps)))) ∧
    (s.reh.queue = [] → exec .chunkCommit s = .next s) ∧
    (∀ e rest, s.reh.queue = e :: rest → s.fld f_REH_HASHINT_CHUNKS 0 = 0 → s.mode mREPLAY = false →
      (s.ringRoom 1 = true → e.recs = [] → e.after = [] → e.steps = none → 0 < e.len → e.len ≤ 4096 → e.agent < 512 → e.cause < 16 → e.ret < 2 ^ 48 →
        ∃ t, exec .chunkCommit s = .next t ∧ t.rd (base + 2 * tail % cap) = word tRAW (e.agent * 2 ^ 51 + seq) ∧
          t.rd (base + (2 * tail + 1) % cap) = word tRAW (e.cause * 2 ^ 60 + (e.len - 1) * 2 ^ 48 + e.ret) ∧
          (∀ x, x ≠ base + 2 * tail % cap → x ≠ base + (2 * tail + 1) % cap → t.rd x = s.rd x) ∧ t.fld f_REH_RTAIL_INDEX 0 = (tail + 1) % 2 ^ 32 ∧
          t.fld f_REH_STAT_SEQ 0 = (seq + 1) % 2 ^ 40 ∧ t.reh.queue = rest ∧ t.reg .REH_RECORDS 0 = s.reg .REH_RECORDS 0 + 1 ∧
          (e.agent < 256 → t.reg .CORE_CHUNKS e.agent = s.reg .CORE_CHUNKS e.agent + 1) ∧ t.cores = s.cores) ∧
      (s.ringRoom ((e.records seq 0 (Config.freeValue s.free)).map Recd.size).sum = false →
        (s.flag f_REH_CTL_OVF 0 = false → exec .chunkCommit s = .next s) ∧
        (s.flag f_REH_CTL_OVF 0 = true → ∃ t, exec .chunkCommit s = .next t ∧ t.flag f_REH_STAT_STOPPED 0 = true ∧ t.flag f_REH_STAT_ACTIVE 0 = false ∧
          t.reg .REH_GAPS 0 = s.reg .REH_GAPS 0 + 1 ∧ t.reh.queue = [] ∧ (t.reh.mirror.head?.map (fun x => x.1 / 2 ^ 60)) = some 8 ∧
          ∀ x, t.chunkOf x = {}))) ∧
    (s.reh.queue = [] → exec (.rehRheadWrite v) s = .next (s.setFld f_REH_RHEAD_INDEX 0 v.toNat)) ∧
    exec (.rehHheadWrite v) s = .next (s.setFld f_REH_HHEAD_INDEX 0 v.toNat) ∧
    (s.mode mREPLAY = true → exec (.rehMark c d) s = .next (s.bump .REH_LIVEDROP 0 1)) ∧
    (s.mode mREPLAY = false → s.recording = false → exec (.rehMark c d) s = .next s) ∧
    (s.mode mREPLAY = false → s.recording = true → exec (.rehMark c d) s = .next (s.modCore c (fun k => { k with chunk := { k.chunk with
      recs := k.chunk.recs ++ [{ q0 := 7 * 2 ^ 60 + c.val * 2 ^ 51 + (s.core c).chunk.len % 2 ^ 13, q1 := d.toNat }] } }))) ∧
    (s.flag f_REH_STAT_SNAPHOLD 0 = false → exec .snapshotComplete s = .next s) ∧
    (s.flag f_REH_STAT_SNAPHOLD 0 = true → s.tour.held = [] → s.tour.loop = [] → s.tour.reqs = [] →
      let w := Wire.image (s.reg .REH_SNAP 0).toNat s.beginWords (s.mem.filter (fun x => isLocal x.1 && !(s.offImage x.1))) s.emptied
        ((List.range s.nCores).map (fun c => if s.recordedAgent c then s.context c else []))
      exec .snapshotComplete s = .next { s.setFld f_REH_STAT_SNAPHOLD 0 0 with wire := w :: s.wire }) ∧
    (let q0 := (s.rd (base + head * 2 % Nat.max 1 cap)).datum
     let n := 1 + bits q0 50 44
     let h := s.fld f_REH_HTAIL_INDEX 0
     let pa (k : Nat) : Nat := s.hostPa (s.fld f_REH_HBUF_BASE 0 * 4096 + (2 * h + k) % Nat.max 1 (s.fld f_REH_HBSIZE_SIZE 0 * 512) * 8)
     let may : Prop := s.fld f_REH_CTL_DRAIN 0 = 1 ∧ s.hostUp = true ∧ s.mode mREPLAY = false ∧ n ≤ s.ringUsed ∧ n ≤ s.hostRoom
     (¬ may → exec .hostpushDrain s = .next s) ∧
     (may → s.recording = false → s.reh.queue = [] → (∀ k, k < 2 * n → place (pa k) = .host ∧ s.dirOf (lineOf (pa k)) = none) →
       (∀ k, place (base + k % Nat.max 1 cap) = .priv) →
       ∃ t, exec .hostpushDrain s = .next t ∧ t.fld f_REH_HTAIL_INDEX 0 = (h + n) % 2 ^ 32 ∧ t.fld f_REH_RHEAD_INDEX 0 = (head + n) % 2 ^ 32 ∧
         ∀ k, k < 2 * n → .hostWrite (pa k) (asStored (pa k) (s.rd (base + (2 * head + k) % Nat.max 1 cap))) ∈ t.wire)) ∧
    (let off := s.setFld f_REH_CTL_ABORT 0 0
     (s.flag f_REH_STAT_ACTIVE 0 = false → exec .rehCtlAbort s = .next (off.setFld f_REH_STAT_ABRES 0 2)) ∧
     (s.flag f_REH_STAT_ACTIVE 0 = true → s.reh.queue = [] → ∃ t, exec .rehCtlAbort s = .next t ∧ t.flag f_REH_STAT_ACTIVE 0 = false ∧
       t.flag f_REH_STAT_SNAPHOLD 0 = false ∧ t.fld f_REH_STAT_ABRES 0 = 1 ∧ t.flag f_REH_CTL_ABORT 0 = false ∧ (∀ x, t.chunkOf x = {}) ∧
       t.reh.mirror.head? = some (10 * 2 ^ 60 + 2 ^ 40 + (if seq = 0 then 0 else seq - 1), s.time) ∧ t.fld f_REH_RTAIL_INDEX 0 = (tail + 1) % 2 ^ 32))

/-- R449-R452, R454-R456: a replay is prepared, readied, run chunk by chunk, stopped, resumed and aborted; a log of BEGIN alone is the whole
log prepared here. The trace unit's LOSS entries and the end of its freeze. -/
def Obligations.Replaying : Prop :=
  ∀ (s : State) (log : List (BitVec 64)) (ctxs : List (List TWord)) (r : Recd) (rest : List Recd) (a : Nat) (cur : Recd),
    let status (x : Nat) : State := ((s.setFld f_REH_RPCTL_PREP 0 0).setReg .REH_RPSTAT 0 (w64 (2 ^ 60))).setReg .REH_RPSTAT 0 (w64 x)
    let begin' : List Nat := (9 * 2 ^ 60 + 21 * 2 ^ 44) :: s.time :: s.beginWords
    let stopped (u : State) (code cause agent seq : Nat) : State :=
      let b := (((u.setFld f_REH_RPSTAT_CODE 0 code).setFld f_REH_RPSTAT_CAUSE 0 cause).setFld f_REH_RPSTAT_AGENT 0 agent).setFld f_REH_RPSTAT_SEQ 0 seq
      (b.traceE 3 112 0 (code * 16 + cause)).cueEvent 112
    let consumed (u : State) (n : Nat) (l : List Recd) : State := { u with reh := { u.reh with log := l } }.setFld f_REH_HHEAD_INDEX 0 ((u.fld f_REH_HHEAD_INDEX 0 + n) % 2 ^ 32)
    let type := r.q0 / 2 ^ 60 % 16
    let runs : Prop := s.mode mREPLAY = true ∧ s.fld f_REH_RPSTAT_CODE 0 = 3 ∧ s.status = 4
    (s.mode mREPLAY = true → exec (.replayPrep log none ctxs) s = .next s) ∧
    (s.mode mREPLAY = false →
      exec (.replayPrep [] none ctxs) s = .next (status (10 * 2 ^ 60 + 5 * 2 ^ 56)) ∧
      (log.length = 1 → exec (.replayPrep log none ctxs) s = .next (status (10 * 2 ^ 60 + 5 * 2 ^ 56))) ∧
      (s.time < 2 ^ 64 → log.map BitVec.toNat = begin' → s.flag f_REH_RPCTL_RESTORE 0 = true →
        exec (.replayPrep log none ctxs) s = .next (status (10 * 2 ^ 60 + 6 * 2 ^ 56))) ∧
      (s.time < 2 ^ 64 → log.map BitVec.toNat = begin' → s.flag f_REH_RPCTL_RESTORE 0 = false →
        ∃ t, exec (.replayPrep log none ctxs) s = .next t ∧ t.fld f_REH_RPSTAT_CODE 0 = 1 ∧ t.reh.hold = true ∧ t.reh.log = [] ∧ t.reh.beginW = s.beginWords ∧
          t.fld f_REH_HHEAD_INDEX 0 = (s.fld f_REH_HHEAD_INDEX 0 + 22) % 2 ^ 32 ∧ t.mem = s.mem ∧ t.cores = s.cores)) ∧
    (s.fld f_REH_RPSTAT_CODE 0 = 1 → s.reh.hold = true → exec .replayReady s = .next (s.setFld f_REH_RPSTAT_CODE 0 2)) ∧
    (s.fld f_REH_RPSTAT_CODE 0 ≠ 1 ∨ s.reh.hold = false → exec .replayReady s = .next s) ∧
    (¬ runs → exec .replayChunk s = .next s) ∧
    (runs → s.reh.cur = none → s.reh.log = [] → exec .replayChunk s = .next s) ∧
    (runs → s.reh.cur = none → s.reh.log = r :: rest →
      (type = 8 → exec .replayChunk s = .next (stopped (consumed s r.size rest) 8 0 0 (r.q0 % 2 ^ 40))) ∧
      (type = 10 → exec .replayChunk s = .next (stopped { consumed s r.size rest with reh := { (consumed s r.size rest).reh with ended := true } } 5 0 0 (r.q0 % 2 ^ 40))) ∧
      (type = 0 → bit (w64 r.q0) 43 = false → r.q0 / 2 ^ 51 % 512 < 256 → (bits (s.reg .REH_RPCTL 0) 39 0 = 0 ∨ r.q0 % 2 ^ 40 ≠ bits (s.reg .REH_RPCTL 0) 39 0) →
        let c := r.q0 / 2 ^ 51 % 512
        let n := r.q1 / 2 ^ 48 % 4096 + 1
        let len := if n = 4096 ∧ r.q1 / 2 ^ 60 % 16 ≠ 0 then 0 else n
        let t := (consumed s r.size rest).modCore c (fun k => { k with chunk := { k.chunk with vals := [], left := len, goal := len, stepGoal := r.units.headD 0 } })
        exec .replayChunk s = .next { t.modCore c (fun k => { k with wait := if k.wait = some .replay then none else k.wait }) with
          reh := { t.reh with cur := some (c, r) } }) ∧
      (type = 0 → bit (w64 r.q0) 43 = false → bits (s.reg .REH_RPCTL 0) 39 0 ≠ 0 → r.q0 % 2 ^ 40 = bits (s.reg .REH_RPCTL 0) 39 0 →
        exec .replayChunk s = .next (stopped s 4 0 (r.q0 / 2 ^ 51 % 512) (r.q0 % 2 ^ 40)))) ∧
    (runs → s.reh.cur = some (a, cur) → 0 < (s.chunkOf a).left ∨ (s.chunkOf a).steps < (s.chunkOf a).stepGoal → exec .replayChunk s = .next s) ∧
    (let off := s.setFld f_REH_RPCTL_RESUME 0 0
     (s.mode mREPLAY = false ∨ s.fld f_REH_RPSTAT_CODE 0 ≠ 4 → exec .replayResume s = .next off) ∧
     (s.mode mREPLAY = true → s.fld f_REH_RPSTAT_CODE 0 = 4 → s.reh.log = [] → exec .replayResume s = .next (off.setReg .REH_RPSTAT 0 (w64 (3 * 2 ^ 60))))) ∧
    (let off := s.setFld f_REH_RPCTL_ABORT 0 0
     (s.mode mREPLAY = false → exec .replayAbort s = .next off) ∧
     (s.mode mREPLAY = true → s.reh.ended = true → exec .replayAbort s = .next (off.setFld f_REH_STAT_ABRES 0 2)) ∧
     (s.mode mREPLAY = true → s.reh.ended = false → s.reh.cur = none → exec .replayAbort s = .next (stopped off 9 0 0 0))) ∧
    (let frozen := s.flag f_REH_TCTL_FROZEN 0
     let q (n : Nat) : Nat := s.time % 2 ^ 40 * 2 ^ 24 + min n 0xFFFFFF
     let i := s.fld f_REH_TPTR_ITB 0
     let e := s.fld f_REH_TPTR_ETB 0
     let u : State := { s with reh := { s.reh with lossI := 0, lossE := 0 } }
     let loss (f : Fld) (r : Reg) (i n : Nat) : State := ((u.setReg r (2 * i) (w64 (8 * 2 ^ 60))).setReg r (2 * i + 1) (w64 (q n))).setFld f 0 ((i + 1) % 8192)
     (frozen = true ∨ (s.reh.lossI = 0 ∧ s.reh.lossE = 0) → exec .traceLossEntry s = .next s) ∧
     (s.reh.lossI = 0 → s.reh.lossE = 0 → exec .rehTctlFrozenClear s = .next (s.setFld f_REH_TCTL_FROZEN 0 0)) ∧
     (frozen = false → s.flag f_REH_TCTL_STREAM 0 = false →
       (s.reh.lossI = 0 → 0 < s.reh.lossE → exec .traceLossEntry s = .next (loss f_REH_TPTR_ETB .REH_ETB e s.reh.lossE)) ∧
       (0 < s.reh.lossI → s.reh.lossE = 0 → exec .traceLossEntry s =
         .next { loss f_REH_TPTR_ITB .REH_ITB i s.reh.lossI with cores := s.cores.map (fun k => { k with traceN := 0 }) })))

/-- R459-R466, R462, R479, R538: the straps, the start of the clocks, loss and return of references and PLLs, tile PLL changes, and gating. -/
def Obligations.ClocksAndGating : Prop :=
  ∀ (s : State) (profile : BitVec 2) (paddr : BitVec 3) (recover : Bool) (p : Fin 9) (t : Fin 4) (f g : BitVec 12) (k : Fin 16) (idx : BitVec 12) (gt : Gate),
    s.clk.aon = true → s.clk.tpll.length = 4 → s.clk.tpllNext.length = 4 →
    let clk (s : State) (f : Clk → Clk) : State := { s with clk := f s.clk }
    let lost (s : State) (mask unit cause : Nat) : State :=
      let a := ((s.setFld f_CLK_STAT_PLLLOST 0 (s.fld f_CLK_STAT_PLLLOST 0 ||| mask)).setFld f_CLK_STAT_LOSTREF 0 1).setFld f_CLK_STAT_CAUSE 0 cause
      let b := (List.range 4).foldl (fun (s : State) t => if mask.testBit t then s.setFld f_CLK_TPLL_EFFMHZ t 400 else s) a
      ((b.setFld f_PWR_ALSTAT_ALERT 0 (b.fld f_PWR_ALSTAT_ALERT 0 ||| 1)).logBb 4 unit (b.fld f_CLK_STAT_CAUSE 0)).cueEvent 114
    let pllOn : Prop := s.status = 2 ∨ s.status = 3 ∨ s.status = 4 ∨ s.status = 8 ∨ s.status = 9
    let core : Nat := f.toNat
    let cch : Nat := g.toNat
    let coreOk : Prop := 400 ≤ core ∧ core ≤ 3000 ∧ core % 25 = 0 ∧ core ≤ Config.fusedMax t
    let cchOk : Prop := 200 ≤ cch ∧ cch ≤ 2000 ∧ cch % 25 = 0
    let starts (u : State) (v w : Nat) : State := clk (((u.setFld f_CLK_TPLL_COREMHZ t v).setFld f_CLK_TPLL_CCHMHZ t w).setFld f_CLK_TPLL_BUSY t 1)
      (fun k => { k with tpll := k.tpll.set t (some (w64 (w * 2 ^ 16 + v))) })
    let gstat (u : State) (pend : Bool) (code op cls i : Nat) : State :=
      u.setReg .CLK_GSTAT 0 (w64 (b2n pend * 2 ^ 63 + code * 2 ^ 56 + op * 2 ^ 20 + cls * 2 ^ 16 + i % 2 ^ 12))
    let ends (u : State) (code : Nat) : State := gstat (clk u (fun k => { k with gate := none })) false code 1 gt.cls gt.idx
    (s.clk.por = true → exec (.porNRelease profile paddr recover) s = .next ((clk s (fun k => { k with
      por := false, porAt := s.time, profile := profile.toNat, paddr := paddr.toNat, recover := recover })).setFld f_PROMPTER_STAT_ADDR 0 (0x58 + paddr.toNat))) ∧
    (s.clk.por = true → exec .aonrcOk s = .next s ∧ exec .aon32Good s = .next s ∧ exec .aon32Timeout s = .next s ∧ exec .sysrefLost s = .next s) ∧
    (s.clk.por = false →
      exec (.porNRelease profile paddr recover) s = .next s ∧
      (s.clk.aonrc = false → s.clk.timeOn = false → s.status ≠ 0xE → exec .aonrcOk s = .next { clk s (fun k => { k with aonrc := true }) with status := 1 }) ∧
      (s.clk.aonrc = false → s.clk.timeOn = true → s.status ≠ 0xE → s.status ≠ 5 → s.flag f_CLK_STAT_ON32 0 = false →
        exec .aonrcOk s = .next (clk s (fun k => { k with aonrc := true }))) ∧
      exec .aon32Good s = .next ((clk s (fun k => { k with good32 := true })).setFld f_CLK_STAT_NO32 0 0) ∧
      (s.clk.good32 = false → exec .aon32Timeout s = .next (s.setFld f_CLK_STAT_NO32 0 1)) ∧
      (s.clk.good32 = true → exec .aon32Timeout s = .next s) ∧
      (s.clk.timeOn = false → exec .sysrefLost s = .next (s.setFld f_CLK_STAT_CAUSE 0 3)) ∧
      (s.clk.timeOn = true → s.flag f_CLK_STAT_FALLBACK 0 = true → exec .sysrefLost s = .next s) ∧
      (s.clk.timeOn = true → s.flag f_CLK_STAT_FALLBACK 0 = false → s.clk.aonrc = true → ∃ u, exec .sysrefLost s = .next u ∧ u.flag f_CLK_STAT_FALLBACK 0 = true ∧
        u.flag f_CLK_STAT_ON32 0 = false ∧ u.flag f_TIME_STAT_DEGRADED 0 = true ∧ u.fld f_CLK_STAT_CAUSE 0 = 1 ∧ u.time = s.time ∧
        (pllOn → u.fld f_CLK_STAT_PLLLOST 0 = 0x1FF ∧ ∀ j, j < 4 → u.fld f_CLK_TPLL_EFFMHZ j = 400))) ∧
    (s.clk.aonrc = true → s.clk.timeOn = false → s.status = 1 → ∃ u, exec .greenRoomClockSwitch s = .next u ∧ u.time = 0 ∧ u.clk.timeOn = true ∧
      u.status = (if s.clk.recover then 6 else 1) ∧ (s.clk.recover = true → u.fld f_LOADIN_STAT_CAUSE 0 = 14) ∧ u.mem = s.mem) ∧
    (s.clk.timeOn = true → exec .greenRoomClockSwitch s = .next s) ∧
    (¬ pllOn → exec (.pllLoss p) s = .next s) ∧
    (pllOn → s.flag f_CLK_CTL_LRACT 0 = false → ∃ u, exec (.pllLoss p) s = .next u ∧ u.regs = (lost s (2 ^ p.val) (2 ^ p.val) 4).regs ∧ u.status = s.status) ∧
    (pllOn → s.flag f_CLK_CTL_LRACT 0 = true → ∃ u, exec (.pllLoss p) s = .next u ∧ u.status = 8 ∧
      ∀ h, h < s.nCores → h < s.cores.length → (s.core h).run = .run → (u.core h).run = .curtain) ∧
    (let n := s.fld f_CLK_STAT_PLLLOST 0
     (n.testBit p = false ∨ s.flag f_CLK_STAT_FALLBACK 0 = true → exec (.pllRelock p) s = .next s) ∧
     (n.testBit p = true → s.flag f_CLK_STAT_FALLBACK 0 = false → 4 ≤ p.val → exec (.pllRelock p) s = .next (s.setFld f_CLK_STAT_PLLLOST 0 (n - 2 ^ p.val))) ∧
     (n.testBit p = true → s.flag f_CLK_STAT_FALLBACK 0 = false → p.val < 4 → let b := s.setFld f_CLK_STAT_PLLLOST 0 (n - 2 ^ p.val)
       exec (.pllRelock p) s = .next (b.setFld f_CLK_TPLL_EFFMHZ p (b.effMhz p)))) ∧
    (s.flag f_CLK_STAT_FALLBACK 0 = true → s.status ≠ 0xE → exec .sysrefRestored s =
      .next (((s.setFld f_CLK_STAT_FALLBACK 0 0).setFld f_CLK_STAT_ON32 0 0).setFld f_TIME_STAT_ON32 0 0)) ∧
    (s.flag f_CLK_STAT_FALLBACK 0 = false → exec .sysrefRestored s = .next s) ∧
    (s.status = 5 → s.clk.wake ≠ none → s.clk.aonrc = false →
      (33 * 10 ^ 9 ≤ (s.time - s.clk.rcAt) * 32768 → ∃ u, exec .fallbackSlow s = .next u ∧ u.status = 0xE ∧ u.clk.wake = none ∧ u.fld f_CLK_STAT_CAUSE 0 = 2 ∧
        u.flag f_CLK_STAT_ON32 0 = true ∧ u.flag f_TIME_STAT_ON32 0 = true ∧ u.mem = s.mem ∧ (u.bb.events.head?.map (fun e => e.code)) = some 4) ∧
      ((s.time - s.clk.rcAt) * 32768 < 33 * 10 ^ 9 → exec .fallbackSlow s = .next s)) ∧
    (s.clk.tpll.getD t none = none →
      (coreOk → cchOk → exec (.clkTpllWrite t f g) s = .next (starts s core cch)) ∧
      (¬ coreOk → cchOk → exec (.clkTpllWrite t f g) s = .next (starts (s.setFld f_DEV_ERR_RSVW 0 1) (s.fld f_CLK_TPLL_COREMHZ t) cch)) ∧
      (coreOk → ¬ cchOk → exec (.clkTpllWrite t f g) s = .next (starts (s.setFld f_DEV_ERR_RSVW 0 1) core (s.fld f_CLK_TPLL_CCHMHZ t))) ∧
      exec (.tpllChangeDone t) s = .next (if s.flag f_DEV_MODESTAT_BUSY 0 && s.clk.tpll.all Option.isNone then s.modeDone else s)) ∧
    (∀ v, s.clk.tpll.getD t none = some v →
      (coreOk → cchOk → exec (.clkTpllWrite t f g) s = .next (clk s (fun k => { k with tpllNext := k.tpllNext.set t (some (w64 (cch * 2 ^ 16 + core))) }))) ∧
      (s.clk.tpllNext.getD t none = none → s.flag f_DEV_MODESTAT_BUSY 0 = false → ∃ u, exec (.tpllChangeDone t) s = .next u ∧
        u.fld f_CLK_TPLL_EFFMHZ t = s.effMhz t % 2 ^ 12 ∧ u.flag f_CLK_TPLL_BUSY t = false ∧ u.clk.tpll.getD t none = none ∧ u.cores = s.cores ∧ u.mem = s.mem)) ∧
    (6 ≤ k.val → exec (.clkGreqGate k idx) s = .next (s.setFld f_DEV_ERR_RSVW 0 1) ∧ exec (.clkGreqUngate k idx) s = .next (s.setFld f_DEV_ERR_RSVW 0 1)) ∧
    (k.val < 6 → s.clk.gate = none →
      (s.gatePresent k idx.toNat = false → exec (.clkGreqGate k idx) s = .next (gstat s false 5 1 k idx.toNat) ∧
        exec (.clkGreqUngate k idx) s = .next (gstat s false 5 0 k idx.toNat)) ∧
      (s.gatePresent k idx.toNat = true → s.gateOk k idx.toNat = false → exec (.clkGreqGate k idx) s = .next ((gstat s false 3 1 k idx.toNat).bump .CLK_GREFUSE 0 1)) ∧
      (s.gatePresent k idx.toNat = true → s.gateOk k idx.toNat = true → exec (.clkGreqGate k idx) s =
        .next (gstat (clk s (fun x => { x with gate := some { cls := k, idx := idx.toNat, since := s.time } })) true 0 1 k idx.toNat)) ∧
      (s.gatePresent k idx.toNat = true → k.val = 4 → exec (.clkGreqUngate k idx) s =
        .next (gstat (clk s (fun x => { x with noPort := x.noPort.erase idx.toNat })) false 1 0 k idx.toNat))) ∧
    (k.val < 6 → s.clk.gate = some gt →
      exec (.clkGreqGate k idx) s = .next s ∧
      (gt.cls = k.val → gt.idx = idx.toNat → exec (.clkGreqUngate k idx) s = .next (ends s 4)) ∧
      (gt.cls ≠ k.val ∨ gt.idx ≠ idx.toNat → exec (.clkGreqUngate k idx) s = .next s)) ∧
    (s.clk.gate = none → exec .gateAck s = .next s ∧ exec .gateTimeout s = .next s) ∧
    (s.clk.gate = some gt →
      (s.gateOk gt.cls gt.idx = false → exec .gateAck s = .next (ends s 4)) ∧
      (gt.cls = 4 → s.gateOk 4 gt.idx = true → exec .gateAck s = .next (ends (clk s (fun x => { x with noPort := gt.idx :: x.noPort.erase gt.idx })) 1)) ∧
      (gt.cls = 3 → s.gateOk 3 gt.idx = true → exec .gateAck s = .next (ends (clk s (fun x => { x with noSth := gt.idx :: x.noSth.erase gt.idx })) 1)) ∧
      (gt.cls = 0 → s.lockstep gt.idx = false → s.gateOk 0 gt.idx = true → (s.core gt.idx).frameLines = [] → gt.idx < s.cores.length →
        ∃ u, exec .gateAck s = .next u ∧ (u.core gt.idx).gated = true ∧ (u.core gt.idx).mem = { wings := (s.core gt.idx).mem.wings } ∧
          bit (u.reg .PWR_GATED (gt.idx / 64)) (gt.idx % 64) = true ∧ u.fld f_CLK_GSTAT_CODE 0 = 1) ∧
      (s.fld f_CLK_GATE_TMO_CYCLES 0 * 16000 ≤ (s.time - gt.since) * s.unitRate gt → s.gateOk gt.cls gt.idx = true →
        exec .gateTimeout s = .next ((ends s 2).bump .CLK_GREFUSE 0 1)) ∧
      ((s.time - gt.since) * s.unitRate gt < s.fld f_CLK_GATE_TMO_CYCLES 0 * 16000 → exec .gateTimeout s = .next s))

/-- R431, R467-R473, R475-R477: Dark, the regulators, power and temperature limits, the thermal trip, and the time base. -/
def Obligations.PowerAndTime : Prop :=
  ∀ (s : State) (t : Fin 4) (tile : Fin 5) (watts : BitVec 16) (temp : BitVec 8) (ns : BitVec 62),
    let clk (s : State) (f : Clk → Clk) : State := { s with clk := f s.clk }
    let pllOn : Prop := s.status = 2 ∨ s.status = 3 ∨ s.status = 4 ∨ s.status = 8 ∨ s.status = 9
    let lim := s.fld f_PWR_PLIM_LIMIT 0
    let w := watts.toNat
    (s.darkOk = true → ∃ u, exec .pwrCmdDark s = .next u ∧ u.clk.dark = true ∧ u.flag f_PWR_STAT_BUSY 0 = true ∧ u.fld f_PWR_STAT_RES 0 = 0 ∧ u.status = 4) ∧
    (s.darkOk = false → s.clk.dark = true → exec .pwrCmdDark s = .next s) ∧
    (s.darkOk = false → s.clk.dark = false → exec .pwrCmdDark s = .next (s.setFld f_PWR_STAT_RES 0 4)) ∧
    (let off := s.setFld f_PWR_CMD_ABORT 0 0
     (s.clk.dark = true → exec .pwrCmdAbort s = .next (((clk off (fun k => { k with dark := false })).setFld f_PWR_STAT_BUSY 0 0).setFld f_PWR_STAT_RES 0 2)) ∧
     (s.clk.dark = false → exec .pwrCmdAbort s = .next (off.setFld f_PWR_STAT_RES 0 3))) ∧
    (s.clk.dark = false → exec .darkCommit s = .next s) ∧
    (s.clk.dark = true → ∃ u, exec .darkCommit s = .next u ∧ u.status = 5 ∧ u.clk.dark = false ∧ u.clk.aonrc = !s.clk.good32 ∧ u.fld f_PWR_STAT_RES 0 = 1 ∧
      u.flag f_PWR_STAT_BUSY 0 = false ∧ (∀ m, m < 4 → u.flag f_MC_STAT_SREF m = true) ∧ (∀ c, (u.core c).mem = { wings := (u.core c).mem.wings }) ∧
      ∀ q, (u.cluster q).lines = [] ∧ (u.cluster q).ctlb = []) ∧
    (s.status = 5 → s.clk.aonrc = true → s.tour.held = [] → s.tour.loop = [] → s.tour.reqs = [] → s.recal = [] → s.pm.wait = none → s.flag f_CLK_STAT_FALLBACK 0 = false →
      s.clk.wake = some 2 →
      let a := (List.range 4).foldl (fun (u : State) m => u.setFld f_MC_STAT_SREF m 0) (clk s (fun k => { k with wake := none }))
      exec .darkWake s = .next ((({ a with status := 4 }.setFld f_PWR_STAT_WAKE 0 2).bump .PWR_DARKS 0 1).cueEvent 115)) ∧
    (s.clk.wake = none ∨ s.status ≠ 5 ∨ s.clk.aonrc = false → exec .darkWake s = .next s) ∧
    (¬ pllOn → exec (.avsFailure t) s = .next s ∧ exec (.powerEstimate watts) s = .next s ∧ exec (.thermalThrottle tile temp) s = .next s) ∧
    (pllOn →
      (∃ u, exec (.avsFailure t) s = .next u ∧ u.reg .PWR_AVSERR 0 = s.reg .PWR_AVSERR 0 + 1 ∧ u.flag f_PWR_AVS_ERR 0 = true ∧ u.fld f_PWR_AVS_RAIL 0 = t.val ∧
        (u.fld f_PWR_ALSTAT_ALERT 0).testBit 3 = true ∧
        u.clk.avsCap = s.clk.avsCap.set t (Config.fusedMhz t (bits (s.reg .PWR_AVS 0) (10 * t.val + 9) (10 * t.val)))) ∧
      (∃ u, exec (.powerEstimate watts) s = .next u ∧ u.fld f_PWR_PLIM_POWER 0 = w ∧
        (lim < w → s.clk.pwSup < 12 → u.clk.pwSup = s.clk.pwSup + 1 ∧ u.clk.pwCut = s.clk.pwCut ∧ (u.fld f_PWR_ALSTAT_ALERT 0).testBit 2 = true) ∧
        (lim < w → 12 ≤ s.clk.pwSup → u.clk.pwSup = s.clk.pwSup ∧ u.clk.pwCut = min 2600 (s.clk.pwCut + 100)) ∧
        (w ≤ lim → w * 100 ≤ lim * 95 → s.clk.pwCut ≠ 0 → u.clk.pwSup = s.clk.pwSup ∧ u.clk.pwCut = s.clk.pwCut - 100) ∧
        (w ≤ lim → w * 100 ≤ lim * 95 → s.clk.pwCut = 0 → u.clk.pwSup = s.clk.pwSup - 1 ∧ u.clk.pwCut = 0) ∧
        (w ≤ lim → lim * 95 < w * 100 → u = s.setFld f_PWR_PLIM_POWER 0 w)) ∧
      exec (.thermalThrottle 4 temp) s = .next (s.setFld f_PWR_TEMP_IO 0 temp.toNat) ∧
      (s.clk.thSup.length = 4 → s.clk.thHot.length = 4 → s.clk.thCap.length = 4 → ∃ u, exec (.thermalThrottle ⟨t, by omega⟩ temp) s = .next u ∧
        bits (u.reg .PWR_TEMP 0) (8 * t.val + 7) (8 * t.val) = temp.toNat ∧
        (let hot : Prop := 100 ≤ temp.toInt ∨ (s.clk.thHot.getD t false = true ∧ 98 ≤ temp.toInt)
         let n := s.clk.thSup.getD t 0
         (hot → u.clk.thHot.getD t false = true ∧ u.clk.thSup.getD t 0 = min 15 (n + 1)) ∧ (¬ hot → u.clk.thHot.getD t false = false ∧ u.clk.thSup.getD t 0 = n - 1) ∧
         (100 ≤ temp.toInt → (u.fld f_PWR_ALSTAT_ALERT 0).testBit 1 = true) ∧
         (105 ≤ temp.toInt → n = 15 → u.clk.thCap.getD t 0 = 400) ∧ (temp.toInt < 98 → u.clk.thCap.getD t 0 = 3000)))) ∧
    (s.clk.aon = true → s.clk.por = false → s.clk.trip = false → 115 ≤ temp.toInt → ∃ u, exec (.thermtrip tile temp) s = .next u ∧ u.status = 0xA ∧ u.clk.trip = true ∧
      (∀ m, m < 4 → u.flag f_MC_STAT_SREF m = true) ∧ (u.bb.events.head?.map (fun e => (e.code, e.unit, e.detail))) = some (3, tile.val, temp.toNat)) ∧
    (temp.toInt < 115 → exec (.thermtrip tile temp) s = .next s) ∧
    ((∀ c, c < 256 → ((s.core c).ev.arm0 = false ∨ s.flag f_CUE_LCTL_T0EN c = false) ∧ ((s.core c).ev.arm1 = false ∨ s.flag f_CUE_LCTL_T1EN c = false)) →
      exec (.timeAdjStep ns) s = .next { s with time := (s.time + ns.toNat) % 2 ^ 64 }) ∧
    (∃ u, exec (.timeAdjStep ns) s = .next u ∧ u.time = (s.time + ns.toNat) % 2 ^ 64 ∧ u.mem = s.mem ∧
      ∀ c, c < s.nCores → c < s.cores.length → s.mode mREPLAY = false → s.flag f_CUE_LCTL_T0EN c = true → (s.core c).sr.timecmp0.toInt ≤ (u.time : Int) →
        (u.core c).ev.arm0 = false) ∧
    exec (.timeAdjSlew ns) s = .next (clk s (fun k => { k with slew := ns.toInt * 10 * 1000 })) ∧
    (s.clk.timeOn = false → exec .tsyncInEdge s = .next s ∧ exec .tsyncOutPulse s = .next s) ∧
    (s.clk.timeOn = true →
      (s.flag f_TIME_CTL_EXTAL 0 = false ∨ s.timeMaster = false ∨ s.fld f_TIME_PPS_INT 0 = 0 → exec .tsyncInEdge s = .next (s.setReg .TIME_CAPT 0 (w64 s.time))) ∧
      (s.flag f_TIME_CTL_EXTAL 0 = true → s.timeMaster = true → 0 < s.fld f_TIME_PPS_INT 0 →
        let n := s.fld f_TIME_PPS_INT 0
        let r : Int := ((s.time : Int) - s.fld f_TIME_PPS_OFS 0) % n
        let e : Int := if 2 * r ≤ n then r else r - n
        (-1000 ≤ e) → exec .tsyncInEdge s = .next (clk ((s.setReg .TIME_CAPT 0 (w64 s.time)).setFld f_TIME_STAT_EXTLOCK 0 (if e.natAbs ≤ 2 then 1 else 0))
          (fun k => { k with slew := -(e * 10) * 1000 }))) ∧
      (let n := s.fld f_TIME_PPS_INT 0
       let o := s.fld f_TIME_PPS_OFS 0
       let point := s.time - (s.time - o) % n
       (n = 0 ∨ s.time < o → exec .tsyncOutPulse s = .next s) ∧
       (0 < n → o ≤ s.time → s.clk.pulsed < point → exec .tsyncOutPulse s = .next { s with
         clk := { s.clk with pulsed := point }, wire := .tsyncOut point :: s.wire }) ∧
       (0 < n → o ≤ s.time → point ≤ s.clk.pulsed → exec .tsyncOutPulse s = .next s)))

/-- R414, R491-R497: Load-in selects a profile, goes through its stages, fails over to copy B, stops or waits for memory; cores start. -/
def Obligations.LoadInStages : Prop :=
  ∀ (s : State) (pllOk sys ok v sticky : Bool) (bad : BitVec 32) (prof : BitVec 2) (c : Fin 256) (sa : BitVec 48),
    let flagV := s.flag f_LOADIN_NEXT_V 0
    let sel : Nat := if flagV then s.fld f_LOADIN_NEXT_PROF 0 else s.clk.profile
    let src : Nat := if flagV then (if s.flag f_LOADIN_NEXT_STICKY 0 then 2 else 1) else 0
    let picked : State := (if flagV && !(s.flag f_LOADIN_NEXT_STICKY 0) then s.setFld f_LOADIN_NEXT_V 0 0 else s).setReg .LOADIN_STAT 0 (w64 (src * 16 + sel))
    let at1 : State := { picked.setFld f_LOADIN_STAT_STAGE 0 1 with status := 2, load := { s.load with bist := bad.toNat, secs := [], waiting := false } }
    let stops (u : State) (cause : Nat) : State :=
      { (u.setFld f_LOADIN_STAT_CAUSE 0 cause).logBb 5 ((u.setFld f_LOADIN_STAT_CAUSE 0 cause).fld f_LOADIN_STAT_COPY 0) cause with
        status := 0xF, load := { u.load with waiting := false } }
    let begins : Prop := s.status = 1 ∧ s.clk.timeOn = true ∧ s.fld f_LOADIN_STAT_CAUSE 0 = 0
    let early : Prop := s.status = 1 ∨ s.status = 2 ∨ s.status = 3
    s.clk.profile < 4 →
    (¬ begins → exec (.loadIn pllOk bad sys) s = .next s) ∧
    (begins → 21 ≤ s.load.flash.log2 → s.load.flash.log2 ≤ 28 → headerOk (s.header false) = false → headerOk (s.header true) = false →
      ∃ t, exec (.loadIn pllOk bad sys) s = .next t ∧ t.status = 6 ∧ t.fld f_LOADIN_STAT_CAUSE 0 = 1 ∧ t.fld f_LOADIN_STAT_ACAUSE 0 = 1 ∧
        t.flag f_LOADIN_STAT_COPY 0 = true ∧ t.fld f_LOADIN_STAT_PROF 0 = sel ∧ t.fld f_LOADIN_STAT_SRC 0 = src ∧ t.reg .LOADIN_FAILA 0 = s.reg .LOADIN_FAILA 0 + 1 ∧
        (s.flag f_LOADIN_NEXT_STICKY 0 = false → t.flag f_LOADIN_NEXT_V 0 = false) ∧ t.cores = State.reset.cores) ∧
    (∀ p w, begins → 21 ≤ s.load.flash.log2 → s.load.flash.log2 ≤ 28 → at1.profileAt false sel = .inr p →
      let a := at1.loadDefaults.identity false p.pub
      let b : State := { a with load := { a.load with keyslot := p.keyslot, digest := (digestOf p.signed).toNat } }
      (b.setFld f_LOADIN_STAT_STAGE 0 2).applySection p 1 = .inr w →
      exec (.loadIn false bad sys) s = .next (stops w 9) ∧
      (∀ x, (w.lockPlls.setFld f_LOADIN_STAT_STAGE 0 3).configStage p = .inr x →
        let y := x.setFld f_LOADIN_STAT_STAGE 0 4
        (sys = true → exec (.loadIn true bad sys) s = .next (stops y 11)) ∧
        (sys = false → bad = 0 → s.load.hbmBad = false → s.load.cleared = false → x.load.hbmBad = s.load.hbmBad → x.load.cleared = s.load.cleared →
          exec (.loadIn true bad sys) s = .next (let z := ((y.setReg .LOADIN_CLEN 0 (y.reg .LOADIN_CLEN 0)).setReg .LOADIN_BIST 0 0).setFld f_LOADIN_STAT_STAGE 0 5
            { z with status := 3, load := { z.load with waiting := true } })))) ∧
    (let training : Prop := early ∧ s.clk.timeOn = true ∧ s.load.trained = false
     (¬ training → exec (.hbmTrainingDone ok) s = .next s) ∧
     (training → exec (.hbmTrainingDone true) s = .next { s with load := { s.load with trained := true, hbmBad := false } }) ∧
     (training → s.load.waiting = false → exec (.hbmTrainingDone false) s = .next { s with load := { s.load with trained := false, hbmBad := true } }) ∧
     (training → s.load.waiting = true → exec (.hbmTrainingDone false) s = .next (stops { s with load := { s.load with trained := false, hbmBad := true } } 10))) ∧
    (s.load.trained = false ∨ s.load.cleared = true ∨ ¬ early → exec .memoryClearingDone s = .next s) ∧
    (s.load.trained = true → s.load.cleared = false → early → s.load.waiting = false →
      ∃ t, exec .memoryClearingDone s = .next t ∧ t.load = { s.load with cleared := true } ∧ t.cores = s.cores ∧ t.regs = s.regs ∧
        ∀ a, isLocal a = true → t.rd a = wRAW0) ∧
    exec (.loadinNextWrite v sticky prof) s = .next (s.setReg .LOADIN_NEXT 0 (w64 (b2n v * 2 ^ 63 + b2n sticky * 2 ^ 62 + prof.toNat))) ∧
    (let started (k : Core) : Core :=
       { run := .run, pc := sa.toNat, sr := { cctl := cctlOf (s.staged 5) (clusterOf c) }, mem := { wings := k.mem.wings }
         back := { vbr := k.back.vbr, tsbr := k.back.tsbr, ftsbr := k.back.ftsbr } }
     let may : Prop := clusterOf c ∈ s.enabledClusters ∧ (s.core c).run = .held ∧ s.checker c = false
     (¬ may → exec (.loadinStart c sa) s = .next (s.setFld f_LOADIN_ERR_STERR 0 1)) ∧
     (may → exec (.loadinStart c sa) s = .next (s.modCore c started)))

/-- R10, R11, R479, R499-R501, R540, R431: what a cold reset, the loss of VDD_AON, a warm reset and a cluster reset keep and change, and how
warm and cluster resets are requested. -/
def Obligations.Resets : Prop :=
  ∀ (s : State) (cl : Fin 32) (who : Nat),
    let open' : Prop := s.status = 4 ∨ s.status = 5 ∨ s.status = 8 ∨ s.status = 9
    (s.clk.por = true → s.clk.aon = true → exec .porNAssert s = .next s) ∧
    (s.clk.por = false ∨ s.clk.aon = false → ∃ t, exec .porNAssert s = .next t ∧ t.status = 0 ∧ t.clk.por = true ∧ t.clk.aon = true ∧ t.cores = State.reset.cores ∧
      t.clusters = State.reset.clusters ∧ t.fld f_TOUR_NODE_NODE 0 = 0x3FFF ∧ t.load.flash = s.load.flash ∧ t.pm.rst = 9 ∧
      (∀ r ∈ [Reg.DEV_ID, .DEV_CLEN, .DEV_PORTEN, .KSU_STATE, .LOADIN_NEXT, .LOADIN_COLD, .LOADIN_WARM, .PROMPTER_CMDS, .PROMPTER_PECERR], t.reg r 0 = s.reg r 0) ∧
      t.reg .DEV_MODE 0 = 0 ∧ (t.bb.events.head?.map (fun e => e.code)) = some 6 ∧ t.bb.count = s.bb.count + 1) ∧
    (∃ t, exec .vddAonLoss s = .next t ∧ t.status = 0 ∧ t.clk.aon = false ∧ t.bb = {} ∧ t.cores = State.reset.cores ∧ t.load.flash = s.load.flash ∧ t.ksu = s.ksu ∧
      (∀ r ∈ [Reg.DEV_ID, .DEV_CLEN, .DEV_PORTEN, .KSU_STATE], t.reg r 0 = s.reg r 0) ∧ t.reg .LOADIN_NEXT 0 = 0 ∧ t.reg .LOADIN_COLD 0 = 0) ∧
    (open' → s.load.warm = none → exec .loadinCmdWarm s = .next { s with load := { s.load with warm := some 3 } } ∧
      exec .warmNEdge s = .next { s with load := { s.load with warm := some 0 } }) ∧
    (¬ open' ∨ s.load.warm ≠ none → exec .loadinCmdWarm s = .next s ∧ exec .warmNEdge s = .next s) ∧
    (open' → cl.val ∈ s.enabledClusters → (∀ x ∈ s.load.creset, x.1 ≠ cl.val) →
      exec (.loadinCmdCreset cl) s = .next { s with load := { s.load with creset := s.load.creset ++ [(cl.val, 3)] } }) ∧
    (¬ open' ∨ cl.val ∉ s.enabledClusters ∨ (∃ x ∈ s.load.creset, x.1 = cl.val) → exec (.loadinCmdCreset cl) s = .next s) ∧
    (s.load.warm = none → exec .warmReset s = .next s) ∧
    (s.load.warm = some who → s.mode mRECORD = false → s.mode mREPLAY = false → s.load.secs = [] → s.cores.length = 256 → s.clusters.length = 32 →
      ∃ t, exec .warmReset s = .next t ∧ (t.status = 4 ∨ (t.status = 8 ∧ (t.core 0).run = .curtain)) ∧ t.load.warm = none ∧ t.load.creset = [] ∧ t.reg .LOADIN_WARM 0 = s.reg .LOADIN_WARM 0 + 1 ∧
        t.reg .DEV_MODE 0 = s.reg .DEV_MODE 0 ∧ t.fld f_HOST_LINK_UP 0 = s.fld f_HOST_LINK_UP 0 ∧ t.col = State.reset.col ∧ t.mcs.vendor = s.mcs.vendor ∧
        (∀ q, q < 64 → t.flag f_HOST_SQCFG_EN q = false ∧ t.flag f_HOST_CQCFG_EN q = false) ∧
        (∀ c, c ≠ 0 → c < 256 → c < s.nCores → (t.core c).run = .held ∧ (t.core c).stk.regs = []) ∧ (t.core 0).run ≠ .held ∧
        (∀ c, c < s.nCores → c < 256 → (t.core c).back.vbr = (s.core c).back.vbr ∧ (t.core c).mem.dframes = [] ∧ (t.core c).scene = {})) ∧
    ((∀ x ∈ s.load.creset, x.1 ≠ cl.val) → exec (.clusterReset cl) s = .next s) ∧
    (s.load.creset = [(cl.val, who)] → s.cores.length = 256 → s.clusters.length = 32 → s.load.secs = [] → (∀ c, (s.core c).psw.sc = false) →
      (∀ c l, (s.core c).wait ≠ some (.line l)) → s.clusterLines cl = [] →
      ∃ t, exec (.clusterReset cl) s = .next t ∧ t.status = s.status ∧ t.load.creset = [] ∧ t.mem = s.mem ∧
        (t.bb.events.head?.map (fun e => (e.code, e.unit, e.detail))) = some (6, 2, who % 2 ^ 40) ∧
        ∀ c, c < 256 → if clusterOf c = cl.val then (t.core c).run = .held ∧ (t.core c).back.vbr = (s.core c).back.vbr else t.core c = s.core c)

/-- R10, R58, R357, R359, R479, R504 and the Fuse entries of the register tables: what is in place before POR_N is released. The part number
and the fused masks are those of the part the model takes (log entry 3). -/
def Obligations.ResetState : Prop :=
  let s := State.reset
  Memory.wf s = true ∧ s.pending = [] ∧ s.mem = [] ∧ s.status = 0 ∧ s.clk.por = true ∧ s.clk.timeOn = false ∧
  (∀ c, c < 256 → (s.core c).run = .held ∧ (s.core c).stk.regs = [] ∧ (s.core c).stk.cregs = [] ∧ (s.core c).wait = none ∧ (s.core c).ev = {}) ∧
  (∀ c, s.canIssue c = false) ∧
  s.fld f_TOUR_NODE_NODE 0 = 0x3FFF ∧ (∀ p, p < 12 → s.portState p = 0 ∧ s.portUp p = false) ∧ s.pm.rst = 9 ∧
  s.fld f_DEV_ID_PART 0 = 0x3610 ∧ s.reg .DEV_CLEN 0 = 0xFFFFFFFF ∧ s.reg .DEV_PORTEN 0 = 0xFFF ∧ s.slotFused 4 = true ∧ s.slotFused 7 = true ∧
  (∀ k, k < 4 → k ≠ 0 → s.slotFused k = false) ∧ (∀ k, k < 8 → s.slotRevoked k = false) ∧ s.reg .DEV_MODE 0 = 0 ∧ s.linkUp = false ∧ s.drbg = 0 ∧
  s.fld f_KSU_DRBG_STATE 0 = 0 ∧ s.bb.count = 0 ∧ s.recording = false ∧ s.phase = phIDLE

/-- Every step keeps memory in its canonical form: addresses rise strictly, and no entry equals what an unlisted address reads as. So, for
given cleared ranges (log entry 2, DESIGN CHOICE), equal memories are equal data, in states that no run reaches as well. -/
def Obligations.MemoryStaysCanonical : Prop :=
  ∀ s t : State, MemoryCanonical s → step s = .next t → MemoryCanonical t

/-- Every step takes the command at the front from the queue and leaves the rest as it is; on an empty queue nothing is added. So no step puts
a command into the queue, and a queue of well-formed commands stays one. -/
def Obligations.QueueStaysWellFormed : Prop :=
  ∀ s t : State, step s = .next t → t.pending = s.pending.tail ∧
    ((∀ c ∈ s.pending, c.wellFormed = true) → ∀ c ∈ t.pending, c.wellFormed = true)
end

