-- ==== Sys2Proof/Laws/Access.lean ====
section
/-! SUPPORT. Laws of the named access operations: what a core, a cluster or a register reads after a change. -/

namespace Sys2Proof.Machine

open Sys2Proof

theorem modAt_getD {α : Type} (d : α) (f : α → α) : ∀ (l : List α) (i : Nat), i < l.length →
    (modAt l i f).getD i d = f (l.getD i d)
  | [], i, h => by simp at h
  | x :: l, 0, _ => by simp [modAt]
  | x :: l, i + 1, h => by simpa [modAt] using modAt_getD d f l i (by simpa using h)

theorem modAt_getD_ne {α : Type} (d : α) (f : α → α) : ∀ (l : List α) (i j : Nat), i ≠ j →
    (modAt l i f).getD j d = l.getD j d
  | [], i, j, _ => by simp [modAt]
  | x :: l, 0, 0, h => absurd rfl h
  | x :: l, 0, j + 1, _ => by simp [modAt]
  | x :: l, i + 1, 0, _ => by simp [modAt]
  | x :: l, i + 1, j + 1, h => by simpa [modAt] using modAt_getD_ne d f l i j (by omega)

theorem modAt_length {α : Type} (f : α → α) : ∀ (l : List α) (i : Nat), (modAt l i f).length = l.length
  | [], _ => rfl
  | _ :: _, 0 => rfl
  | _ :: l, i + 1 => by simp [modAt, modAt_length f l i]

theorem modAt_modAt {α : Type} (f g : α → α) : ∀ (l : List α) (i : Nat),
    modAt (modAt l i f) i g = modAt l i (fun x => g (f x))
  | [], _ => rfl
  | _ :: _, 0 => rfl
  | _ :: l, i + 1 => by simp [modAt, modAt_modAt f g l i]

theorem modAt_congr {α : Type} (d : α) (f g : α → α) : ∀ (l : List α) (i : Nat), f (l.getD i d) = g (l.getD i d) →
    modAt l i f = modAt l i g
  | [], _, _ => rfl
  | x :: l, 0, h => by simpa [modAt] using h
  | x :: l, i + 1, h => by simpa [modAt] using modAt_congr d f g l i (by simpa using h)

/-- A core that is not in the default state exists. -/
theorem core_lt (s : State) (c : Nat) (h : (s.core c).run ≠ .held) : c < s.cores.length := by
  by_contra hc
  simp [State.core, List.getD, List.getElem?_eq_none (by omega : s.cores.length ≤ c)] at h

theorem core_modCore (s : State) (c : Nat) (f : Core → Core) (h : c < s.cores.length) :
    (s.modCore c f).core c = f (s.core c) := modAt_getD _ _ _ _ h

theorem core_modCore_ne (s : State) (c d : Nat) (f : Core → Core) (h : c ≠ d) : (s.modCore c f).core d = s.core d :=
  modAt_getD_ne _ _ _ _ _ h

theorem modCore_modCore (s : State) (c : Nat) (f g : Core → Core) :
    (s.modCore c f).modCore c g = s.modCore c (fun k => g (f k)) := by
  simp [State.modCore, modAt_modAt]

/-- Two changes of a core that agree on the core as it is are the same change. -/
theorem modCore_congr (s : State) (c : Nat) (f g : Core → Core) (h : f (s.core c) = g (s.core c)) :
    s.modCore c f = s.modCore c g := by
  unfold State.modCore; rw [modAt_congr ({} : Core) f g s.cores c h]

theorem modAt_id {α : Type} (d : α) (f : α → α) : ∀ (l : List α) (i : Nat), f (l.getD i d) = l.getD i d → modAt l i f = l
  | [], _, _ => rfl
  | x :: l, 0, h => by simpa [modAt] using h
  | x :: l, i + 1, h => by simpa [modAt] using modAt_id d f l i (by simpa using h)

/-- A change that leaves the core as it is leaves the state as it is. -/
theorem modCore_id (s : State) (c : Nat) (f : Core → Core) (h : f (s.core c) = s.core c) : s.modCore c f = s := by
  unfold State.modCore; rw [modAt_id ({} : Core) f s.cores c h]

@[simp] theorem modCore_cores_length (s : State) (c : Nat) (f : Core → Core) :
    (s.modCore c f).cores.length = s.cores.length := modAt_length _ _ _

@[simp] theorem modCore_reg (s : State) (c : Nat) (f : Core → Core) (r : Reg) (i : Nat) : (s.modCore c f).reg r i = s.reg r i := rfl

@[simp] theorem setReg_core (s : State) (r : Reg) (i : Nat) (v : W64) (c : Nat) : (s.setReg r i v).core c = s.core c := rfl

theorem cellGet_cellSet (r : Reg) (i : Nat) (v : W64) : ∀ l : List RegCell, cellGet (cellSet l r i v) r i = some v
  | [] => by simp [cellSet, cellGet]
  | x :: l => by
    by_cases h : x.reg = r ∧ x.inst = i
    · simp [cellSet, cellGet, h]
    · simp only [cellSet, if_neg h, cellGet]; exact cellGet_cellSet r i v l

theorem cellGet_cellSet_ne (r q : Reg) (i j : Nat) (v : W64) (h : ¬(r = q ∧ i = j)) :
    ∀ l : List RegCell, cellGet (cellSet l r i v) q j = cellGet l q j
  | [] => by simp [cellSet, cellGet, h]
  | x :: l => by
    by_cases hx : x.reg = r ∧ x.inst = i
    · obtain ⟨rfl, rfl⟩ := hx
      simp [cellSet, cellGet, h]
    · simp only [cellSet, if_neg hx, cellGet]
      rw [cellGet_cellSet_ne r q i j v h l]

@[simp] theorem reg_setReg (s : State) (r : Reg) (i : Nat) (v : W64) : (s.setReg r i v).reg r i = v := by
  simp [State.reg, State.setReg, cellGet_cellSet]

theorem reg_setReg_ne (s : State) (r q : Reg) (i j : Nat) (v : W64) (h : ¬(r = q ∧ i = j)) :
    (s.setReg r i v).reg q j = s.reg q j := by
  simp [State.reg, State.setReg, cellGet_cellSet_ne r q i j v h]

end Sys2Proof.Machine
end

