-- ==== Sys2Proof/Laws/Run.lean ====
section
/-! SUPPORT. How the programs of the meanings run: one equation for each primitive of the monad M. -/

namespace Sys2Proof.Machine

open Sys2Proof

theorem run_pure {α : Type} (a : α) (c : Nat) (s : State) : (pure a : M α).run c s = .ok a s := rfl

theorem run_bind {α β : Type} (x : M α) (f : α → M β) (c : Nat) (s : State) :
    (x >>= f).run c s = (match x.run c s with
      | .ok a t => (f a).run c t
      | .error e t => .error e t) := by
  change EStateM.bind (x.run c) (fun a => (f a).run c) s = _
  unfold EStateM.bind
  cases x.run c s <;> rfl

theorem run_bind_ok {α β : Type} (x : M α) (f : α → M β) (c : Nat) (s t : State) (a : α) (h : x.run c s = .ok a t) :
    (x >>= f).run c s = (f a).run c t := by rw [run_bind, h]

theorem run_bind_error {α β : Type} (x : M α) (f : α → M β) (c : Nat) (s t : State) (e : Stop) (h : x.run c s = .error e t) :
    (x >>= f).run c s = .error e t := by rw [run_bind, h]

theorem run_throw {α : Type} (e : Stop) (c : Nat) (s : State) : (throw e : M α).run c s = .error e s := rfl

theorem run_raise {α : Type} (t : Trap) (c : Nat) (s : State) : (raise t : M α).run c s = .error (.trap t) s := rfl

theorem run_get (c : Nat) (s : State) : (get : M State).run c s = .ok s s := rfl

theorem run_set (t : State) (c : Nat) (s : State) : (set t : M PUnit).run c s = .ok PUnit.unit t := rfl

theorem run_me (c : Nat) (s : State) : me.run c s = .ok c s := rfl

theorem run_getCore (c : Nat) (s : State) : getCore.run c s = .ok (s.core c) s := rfl

theorem run_modMe (f : Core → Core) (c : Nat) (s : State) : (modMe f).run c s = .ok () (s.modCore c f) := rfl

theorem run_updS (f : State → Nat → State) (c : Nat) (s : State) : (updS f).run c s = .ok () (f s c) := rfl

theorem run_askS {α : Type} (f : State → Nat → α) (c : Nat) (s : State) : (askS f).run c s = .ok (f s c) s := rfl

theorem run_ite {α : Type} (p : Prop) [Decidable p] (x y : M α) (c : Nat) (s : State) :
    (if p then x else y).run c s = if p then x.run c s else y.run c s := by split <;> rfl

end Sys2Proof.Machine
end

