-- ==== Sys2Proof/Laws/Checks.lean ====
section
/-! SUPPORT. The tag checks of R40: when a list of operands passes, and what a check that passes or fails does. -/

namespace Sys2Proof.Machine

open Sys2Proof Sys2Proof.Safety

/-- No check of R40 refuses the operand. -/
def Opd.passes (cust : Bool) (cuptr : Nat) (user : Bool) (o : Opd) : Bool :=
  !(!o.moved && ty o.w == tPOISON) && !(!o.moved && isReserved (ty o.w)) && !(!o.moved && isCustom (ty o.w) && !cust)
    && !(o.malformed cuptr) && !o.odd && !(o.store && isPtr cuptr (ty o.w) && kBit o.w) && (o.refused user).isNone

theorem firstBad_none (p : Opd → Bool) (l : List Opd) (h : ∀ o ∈ l, p o = false) : firstBad p l = none := by
  unfold firstBad
  rw [List.find?_eq_none]
  intro o ho
  simp [h o ho]

/-- Operands that each pass raise nothing. -/
theorem tagCheck_none (cust : Bool) (cuptr : Nat) (user : Bool) (l : List Opd) (h : ∀ o ∈ l, o.passes cust cuptr user = true) :
    tagCheck cust cuptr user l = none := by
  have hp : ∀ o ∈ l, _ := fun o ho => by
    have := h o ho
    simp only [Opd.passes, Bool.and_eq_true, Bool.not_eq_true', Option.isNone_iff_eq_none] at this
    exact this
  unfold tagCheck
  rw [firstBad_none _ l (fun o ho => (hp o ho).1.1.1.1.1.1), firstBad_none _ l (fun o ho => (hp o ho).1.1.1.1.1.2),
    firstBad_none _ l (fun o ho => (hp o ho).1.1.1.1.2), firstBad_none _ l (fun o ho => (hp o ho).1.1.1.2),
    firstBad_none _ l (fun o ho => (hp o ho).1.1.2), firstBad_none _ l (fun o ho => (hp o ho).1.2),
    firstBad_none _ l (fun o ho => by simp [(hp o ho).2])]

theorem run_check (l : List Opd) (c : Nat) (s : State) (h : ∀ o ∈ l, o.passes (s.custLoaded c) (s.cuptr c) (!(s.core c).psw.l) = true) :
    (check l).run c s = .ok () s := by
  simp only [check, run_bind, run_askS, tagCheck_none _ _ _ l h, raiseSome, run_pure]

/-- A sound word that is merely consumed passes. -/
theorem passes_sound {w : TWord} (h : Sound w) (cust : Bool) (cuptr : Nat) (user : Bool) (pos addr : Nat) :
    Opd.passes cust cuptr user { w := w, pos := pos, addr := addr } = true := by
  obtain ⟨h1, h2⟩ := h
  have h3 : isReserved (ty w) = false := by simp [isReserved]; omega
  have h4 : isCustom (ty w) = false := by simp [isCustom]; omega
  simp [Opd.passes, Opd.malformed, Opd.odd, Opd.refused, h1, h3, h4]

theorem sound_of_ty {w : TWord} {t : Nat} (h : ty w = t) (h1 : t ≠ tPOISON) (h2 : t < 0x20) : Sound w := ⟨h ▸ h1, h ▸ h2⟩

/-- A sound word of the wrong type raises WRONGTYPE when it is the only operand. -/
theorem run_check_wrong {w : TWord} (h : Sound w) (pos c : Nat) (s : State) :
    (check [{ w := w, pos := pos, ok := false }]).run c s = .error (.trap (tType sWRONG w pos 0)) s := by
  obtain ⟨h1, h2⟩ := h
  have h3 : isReserved (ty w) = false := by simp [isReserved]; omega
  have h4 : isCustom (ty w) = false := by simp [isCustom]; omega
  simp only [check, run_bind, run_askS]
  simp [tagCheck, firstBad, Opd.malformed, Opd.odd, Opd.refused, h1, h3, h4, raiseSome]
  rfl

end Sys2Proof.Machine
end

