-- ==== Sys2Proof/Laws/Data.lean ====
section
/-! SUPPORT. What the data-space operations do on an access that the core's D-frames hold: translation, the read of a word, the load
barrier on a word it leaves alone. -/

namespace Sys2Proof.Machine

open Sys2Proof Sys2Proof.Safety

/-- Outside a shadow a data-space access leaves no note (R148). -/
theorem run_noteData {s : State} {c : Nat} (h : (s.core c).shadow = none) : noteData.run c s = .ok () s := by
  simp only [noteData, run_bind, run_getCore, h, run_pure]

/-- A translation that the core's own µTLB and registers answer. -/
theorem run_xlate {s : State} {c a : Nat} {kind : Acc} {lf : Leaf} (hu : (s.core c).unit = false) (hs : (s.core c).shadow = none)
   (h : xlateCore (s.core c) a kind 7 = .inr lf) : (xlate a kind).run c s = .ok lf s := by
  simp only [xlate, run_bind, run_getCore, run_noteData hs, hu, h]
  rfl

/-- Outside a Scene nothing is unsafe for one (R292). -/
theorem run_sceneSafe {s : State} {c : Nat} (lf : Leaf) (h : (s.core c).psw.sc = false) : (sceneSafe lf).run c s = .ok () s := by
  simp [sceneSafe, run_bind, run_getCore, h, run_pure]

/-- Local and private memory is there to be reached. -/
theorem run_target {s : State} {c : Nat} (a : Nat) (lf : Leaf) (wr : Bool) (h : place lf.pa = .loc ∨ place lf.pa = .priv) :
   (target a lf wr).run c s = .ok () s := by
  rcases h with h | h <;> simp only [target, run_bind, run_getCore, run_askS, h, Bool.false_eq_true, if_false, run_pure]

/-- NORMAL memory of the device is safe for a chunk (R434). -/
theorem run_unsafe {s : State} {c : Nat} (lf : Leaf) (h : place lf.pa = .loc ∨ place lf.pa = .priv) (hm : lf.mt ≤ 1):
   (unsafeAccess lf).run c s = .ok () s := by
  have : ¬ (2 ≤ lf.mt) := by omega
  rcases h with h | h <;> simp [unsafeAccess, h, this, run_pure]

/-- No fence condition is unmet (R279). -/
theorem run_meetFence {s : State} {c : Nat} (h : (s.core c).mem.fence = false) : meetFence.run c s = .ok () s := by
  simp [meetFence, run_bind, run_getCore, h, run_pure]

/-- An access to NORMAL memory of the device follows no store of its core (R224, R276). -/
theorem run_ownOrder {s : State} {c : Nat} (lf : Leaf) (h : place lf.pa = .loc ∨ place lf.pa = .priv) (hm : lf.mt ≤ 1) :
   (ownOrder lf).run c s = .ok () s := by
  have : (lf.mt == 3) = false := by simp; omega
  rcases h with h | h <;> simp [ownOrder, h, this, run_pure]

/-- An access that causes no prefetch leaves the state alone (R258). -/
theorem run_prefetchFor {s : State} {c a : Nat} {missed : Bool} (lf : Leaf) (h : Calm (s.core c) a missed) :
   (prefetchFor a lf missed).run c s = .ok () s := by
  have hp : ∀ u, s.prefetches c u a lf.pa missed = s := by
    intro u
    unfold State.prefetches
    rcases h with h | ⟨rfl, h | h⟩
    · simp [h]
    · simp [h]
    · simp [h]
  simp only [prefetchFor, run_bind, run_getCore]
  cases (s.core c).utlb false a with
  | none => rfl
  | some u => simp only []; split
              · rw [run_updS, hp]
              · rfl

/-- Outside a Scene nothing joins a read set. -/
theorem run_joinRead {s : State} {c : Nat} (a l : Nat) (h : (s.core c).psw.sc = false) : (joinRead a l).run c s = .ok () s := by
  simp [joinRead, run_bind, run_getCore, h, run_pure]

/-- A read that hits changes only the order of the core's D-frames (R247). -/
theorem touched_hit {s : State} {c pa : Nat} (h : (s.core c).dstate (lineOf pa) ≠ .inv) :
  ∃ df, touched s c pa = s.modCore c (fun k => { k with mem := { k.mem with dframes := df } }) := by
  unfold touched State.fillFrame
  have h2 : ∃ f, (s.core c).mem.dframes.find? (fun f => f.base == lineOf pa / 4) = some f := by
    unfold Core.dstate at h
    split at h
    · exact ⟨_, ‹_›⟩
    · exact absurd rfl h
  obtain ⟨f, hf⟩ := h2
  simp only [hf]
  exact ⟨_, modCore_congr _ _ _ _ rfl⟩

/-- A touch leaves the core's registers and streams, so that the access still causes no prefetch. -/
theorem touched_calm {s : State} {c pa a : Nat} {m : Bool} (h : (s.core c).dstate (lineOf pa) ≠ .inv) (hc : c < s.cores.length)
   (hk : Calm (s.core c) a m) : Calm ((touched s c pa).core c) a m := by
  obtain ⟨df, hd⟩ := touched_hit h
  rw [hd, core_modCore _ _ _ hc]
  exact hk

/-- A read that hits its D-frames: the word the core sees, and nothing else changes but the frames' order. -/
theorem run_readWord {s : State} {c a : Nat} {lf : Leaf} (h : Hit s c a lf) (hc : c < s.cores.length) (hsc : (s.core c).psw.sc = false)
   (hw : (s.core c).wins = []) (hre : s.mode mREPLAY = false) (hrec : s.recording = false) (ld al : Bool) :
   (readWord a lf ld al).run c s = .ok (s.coreSees c lf.pa) (touched s c lf.pa) := by
  have hm : lf.mt ≤ 1 := by rw [h.wb]; omega
  have hf := h.frame
  have hmt : (lf.mt == 0) = true := by rw [h.wb]; rfl
  have hinv : ((s.core c).dstate (lineOf lf.pa) == Mesi.inv) = false := by simpa using hf
  have hasks : s.readAsks c lf = false := by simp [State.readAsks, hinv, h.wb]
  have hrl : s.readLine c lf al = touched s c lf.pa := by
    have : s.lineRead c (lineOf lf.pa) al none = (touched s c lf.pa, false) := by
      unfold State.lineRead
      simp only [bne_iff_ne, ne_eq, hf, not_false_eq_true, if_true]
      rfl
    simp only [State.readLine, hmt, if_true, h.core, hsc, Bool.false_eq_true, if_false, this]
    apply modCore_id
    simp
  have hnote : (touched s c lf.pa).noteChunk c (lineOf lf.pa) false = touched s c lf.pa := by
    obtain ⟨df, hd⟩ := touched_hit h.frame
    rw [hd]
    have : (s.modCore c (fun k => { k with mem := { k.mem with dframes := df } })).recording = s.recording := rfl
    simp [State.noteChunk, this, hrec]
  have hpf := run_prefetchFor lf (touched_calm h.frame hc h.calm)
  have e1 : (Place.loc == Place.host) = false ∧ (Place.loc == Place.mmio) = false := by decide
  have e2 : (Place.priv == Place.host) = false ∧ (Place.priv == Place.mmio) = false := by decide
  unfold readWord
  simp only [run_bind, run_sceneSafe lf hsc, run_target a lf false h.here, run_unsafe lf h.here hm, run_meetFence h.fence,
    run_ownOrder lf h.here hm, run_getCore]
  rcases h.here with hp | hp <;> rcases hg : (s.core c).wing lf.pa with _ | wg <;>
    simp only [hp, run_bind, run_joinRead a _ hsc, run_askS, hasks, hre, e1, e2, Bool.false_and, Bool.false_or, Bool.and_false,
      Bool.false_eq_true, if_false, run_me, run_get, run_set, hrl, hnote, hinv, hpf, run_getCore, hsc, run_pure] <;>
    simp only [hw] <;> cases ld <;> simp [run_pure]

/-- A word that the load barrier leaves alone (R322). -/
theorem run_settled {s : State} {c : Nat} {w : TWord} (h : Settled s c w) : (isStale w).run c s = .ok false s := by
  unfold isStale
  simp only [run_bind, run_askS]
  rcases h with h | h
  · rw [h]; rfl
  · rw [h]; cases (isPtr (s.cuptr c) (ty w) && s.colOn && hiZero w) <;> rfl

/-- Issuing a syllable changes no D-frame. -/
theorem ready_dstate (s : State) (c n : Nat) (line : Nat) : ((s.ready c n).core c).dstate line = (s.core c).dstate line := by
  by_cases hc : c < s.cores.length
  · unfold State.ready; rw [core_modCore _ _ _ hc]; rfl
  · have h1 : (s.ready c n).cores.length = s.cores.length := modCore_cores_length _ _ _
    simp [State.core, List.getD, List.getElem?_eq_none (by omega : s.cores.length ≤ c), List.getElem?_eq_none (by omega : (s.ready c n).cores.length ≤ c)]

/-- Issuing a syllable changes nothing about a settled word. -/
theorem settled_ready {s : State} {c : Nat} {w : TWord} (n : Nat) (h : Settled s c w) : Settled (s.ready c n) c w := h

end Sys2Proof.Machine
end

