-- ==== Sys2Proof/Laws/Issue.lean ====
section
/-! SUPPORT. What the issue of a syllable does in a quiet core: from the decode checks to its instruction's own program, and from
there to retirement. -/

namespace Sys2Proof.Machine

open Sys2Proof Sys2Proof.Safety

theorem quiet_core_lt {s : State} {c : Nat} (q : Quiet s c) : c < s.cores.length := by
  apply Sys2Proof.Machine.core_lt
  have h := q.issues
  simp only [State.canIssue, Bool.and_eq_true] at h
  intro hr
  rw [hr] at h
  simp at h

theorem quiet_ready_core {s : State} {c : Nat} (q : Quiet s c) (syl : Nat) :
    (s.ready c syl).core c = { s.core c with wait := none, traceN := 0, syl := syl } :=
  core_modCore s c _ (quiet_core_lt q)

theorem landDue_nil (k : Core) (h : k.pend = []) : k.landDue = k := by
  simp [Core.landDue, h, Core.landList]
  rw [← h]

theorem shortCount_quiet (s : State) (c : Nat) (h : (s.core c).psw.sc = false) : s.shortCount c = .inl s := by
  simp [State.shortCount, h]

theorem first_quiet (s : State) (c : Nat) (h : (s.core c).ev.remote = []) (hr : s.mode mREPLAY = false) :
    s.first c = none := by
  simp [State.first, State.takeRemote, State.forcedAbort, h, hr]

/-- The issue of a syllable in a quiet core: its decode checks passed, its program runs, and it stops or retires. -/
theorem issue_quiet (s : State) (c : Nat) (i : Ins) (q : Quiet s c)
    (hp : placeCheck (s.core c) i.sig (s.portOk c i.sig.port) = none) :
    issue c i s =
      (match (s.ready c i.sig.syl).runIns c i with
       | .inr (t, x) => t.stopped c i.sig x (s.modCore c (fun k => { k with traceN := 0 })) (s.core c).scene.count
       | .inl (t, o) => t.retire c i.sig o (!(s.core c).psw.l) (s.core c).psw.w) := by
  obtain ⟨lf, hf, hl, hpo⟩ := q.fetch
  have hlt := (quiet_core_lt q)
  have hts : s.traceSync c = s.modCore c (fun k => { k with traceN := 0 }) := by
    simp [State.traceSync, q.noTrace]
  have hc1 : (s.traceSync c).core c = { s.core c with traceN := 0 } := by
    rw [hts, core_modCore _ _ _ hlt]
  have hif : (s.traceSync c).ifill c lf = s.traceSync c := by
    have : ((s.traceSync c).core c).hasLine (lineOf lf.pa) = true := by rw [hc1]; exact hl
    simp [State.ifill, this]
  have hpo1 : ((s.traceSync c).core c).poisoned lf.pa = false := by rw [hc1]; exact hpo
  have hsp : s.serveParked = s := by simp [State.serveParked, q.noParked]
  have hlost : ∀ t u : State, (u.core c).psw = (s.core c).psw → t.lostScene u c = false := by
    intro t u h
    simp [State.lostScene, h, q.noScene]
  have hmid : (s.core c).midway = false := by simp [Core.midway, q.noStep, q.noRep, q.noMicro]
  have hst : (s.traceSync c).modCore c (fun k => { (if k.midway then k else k.landDue) with wait := none, syl := i.sig.syl })
      = s.ready c i.sig.syl := by
    rw [hts, modCore_modCore, State.ready]
    apply modCore_congr
    have hm : (({ s.core c with traceN := 0 } : Core)).midway = false := hmid
    have hd : (({ s.core c with traceN := 0 } : Core)).landDue = { s.core c with traceN := 0 } :=
      landDue_nil _ q.noPend
    simp only [hm, hd]
    rfl
  have hready := quiet_ready_core q i.sig.syl
  have hpc : placeCheck ((s.ready c i.sig.syl).core c) i.sig ((s.ready c i.sig.syl).portOk c i.sig.port) = none := by
    rw [hready, ← hp]; rfl
  have hstrict : (s.ready c i.sig.syl).strict c = false := q.noStrict
  have hban : sceneBan ((s.ready c i.sig.syl).core c) i.sig = none := by
    rw [hready]; simp [sceneBan, q.noScene]
  unfold issue
  simp only [hsp, q.issues, Bool.not_true, Bool.false_eq_true, if_false, first_quiet s c q.remote q.noReplay,
    shortCount_quiet s c q.noScene, hf, hif, hlost _ s rfl, hpo1, hst, hpc, hstrict, hban,
    hlost _ (s.ready c i.sig.syl) (by rw [hready])]
  rw [hready, hts]
  all_goals rfl

/-- The core a retiring syllable leaves, in a quiet core: pushed results, the next PC, and its counts. -/
def Core.plainStep (k : Core) (g : Sig) (o : Out) : Core :=
  { (k.pushOut g o g.syl) with pc := va48 ((k.pc : Int) + 1), wait := none, traceN := k.traceN + 1 }

/-- The flags of a core that a plain retirement needs clear. -/
structure PlainCore (k : Core) : Prop where
  noSlot : k.psw.ds = false
  noLoop : k.psw.lp = false
  noStep : k.psw.step = false
  noWins : k.wins = []
  noNewWins : k.newWins = []
  noSpills : k.spills = []
  noBuf : k.hostBuf = []
  noShadow : k.shadow = none
  noMicro : k.micro = none
  noMiss : k.mem.miss = false
  noSingle : k.stepOnce = false
  noDebug : k.debug = false

theorem pushOut_frame (k : Core) (g : Sig) (o : Out) (n : Nat) :
    ∃ sp regs pend, k.pushOut g o n = { k with stk := { k.stk with sp := sp, regs := regs }, pend := pend } := by
  by_cases h : o.delay ≤ 1
  · exact ⟨_, _, k.pend, by simp only [Core.pushOut, h, if_true]; rfl⟩
  · exact ⟨_, _, _, by simp only [Core.pushOut, h, if_false]; rfl⟩

theorem plain_advance (k : Core) (h1 : k.psw.ds = false) (h2 : k.psw.lp = false) :
    k.advance .next = { k with pc := va48 ((k.pc : Int) + 1) } := by
  simp only [Core.advance, h1, h2, Bool.false_and, Bool.false_eq_true, if_false]

theorem plain_winStep (k : Core) (n : Nat) (h1 : k.wins = []) (h2 : k.newWins = []) : k.winStep n = k := by
  cases k; simp_all [Core.winStep]

theorem plain_shadowStep (k : Core) (b : Bool) (h : k.shadow = none) : k.shadowStep b = k := by
  simp [Core.shadowStep, h]

theorem plain_endStep (k : Core) (b : Bool) (h : k.psw.step = false) (hm : k.micro = none) : k.endStep b = k := by
  cases k; simp_all [Core.endStep]

/-- A core's part of a plain retirement. -/
theorem retireStep_plain (k : Core) (g : Sig) (o : Out) (p : PlainCore k)
    (hf : o.flow = .next) (hs : o.shadow = none) : k.retireStep g o false = k.plainStep g o := by
  obtain ⟨sp, regs, pend, hpo⟩ := pushOut_frame k g o g.syl
  have e1 : (Flow.next == Flow.again) = false := rfl
  have e2 : (Flow.next == Flow.halt) = false := rfl
  simp only [Core.retireStep, Core.plainStep, hpo, hf, hs, e1, e2, Bool.or_false, Bool.false_eq_true, if_false]
  rw [plain_advance, plain_winStep, plain_shadowStep]
  · have h1 := p.noMiss
    have h2 := p.noSingle
    have h3 := p.noDebug
    have h4 := p.noSpills
    have h5 := p.noBuf
    obtain ⟨⟩ := k
    rename_i mem _ _ _ _ _ _ _
    obtain ⟨⟩ := mem
    simp_all [b2n]
  all_goals first | exact p.noShadow | exact p.noWins | exact p.noNewWins | exact p.noSlot | exact p.noLoop

/-- Retirement of a syllable that goes on to the next one, in a quiet core. -/
theorem retire_plain (t : State) (c : Nat) (g : Sig) (o : Out) (user back : Bool)
    (hlt : c < t.cores.length) (p : PlainCore (t.core c))
    (hf : o.flow = .next) (hs : o.shadow = none) (hla : o.late = none)
    (htr : t.tracing c = false) (hre : t.mode mREPLAY = false) (hrec : t.recording = false)
    (hsd : t.stepDue c user back = false) :
    t.retire c g o user back = (t.modCore c (fun k => k.plainStep g o)).bump .CORE_RET c 1 := by
  have htim : (t.core c).timerShadow = false := by simp [Core.timerShadow, p.noShadow]
  have h1 : t.modCore c (fun k => k.retireStep g o false) = t.modCore c (fun k => k.plainStep g o) :=
    modCore_congr _ _ _ _ (retireStep_plain _ g o p hf hs)
  have h2 : (t.modCore c (fun k => k.plainStep g o)).core c = (t.core c).plainStep g o := core_modCore _ _ _ hlt
  obtain ⟨sp, regs, pend, hpo⟩ := pushOut_frame (t.core c) g o g.syl
  have e1 : (Flow.next == Flow.stay) = false := rfl
  have e2 : (Flow.next == Flow.rep) = false := rfl
  have e3 : (Flow.next == Flow.done) = false := rfl
  have e4 : (Flow.next == Flow.halt) = false := rfl
  generalize hu : t.modCore c (fun k => k.plainStep g o) = u at h1 h2
  have htu : u.tracing c = false := by rw [← hu]; exact htr
  have hreu : u.mode mREPLAY = false := by rw [← hu]; exact hre
  have hrecu : u.recording = false := by rw [← hu]; exact hrec
  have htrR : u.traceRetire c g.syl o.taken = u := by
    simp [State.traceRetire, State.traceI, htu]
  have hch : u.chunkEvent c false = u := by simp [State.chunkEvent, hreu, hrecu]
  have hend : u.modCore c (Core.endStep o.keepPg) = u := by
    apply modCore_id
    rw [h2]
    apply plain_endStep
    · simp [Core.plainStep, hpo, p.noStep]
    · simp [Core.plainStep, hpo, p.noMicro]
  have hsd2 : (u.bump .CORE_RET c 1).stepDue c user back = false := by
    have hd : (u.bump .CORE_RET c 1).stepDue c user back = t.stepDue c user back := by
      rw [← hu]
      simp only [State.stepDue, State.flag, State.fld, State.mode, State.bump]
      rw [reg_setReg_ne _ _ _ _ _ _ (fun h => absurd h.1 (by decide)), reg_setReg_ne _ _ _ _ _ _ (fun h => absurd h.1 (by decide)),
        reg_setReg_ne _ _ _ _ _ _ (fun h => absurd h.1 (by decide))]
      rfl
    rw [hd, hsd]
  unfold State.retire
  simp only [hf, hla, htim, e1, e2, e3, e4, Bool.or_false, Bool.false_eq_true, if_false, h1, Bool.false_and, htrR, hch, hend, hsd2]

/-! ### Operands in registers -/

theorem run_underflow (n c : Nat) (s : State) (h : n = 0 ∨ (s.core c).stk.sp + (n - 1) < sbaseOf (s.core c)) :
    (underflow n).run c s = .ok () s := by
  simp only [underflow, run_bind, run_getCore, if_pos h, run_pure]

theorem run_operandAt (n c : Nat) (s : State) (h : n < (s.core c).stk.regs.length) :
    (operandAt n).run c s = .ok ((s.core c).stk.regs.getD n wEMPTY) s := by
  simp only [operandAt, run_bind, run_getCore, List.getElem?_eq_getElem h, List.getD, Option.getD_some]
  rfl

theorem run_operands (c : Nat) (s : State) : ∀ n : Nat, n ≤ (s.core c).stk.regs.length →
    (operands n).run c s = .ok ((s.core c).stk.regs.take n) s
  | 0, _ => rfl
  | n + 1, h => by
    have hn : n < (s.core c).stk.regs.length := by omega
    simp only [operands, run_bind, run_operands c s n (by omega), run_operandAt n c s hn, run_pure]
    rw [List.take_add_one, List.getElem?_eq_getElem hn]
    simp [List.getD, List.getElem?_eq_getElem hn]

theorem run_spillFor (f k c : Nat) (s : State) (h : (s.core c).stk.regs.length + k ≤ 8) :
    (spillFor f k).run c s = .ok () s := by
  cases f with
  | zero => rfl
  | succ f => simp only [spillFor, run_bind, run_getCore, if_pos h, run_pure]

theorem run_fillTo (f p c : Nat) (s : State) (h : p < (s.core c).stk.regs.length) :
    (fillTo f p).run c s = .ok () s := by
  cases f with
  | zero => rfl
  | succ f => simp only [fillTo, run_bind, run_getCore, if_pos h, run_pure]

/-- A syllable whose operands are in registers, with room for its results (R49-R51): no spill and no fill. -/
structure Fits (k : Core) (g : Sig) : Prop where
  read : g.rd ≤ k.stk.regs.length
  deep : ∀ n, g.deep = some n → n < k.stk.regs.length
  room : k.stk.regs.length + (if g.micro then 4 else g.leaves - g.takes) ≤ 8
  held : g.reach = 0 ∨ k.stk.sp + (g.reach - 1) < sbaseOf k

/-- The operands of a syllable that fits. -/
def Core.opsOf (k : Core) (g : Sig) : List TWord :=
  k.stk.regs.take g.rd ++ (if g.micro then [] else match g.deep with | some n => [k.stk.regs.getD n wEMPTY] | none => [])

theorem run_prepare (g : Sig) (c : Nat) (s : State) (f : Fits (s.core c) g) :
    (prepare g).run c s = .ok ((s.core c).opsOf g) s := by
  have hu := run_underflow _ c s f.held
  have hr := f.room
  cases hm : g.micro with
  | true =>
    simp only [hm, if_true] at hr
    have hs := run_spillFor 8 4 c s hr
    have ho := run_operands c s g.rd f.read
    by_cases h0 : g.rd = 0
    · rw [h0] at ho
      simp only [prepare, run_bind, hu, hm, if_true, h0, ho, hs, run_pure, Core.opsOf, List.append_nil]
    · have hf := run_fillTo 8 (g.rd - 1) c s (by have := f.read; omega)
      simp only [prepare, run_bind, hu, hm, if_true, h0, if_false, hf, ho, hs, run_pure, Core.opsOf, List.append_nil]
  | false =>
    simp only [hm, Bool.false_eq_true, if_false] at hr
    have hs := run_spillFor 8 (g.leaves - g.takes) c s hr
    have ho := run_operands c s g.rd f.read
    have hrest : (match g.deep with
        | none => operands g.rd
        | some n => do
          if n ≤ 7 - (g.leaves - g.takes) then fillTo 8 n else pure ()
          let l ← operands g.rd
          let w ← operandAt n
          pure (l ++ [w]) : M (List TWord)).run c s = .ok ((s.core c).opsOf g) s := by
      cases hd : g.deep with
      | none => simp [ho, Core.opsOf, hm, hd]
      | some n =>
        have hn := f.deep n hd
        by_cases hk : n ≤ 7 - (g.leaves - g.takes)
        · simp only [run_bind, hk, if_true, run_fillTo 8 n c s hn, ho, run_operandAt n c s hn, run_pure, Core.opsOf, hm, hd,
            Bool.false_eq_true, if_false]
        · simp only [run_bind, hk, if_false, run_pure, ho, run_operandAt n c s hn, Core.opsOf, hm, hd, Bool.false_eq_true]
    by_cases h0 : g.rd = 0
    · simp only [prepare, run_bind, hu, hm, Bool.false_eq_true, if_false, hs, h0, if_true]
      rw [h0] at hrest
      exact hrest
    · have hf := run_fillTo 8 (Nat.min (g.rd - 1) (7 - (g.leaves - g.takes))) c s (by
        have := f.read
        have h2 : Nat.min (g.rd - 1) (7 - (g.leaves - g.takes)) ≤ g.rd - 1 := Nat.min_le_left _ _
        omega)
      simp only [prepare, run_bind, hu, hm, Bool.false_eq_true, if_false, hs, h0, hf]
      exact hrest

/-- A syllable that fits and whose program ends in the state `u` with what `o` says: its result. -/
theorem issue_runs (s : State) (c : Nat) (i : Ins) (q : Quiet s c) (u : State) (o : Out)
    (hp : placeCheck (s.core c) i.sig (s.portOk c i.sig.port) = none) (f : Fits (s.core c) i.sig)
    (hb : (i.body ((s.core c).opsOf i.sig)).run c (s.ready c i.sig.syl) = .ok o u) :
    issue c i s = u.retire c i.sig o (!(s.core c).psw.l) (s.core c).psw.w := by
  have hr := quiet_ready_core q i.sig.syl
  have hm : ((s.ready c i.sig.syl).core c).micro = none := by rw [hr]; exact q.noMicro
  have hpr : (prepare i.sig).run c (s.ready c i.sig.syl) = .ok ((s.core c).opsOf i.sig) (s.ready c i.sig.syl) := by
    have h := run_prepare i.sig c (s.ready c i.sig.syl) (by rw [hr]; exact ⟨f.read, f.deep, f.room, f.held⟩)
    rw [h, hr]
    rfl
  rw [issue_quiet s c i q hp]
  have : (s.ready c i.sig.syl).runIns c i = .inl (u, o) := by
    unfold State.runIns
    simp only [hm, Option.isSome_none, Bool.false_eq_true, if_false, hpr, hb]
  rw [this]

/-- A syllable that fits and whose program traps without touching the state: the exception is taken. -/
theorem issue_traps (s : State) (c : Nat) (i : Ins) (q : Quiet s c) (t : Trap)
    (hp : placeCheck (s.core c) i.sig (s.portOk c i.sig.port) = none) (f : Fits (s.core c) i.sig)
    (hb : (i.body ((s.core c).opsOf i.sig)).run c (s.ready c i.sig.syl) = .error (.trap t) (s.ready c i.sig.syl)) :
    issue c i s = (s.ready c i.sig.syl).takeTrap c t i.sig.syl := by
  have hr := quiet_ready_core q i.sig.syl
  have hm : ((s.ready c i.sig.syl).core c).micro = none := by rw [hr]; exact q.noMicro
  have hst : ((s.ready c i.sig.syl).core c).psw.step = false := by rw [hr]; exact q.noStep
  have hpr : (prepare i.sig).run c (s.ready c i.sig.syl) = .ok ((s.core c).opsOf i.sig) (s.ready c i.sig.syl) := by
    have h := run_prepare i.sig c (s.ready c i.sig.syl) (by rw [hr]; exact ⟨f.read, f.deep, f.room, f.held⟩)
    rw [h, hr]
    rfl
  rw [issue_quiet s c i q hp]
  have hp0 : ((s.ready c i.sig.syl).core c).pend = [] := by rw [hr]; exact q.noPend
  have hn : ((s.ready c i.sig.syl).core c).newWins = [] := by rw [hr]; exact q.noNewWins
  have hsp : ((s.ready c i.sig.syl).core c).spills = [] := by rw [hr]; exact q.noSpills
  have hb2 : (s.ready c i.sig.syl).modCore c (fun k => k.backTo ((s.ready c i.sig.syl).core c)) = s.ready c i.sig.syl := by
    apply modCore_id
    generalize (s.ready c i.sig.syl).core c = k at hp0 hn hsp
    obtain ⟨⟩ := k
    simp_all [Core.backTo, Core.landList]
  have hkeep : (Stop.trap t).keeps ((s.ready c i.sig.syl).core c) = false := by
    simp [Stop.keeps, hst, hm]
  have : (s.ready c i.sig.syl).runIns c i = .inr (s.ready c i.sig.syl, .trap t) := by
    unfold State.runIns
    simp only [hm, Option.isSome_none, Bool.false_eq_true, if_false, hpr, hb, hkeep, hb2, State.respill, hsp, List.drop_nil,
      List.foldl_nil]
  rw [this]
  have hland : ((s.ready c i.sig.syl).core c).landable = true := by simp [Core.landable, hp0]
  simp [State.stopped, State.trapOr, hland]

/-- The ready core is plain. -/
theorem ready_plain {s : State} {c : Nat} (q : Quiet s c) (syl : Nat) : PlainCore ((s.ready c syl).core c) := by
  rw [quiet_ready_core q syl]
  have hd : (s.core c).debug = false := by
    have h := q.issues
    simp only [State.canIssue, Bool.and_eq_true, Bool.not_eq_true'] at h
    simp_all
  exact ⟨q.noSlot, q.noLoop, q.noStep, q.noWins, q.noNewWins, q.noSpills, q.noBuf, q.noShadow, q.noMicro, q.noMiss, q.noSingle, hd⟩

/-- A syllable that fits and whose program changes nothing: its results are pushed, and it retires. -/
theorem issue_pushes (s : State) (c : Nat) (i : Ins) (q : Quiet s c) (o : Out)
    (hp : placeCheck (s.core c) i.sig (s.portOk c i.sig.port) = none) (f : Fits (s.core c) i.sig)
    (hb : (i.body ((s.core c).opsOf i.sig)).run c (s.ready c i.sig.syl) = .ok o (s.ready c i.sig.syl))
    (hf : o.flow = .next) (hs : o.shadow = none) (hla : o.late = none) :
    issue c i s = ((s.ready c i.sig.syl).modCore c (fun k => k.plainStep i.sig o)).bump .CORE_RET c 1 := by
  rw [issue_runs s c i q _ o hp f hb]
  exact retire_plain _ c _ o _ _ (by rw [State.ready, modCore_cores_length]; exact quiet_core_lt q) (ready_plain q _) hf hs hla
    q.noTrace q.noReplay q.noRecord q.noTrap

/-- The same for results of distance 1, in the form that the statements use. -/
theorem issue_after (s : State) (c : Nat) (i : Ins) (q : Quiet s c) (push : List TWord)
    (hp : placeCheck (s.core c) i.sig (s.portOk c i.sig.port) = none) (f : Fits (s.core c) i.sig)
    (hb : (i.body ((s.core c).opsOf i.sig)).run c (s.ready c i.sig.syl) = .ok { push := push } (s.ready c i.sig.syl)) :
    issue c i s = after s c i.sig.syl i.sig.takes push := by
  rw [issue_pushes s c i q _ hp f hb rfl rfl rfl, after, State.ready, modCore_modCore]
  congr 1

/-! ### From an instruction to the statements' forms -/

/-- A signature with no decode check beyond those that a quiet core passes. -/
def Sig.easy (g : Sig) : Bool := g.bad.isNone && g.port.isNone && g.deep.isNone && g.ovr.isEmpty

theorem placeCheck_quiet {s : State} {c : Nat} (q : Quiet s c) (g : Sig) (coproc : Bool) (hb : g.bad = none)
    (hp : g.port = none ∨ coproc = true)
    (hpr : g.priv = 0 ∨ (s.core c).psw.l = true ∧ (g.priv = 1 ∨ (s.core c).psw.w = true)) :
    placeCheck (s.core c) g coproc = none := by
  have h1 := q.noSlot
  have h2 := q.noLoop
  have h3 := q.noShadow
  have hx : ((g.priv == 1 && !(s.core c).psw.l) || (g.priv == 2 && !((s.core c).psw.l && (s.core c).psw.w))) = false := by
    rcases hpr with h | ⟨h, h' | h'⟩
    · simp [h]
    · simp [h, h']
    · simp [h, h']
  simp only [placeCheck, h1, h2, h3, hb, hx]
  rcases hp with h | h
  · simp [h]
  · cases g.port <;> simp [h]

/-- The operands of an easy signature, and their fit. -/
theorem stacked_ops {s : State} {c : Nat} {ops : List TWord} {takes grow : Nat} (h : Stacked s c ops takes grow) (g : Sig)
    (he : g.easy = true) (hr : g.rd = ops.length) : (s.core c).opsOf g = ops := by
  have hd : g.deep = none := by simp only [Sig.easy, Bool.and_eq_true, Option.isNone_iff_eq_none, List.isEmpty_iff] at he; exact he.1.2
  simp [Core.opsOf, hr, hd, h.top]

theorem stacked_fits {s : State} {c : Nat} {ops : List TWord} {takes grow : Nat} (h : Stacked s c ops takes grow) (g : Sig)
    (he : g.easy = true) (hr : g.rd = ops.length) (ht : g.takes = takes) (hg : (if g.micro then 4 else g.leaves - g.takes) = grow) :
    Fits (s.core c) g := by
  simp only [Sig.easy, Bool.and_eq_true, Option.isNone_iff_eq_none, List.isEmpty_iff] at he
  have hl : ops.length ≤ (s.core c).stk.regs.length := by
    have := congrArg List.length h.top
    rw [List.length_take] at this
    omega
  refine ⟨by omega, by simp [he.1.2], by rw [hg]; exact h.room, ?_⟩
  have hreach : g.reach = Nat.max ops.length takes := by
    simp [Sig.reach, he.1.2, he.2, hr, ht]
  rw [hreach]
  exact h.deep

/-- A command whose program changes nothing and pushes its results. -/
theorem gives_of {i : Fin 256 → Instr} {ops push : List TWord} {syl takes grow : Nat} (I : Ins)
    (hx : ∀ (c : Fin 256) (s : State), exec (i c) s = .next (issue c I s))
    (he : I.sig.easy = true) (hp : I.sig.priv = 0) (hr : I.sig.rd = ops.length) (ht : I.sig.takes = takes)
    (hs : I.sig.syl = syl) (hg : (if I.sig.micro then 4 else I.sig.leaves - I.sig.takes) = grow)
    (hb : ∀ (s : State) (c : Nat), (s.core c).micro = none → (I.body ops).run c s = .ok { push := push } s) :
    Gives i syl ops takes grow push := by
  intro s c q h _
  have hops := stacked_ops h I.sig he hr
  have hbad : I.sig.bad = none := by simp only [Sig.easy, Bool.and_eq_true, Option.isNone_iff_eq_none, List.isEmpty_iff] at he; exact he.1.1.1
  have hport : I.sig.port = none := by simp only [Sig.easy, Bool.and_eq_true, Option.isNone_iff_eq_none, List.isEmpty_iff] at he; exact he.1.1.2
  rw [hx, issue_after s c I q push (placeCheck_quiet q _ _ hbad (.inl hport) (.inl hp)) (stacked_fits h I.sig he hr ht hg), hs, ht]
  rw [hops]
  exact hb _ _ (by rw [quiet_ready_core q]; exact q.noMicro)

/-- A command whose program raises a trap before it changes anything. -/
theorem raises_of {i : Fin 256 → Instr} {ops : List TWord} {syl takes grow : Nat} {ok : State → Nat → Prop} {x : Trap} (I : Ins)
    (hx : ∀ (c : Fin 256) (s : State), exec (i c) s = .next (issue c I s))
    (he : I.sig.easy = true) (hp : I.sig.priv = 0) (hr : I.sig.rd = ops.length) (ht : I.sig.takes = takes)
    (hs : I.sig.syl = syl) (hg : (if I.sig.micro then 4 else I.sig.leaves - I.sig.takes) = grow)
    (hb : ∀ (s : State) (c : Nat), Quiet s c → ok s c →
      (I.body ops).run c (s.ready c syl) = .error (.trap x) (s.ready c syl)) :
    Raises i syl ops takes grow ok x := by
  intro s c q h hok
  have hops := stacked_ops h I.sig he hr
  have hbad : I.sig.bad = none := by simp only [Sig.easy, Bool.and_eq_true, Option.isNone_iff_eq_none, List.isEmpty_iff] at he; exact he.1.1.1
  have hport : I.sig.port = none := by simp only [Sig.easy, Bool.and_eq_true, Option.isNone_iff_eq_none, List.isEmpty_iff] at he; exact he.1.1.2
  rw [hx, issue_traps s c I q x (placeCheck_quiet q _ _ hbad (.inl hport) (.inl hp)) (stacked_fits h I.sig he hr ht hg)]
  · rw [hs]
  · rw [hops, hs]; exact hb s c q hok

/-- Retirement when nothing follows it: the core's own step, and the count of retired syllables. -/
theorem retire_gen (t : State) (c : Nat) (g : Sig) (o : Out) (user back : Bool)
    (hlt : c < t.cores.length) (hf : o.flow ≠ .stay ∧ o.flow ≠ .rep ∧ o.flow ≠ .done) (hla : o.late = none)
    (htim : (t.core c).timerShadow = false)
    (htr : t.tracing c = false) (hre : t.mode mREPLAY = false) (hrec : t.recording = false)
    (hsd : t.stepDue c user back = false)
    (hstep : ((t.core c).retireStep g o false).psw.step = false)
    (hmic : ((t.core c).retireStep g o false).micro = none) :
    t.retire c g o user back = (t.modCore c (fun k => k.retireStep g o false)).bump .CORE_RET c 1 := by
  obtain ⟨f1, f2, f3⟩ := hf
  have e1 : (o.flow == Flow.stay) = false := by simpa using f1
  have e2 : (o.flow == Flow.rep) = false := by simpa using f2
  have e3 : (o.flow == Flow.done) = false := by simpa using f3
  have h2 : (t.modCore c (fun k => k.retireStep g o false)).core c = (t.core c).retireStep g o false :=
    core_modCore _ _ _ hlt
  generalize hu : t.modCore c (fun k => k.retireStep g o false) = u at h2
  have htu : u.tracing c = false := by rw [← hu]; exact htr
  have hreu : u.mode mREPLAY = false := by rw [← hu]; exact hre
  have hrecu : u.recording = false := by rw [← hu]; exact hrec
  have htrR : u.traceRetire c g.syl o.taken = u := by
    simp [State.traceRetire, State.traceI, htu]
  have hch : ∀ b, u.chunkEvent c b = u := by intro b; simp [State.chunkEvent, hreu, hrecu]
  have hend : u.modCore c (Core.endStep o.keepPg) = u := by
    apply modCore_id
    rw [h2]
    exact plain_endStep _ _ hstep hmic
  have hsd2 : (u.bump .CORE_RET c 1).stepDue c user back = false := by
    have hd : (u.bump .CORE_RET c 1).stepDue c user back = t.stepDue c user back := by
      rw [← hu]
      simp only [State.stepDue, State.flag, State.fld, State.mode, State.bump]
      rw [reg_setReg_ne _ _ _ _ _ _ (fun h => absurd h.1 (by decide)), reg_setReg_ne _ _ _ _ _ _ (fun h => absurd h.1 (by decide)),
        reg_setReg_ne _ _ _ _ _ _ (fun h => absurd h.1 (by decide))]
      rfl
    rw [hd, hsd]
  unfold State.retire
  simp only [e1, e2, e3, hla, htim, Bool.or_false, Bool.false_eq_true, if_false, hu, Bool.false_and, htrR, hch, hend, hsd2]

/-- A command whose program changes only its core, by `G`, and goes on as `o` says: its statement's core is what the retirement
makes of that. -/
theorem leads_changed {i : Fin 256 → Instr} {ops : List TWord} {takes grow : Nat} {ok : State → Nat → Prop} {f : Core → Core}
    (I : Ins) (hx : ∀ (c : Fin 256) (s : State), exec (i c) s = .next (issue c I s))
    (he : I.sig.easy = true)
    (hp : I.sig.priv = 0 ∨ ∀ s c, ok s c → (s.core c).psw.l = true ∧ (I.sig.priv = 1 ∨ (s.core c).psw.w = true))
    (hr : I.sig.rd = ops.length) (ht : I.sig.takes = takes)
    (hg : (if I.sig.micro then 4 else I.sig.leaves - I.sig.takes) = grow)
    (hb : ∀ (s : State) (c : Nat), Quiet s c → Stacked s c ops takes grow → ok s c →
      ∃ (o : Out) (G : Core → Core),
        (I.body ops).run c (s.ready c I.sig.syl) = .ok o ((s.ready c I.sig.syl).modCore c G) ∧
        (o.flow ≠ .stay ∧ o.flow ≠ .rep ∧ o.flow ≠ .done) ∧ o.late = none ∧
        (G ((s.ready c I.sig.syl).core c)).timerShadow = false ∧
        (G ((s.ready c I.sig.syl).core c)).retireStep I.sig o false = f (s.core c) ∧
        (f (s.core c)).psw.step = false ∧ (f (s.core c)).micro = none) :
    Leads i ops takes grow ok (fun s c => changed s c f) := by
  intro s c q h hok
  have hops := stacked_ops h I.sig he hr
  have hbad : I.sig.bad = none := by simp only [Sig.easy, Bool.and_eq_true, Option.isNone_iff_eq_none, List.isEmpty_iff] at he; exact he.1.1.1
  have hport : I.sig.port = none := by simp only [Sig.easy, Bool.and_eq_true, Option.isNone_iff_eq_none, List.isEmpty_iff] at he; exact he.1.1.2
  obtain ⟨o, G, hrun, hfl, hla, htim, hcore, hst, hmi⟩ := hb s c q h hok
  have hlt := quiet_core_lt q
  have hlt2 : c.val < ((s.ready c I.sig.syl).modCore c G).cores.length := by
    rw [modCore_cores_length, State.ready, modCore_cores_length]; exact hlt
  have hc2 : ((s.ready c I.sig.syl).modCore c G).core c = G ((s.ready c I.sig.syl).core c) := by
    apply core_modCore
    rw [State.ready, modCore_cores_length]; exact hlt
  rw [hx, issue_runs s c I q _ o (placeCheck_quiet q _ _ hbad (.inl hport) (hp.imp id (fun hh => hh s c hok)))
    (stacked_fits h I.sig he hr ht hg) (by rw [hops]; exact hrun)]
  rw [retire_gen _ c _ o _ _ hlt2 hfl hla (by rw [hc2]; exact htim) q.noTrace q.noReplay q.noRecord q.noTrap
    (by rw [hc2, hcore]; exact hst) (by rw [hc2, hcore]; exact hmi)]
  unfold changed
  congr 2
  rw [State.ready, modCore_modCore, modCore_modCore]
  apply modCore_congr
  rw [← hcore, quiet_ready_core q]

/-- The core of `afterLate`: one result of distance d is pending. -/
def Core.lateStep (k : Core) (syl takes d : Nat) (w : TWord) : Core :=
  let old := if takes = 0 then wEMPTY else k.stk.regs.getD (takes - 1) wEMPTY
  { retired k syl takes [old] with
    pend := [{ slot := va48 ((k.stk.sp + takes : Nat) - 1), val := w, arrived := true, remain := d, gone := 0,
               sa := k.pc, syl := syl }] }

theorem afterLate_eq (s : State) (c syl takes d : Nat) (w : TWord) :
    afterLate s c syl takes d w = changed s c (fun k => k.lateStep syl takes d w) := rfl

theorem retireStep_late {s : State} {c : Nat} (q : Quiet s c) {takes : Nat} (g : Sig) (d : Nat) (w : TWord) (hd : 1 < d)
    (ht : g.takes = takes) :
    ((s.ready c g.syl).core c).retireStep g { push := [w], delay := d } false = (s.core c).lateStep g.syl takes d w := by
  have p := ready_plain q g.syl
  rw [retireStep_plain _ g _ p rfl rfl, quiet_ready_core q]
  have hnd : ¬ (d ≤ 1) := by omega
  have hk : (Flow.next == Flow.stay) = false := rfl
  have hk2 : (Flow.next == Flow.done) = false := rfl
  have hpend := q.noPend
  have hmiss := q.noMiss
  simp only [Core.plainStep, Core.pushOut, Core.lateStep, retired, hnd, if_false, hk, hk2, ht, Bool.or_false, Bool.false_eq_true,
    hpend, hmiss]
  by_cases h0 : takes = 0
  · subst h0
    simp [List.range_succ]
  · have h1 : 0 < takes := by omega
    simp [h0, h1, List.range_succ]

/-- A command whose program changes nothing and leaves one result of distance d > 1. -/
theorem gives_late_of {i : Fin 256 → Instr} {ops : List TWord} {w : TWord} {syl takes grow d : Nat} (I : Ins)
    (hx : ∀ (c : Fin 256) (s : State), exec (i c) s = .next (issue c I s))
    (he : I.sig.easy = true) (hp : I.sig.priv = 0) (hr : I.sig.rd = ops.length) (ht : I.sig.takes = takes)
    (hs : I.sig.syl = syl) (hg : (if I.sig.micro then 4 else I.sig.leaves - I.sig.takes) = grow)
    (hd : 1 < d)
    (hb : ∀ (s : State) (c : Nat), (s.core c).micro = none → (I.body ops).run c s = .ok { push := [w], delay := d } s) :
    GivesLate i syl ops takes grow d w := by
  subst hs
  refine leads_changed I hx he (.inl hp) hr ht hg (fun s c q _ _ => ⟨{ push := [w], delay := d }, id, ?_, ?_, rfl, ?_, ?_, ?_, ?_⟩)
  · rw [hb _ _ (by rw [quiet_ready_core q]; exact q.noMicro), modCore_id]; rfl
  · exact ⟨nofun, nofun, nofun⟩
  · simp [Core.timerShadow, quiet_ready_core q, q.noShadow]
  · exact retireStep_late q I.sig d w hd ht
  · exact q.noStep
  · exact q.noMicro

end Sys2Proof.Machine
end

