-- ==== Sys2Proof/Laws/Memory.lean ====
section
/-! SUPPORT. Laws of the memory operations: what a read gives after a write or a clearing, and that each keeps the canonical form. -/

namespace Sys2Proof.Machine

open Sys2Proof

/-- A canonical list from a bound on is canonical from every smaller bound on. -/
theorem memWf_mono (em : List (Nat × Nat)) : ∀ (m : List (Nat × TWord)) (j k : Nat), j ≤ k → memWfFrom em m k = true →
    memWfFrom em m j = true
  | [], _, _, _, _ => rfl
  | (a, v) :: m, j, k, h, w => by
    simp only [memWfFrom, Bool.and_eq_true, decide_eq_true_eq] at w ⊢
    exact ⟨⟨by omega, w.1.2⟩, w.2⟩

/-- A key below every listed one reads as the default. -/
theorem smapGet_low {d : TWord} (em : List (Nat × Nat)) : ∀ (m : List (Nat × TWord)) (j k : Nat), memWfFrom em m j = true → k < j →
    smapGet d m k = d
  | [], _, _, _, _ => rfl
  | (a, v) :: m, j, k, w, h => by
    simp only [memWfFrom, Bool.and_eq_true, decide_eq_true_eq] at w
    have h1 : ¬ (k = a) := by omega
    have h2 : k < a := by omega
    simp [smapGet, h1, h2]

theorem smapGet_ins (d x : TWord) : ∀ (m : List (Nat × TWord)) (k : Nat), smapGet d (smapIns m k x) k = x
  | [], k => by simp [smapIns, smapGet]
  | (a, v) :: m, k => by
    simp only [smapIns]
    split
    · simp [smapGet]
    · split
      · simp [smapGet]
      · next h1 h2 => simp [smapGet, h1, h2, smapGet_ins d x m k]

theorem smapGet_ins_ne (d x : TWord) : ∀ (m : List (Nat × TWord)) (k j : Nat) (em : List (Nat × Nat)) (b : Nat), memWfFrom em m b = true → j ≠ k →
    smapGet d (smapIns m k x) j = smapGet d m j
  | [], k, j, _, _, _, h => by
    simp only [smapIns, smapGet, h, if_false]
    split <;> rfl
  | (a, v) :: m, k, j, em, b, w, h => by
    simp only [memWfFrom, Bool.and_eq_true, decide_eq_true_eq] at w
    simp only [smapIns]
    split
    · next h1 =>
      subst h1
      simp [smapGet, h]
    · split
      · next h1 h2 =>
        by_cases h3 : j < k
        · have h4 : ¬ (j = a) := by omega
          have h5 : j < a := by omega
          simp [smapGet, h, h3, h4, h5]
        · simp [smapGet, h, h3]
      · next h1 h2 =>
        simp [smapGet, smapGet_ins_ne d x m k j em (a + 1) w.2 h]

theorem smapGet_del (d : TWord) : ∀ (m : List (Nat × TWord)) (k : Nat) (em : List (Nat × Nat)) (b : Nat), memWfFrom em m b = true →
    smapGet d (smapDel m k) k = d
  | [], _, _, _, _ => rfl
  | (a, v) :: m, k, em, b, w => by
    simp only [memWfFrom, Bool.and_eq_true, decide_eq_true_eq] at w
    simp only [smapDel]
    split
    · next h1 => exact smapGet_low em m (a + 1) k w.2 (by omega)
    · split
      · next h1 h2 => simp [smapGet, h1, h2]
      · next h1 h2 => simp [smapGet, h1, h2, smapGet_del d m k em (a + 1) w.2]

theorem smapGet_del_ne (d : TWord) : ∀ (m : List (Nat × TWord)) (k j : Nat) (em : List (Nat × Nat)) (b : Nat), memWfFrom em m b = true → j ≠ k →
    smapGet d (smapDel m k) j = smapGet d m j
  | [], _, _, _, _, _, _ => rfl
  | (a, v) :: m, k, j, em, b, w, h => by
    simp only [memWfFrom, Bool.and_eq_true, decide_eq_true_eq] at w
    simp only [smapDel]
    split
    · next h1 =>
      subst h1
      by_cases h3 : j < k
      · simp [smapGet, h, h3, smapGet_low em m (k + 1) j w.2 (by omega)]
      · simp [smapGet, h, h3]
    · split
      · rfl
      · simp [smapGet, smapGet_del_ne d m k j em (a + 1) w.2 h]

/-- A word reads as what was written there. -/
theorem rd_wr (s : State) (pa : Nat) (w : TWord) (h : Memory.wf s = true) : (s.wr pa w).rd pa = w := by
  simp only [State.rd, State.wr, smapPut]
  split
  · next e => rw [smapGet_del _ _ _ _ _ h, e]
  · exact smapGet_ins _ _ _ _

/-- A write leaves every other word as it was. -/
theorem rd_wr_ne (s : State) (pa a : Nat) (w : TWord) (h : Memory.wf s = true) (n : a ≠ pa) : (s.wr pa w).rd a = s.rd a := by
  simp only [State.rd, State.wr, smapPut]
  split
  · exact smapGet_del_ne _ _ _ _ _ _ h n
  · exact smapGet_ins_ne _ _ _ _ _ _ _ h n

theorem smapDel_wf (em : List (Nat × Nat)) : ∀ (m : List (Nat × TWord)) (k b : Nat), memWfFrom em m b = true →
    memWfFrom em (smapDel m k) b = true
  | [], _, _, _ => rfl
  | (a, v) :: m, k, b, w => by
    have w0 := w
    simp only [memWfFrom, Bool.and_eq_true, decide_eq_true_eq] at w
    simp only [smapDel]
    split
    · exact memWf_mono em m b (a + 1) (by omega) w.2
    · split
      · exact w0
      · simp only [memWfFrom, Bool.and_eq_true, decide_eq_true_eq]
        exact ⟨w.1, smapDel_wf em m k (a + 1) w.2⟩

theorem smapIns_wf (em : List (Nat × Nat)) (x : TWord) : ∀ (m : List (Nat × TWord)) (k b : Nat), memWfFrom em m b = true → b ≤ k →
    x ≠ dfltIn em k → memWfFrom em (smapIns m k x) b = true
  | [], k, b, _, h, n => by simp [smapIns, memWfFrom, h, n]
  | (a, v) :: m, k, b, w, h, n => by
    have w0 := w
    simp only [memWfFrom, Bool.and_eq_true, decide_eq_true_eq] at w
    simp only [smapIns]
    split
    · next h1 =>
      subst h1
      simp only [memWfFrom, Bool.and_eq_true, decide_eq_true_eq]
      exact ⟨⟨h, n⟩, w.2⟩
    · split
      · simp only [memWfFrom, Bool.and_eq_true, decide_eq_true_eq]
        exact ⟨⟨h, n⟩, ⟨by omega, w.1.2⟩, w.2⟩
      · simp only [memWfFrom, Bool.and_eq_true, decide_eq_true_eq]
        exact ⟨w.1, smapIns_wf em x m k (a + 1) w.2 (by omega) n⟩

/-- A write keeps the canonical form. -/
theorem wr_wf (s : State) (pa : Nat) (w : TWord) (h : Memory.wf s = true) : Memory.wf (s.wr pa w) = true := by
  simp only [Memory.wf, State.wr, smapPut] at h ⊢
  split
  · exact smapDel_wf _ _ _ _ h
  · next e => exact smapIns_wf _ _ _ _ _ h (Nat.zero_le _) e

/-- Entries taken out of a canonical list leave it canonical, under any cleared ranges by which the kept entries still differ from
what unlisted addresses read as. -/
theorem filter_wf (em em' : List (Nat × Nat)) (p : Nat × TWord → Bool) : ∀ (m : List (Nat × TWord)) (b : Nat), memWfFrom em m b = true →
    (∀ x ∈ m, p x = true → x.2 ≠ dfltIn em x.1 → x.2 ≠ dfltIn em' x.1) → memWfFrom em' (m.filter p) b = true
  | [], _, _, _ => rfl
  | (a, v) :: m, b, w, h => by
    simp only [memWfFrom, Bool.and_eq_true, decide_eq_true_eq] at w
    have ih := filter_wf em em' p m (a + 1) w.2 (fun x hx => h x (List.mem_cons_of_mem _ hx))
    by_cases hp : p (a, v) = true
    · rw [List.filter_cons_of_pos hp]
      simp only [memWfFrom, Bool.and_eq_true, decide_eq_true_eq]
      exact ⟨⟨w.1.1, h (a, v) List.mem_cons_self hp w.1.2⟩, ih⟩
    · rw [List.filter_cons_of_neg hp]
      exact memWf_mono em' _ b (a + 1) (by omega) ih

/-- Outside the range that is cleared, an unlisted address reads as before. -/
theorem dfltIn_clear (em : List (Nat × Nat)) (pa len a : Nat) (h : ¬ (pa ≤ a ∧ a < pa + len)) :
    dfltIn ((pa, len) :: em.filter (fun r => !(pa ≤ r.1 && r.1 + r.2 ≤ pa + len))) a = dfltIn em a := by
  have e : ((pa, len) :: em.filter (fun r => !(pa ≤ r.1 && r.1 + r.2 ≤ pa + len))).any (fun r => r.1 ≤ a && a < r.1 + r.2) =
      em.any (fun r => r.1 ≤ a && a < r.1 + r.2) := by
    rw [Bool.eq_iff_iff]
    simp only [List.any_cons, List.any_filter, Bool.or_eq_true, List.any_eq_true, Bool.and_eq_true, decide_eq_true_eq,
      Bool.not_eq_true', Bool.and_eq_false_iff, decide_eq_false_iff_not]
    constructor
    · rintro (h1 | ⟨x, hx, _, h2⟩)
      · exact absurd h1 h
      · exact ⟨x, hx, h2⟩
    · rintro ⟨x, hx, h2⟩
      right
      refine ⟨x, hx, ?_, h2⟩
      by_cases h3 : pa ≤ x.1
      · right
        omega
      · exact .inl h3
  simp only [dfltIn, e]

/-- Clearing a range keeps the canonical form. -/
theorem clearEmpty_wf (s : State) (pa len : Nat) (h : Memory.wf s = true) : Memory.wf (s.clearEmpty pa len) = true := by
  refine filter_wf s.emptied _ _ s.mem 0 h (fun x _ hp hx => ?_)
  have hn : ¬ (pa ≤ x.1 ∧ x.1 < pa + len) := by
    intro hc
    simp [hc.1, hc.2] at hp
  simp only [State.clearEmpty]
  rwa [dfltIn_clear s.emptied pa len x.1 hn]

/-- Words outside a cleared range keep their value. -/
theorem rd_clearEmpty_ne (s : State) (pa len a : Nat) (h : Memory.wf s = true) (n : ¬ (pa ≤ a ∧ a < pa + len)) :
    (s.clearEmpty pa len).rd a = s.rd a := by
  simp only [State.rd, State.clearEmpty, dfltIn_clear s.emptied pa len a n]
  suffices ∀ (m : List (Nat × TWord)) (b : Nat), memWfFrom s.emptied m b = true →
      smapGet (dfltIn s.emptied a) (m.filter (fun x => !(pa ≤ x.1 && x.1 < pa + len))) a = smapGet (dfltIn s.emptied a) m a from
    this s.mem 0 h
  intro m
  induction m with
  | nil => intro _ _; rfl
  | cons x m ih =>
    obtain ⟨k, v⟩ := x
    intro b w
    simp only [memWfFrom, Bool.and_eq_true, decide_eq_true_eq] at w
    by_cases hp : pa ≤ k ∧ k < pa + len
    · rw [List.filter_cons_of_neg (by simp [hp.1, hp.2])]
      rw [ih (k + 1) w.2]
      have h1 : ¬ (a = k) := by rintro rfl; exact n hp
      by_cases h2 : a < k
      · rw [smapGet_low s.emptied m (k + 1) a w.2 (by omega)]
        simp [smapGet, h1, h2]
      · simp [smapGet, h1, h2]
    · rw [List.filter_cons_of_pos (by simp; omega)]
      simp only [smapGet, ih (k + 1) w.2]

theorem smapGet_absent (d : TWord) : ∀ (m : List (Nat × TWord)) (k : Nat), (∀ x ∈ m, x.1 ≠ k) → smapGet d m k = d
  | [], _, _ => rfl
  | (a, v) :: m, k, h => by
    have h1 : ¬ (k = a) := fun e => h (a, v) List.mem_cons_self e.symm
    simp only [smapGet, h1, if_false]
    split
    · rfl
    · exact smapGet_absent d m k (fun x hx => h x (List.mem_cons_of_mem _ hx))

/-- A cleared word reads EMPTY. -/
theorem rd_clearEmpty (s : State) (pa len a : Nat) (h : pa ≤ a ∧ a < pa + len) : (s.clearEmpty pa len).rd a = wEMPTY := by
  simp only [State.rd, State.clearEmpty]
  rw [smapGet_absent]
  · simp [dfltIn, h.1, h.2]
  · intro x hx e
    have := (List.mem_filter.1 hx).2
    rw [e] at this
    simp [h.1, h.2] at this

/-- Memory after reset has the canonical form. -/
theorem reset_wf : Memory.wf State.reset = true := rfl

end Sys2Proof.Machine
end

