-- ==== Sys2Proof/Laws/State.lean ====
section
/-! SUPPORT. What a named update of the state leaves as it was: one lemma per field and per reader, so that no proof unfolds a record
update. -/

namespace Sys2Proof.Machine

open Sys2Proof

/-! ### State.modCore -/

@[simp] theorem modCore_pending (s : State) (c : Nat) (f : Core → Core) : (s.modCore c f).pending = s.pending := rfl
@[simp] theorem modCore_free (s : State) (c : Nat) (f : Core → Core) : (s.modCore c f).free = s.free := rfl
@[simp] theorem modCore_time (s : State) (c : Nat) (f : Core → Core) : (s.modCore c f).time = s.time := rfl
@[simp] theorem modCore_part (s : State) (c : Nat) (f : Core → Core) : (s.modCore c f).part = s.part := rfl
@[simp] theorem modCore_mem (s : State) (c : Nat) (f : Core → Core) : (s.modCore c f).mem = s.mem := rfl
@[simp] theorem modCore_emptied (s : State) (c : Nat) (f : Core → Core) : (s.modCore c f).emptied = s.emptied := rfl
@[simp] theorem modCore_home (s : State) (c : Nat) (f : Core → Core) : (s.modCore c f).home = s.home := rfl
@[simp] theorem modCore_held (s : State) (c : Nat) (f : Core → Core) : (s.modCore c f).held = s.held := rfl
@[simp] theorem modCore_asked (s : State) (c : Nat) (f : Core → Core) : (s.modCore c f).asked = s.asked := rfl
@[simp] theorem modCore_parked (s : State) (c : Nat) (f : Core → Core) : (s.modCore c f).parked = s.parked := rfl
@[simp] theorem modCore_regs (s : State) (c : Nat) (f : Core → Core) : (s.modCore c f).regs = s.regs := rfl
@[simp] theorem modCore_clusters (s : State) (c : Nat) (f : Core → Core) : (s.modCore c f).clusters = s.clusters := rfl
@[simp] theorem modCore_dir (s : State) (c : Nat) (f : Core → Core) : (s.modCore c f).dir = s.dir := rfl
@[simp] theorem modCore_col (s : State) (c : Nat) (f : Core → Core) : (s.modCore c f).col = s.col := rfl
@[simp] theorem modCore_reh (s : State) (c : Nat) (f : Core → Core) : (s.modCore c f).reh = s.reh := rfl
@[simp] theorem modCore_tour (s : State) (c : Nat) (f : Core → Core) : (s.modCore c f).tour = s.tour := rfl
@[simp] theorem modCore_host (s : State) (c : Nat) (f : Core → Core) : (s.modCore c f).host = s.host := rfl
@[simp] theorem modCore_mcs (s : State) (c : Nat) (f : Core → Core) : (s.modCore c f).mcs = s.mcs := rfl
@[simp] theorem modCore_modes (s : State) (c : Nat) (f : Core → Core) : (s.modCore c f).modes = s.modes := rfl
@[simp] theorem modCore_test (s : State) (c : Nat) (f : Core → Core) : (s.modCore c f).test = s.test := rfl
@[simp] theorem modCore_recal (s : State) (c : Nat) (f : Core → Core) : (s.modCore c f).recal = s.recal := rfl
@[simp] theorem modCore_clk (s : State) (c : Nat) (f : Core → Core) : (s.modCore c f).clk = s.clk := rfl
@[simp] theorem modCore_load (s : State) (c : Nat) (f : Core → Core) : (s.modCore c f).load = s.load := rfl
@[simp] theorem modCore_ksu (s : State) (c : Nat) (f : Core → Core) : (s.modCore c f).ksu = s.ksu := rfl
@[simp] theorem modCore_pm (s : State) (c : Nat) (f : Core → Core) : (s.modCore c f).pm = s.pm := rfl
@[simp] theorem modCore_drbg (s : State) (c : Nat) (f : Core → Core) : (s.modCore c f).drbg = s.drbg := rfl
@[simp] theorem modCore_debugScope (s : State) (c : Nat) (f : Core → Core) : (s.modCore c f).debugScope = s.debugScope := rfl
@[simp] theorem modCore_wire (s : State) (c : Nat) (f : Core → Core) : (s.modCore c f).wire = s.wire := rfl
@[simp] theorem modCore_status (s : State) (c : Nat) (f : Core → Core) : (s.modCore c f).status = s.status := rfl
@[simp] theorem modCore_bb (s : State) (c : Nat) (f : Core → Core) : (s.modCore c f).bb = s.bb := rfl
@[simp] theorem modCore_cluster (s : State) (c : Nat) (f : Core → Core) (d : Nat) : (s.modCore c f).cluster d = s.cluster d := rfl
@[simp] theorem modCore_fld (s : State) (c : Nat) (f : Core → Core) (g : Fld) (j : Nat) : (s.modCore c f).fld g j = s.fld g j := rfl
@[simp] theorem modCore_flag (s : State) (c : Nat) (f : Core → Core) (g : Fld) (j : Nat) : (s.modCore c f).flag g j = s.flag g j := rfl
@[simp] theorem modCore_rd (s : State) (c : Nat) (f : Core → Core) (a : Nat) : (s.modCore c f).rd a = s.rd a := rfl
@[simp] theorem modCore_mode (s : State) (c : Nat) (f : Core → Core) (k : Nat) : (s.modCore c f).mode k = s.mode k := rfl

/-! ### State.modCluster -/

@[simp] theorem modCluster_pending (s : State) (cl : Nat) (f : Cluster → Cluster) : (s.modCluster cl f).pending = s.pending := rfl
@[simp] theorem modCluster_free (s : State) (cl : Nat) (f : Cluster → Cluster) : (s.modCluster cl f).free = s.free := rfl
@[simp] theorem modCluster_time (s : State) (cl : Nat) (f : Cluster → Cluster) : (s.modCluster cl f).time = s.time := rfl
@[simp] theorem modCluster_part (s : State) (cl : Nat) (f : Cluster → Cluster) : (s.modCluster cl f).part = s.part := rfl
@[simp] theorem modCluster_mem (s : State) (cl : Nat) (f : Cluster → Cluster) : (s.modCluster cl f).mem = s.mem := rfl
@[simp] theorem modCluster_emptied (s : State) (cl : Nat) (f : Cluster → Cluster) : (s.modCluster cl f).emptied = s.emptied := rfl
@[simp] theorem modCluster_home (s : State) (cl : Nat) (f : Cluster → Cluster) : (s.modCluster cl f).home = s.home := rfl
@[simp] theorem modCluster_held (s : State) (cl : Nat) (f : Cluster → Cluster) : (s.modCluster cl f).held = s.held := rfl
@[simp] theorem modCluster_asked (s : State) (cl : Nat) (f : Cluster → Cluster) : (s.modCluster cl f).asked = s.asked := rfl
@[simp] theorem modCluster_parked (s : State) (cl : Nat) (f : Cluster → Cluster) : (s.modCluster cl f).parked = s.parked := rfl
@[simp] theorem modCluster_regs (s : State) (cl : Nat) (f : Cluster → Cluster) : (s.modCluster cl f).regs = s.regs := rfl
@[simp] theorem modCluster_cores (s : State) (cl : Nat) (f : Cluster → Cluster) : (s.modCluster cl f).cores = s.cores := rfl
@[simp] theorem modCluster_dir (s : State) (cl : Nat) (f : Cluster → Cluster) : (s.modCluster cl f).dir = s.dir := rfl
@[simp] theorem modCluster_col (s : State) (cl : Nat) (f : Cluster → Cluster) : (s.modCluster cl f).col = s.col := rfl
@[simp] theorem modCluster_reh (s : State) (cl : Nat) (f : Cluster → Cluster) : (s.modCluster cl f).reh = s.reh := rfl
@[simp] theorem modCluster_tour (s : State) (cl : Nat) (f : Cluster → Cluster) : (s.modCluster cl f).tour = s.tour := rfl
@[simp] theorem modCluster_host (s : State) (cl : Nat) (f : Cluster → Cluster) : (s.modCluster cl f).host = s.host := rfl
@[simp] theorem modCluster_mcs (s : State) (cl : Nat) (f : Cluster → Cluster) : (s.modCluster cl f).mcs = s.mcs := rfl
@[simp] theorem modCluster_modes (s : State) (cl : Nat) (f : Cluster → Cluster) : (s.modCluster cl f).modes = s.modes := rfl
@[simp] theorem modCluster_test (s : State) (cl : Nat) (f : Cluster → Cluster) : (s.modCluster cl f).test = s.test := rfl
@[simp] theorem modCluster_recal (s : State) (cl : Nat) (f : Cluster → Cluster) : (s.modCluster cl f).recal = s.recal := rfl
@[simp] theorem modCluster_clk (s : State) (cl : Nat) (f : Cluster → Cluster) : (s.modCluster cl f).clk = s.clk := rfl
@[simp] theorem modCluster_load (s : State) (cl : Nat) (f : Cluster → Cluster) : (s.modCluster cl f).load = s.load := rfl
@[simp] theorem modCluster_ksu (s : State) (cl : Nat) (f : Cluster → Cluster) : (s.modCluster cl f).ksu = s.ksu := rfl
@[simp] theorem modCluster_pm (s : State) (cl : Nat) (f : Cluster → Cluster) : (s.modCluster cl f).pm = s.pm := rfl
@[simp] theorem modCluster_drbg (s : State) (cl : Nat) (f : Cluster → Cluster) : (s.modCluster cl f).drbg = s.drbg := rfl
@[simp] theorem modCluster_debugScope (s : State) (cl : Nat) (f : Cluster → Cluster) : (s.modCluster cl f).debugScope = s.debugScope := rfl
@[simp] theorem modCluster_wire (s : State) (cl : Nat) (f : Cluster → Cluster) : (s.modCluster cl f).wire = s.wire := rfl
@[simp] theorem modCluster_status (s : State) (cl : Nat) (f : Cluster → Cluster) : (s.modCluster cl f).status = s.status := rfl
@[simp] theorem modCluster_bb (s : State) (cl : Nat) (f : Cluster → Cluster) : (s.modCluster cl f).bb = s.bb := rfl
@[simp] theorem modCluster_core (s : State) (cl : Nat) (f : Cluster → Cluster) (d : Nat) : (s.modCluster cl f).core d = s.core d := rfl
@[simp] theorem modCluster_reg (s : State) (cl : Nat) (f : Cluster → Cluster) (q : Reg) (j : Nat) : (s.modCluster cl f).reg q j = s.reg q j := rfl
@[simp] theorem modCluster_fld (s : State) (cl : Nat) (f : Cluster → Cluster) (g : Fld) (j : Nat) : (s.modCluster cl f).fld g j = s.fld g j := rfl
@[simp] theorem modCluster_flag (s : State) (cl : Nat) (f : Cluster → Cluster) (g : Fld) (j : Nat) : (s.modCluster cl f).flag g j = s.flag g j := rfl
@[simp] theorem modCluster_rd (s : State) (cl : Nat) (f : Cluster → Cluster) (a : Nat) : (s.modCluster cl f).rd a = s.rd a := rfl
@[simp] theorem modCluster_mode (s : State) (cl : Nat) (f : Cluster → Cluster) (k : Nat) : (s.modCluster cl f).mode k = s.mode k := rfl

/-! ### State.setReg -/

@[simp] theorem setReg_pending (s : State) (r : Reg) (i : Nat) (v : W64) : (s.setReg r i v).pending = s.pending := rfl
@[simp] theorem setReg_free (s : State) (r : Reg) (i : Nat) (v : W64) : (s.setReg r i v).free = s.free := rfl
@[simp] theorem setReg_time (s : State) (r : Reg) (i : Nat) (v : W64) : (s.setReg r i v).time = s.time := rfl
@[simp] theorem setReg_part (s : State) (r : Reg) (i : Nat) (v : W64) : (s.setReg r i v).part = s.part := rfl
@[simp] theorem setReg_mem (s : State) (r : Reg) (i : Nat) (v : W64) : (s.setReg r i v).mem = s.mem := rfl
@[simp] theorem setReg_emptied (s : State) (r : Reg) (i : Nat) (v : W64) : (s.setReg r i v).emptied = s.emptied := rfl
@[simp] theorem setReg_home (s : State) (r : Reg) (i : Nat) (v : W64) : (s.setReg r i v).home = s.home := rfl
@[simp] theorem setReg_held (s : State) (r : Reg) (i : Nat) (v : W64) : (s.setReg r i v).held = s.held := rfl
@[simp] theorem setReg_asked (s : State) (r : Reg) (i : Nat) (v : W64) : (s.setReg r i v).asked = s.asked := rfl
@[simp] theorem setReg_parked (s : State) (r : Reg) (i : Nat) (v : W64) : (s.setReg r i v).parked = s.parked := rfl
@[simp] theorem setReg_cores (s : State) (r : Reg) (i : Nat) (v : W64) : (s.setReg r i v).cores = s.cores := rfl
@[simp] theorem setReg_clusters (s : State) (r : Reg) (i : Nat) (v : W64) : (s.setReg r i v).clusters = s.clusters := rfl
@[simp] theorem setReg_dir (s : State) (r : Reg) (i : Nat) (v : W64) : (s.setReg r i v).dir = s.dir := rfl
@[simp] theorem setReg_col (s : State) (r : Reg) (i : Nat) (v : W64) : (s.setReg r i v).col = s.col := rfl
@[simp] theorem setReg_reh (s : State) (r : Reg) (i : Nat) (v : W64) : (s.setReg r i v).reh = s.reh := rfl
@[simp] theorem setReg_tour (s : State) (r : Reg) (i : Nat) (v : W64) : (s.setReg r i v).tour = s.tour := rfl
@[simp] theorem setReg_host (s : State) (r : Reg) (i : Nat) (v : W64) : (s.setReg r i v).host = s.host := rfl
@[simp] theorem setReg_mcs (s : State) (r : Reg) (i : Nat) (v : W64) : (s.setReg r i v).mcs = s.mcs := rfl
@[simp] theorem setReg_modes (s : State) (r : Reg) (i : Nat) (v : W64) : (s.setReg r i v).modes = s.modes := rfl
@[simp] theorem setReg_test (s : State) (r : Reg) (i : Nat) (v : W64) : (s.setReg r i v).test = s.test := rfl
@[simp] theorem setReg_recal (s : State) (r : Reg) (i : Nat) (v : W64) : (s.setReg r i v).recal = s.recal := rfl
@[simp] theorem setReg_clk (s : State) (r : Reg) (i : Nat) (v : W64) : (s.setReg r i v).clk = s.clk := rfl
@[simp] theorem setReg_load (s : State) (r : Reg) (i : Nat) (v : W64) : (s.setReg r i v).load = s.load := rfl
@[simp] theorem setReg_ksu (s : State) (r : Reg) (i : Nat) (v : W64) : (s.setReg r i v).ksu = s.ksu := rfl
@[simp] theorem setReg_pm (s : State) (r : Reg) (i : Nat) (v : W64) : (s.setReg r i v).pm = s.pm := rfl
@[simp] theorem setReg_drbg (s : State) (r : Reg) (i : Nat) (v : W64) : (s.setReg r i v).drbg = s.drbg := rfl
@[simp] theorem setReg_debugScope (s : State) (r : Reg) (i : Nat) (v : W64) : (s.setReg r i v).debugScope = s.debugScope := rfl
@[simp] theorem setReg_wire (s : State) (r : Reg) (i : Nat) (v : W64) : (s.setReg r i v).wire = s.wire := rfl
@[simp] theorem setReg_status (s : State) (r : Reg) (i : Nat) (v : W64) : (s.setReg r i v).status = s.status := rfl
@[simp] theorem setReg_bb (s : State) (r : Reg) (i : Nat) (v : W64) : (s.setReg r i v).bb = s.bb := rfl
@[simp] theorem setReg_cluster (s : State) (r : Reg) (i : Nat) (v : W64) (d : Nat) : (s.setReg r i v).cluster d = s.cluster d := rfl
@[simp] theorem setReg_rd (s : State) (r : Reg) (i : Nat) (v : W64) (a : Nat) : (s.setReg r i v).rd a = s.rd a := rfl

/-! ### State.clearReg -/

@[simp] theorem clearReg_pending (s : State) (r : Reg) (i : Nat) : (s.clearReg r i).pending = s.pending := rfl
@[simp] theorem clearReg_free (s : State) (r : Reg) (i : Nat) : (s.clearReg r i).free = s.free := rfl
@[simp] theorem clearReg_time (s : State) (r : Reg) (i : Nat) : (s.clearReg r i).time = s.time := rfl
@[simp] theorem clearReg_part (s : State) (r : Reg) (i : Nat) : (s.clearReg r i).part = s.part := rfl
@[simp] theorem clearReg_mem (s : State) (r : Reg) (i : Nat) : (s.clearReg r i).mem = s.mem := rfl
@[simp] theorem clearReg_emptied (s : State) (r : Reg) (i : Nat) : (s.clearReg r i).emptied = s.emptied := rfl
@[simp] theorem clearReg_home (s : State) (r : Reg) (i : Nat) : (s.clearReg r i).home = s.home := rfl
@[simp] theorem clearReg_held (s : State) (r : Reg) (i : Nat) : (s.clearReg r i).held = s.held := rfl
@[simp] theorem clearReg_asked (s : State) (r : Reg) (i : Nat) : (s.clearReg r i).asked = s.asked := rfl
@[simp] theorem clearReg_parked (s : State) (r : Reg) (i : Nat) : (s.clearReg r i).parked = s.parked := rfl
@[simp] theorem clearReg_cores (s : State) (r : Reg) (i : Nat) : (s.clearReg r i).cores = s.cores := rfl
@[simp] theorem clearReg_clusters (s : State) (r : Reg) (i : Nat) : (s.clearReg r i).clusters = s.clusters := rfl
@[simp] theorem clearReg_dir (s : State) (r : Reg) (i : Nat) : (s.clearReg r i).dir = s.dir := rfl
@[simp] theorem clearReg_col (s : State) (r : Reg) (i : Nat) : (s.clearReg r i).col = s.col := rfl
@[simp] theorem clearReg_reh (s : State) (r : Reg) (i : Nat) : (s.clearReg r i).reh = s.reh := rfl
@[simp] theorem clearReg_tour (s : State) (r : Reg) (i : Nat) : (s.clearReg r i).tour = s.tour := rfl
@[simp] theorem clearReg_host (s : State) (r : Reg) (i : Nat) : (s.clearReg r i).host = s.host := rfl
@[simp] theorem clearReg_mcs (s : State) (r : Reg) (i : Nat) : (s.clearReg r i).mcs = s.mcs := rfl
@[simp] theorem clearReg_modes (s : State) (r : Reg) (i : Nat) : (s.clearReg r i).modes = s.modes := rfl
@[simp] theorem clearReg_test (s : State) (r : Reg) (i : Nat) : (s.clearReg r i).test = s.test := rfl
@[simp] theorem clearReg_recal (s : State) (r : Reg) (i : Nat) : (s.clearReg r i).recal = s.recal := rfl
@[simp] theorem clearReg_clk (s : State) (r : Reg) (i : Nat) : (s.clearReg r i).clk = s.clk := rfl
@[simp] theorem clearReg_load (s : State) (r : Reg) (i : Nat) : (s.clearReg r i).load = s.load := rfl
@[simp] theorem clearReg_ksu (s : State) (r : Reg) (i : Nat) : (s.clearReg r i).ksu = s.ksu := rfl
@[simp] theorem clearReg_pm (s : State) (r : Reg) (i : Nat) : (s.clearReg r i).pm = s.pm := rfl
@[simp] theorem clearReg_drbg (s : State) (r : Reg) (i : Nat) : (s.clearReg r i).drbg = s.drbg := rfl
@[simp] theorem clearReg_debugScope (s : State) (r : Reg) (i : Nat) : (s.clearReg r i).debugScope = s.debugScope := rfl
@[simp] theorem clearReg_wire (s : State) (r : Reg) (i : Nat) : (s.clearReg r i).wire = s.wire := rfl
@[simp] theorem clearReg_status (s : State) (r : Reg) (i : Nat) : (s.clearReg r i).status = s.status := rfl
@[simp] theorem clearReg_bb (s : State) (r : Reg) (i : Nat) : (s.clearReg r i).bb = s.bb := rfl
@[simp] theorem clearReg_core (s : State) (r : Reg) (i : Nat) (d : Nat) : (s.clearReg r i).core d = s.core d := rfl
@[simp] theorem clearReg_cluster (s : State) (r : Reg) (i : Nat) (d : Nat) : (s.clearReg r i).cluster d = s.cluster d := rfl
@[simp] theorem clearReg_rd (s : State) (r : Reg) (i : Nat) (a : Nat) : (s.clearReg r i).rd a = s.rd a := rfl

/-! ### State.setFld -/

@[simp] theorem setFld_pending (s : State) (f : Fld) (i v : Nat) : (s.setFld f i v).pending = s.pending := rfl
@[simp] theorem setFld_free (s : State) (f : Fld) (i v : Nat) : (s.setFld f i v).free = s.free := rfl
@[simp] theorem setFld_time (s : State) (f : Fld) (i v : Nat) : (s.setFld f i v).time = s.time := rfl
@[simp] theorem setFld_part (s : State) (f : Fld) (i v : Nat) : (s.setFld f i v).part = s.part := rfl
@[simp] theorem setFld_mem (s : State) (f : Fld) (i v : Nat) : (s.setFld f i v).mem = s.mem := rfl
@[simp] theorem setFld_emptied (s : State) (f : Fld) (i v : Nat) : (s.setFld f i v).emptied = s.emptied := rfl
@[simp] theorem setFld_home (s : State) (f : Fld) (i v : Nat) : (s.setFld f i v).home = s.home := rfl
@[simp] theorem setFld_held (s : State) (f : Fld) (i v : Nat) : (s.setFld f i v).held = s.held := rfl
@[simp] theorem setFld_asked (s : State) (f : Fld) (i v : Nat) : (s.setFld f i v).asked = s.asked := rfl
@[simp] theorem setFld_parked (s : State) (f : Fld) (i v : Nat) : (s.setFld f i v).parked = s.parked := rfl
@[simp] theorem setFld_cores (s : State) (f : Fld) (i v : Nat) : (s.setFld f i v).cores = s.cores := rfl
@[simp] theorem setFld_clusters (s : State) (f : Fld) (i v : Nat) : (s.setFld f i v).clusters = s.clusters := rfl
@[simp] theorem setFld_dir (s : State) (f : Fld) (i v : Nat) : (s.setFld f i v).dir = s.dir := rfl
@[simp] theorem setFld_col (s : State) (f : Fld) (i v : Nat) : (s.setFld f i v).col = s.col := rfl
@[simp] theorem setFld_reh (s : State) (f : Fld) (i v : Nat) : (s.setFld f i v).reh = s.reh := rfl
@[simp] theorem setFld_tour (s : State) (f : Fld) (i v : Nat) : (s.setFld f i v).tour = s.tour := rfl
@[simp] theorem setFld_host (s : State) (f : Fld) (i v : Nat) : (s.setFld f i v).host = s.host := rfl
@[simp] theorem setFld_mcs (s : State) (f : Fld) (i v : Nat) : (s.setFld f i v).mcs = s.mcs := rfl
@[simp] theorem setFld_modes (s : State) (f : Fld) (i v : Nat) : (s.setFld f i v).modes = s.modes := rfl
@[simp] theorem setFld_test (s : State) (f : Fld) (i v : Nat) : (s.setFld f i v).test = s.test := rfl
@[simp] theorem setFld_recal (s : State) (f : Fld) (i v : Nat) : (s.setFld f i v).recal = s.recal := rfl
@[simp] theorem setFld_clk (s : State) (f : Fld) (i v : Nat) : (s.setFld f i v).clk = s.clk := rfl
@[simp] theorem setFld_load (s : State) (f : Fld) (i v : Nat) : (s.setFld f i v).load = s.load := rfl
@[simp] theorem setFld_ksu (s : State) (f : Fld) (i v : Nat) : (s.setFld f i v).ksu = s.ksu := rfl
@[simp] theorem setFld_pm (s : State) (f : Fld) (i v : Nat) : (s.setFld f i v).pm = s.pm := rfl
@[simp] theorem setFld_drbg (s : State) (f : Fld) (i v : Nat) : (s.setFld f i v).drbg = s.drbg := rfl
@[simp] theorem setFld_debugScope (s : State) (f : Fld) (i v : Nat) : (s.setFld f i v).debugScope = s.debugScope := rfl
@[simp] theorem setFld_wire (s : State) (f : Fld) (i v : Nat) : (s.setFld f i v).wire = s.wire := rfl
@[simp] theorem setFld_status (s : State) (f : Fld) (i v : Nat) : (s.setFld f i v).status = s.status := rfl
@[simp] theorem setFld_bb (s : State) (f : Fld) (i v : Nat) : (s.setFld f i v).bb = s.bb := rfl
@[simp] theorem setFld_core (s : State) (f : Fld) (i v : Nat) (d : Nat) : (s.setFld f i v).core d = s.core d := rfl
@[simp] theorem setFld_cluster (s : State) (f : Fld) (i v : Nat) (d : Nat) : (s.setFld f i v).cluster d = s.cluster d := rfl
@[simp] theorem setFld_rd (s : State) (f : Fld) (i v : Nat) (a : Nat) : (s.setFld f i v).rd a = s.rd a := rfl

/-! ### State.bump -/

@[simp] theorem bump_pending (s : State) (r : Reg) (i n : Nat) : (s.bump r i n).pending = s.pending := rfl
@[simp] theorem bump_free (s : State) (r : Reg) (i n : Nat) : (s.bump r i n).free = s.free := rfl
@[simp] theorem bump_time (s : State) (r : Reg) (i n : Nat) : (s.bump r i n).time = s.time := rfl
@[simp] theorem bump_part (s : State) (r : Reg) (i n : Nat) : (s.bump r i n).part = s.part := rfl
@[simp] theorem bump_mem (s : State) (r : Reg) (i n : Nat) : (s.bump r i n).mem = s.mem := rfl
@[simp] theorem bump_emptied (s : State) (r : Reg) (i n : Nat) : (s.bump r i n).emptied = s.emptied := rfl
@[simp] theorem bump_home (s : State) (r : Reg) (i n : Nat) : (s.bump r i n).home = s.home := rfl
@[simp] theorem bump_held (s : State) (r : Reg) (i n : Nat) : (s.bump r i n).held = s.held := rfl
@[simp] theorem bump_asked (s : State) (r : Reg) (i n : Nat) : (s.bump r i n).asked = s.asked := rfl
@[simp] theorem bump_parked (s : State) (r : Reg) (i n : Nat) : (s.bump r i n).parked = s.parked := rfl
@[simp] theorem bump_cores (s : State) (r : Reg) (i n : Nat) : (s.bump r i n).cores = s.cores := rfl
@[simp] theorem bump_clusters (s : State) (r : Reg) (i n : Nat) : (s.bump r i n).clusters = s.clusters := rfl
@[simp] theorem bump_dir (s : State) (r : Reg) (i n : Nat) : (s.bump r i n).dir = s.dir := rfl
@[simp] theorem bump_col (s : State) (r : Reg) (i n : Nat) : (s.bump r i n).col = s.col := rfl
@[simp] theorem bump_reh (s : State) (r : Reg) (i n : Nat) : (s.bump r i n).reh = s.reh := rfl
@[simp] theorem bump_tour (s : State) (r : Reg) (i n : Nat) : (s.bump r i n).tour = s.tour := rfl
@[simp] theorem bump_host (s : State) (r : Reg) (i n : Nat) : (s.bump r i n).host = s.host := rfl
@[simp] theorem bump_mcs (s : State) (r : Reg) (i n : Nat) : (s.bump r i n).mcs = s.mcs := rfl
@[simp] theorem bump_modes (s : State) (r : Reg) (i n : Nat) : (s.bump r i n).modes = s.modes := rfl
@[simp] theorem bump_test (s : State) (r : Reg) (i n : Nat) : (s.bump r i n).test = s.test := rfl
@[simp] theorem bump_recal (s : State) (r : Reg) (i n : Nat) : (s.bump r i n).recal = s.recal := rfl
@[simp] theorem bump_clk (s : State) (r : Reg) (i n : Nat) : (s.bump r i n).clk = s.clk := rfl
@[simp] theorem bump_load (s : State) (r : Reg) (i n : Nat) : (s.bump r i n).load = s.load := rfl
@[simp] theorem bump_ksu (s : State) (r : Reg) (i n : Nat) : (s.bump r i n).ksu = s.ksu := rfl
@[simp] theorem bump_pm (s : State) (r : Reg) (i n : Nat) : (s.bump r i n).pm = s.pm := rfl
@[simp] theorem bump_drbg (s : State) (r : Reg) (i n : Nat) : (s.bump r i n).drbg = s.drbg := rfl
@[simp] theorem bump_debugScope (s : State) (r : Reg) (i n : Nat) : (s.bump r i n).debugScope = s.debugScope := rfl
@[simp] theorem bump_wire (s : State) (r : Reg) (i n : Nat) : (s.bump r i n).wire = s.wire := rfl
@[simp] theorem bump_status (s : State) (r : Reg) (i n : Nat) : (s.bump r i n).status = s.status := rfl
@[simp] theorem bump_bb (s : State) (r : Reg) (i n : Nat) : (s.bump r i n).bb = s.bb := rfl
@[simp] theorem bump_core (s : State) (r : Reg) (i n : Nat) (d : Nat) : (s.bump r i n).core d = s.core d := rfl
@[simp] theorem bump_cluster (s : State) (r : Reg) (i n : Nat) (d : Nat) : (s.bump r i n).cluster d = s.cluster d := rfl
@[simp] theorem bump_rd (s : State) (r : Reg) (i n : Nat) (a : Nat) : (s.bump r i n).rd a = s.rd a := rfl

/-! ### State.wr -/

@[simp] theorem wr_pending (s : State) (pa : Nat) (w : TWord) : (s.wr pa w).pending = s.pending := rfl
@[simp] theorem wr_free (s : State) (pa : Nat) (w : TWord) : (s.wr pa w).free = s.free := rfl
@[simp] theorem wr_time (s : State) (pa : Nat) (w : TWord) : (s.wr pa w).time = s.time := rfl
@[simp] theorem wr_part (s : State) (pa : Nat) (w : TWord) : (s.wr pa w).part = s.part := rfl
@[simp] theorem wr_emptied (s : State) (pa : Nat) (w : TWord) : (s.wr pa w).emptied = s.emptied := rfl
@[simp] theorem wr_home (s : State) (pa : Nat) (w : TWord) : (s.wr pa w).home = s.home := rfl
@[simp] theorem wr_held (s : State) (pa : Nat) (w : TWord) : (s.wr pa w).held = s.held := rfl
@[simp] theorem wr_asked (s : State) (pa : Nat) (w : TWord) : (s.wr pa w).asked = s.asked := rfl
@[simp] theorem wr_parked (s : State) (pa : Nat) (w : TWord) : (s.wr pa w).parked = s.parked := rfl
@[simp] theorem wr_regs (s : State) (pa : Nat) (w : TWord) : (s.wr pa w).regs = s.regs := rfl
@[simp] theorem wr_cores (s : State) (pa : Nat) (w : TWord) : (s.wr pa w).cores = s.cores := rfl
@[simp] theorem wr_clusters (s : State) (pa : Nat) (w : TWord) : (s.wr pa w).clusters = s.clusters := rfl
@[simp] theorem wr_dir (s : State) (pa : Nat) (w : TWord) : (s.wr pa w).dir = s.dir := rfl
@[simp] theorem wr_col (s : State) (pa : Nat) (w : TWord) : (s.wr pa w).col = s.col := rfl
@[simp] theorem wr_reh (s : State) (pa : Nat) (w : TWord) : (s.wr pa w).reh = s.reh := rfl
@[simp] theorem wr_tour (s : State) (pa : Nat) (w : TWord) : (s.wr pa w).tour = s.tour := rfl
@[simp] theorem wr_host (s : State) (pa : Nat) (w : TWord) : (s.wr pa w).host = s.host := rfl
@[simp] theorem wr_mcs (s : State) (pa : Nat) (w : TWord) : (s.wr pa w).mcs = s.mcs := rfl
@[simp] theorem wr_modes (s : State) (pa : Nat) (w : TWord) : (s.wr pa w).modes = s.modes := rfl
@[simp] theorem wr_test (s : State) (pa : Nat) (w : TWord) : (s.wr pa w).test = s.test := rfl
@[simp] theorem wr_recal (s : State) (pa : Nat) (w : TWord) : (s.wr pa w).recal = s.recal := rfl
@[simp] theorem wr_clk (s : State) (pa : Nat) (w : TWord) : (s.wr pa w).clk = s.clk := rfl
@[simp] theorem wr_load (s : State) (pa : Nat) (w : TWord) : (s.wr pa w).load = s.load := rfl
@[simp] theorem wr_ksu (s : State) (pa : Nat) (w : TWord) : (s.wr pa w).ksu = s.ksu := rfl
@[simp] theorem wr_pm (s : State) (pa : Nat) (w : TWord) : (s.wr pa w).pm = s.pm := rfl
@[simp] theorem wr_drbg (s : State) (pa : Nat) (w : TWord) : (s.wr pa w).drbg = s.drbg := rfl
@[simp] theorem wr_debugScope (s : State) (pa : Nat) (w : TWord) : (s.wr pa w).debugScope = s.debugScope := rfl
@[simp] theorem wr_wire (s : State) (pa : Nat) (w : TWord) : (s.wr pa w).wire = s.wire := rfl
@[simp] theorem wr_status (s : State) (pa : Nat) (w : TWord) : (s.wr pa w).status = s.status := rfl
@[simp] theorem wr_bb (s : State) (pa : Nat) (w : TWord) : (s.wr pa w).bb = s.bb := rfl
@[simp] theorem wr_core (s : State) (pa : Nat) (w : TWord) (d : Nat) : (s.wr pa w).core d = s.core d := rfl
@[simp] theorem wr_cluster (s : State) (pa : Nat) (w : TWord) (d : Nat) : (s.wr pa w).cluster d = s.cluster d := rfl
@[simp] theorem wr_reg (s : State) (pa : Nat) (w : TWord) (q : Reg) (j : Nat) : (s.wr pa w).reg q j = s.reg q j := rfl
@[simp] theorem wr_fld (s : State) (pa : Nat) (w : TWord) (g : Fld) (j : Nat) : (s.wr pa w).fld g j = s.fld g j := rfl
@[simp] theorem wr_flag (s : State) (pa : Nat) (w : TWord) (g : Fld) (j : Nat) : (s.wr pa w).flag g j = s.flag g j := rfl
@[simp] theorem wr_mode (s : State) (pa : Nat) (w : TWord) (k : Nat) : (s.wr pa w).mode k = s.mode k := rfl

/-! ### State.clearEmpty -/

@[simp] theorem clearEmpty_pending (s : State) (pa len : Nat) : (s.clearEmpty pa len).pending = s.pending := rfl
@[simp] theorem clearEmpty_free (s : State) (pa len : Nat) : (s.clearEmpty pa len).free = s.free := rfl
@[simp] theorem clearEmpty_time (s : State) (pa len : Nat) : (s.clearEmpty pa len).time = s.time := rfl
@[simp] theorem clearEmpty_part (s : State) (pa len : Nat) : (s.clearEmpty pa len).part = s.part := rfl
@[simp] theorem clearEmpty_home (s : State) (pa len : Nat) : (s.clearEmpty pa len).home = s.home := rfl
@[simp] theorem clearEmpty_held (s : State) (pa len : Nat) : (s.clearEmpty pa len).held = s.held := rfl
@[simp] theorem clearEmpty_asked (s : State) (pa len : Nat) : (s.clearEmpty pa len).asked = s.asked := rfl
@[simp] theorem clearEmpty_parked (s : State) (pa len : Nat) : (s.clearEmpty pa len).parked = s.parked := rfl
@[simp] theorem clearEmpty_regs (s : State) (pa len : Nat) : (s.clearEmpty pa len).regs = s.regs := rfl
@[simp] theorem clearEmpty_cores (s : State) (pa len : Nat) : (s.clearEmpty pa len).cores = s.cores := rfl
@[simp] theorem clearEmpty_clusters (s : State) (pa len : Nat) : (s.clearEmpty pa len).clusters = s.clusters := rfl
@[simp] theorem clearEmpty_dir (s : State) (pa len : Nat) : (s.clearEmpty pa len).dir = s.dir := rfl
@[simp] theorem clearEmpty_col (s : State) (pa len : Nat) : (s.clearEmpty pa len).col = s.col := rfl
@[simp] theorem clearEmpty_reh (s : State) (pa len : Nat) : (s.clearEmpty pa len).reh = s.reh := rfl
@[simp] theorem clearEmpty_tour (s : State) (pa len : Nat) : (s.clearEmpty pa len).tour = s.tour := rfl
@[simp] theorem clearEmpty_host (s : State) (pa len : Nat) : (s.clearEmpty pa len).host = s.host := rfl
@[simp] theorem clearEmpty_mcs (s : State) (pa len : Nat) : (s.clearEmpty pa len).mcs = s.mcs := rfl
@[simp] theorem clearEmpty_modes (s : State) (pa len : Nat) : (s.clearEmpty pa len).modes = s.modes := rfl
@[simp] theorem clearEmpty_test (s : State) (pa len : Nat) : (s.clearEmpty pa len).test = s.test := rfl
@[simp] theorem clearEmpty_recal (s : State) (pa len : Nat) : (s.clearEmpty pa len).recal = s.recal := rfl
@[simp] theorem clearEmpty_clk (s : State) (pa len : Nat) : (s.clearEmpty pa len).clk = s.clk := rfl
@[simp] theorem clearEmpty_load (s : State) (pa len : Nat) : (s.clearEmpty pa len).load = s.load := rfl
@[simp] theorem clearEmpty_ksu (s : State) (pa len : Nat) : (s.clearEmpty pa len).ksu = s.ksu := rfl
@[simp] theorem clearEmpty_pm (s : State) (pa len : Nat) : (s.clearEmpty pa len).pm = s.pm := rfl
@[simp] theorem clearEmpty_drbg (s : State) (pa len : Nat) : (s.clearEmpty pa len).drbg = s.drbg := rfl
@[simp] theorem clearEmpty_debugScope (s : State) (pa len : Nat) : (s.clearEmpty pa len).debugScope = s.debugScope := rfl
@[simp] theorem clearEmpty_wire (s : State) (pa len : Nat) : (s.clearEmpty pa len).wire = s.wire := rfl
@[simp] theorem clearEmpty_status (s : State) (pa len : Nat) : (s.clearEmpty pa len).status = s.status := rfl
@[simp] theorem clearEmpty_bb (s : State) (pa len : Nat) : (s.clearEmpty pa len).bb = s.bb := rfl
@[simp] theorem clearEmpty_core (s : State) (pa len : Nat) (d : Nat) : (s.clearEmpty pa len).core d = s.core d := rfl
@[simp] theorem clearEmpty_cluster (s : State) (pa len : Nat) (d : Nat) : (s.clearEmpty pa len).cluster d = s.cluster d := rfl
@[simp] theorem clearEmpty_reg (s : State) (pa len : Nat) (q : Reg) (j : Nat) : (s.clearEmpty pa len).reg q j = s.reg q j := rfl
@[simp] theorem clearEmpty_fld (s : State) (pa len : Nat) (g : Fld) (j : Nat) : (s.clearEmpty pa len).fld g j = s.fld g j := rfl
@[simp] theorem clearEmpty_flag (s : State) (pa len : Nat) (g : Fld) (j : Nat) : (s.clearEmpty pa len).flag g j = s.flag g j := rfl
@[simp] theorem clearEmpty_mode (s : State) (pa len : Nat) (k : Nat) : (s.clearEmpty pa len).mode k = s.mode k := rfl

/-! ### State.modClk -/

@[simp] theorem modClk_pending (s : State) (f : Clk → Clk) : (s.modClk f).pending = s.pending := rfl
@[simp] theorem modClk_free (s : State) (f : Clk → Clk) : (s.modClk f).free = s.free := rfl
@[simp] theorem modClk_time (s : State) (f : Clk → Clk) : (s.modClk f).time = s.time := rfl
@[simp] theorem modClk_part (s : State) (f : Clk → Clk) : (s.modClk f).part = s.part := rfl
@[simp] theorem modClk_mem (s : State) (f : Clk → Clk) : (s.modClk f).mem = s.mem := rfl
@[simp] theorem modClk_emptied (s : State) (f : Clk → Clk) : (s.modClk f).emptied = s.emptied := rfl
@[simp] theorem modClk_home (s : State) (f : Clk → Clk) : (s.modClk f).home = s.home := rfl
@[simp] theorem modClk_held (s : State) (f : Clk → Clk) : (s.modClk f).held = s.held := rfl
@[simp] theorem modClk_asked (s : State) (f : Clk → Clk) : (s.modClk f).asked = s.asked := rfl
@[simp] theorem modClk_parked (s : State) (f : Clk → Clk) : (s.modClk f).parked = s.parked := rfl
@[simp] theorem modClk_regs (s : State) (f : Clk → Clk) : (s.modClk f).regs = s.regs := rfl
@[simp] theorem modClk_cores (s : State) (f : Clk → Clk) : (s.modClk f).cores = s.cores := rfl
@[simp] theorem modClk_clusters (s : State) (f : Clk → Clk) : (s.modClk f).clusters = s.clusters := rfl
@[simp] theorem modClk_dir (s : State) (f : Clk → Clk) : (s.modClk f).dir = s.dir := rfl
@[simp] theorem modClk_col (s : State) (f : Clk → Clk) : (s.modClk f).col = s.col := rfl
@[simp] theorem modClk_reh (s : State) (f : Clk → Clk) : (s.modClk f).reh = s.reh := rfl
@[simp] theorem modClk_tour (s : State) (f : Clk → Clk) : (s.modClk f).tour = s.tour := rfl
@[simp] theorem modClk_host (s : State) (f : Clk → Clk) : (s.modClk f).host = s.host := rfl
@[simp] theorem modClk_mcs (s : State) (f : Clk → Clk) : (s.modClk f).mcs = s.mcs := rfl
@[simp] theorem modClk_modes (s : State) (f : Clk → Clk) : (s.modClk f).modes = s.modes := rfl
@[simp] theorem modClk_test (s : State) (f : Clk → Clk) : (s.modClk f).test = s.test := rfl
@[simp] theorem modClk_recal (s : State) (f : Clk → Clk) : (s.modClk f).recal = s.recal := rfl
@[simp] theorem modClk_load (s : State) (f : Clk → Clk) : (s.modClk f).load = s.load := rfl
@[simp] theorem modClk_ksu (s : State) (f : Clk → Clk) : (s.modClk f).ksu = s.ksu := rfl
@[simp] theorem modClk_pm (s : State) (f : Clk → Clk) : (s.modClk f).pm = s.pm := rfl
@[simp] theorem modClk_drbg (s : State) (f : Clk → Clk) : (s.modClk f).drbg = s.drbg := rfl
@[simp] theorem modClk_debugScope (s : State) (f : Clk → Clk) : (s.modClk f).debugScope = s.debugScope := rfl
@[simp] theorem modClk_wire (s : State) (f : Clk → Clk) : (s.modClk f).wire = s.wire := rfl
@[simp] theorem modClk_status (s : State) (f : Clk → Clk) : (s.modClk f).status = s.status := rfl
@[simp] theorem modClk_bb (s : State) (f : Clk → Clk) : (s.modClk f).bb = s.bb := rfl
@[simp] theorem modClk_core (s : State) (f : Clk → Clk) (d : Nat) : (s.modClk f).core d = s.core d := rfl
@[simp] theorem modClk_cluster (s : State) (f : Clk → Clk) (d : Nat) : (s.modClk f).cluster d = s.cluster d := rfl
@[simp] theorem modClk_reg (s : State) (f : Clk → Clk) (q : Reg) (j : Nat) : (s.modClk f).reg q j = s.reg q j := rfl
@[simp] theorem modClk_fld (s : State) (f : Clk → Clk) (g : Fld) (j : Nat) : (s.modClk f).fld g j = s.fld g j := rfl
@[simp] theorem modClk_flag (s : State) (f : Clk → Clk) (g : Fld) (j : Nat) : (s.modClk f).flag g j = s.flag g j := rfl
@[simp] theorem modClk_rd (s : State) (f : Clk → Clk) (a : Nat) : (s.modClk f).rd a = s.rd a := rfl
@[simp] theorem modClk_mode (s : State) (f : Clk → Clk) (k : Nat) : (s.modClk f).mode k = s.mode k := rfl

/-! ### State.modHost -/

@[simp] theorem modHost_pending (s : State) (f : HostIf → HostIf) : (s.modHost f).pending = s.pending := rfl
@[simp] theorem modHost_free (s : State) (f : HostIf → HostIf) : (s.modHost f).free = s.free := rfl
@[simp] theorem modHost_time (s : State) (f : HostIf → HostIf) : (s.modHost f).time = s.time := rfl
@[simp] theorem modHost_part (s : State) (f : HostIf → HostIf) : (s.modHost f).part = s.part := rfl
@[simp] theorem modHost_mem (s : State) (f : HostIf → HostIf) : (s.modHost f).mem = s.mem := rfl
@[simp] theorem modHost_emptied (s : State) (f : HostIf → HostIf) : (s.modHost f).emptied = s.emptied := rfl
@[simp] theorem modHost_home (s : State) (f : HostIf → HostIf) : (s.modHost f).home = s.home := rfl
@[simp] theorem modHost_held (s : State) (f : HostIf → HostIf) : (s.modHost f).held = s.held := rfl
@[simp] theorem modHost_asked (s : State) (f : HostIf → HostIf) : (s.modHost f).asked = s.asked := rfl
@[simp] theorem modHost_parked (s : State) (f : HostIf → HostIf) : (s.modHost f).parked = s.parked := rfl
@[simp] theorem modHost_regs (s : State) (f : HostIf → HostIf) : (s.modHost f).regs = s.regs := rfl
@[simp] theorem modHost_cores (s : State) (f : HostIf → HostIf) : (s.modHost f).cores = s.cores := rfl
@[simp] theorem modHost_clusters (s : State) (f : HostIf → HostIf) : (s.modHost f).clusters = s.clusters := rfl
@[simp] theorem modHost_dir (s : State) (f : HostIf → HostIf) : (s.modHost f).dir = s.dir := rfl
@[simp] theorem modHost_col (s : State) (f : HostIf → HostIf) : (s.modHost f).col = s.col := rfl
@[simp] theorem modHost_reh (s : State) (f : HostIf → HostIf) : (s.modHost f).reh = s.reh := rfl
@[simp] theorem modHost_tour (s : State) (f : HostIf → HostIf) : (s.modHost f).tour = s.tour := rfl
@[simp] theorem modHost_mcs (s : State) (f : HostIf → HostIf) : (s.modHost f).mcs = s.mcs := rfl
@[simp] theorem modHost_modes (s : State) (f : HostIf → HostIf) : (s.modHost f).modes = s.modes := rfl
@[simp] theorem modHost_test (s : State) (f : HostIf → HostIf) : (s.modHost f).test = s.test := rfl
@[simp] theorem modHost_recal (s : State) (f : HostIf → HostIf) : (s.modHost f).recal = s.recal := rfl
@[simp] theorem modHost_clk (s : State) (f : HostIf → HostIf) : (s.modHost f).clk = s.clk := rfl
@[simp] theorem modHost_load (s : State) (f : HostIf → HostIf) : (s.modHost f).load = s.load := rfl
@[simp] theorem modHost_ksu (s : State) (f : HostIf → HostIf) : (s.modHost f).ksu = s.ksu := rfl
@[simp] theorem modHost_pm (s : State) (f : HostIf → HostIf) : (s.modHost f).pm = s.pm := rfl
@[simp] theorem modHost_drbg (s : State) (f : HostIf → HostIf) : (s.modHost f).drbg = s.drbg := rfl
@[simp] theorem modHost_debugScope (s : State) (f : HostIf → HostIf) : (s.modHost f).debugScope = s.debugScope := rfl
@[simp] theorem modHost_wire (s : State) (f : HostIf → HostIf) : (s.modHost f).wire = s.wire := rfl
@[simp] theorem modHost_status (s : State) (f : HostIf → HostIf) : (s.modHost f).status = s.status := rfl
@[simp] theorem modHost_bb (s : State) (f : HostIf → HostIf) : (s.modHost f).bb = s.bb := rfl
@[simp] theorem modHost_core (s : State) (f : HostIf → HostIf) (d : Nat) : (s.modHost f).core d = s.core d := rfl
@[simp] theorem modHost_cluster (s : State) (f : HostIf → HostIf) (d : Nat) : (s.modHost f).cluster d = s.cluster d := rfl
@[simp] theorem modHost_reg (s : State) (f : HostIf → HostIf) (q : Reg) (j : Nat) : (s.modHost f).reg q j = s.reg q j := rfl
@[simp] theorem modHost_fld (s : State) (f : HostIf → HostIf) (g : Fld) (j : Nat) : (s.modHost f).fld g j = s.fld g j := rfl
@[simp] theorem modHost_flag (s : State) (f : HostIf → HostIf) (g : Fld) (j : Nat) : (s.modHost f).flag g j = s.flag g j := rfl
@[simp] theorem modHost_rd (s : State) (f : HostIf → HostIf) (a : Nat) : (s.modHost f).rd a = s.rd a := rfl
@[simp] theorem modHost_mode (s : State) (f : HostIf → HostIf) (k : Nat) : (s.modHost f).mode k = s.mode k := rfl

/-! ### State.modPm -/

@[simp] theorem modPm_pending (s : State) (f : Prompter → Prompter) : (s.modPm f).pending = s.pending := rfl
@[simp] theorem modPm_free (s : State) (f : Prompter → Prompter) : (s.modPm f).free = s.free := rfl
@[simp] theorem modPm_time (s : State) (f : Prompter → Prompter) : (s.modPm f).time = s.time := rfl
@[simp] theorem modPm_part (s : State) (f : Prompter → Prompter) : (s.modPm f).part = s.part := rfl
@[simp] theorem modPm_mem (s : State) (f : Prompter → Prompter) : (s.modPm f).mem = s.mem := rfl
@[simp] theorem modPm_emptied (s : State) (f : Prompter → Prompter) : (s.modPm f).emptied = s.emptied := rfl
@[simp] theorem modPm_home (s : State) (f : Prompter → Prompter) : (s.modPm f).home = s.home := rfl
@[simp] theorem modPm_held (s : State) (f : Prompter → Prompter) : (s.modPm f).held = s.held := rfl
@[simp] theorem modPm_asked (s : State) (f : Prompter → Prompter) : (s.modPm f).asked = s.asked := rfl
@[simp] theorem modPm_parked (s : State) (f : Prompter → Prompter) : (s.modPm f).parked = s.parked := rfl
@[simp] theorem modPm_regs (s : State) (f : Prompter → Prompter) : (s.modPm f).regs = s.regs := rfl
@[simp] theorem modPm_cores (s : State) (f : Prompter → Prompter) : (s.modPm f).cores = s.cores := rfl
@[simp] theorem modPm_clusters (s : State) (f : Prompter → Prompter) : (s.modPm f).clusters = s.clusters := rfl
@[simp] theorem modPm_dir (s : State) (f : Prompter → Prompter) : (s.modPm f).dir = s.dir := rfl
@[simp] theorem modPm_col (s : State) (f : Prompter → Prompter) : (s.modPm f).col = s.col := rfl
@[simp] theorem modPm_reh (s : State) (f : Prompter → Prompter) : (s.modPm f).reh = s.reh := rfl
@[simp] theorem modPm_tour (s : State) (f : Prompter → Prompter) : (s.modPm f).tour = s.tour := rfl
@[simp] theorem modPm_host (s : State) (f : Prompter → Prompter) : (s.modPm f).host = s.host := rfl
@[simp] theorem modPm_mcs (s : State) (f : Prompter → Prompter) : (s.modPm f).mcs = s.mcs := rfl
@[simp] theorem modPm_modes (s : State) (f : Prompter → Prompter) : (s.modPm f).modes = s.modes := rfl
@[simp] theorem modPm_test (s : State) (f : Prompter → Prompter) : (s.modPm f).test = s.test := rfl
@[simp] theorem modPm_recal (s : State) (f : Prompter → Prompter) : (s.modPm f).recal = s.recal := rfl
@[simp] theorem modPm_clk (s : State) (f : Prompter → Prompter) : (s.modPm f).clk = s.clk := rfl
@[simp] theorem modPm_load (s : State) (f : Prompter → Prompter) : (s.modPm f).load = s.load := rfl
@[simp] theorem modPm_ksu (s : State) (f : Prompter → Prompter) : (s.modPm f).ksu = s.ksu := rfl
@[simp] theorem modPm_drbg (s : State) (f : Prompter → Prompter) : (s.modPm f).drbg = s.drbg := rfl
@[simp] theorem modPm_debugScope (s : State) (f : Prompter → Prompter) : (s.modPm f).debugScope = s.debugScope := rfl
@[simp] theorem modPm_wire (s : State) (f : Prompter → Prompter) : (s.modPm f).wire = s.wire := rfl
@[simp] theorem modPm_status (s : State) (f : Prompter → Prompter) : (s.modPm f).status = s.status := rfl
@[simp] theorem modPm_bb (s : State) (f : Prompter → Prompter) : (s.modPm f).bb = s.bb := rfl
@[simp] theorem modPm_core (s : State) (f : Prompter → Prompter) (d : Nat) : (s.modPm f).core d = s.core d := rfl
@[simp] theorem modPm_cluster (s : State) (f : Prompter → Prompter) (d : Nat) : (s.modPm f).cluster d = s.cluster d := rfl
@[simp] theorem modPm_reg (s : State) (f : Prompter → Prompter) (q : Reg) (j : Nat) : (s.modPm f).reg q j = s.reg q j := rfl
@[simp] theorem modPm_fld (s : State) (f : Prompter → Prompter) (g : Fld) (j : Nat) : (s.modPm f).fld g j = s.fld g j := rfl
@[simp] theorem modPm_flag (s : State) (f : Prompter → Prompter) (g : Fld) (j : Nat) : (s.modPm f).flag g j = s.flag g j := rfl
@[simp] theorem modPm_rd (s : State) (f : Prompter → Prompter) (a : Nat) : (s.modPm f).rd a = s.rd a := rfl
@[simp] theorem modPm_mode (s : State) (f : Prompter → Prompter) (k : Nat) : (s.modPm f).mode k = s.mode k := rfl

/-! ### State.modPort -/

@[simp] theorem modPort_pending (s : State) (p : Nat) (f : PortSt → PortSt) : (s.modPort p f).pending = s.pending := rfl
@[simp] theorem modPort_free (s : State) (p : Nat) (f : PortSt → PortSt) : (s.modPort p f).free = s.free := rfl
@[simp] theorem modPort_time (s : State) (p : Nat) (f : PortSt → PortSt) : (s.modPort p f).time = s.time := rfl
@[simp] theorem modPort_part (s : State) (p : Nat) (f : PortSt → PortSt) : (s.modPort p f).part = s.part := rfl
@[simp] theorem modPort_mem (s : State) (p : Nat) (f : PortSt → PortSt) : (s.modPort p f).mem = s.mem := rfl
@[simp] theorem modPort_emptied (s : State) (p : Nat) (f : PortSt → PortSt) : (s.modPort p f).emptied = s.emptied := rfl
@[simp] theorem modPort_home (s : State) (p : Nat) (f : PortSt → PortSt) : (s.modPort p f).home = s.home := rfl
@[simp] theorem modPort_held (s : State) (p : Nat) (f : PortSt → PortSt) : (s.modPort p f).held = s.held := rfl
@[simp] theorem modPort_asked (s : State) (p : Nat) (f : PortSt → PortSt) : (s.modPort p f).asked = s.asked := rfl
@[simp] theorem modPort_parked (s : State) (p : Nat) (f : PortSt → PortSt) : (s.modPort p f).parked = s.parked := rfl
@[simp] theorem modPort_regs (s : State) (p : Nat) (f : PortSt → PortSt) : (s.modPort p f).regs = s.regs := rfl
@[simp] theorem modPort_cores (s : State) (p : Nat) (f : PortSt → PortSt) : (s.modPort p f).cores = s.cores := rfl
@[simp] theorem modPort_clusters (s : State) (p : Nat) (f : PortSt → PortSt) : (s.modPort p f).clusters = s.clusters := rfl
@[simp] theorem modPort_dir (s : State) (p : Nat) (f : PortSt → PortSt) : (s.modPort p f).dir = s.dir := rfl
@[simp] theorem modPort_col (s : State) (p : Nat) (f : PortSt → PortSt) : (s.modPort p f).col = s.col := rfl
@[simp] theorem modPort_reh (s : State) (p : Nat) (f : PortSt → PortSt) : (s.modPort p f).reh = s.reh := rfl
@[simp] theorem modPort_host (s : State) (p : Nat) (f : PortSt → PortSt) : (s.modPort p f).host = s.host := rfl
@[simp] theorem modPort_mcs (s : State) (p : Nat) (f : PortSt → PortSt) : (s.modPort p f).mcs = s.mcs := rfl
@[simp] theorem modPort_modes (s : State) (p : Nat) (f : PortSt → PortSt) : (s.modPort p f).modes = s.modes := rfl
@[simp] theorem modPort_test (s : State) (p : Nat) (f : PortSt → PortSt) : (s.modPort p f).test = s.test := rfl
@[simp] theorem modPort_recal (s : State) (p : Nat) (f : PortSt → PortSt) : (s.modPort p f).recal = s.recal := rfl
@[simp] theorem modPort_clk (s : State) (p : Nat) (f : PortSt → PortSt) : (s.modPort p f).clk = s.clk := rfl
@[simp] theorem modPort_load (s : State) (p : Nat) (f : PortSt → PortSt) : (s.modPort p f).load = s.load := rfl
@[simp] theorem modPort_ksu (s : State) (p : Nat) (f : PortSt → PortSt) : (s.modPort p f).ksu = s.ksu := rfl
@[simp] theorem modPort_pm (s : State) (p : Nat) (f : PortSt → PortSt) : (s.modPort p f).pm = s.pm := rfl
@[simp] theorem modPort_drbg (s : State) (p : Nat) (f : PortSt → PortSt) : (s.modPort p f).drbg = s.drbg := rfl
@[simp] theorem modPort_debugScope (s : State) (p : Nat) (f : PortSt → PortSt) : (s.modPort p f).debugScope = s.debugScope := rfl
@[simp] theorem modPort_wire (s : State) (p : Nat) (f : PortSt → PortSt) : (s.modPort p f).wire = s.wire := rfl
@[simp] theorem modPort_status (s : State) (p : Nat) (f : PortSt → PortSt) : (s.modPort p f).status = s.status := rfl
@[simp] theorem modPort_bb (s : State) (p : Nat) (f : PortSt → PortSt) : (s.modPort p f).bb = s.bb := rfl
@[simp] theorem modPort_core (s : State) (p : Nat) (f : PortSt → PortSt) (d : Nat) : (s.modPort p f).core d = s.core d := rfl
@[simp] theorem modPort_cluster (s : State) (p : Nat) (f : PortSt → PortSt) (d : Nat) : (s.modPort p f).cluster d = s.cluster d := rfl
@[simp] theorem modPort_reg (s : State) (p : Nat) (f : PortSt → PortSt) (q : Reg) (j : Nat) : (s.modPort p f).reg q j = s.reg q j := rfl
@[simp] theorem modPort_fld (s : State) (p : Nat) (f : PortSt → PortSt) (g : Fld) (j : Nat) : (s.modPort p f).fld g j = s.fld g j := rfl
@[simp] theorem modPort_flag (s : State) (p : Nat) (f : PortSt → PortSt) (g : Fld) (j : Nat) : (s.modPort p f).flag g j = s.flag g j := rfl
@[simp] theorem modPort_rd (s : State) (p : Nat) (f : PortSt → PortSt) (a : Nat) : (s.modPort p f).rd a = s.rd a := rfl
@[simp] theorem modPort_mode (s : State) (p : Nat) (f : PortSt → PortSt) (k : Nat) : (s.modPort p f).mode k = s.mode k := rfl

/-! ### State.putPeer -/

@[simp] theorem putPeer_pending (s : State) (p : Peer) : (s.putPeer p).pending = s.pending := rfl
@[simp] theorem putPeer_free (s : State) (p : Peer) : (s.putPeer p).free = s.free := rfl
@[simp] theorem putPeer_time (s : State) (p : Peer) : (s.putPeer p).time = s.time := rfl
@[simp] theorem putPeer_part (s : State) (p : Peer) : (s.putPeer p).part = s.part := rfl
@[simp] theorem putPeer_mem (s : State) (p : Peer) : (s.putPeer p).mem = s.mem := rfl
@[simp] theorem putPeer_emptied (s : State) (p : Peer) : (s.putPeer p).emptied = s.emptied := rfl
@[simp] theorem putPeer_home (s : State) (p : Peer) : (s.putPeer p).home = s.home := rfl
@[simp] theorem putPeer_held (s : State) (p : Peer) : (s.putPeer p).held = s.held := rfl
@[simp] theorem putPeer_asked (s : State) (p : Peer) : (s.putPeer p).asked = s.asked := rfl
@[simp] theorem putPeer_parked (s : State) (p : Peer) : (s.putPeer p).parked = s.parked := rfl
@[simp] theorem putPeer_regs (s : State) (p : Peer) : (s.putPeer p).regs = s.regs := rfl
@[simp] theorem putPeer_cores (s : State) (p : Peer) : (s.putPeer p).cores = s.cores := rfl
@[simp] theorem putPeer_clusters (s : State) (p : Peer) : (s.putPeer p).clusters = s.clusters := rfl
@[simp] theorem putPeer_dir (s : State) (p : Peer) : (s.putPeer p).dir = s.dir := rfl
@[simp] theorem putPeer_col (s : State) (p : Peer) : (s.putPeer p).col = s.col := rfl
@[simp] theorem putPeer_reh (s : State) (p : Peer) : (s.putPeer p).reh = s.reh := rfl
@[simp] theorem putPeer_host (s : State) (p : Peer) : (s.putPeer p).host = s.host := rfl
@[simp] theorem putPeer_mcs (s : State) (p : Peer) : (s.putPeer p).mcs = s.mcs := rfl
@[simp] theorem putPeer_modes (s : State) (p : Peer) : (s.putPeer p).modes = s.modes := rfl
@[simp] theorem putPeer_test (s : State) (p : Peer) : (s.putPeer p).test = s.test := rfl
@[simp] theorem putPeer_recal (s : State) (p : Peer) : (s.putPeer p).recal = s.recal := rfl
@[simp] theorem putPeer_clk (s : State) (p : Peer) : (s.putPeer p).clk = s.clk := rfl
@[simp] theorem putPeer_load (s : State) (p : Peer) : (s.putPeer p).load = s.load := rfl
@[simp] theorem putPeer_ksu (s : State) (p : Peer) : (s.putPeer p).ksu = s.ksu := rfl
@[simp] theorem putPeer_pm (s : State) (p : Peer) : (s.putPeer p).pm = s.pm := rfl
@[simp] theorem putPeer_drbg (s : State) (p : Peer) : (s.putPeer p).drbg = s.drbg := rfl
@[simp] theorem putPeer_debugScope (s : State) (p : Peer) : (s.putPeer p).debugScope = s.debugScope := rfl
@[simp] theorem putPeer_wire (s : State) (p : Peer) : (s.putPeer p).wire = s.wire := rfl
@[simp] theorem putPeer_status (s : State) (p : Peer) : (s.putPeer p).status = s.status := rfl
@[simp] theorem putPeer_bb (s : State) (p : Peer) : (s.putPeer p).bb = s.bb := rfl
@[simp] theorem putPeer_core (s : State) (p : Peer) (d : Nat) : (s.putPeer p).core d = s.core d := rfl
@[simp] theorem putPeer_cluster (s : State) (p : Peer) (d : Nat) : (s.putPeer p).cluster d = s.cluster d := rfl
@[simp] theorem putPeer_reg (s : State) (p : Peer) (q : Reg) (j : Nat) : (s.putPeer p).reg q j = s.reg q j := rfl
@[simp] theorem putPeer_fld (s : State) (p : Peer) (g : Fld) (j : Nat) : (s.putPeer p).fld g j = s.fld g j := rfl
@[simp] theorem putPeer_flag (s : State) (p : Peer) (g : Fld) (j : Nat) : (s.putPeer p).flag g j = s.flag g j := rfl
@[simp] theorem putPeer_rd (s : State) (p : Peer) (a : Nat) : (s.putPeer p).rd a = s.rd a := rfl
@[simp] theorem putPeer_mode (s : State) (p : Peer) (k : Nat) : (s.putPeer p).mode k = s.mode k := rfl

/-! ### State.putSlot -/

@[simp] theorem putSlot_pending (s : State) (x : Slot) : (s.putSlot x).pending = s.pending := rfl
@[simp] theorem putSlot_free (s : State) (x : Slot) : (s.putSlot x).free = s.free := rfl
@[simp] theorem putSlot_time (s : State) (x : Slot) : (s.putSlot x).time = s.time := rfl
@[simp] theorem putSlot_part (s : State) (x : Slot) : (s.putSlot x).part = s.part := rfl
@[simp] theorem putSlot_mem (s : State) (x : Slot) : (s.putSlot x).mem = s.mem := rfl
@[simp] theorem putSlot_emptied (s : State) (x : Slot) : (s.putSlot x).emptied = s.emptied := rfl
@[simp] theorem putSlot_home (s : State) (x : Slot) : (s.putSlot x).home = s.home := rfl
@[simp] theorem putSlot_held (s : State) (x : Slot) : (s.putSlot x).held = s.held := rfl
@[simp] theorem putSlot_asked (s : State) (x : Slot) : (s.putSlot x).asked = s.asked := rfl
@[simp] theorem putSlot_parked (s : State) (x : Slot) : (s.putSlot x).parked = s.parked := rfl
@[simp] theorem putSlot_regs (s : State) (x : Slot) : (s.putSlot x).regs = s.regs := rfl
@[simp] theorem putSlot_cores (s : State) (x : Slot) : (s.putSlot x).cores = s.cores := rfl
@[simp] theorem putSlot_clusters (s : State) (x : Slot) : (s.putSlot x).clusters = s.clusters := rfl
@[simp] theorem putSlot_dir (s : State) (x : Slot) : (s.putSlot x).dir = s.dir := rfl
@[simp] theorem putSlot_col (s : State) (x : Slot) : (s.putSlot x).col = s.col := rfl
@[simp] theorem putSlot_reh (s : State) (x : Slot) : (s.putSlot x).reh = s.reh := rfl
@[simp] theorem putSlot_host (s : State) (x : Slot) : (s.putSlot x).host = s.host := rfl
@[simp] theorem putSlot_mcs (s : State) (x : Slot) : (s.putSlot x).mcs = s.mcs := rfl
@[simp] theorem putSlot_modes (s : State) (x : Slot) : (s.putSlot x).modes = s.modes := rfl
@[simp] theorem putSlot_test (s : State) (x : Slot) : (s.putSlot x).test = s.test := rfl
@[simp] theorem putSlot_recal (s : State) (x : Slot) : (s.putSlot x).recal = s.recal := rfl
@[simp] theorem putSlot_clk (s : State) (x : Slot) : (s.putSlot x).clk = s.clk := rfl
@[simp] theorem putSlot_load (s : State) (x : Slot) : (s.putSlot x).load = s.load := rfl
@[simp] theorem putSlot_ksu (s : State) (x : Slot) : (s.putSlot x).ksu = s.ksu := rfl
@[simp] theorem putSlot_pm (s : State) (x : Slot) : (s.putSlot x).pm = s.pm := rfl
@[simp] theorem putSlot_drbg (s : State) (x : Slot) : (s.putSlot x).drbg = s.drbg := rfl
@[simp] theorem putSlot_debugScope (s : State) (x : Slot) : (s.putSlot x).debugScope = s.debugScope := rfl
@[simp] theorem putSlot_wire (s : State) (x : Slot) : (s.putSlot x).wire = s.wire := rfl
@[simp] theorem putSlot_status (s : State) (x : Slot) : (s.putSlot x).status = s.status := rfl
@[simp] theorem putSlot_bb (s : State) (x : Slot) : (s.putSlot x).bb = s.bb := rfl
@[simp] theorem putSlot_core (s : State) (x : Slot) (d : Nat) : (s.putSlot x).core d = s.core d := rfl
@[simp] theorem putSlot_cluster (s : State) (x : Slot) (d : Nat) : (s.putSlot x).cluster d = s.cluster d := rfl
@[simp] theorem putSlot_reg (s : State) (x : Slot) (q : Reg) (j : Nat) : (s.putSlot x).reg q j = s.reg q j := rfl
@[simp] theorem putSlot_fld (s : State) (x : Slot) (g : Fld) (j : Nat) : (s.putSlot x).fld g j = s.fld g j := rfl
@[simp] theorem putSlot_flag (s : State) (x : Slot) (g : Fld) (j : Nat) : (s.putSlot x).flag g j = s.flag g j := rfl
@[simp] theorem putSlot_rd (s : State) (x : Slot) (a : Nat) : (s.putSlot x).rd a = s.rd a := rfl
@[simp] theorem putSlot_mode (s : State) (x : Slot) (k : Nat) : (s.putSlot x).mode k = s.mode k := rfl

/-! ### State.dropReq -/

@[simp] theorem dropReq_pending (s : State) (tag : Nat) : (s.dropReq tag).pending = s.pending := rfl
@[simp] theorem dropReq_free (s : State) (tag : Nat) : (s.dropReq tag).free = s.free := rfl
@[simp] theorem dropReq_time (s : State) (tag : Nat) : (s.dropReq tag).time = s.time := rfl
@[simp] theorem dropReq_part (s : State) (tag : Nat) : (s.dropReq tag).part = s.part := rfl
@[simp] theorem dropReq_mem (s : State) (tag : Nat) : (s.dropReq tag).mem = s.mem := rfl
@[simp] theorem dropReq_emptied (s : State) (tag : Nat) : (s.dropReq tag).emptied = s.emptied := rfl
@[simp] theorem dropReq_home (s : State) (tag : Nat) : (s.dropReq tag).home = s.home := rfl
@[simp] theorem dropReq_held (s : State) (tag : Nat) : (s.dropReq tag).held = s.held := rfl
@[simp] theorem dropReq_asked (s : State) (tag : Nat) : (s.dropReq tag).asked = s.asked := rfl
@[simp] theorem dropReq_parked (s : State) (tag : Nat) : (s.dropReq tag).parked = s.parked := rfl
@[simp] theorem dropReq_regs (s : State) (tag : Nat) : (s.dropReq tag).regs = s.regs := rfl
@[simp] theorem dropReq_cores (s : State) (tag : Nat) : (s.dropReq tag).cores = s.cores := rfl
@[simp] theorem dropReq_clusters (s : State) (tag : Nat) : (s.dropReq tag).clusters = s.clusters := rfl
@[simp] theorem dropReq_dir (s : State) (tag : Nat) : (s.dropReq tag).dir = s.dir := rfl
@[simp] theorem dropReq_col (s : State) (tag : Nat) : (s.dropReq tag).col = s.col := rfl
@[simp] theorem dropReq_reh (s : State) (tag : Nat) : (s.dropReq tag).reh = s.reh := rfl
@[simp] theorem dropReq_host (s : State) (tag : Nat) : (s.dropReq tag).host = s.host := rfl
@[simp] theorem dropReq_mcs (s : State) (tag : Nat) : (s.dropReq tag).mcs = s.mcs := rfl
@[simp] theorem dropReq_modes (s : State) (tag : Nat) : (s.dropReq tag).modes = s.modes := rfl
@[simp] theorem dropReq_test (s : State) (tag : Nat) : (s.dropReq tag).test = s.test := rfl
@[simp] theorem dropReq_recal (s : State) (tag : Nat) : (s.dropReq tag).recal = s.recal := rfl
@[simp] theorem dropReq_clk (s : State) (tag : Nat) : (s.dropReq tag).clk = s.clk := rfl
@[simp] theorem dropReq_load (s : State) (tag : Nat) : (s.dropReq tag).load = s.load := rfl
@[simp] theorem dropReq_ksu (s : State) (tag : Nat) : (s.dropReq tag).ksu = s.ksu := rfl
@[simp] theorem dropReq_pm (s : State) (tag : Nat) : (s.dropReq tag).pm = s.pm := rfl
@[simp] theorem dropReq_drbg (s : State) (tag : Nat) : (s.dropReq tag).drbg = s.drbg := rfl
@[simp] theorem dropReq_debugScope (s : State) (tag : Nat) : (s.dropReq tag).debugScope = s.debugScope := rfl
@[simp] theorem dropReq_wire (s : State) (tag : Nat) : (s.dropReq tag).wire = s.wire := rfl
@[simp] theorem dropReq_status (s : State) (tag : Nat) : (s.dropReq tag).status = s.status := rfl
@[simp] theorem dropReq_bb (s : State) (tag : Nat) : (s.dropReq tag).bb = s.bb := rfl
@[simp] theorem dropReq_core (s : State) (tag : Nat) (d : Nat) : (s.dropReq tag).core d = s.core d := rfl
@[simp] theorem dropReq_cluster (s : State) (tag : Nat) (d : Nat) : (s.dropReq tag).cluster d = s.cluster d := rfl
@[simp] theorem dropReq_reg (s : State) (tag : Nat) (q : Reg) (j : Nat) : (s.dropReq tag).reg q j = s.reg q j := rfl
@[simp] theorem dropReq_fld (s : State) (tag : Nat) (g : Fld) (j : Nat) : (s.dropReq tag).fld g j = s.fld g j := rfl
@[simp] theorem dropReq_flag (s : State) (tag : Nat) (g : Fld) (j : Nat) : (s.dropReq tag).flag g j = s.flag g j := rfl
@[simp] theorem dropReq_rd (s : State) (tag : Nat) (a : Nat) : (s.dropReq tag).rd a = s.rd a := rfl
@[simp] theorem dropReq_mode (s : State) (tag : Nat) (k : Nat) : (s.dropReq tag).mode k = s.mode k := rfl

/-! ### State.wakeLines -/

@[simp] theorem wakeLines_pending (s : State) : (s.wakeLines).pending = s.pending := rfl
@[simp] theorem wakeLines_free (s : State) : (s.wakeLines).free = s.free := rfl
@[simp] theorem wakeLines_time (s : State) : (s.wakeLines).time = s.time := rfl
@[simp] theorem wakeLines_part (s : State) : (s.wakeLines).part = s.part := rfl
@[simp] theorem wakeLines_mem (s : State) : (s.wakeLines).mem = s.mem := rfl
@[simp] theorem wakeLines_emptied (s : State) : (s.wakeLines).emptied = s.emptied := rfl
@[simp] theorem wakeLines_home (s : State) : (s.wakeLines).home = s.home := rfl
@[simp] theorem wakeLines_held (s : State) : (s.wakeLines).held = s.held := rfl
@[simp] theorem wakeLines_asked (s : State) : (s.wakeLines).asked = s.asked := rfl
@[simp] theorem wakeLines_parked (s : State) : (s.wakeLines).parked = s.parked := rfl
@[simp] theorem wakeLines_regs (s : State) : (s.wakeLines).regs = s.regs := rfl
@[simp] theorem wakeLines_clusters (s : State) : (s.wakeLines).clusters = s.clusters := rfl
@[simp] theorem wakeLines_dir (s : State) : (s.wakeLines).dir = s.dir := rfl
@[simp] theorem wakeLines_col (s : State) : (s.wakeLines).col = s.col := rfl
@[simp] theorem wakeLines_reh (s : State) : (s.wakeLines).reh = s.reh := rfl
@[simp] theorem wakeLines_tour (s : State) : (s.wakeLines).tour = s.tour := rfl
@[simp] theorem wakeLines_host (s : State) : (s.wakeLines).host = s.host := rfl
@[simp] theorem wakeLines_mcs (s : State) : (s.wakeLines).mcs = s.mcs := rfl
@[simp] theorem wakeLines_modes (s : State) : (s.wakeLines).modes = s.modes := rfl
@[simp] theorem wakeLines_test (s : State) : (s.wakeLines).test = s.test := rfl
@[simp] theorem wakeLines_recal (s : State) : (s.wakeLines).recal = s.recal := rfl
@[simp] theorem wakeLines_clk (s : State) : (s.wakeLines).clk = s.clk := rfl
@[simp] theorem wakeLines_load (s : State) : (s.wakeLines).load = s.load := rfl
@[simp] theorem wakeLines_ksu (s : State) : (s.wakeLines).ksu = s.ksu := rfl
@[simp] theorem wakeLines_pm (s : State) : (s.wakeLines).pm = s.pm := rfl
@[simp] theorem wakeLines_drbg (s : State) : (s.wakeLines).drbg = s.drbg := rfl
@[simp] theorem wakeLines_debugScope (s : State) : (s.wakeLines).debugScope = s.debugScope := rfl
@[simp] theorem wakeLines_wire (s : State) : (s.wakeLines).wire = s.wire := rfl
@[simp] theorem wakeLines_status (s : State) : (s.wakeLines).status = s.status := rfl
@[simp] theorem wakeLines_bb (s : State) : (s.wakeLines).bb = s.bb := rfl
@[simp] theorem wakeLines_cluster (s : State) (d : Nat) : (s.wakeLines).cluster d = s.cluster d := rfl
@[simp] theorem wakeLines_reg (s : State) (q : Reg) (j : Nat) : (s.wakeLines).reg q j = s.reg q j := rfl
@[simp] theorem wakeLines_fld (s : State) (g : Fld) (j : Nat) : (s.wakeLines).fld g j = s.fld g j := rfl
@[simp] theorem wakeLines_flag (s : State) (g : Fld) (j : Nat) : (s.wakeLines).flag g j = s.flag g j := rfl
@[simp] theorem wakeLines_rd (s : State) (a : Nat) : (s.wakeLines).rd a = s.rd a := rfl
@[simp] theorem wakeLines_mode (s : State) (k : Nat) : (s.wakeLines).mode k = s.mode k := rfl

end Sys2Proof.Machine
end

