-- ==== Sys2Proof/Tests/Slice0.lean ====
section
/-! SUPPORT. Tests: ill-formed commands that the check refuses, and states that meet the hypotheses of the statements. -/

namespace Sys2Proof.Tests

open Sys2Proof Sys2Proof.Machine Sys2Proof.Safety

set_option maxRecDepth 20000
set_option Elab.async false

/-- A core that runs at PC 0x100 in world w at level l: translation off, the line of its PC in an I-frame, the lines of pa 0x100 to 0x11F
modified in a D-frame. -/
def demoCore (w l : Bool) (regs cregs : List TWord) : Core :=
  { run := .run, psw := { w := w, l := l }, pc := 256
    stk := { sp := 0x800, regs := regs, csp := 0x900, cregs := cregs, sbase := 0x880, slim := 0x700, clim := 0x880 }
    mem := { iframes := [{ idx := 0, base := 2, sect := [List.replicate 8 wRAW0] }]
             dframes := [{ idx := 0, base := 8, st := [.mod, .mod, .mod, .mod] }] } }

/-- The device in Run with that core as core 0, the others held in reset, and the memory m. -/
def demo (w l : Bool) (regs cregs : List TWord) (m : List (Nat × TWord)) : State :=
  { State.reset with status := 4, cores := State.reset.cores.set 0 (demoCore w l regs cregs), mem := m }

theorem demo_issues (w l : Bool) (regs cregs : List TWord) (m : List (Nat × TWord)) : (demo w l regs cregs m).canIssue 0 = true := by
  have h : (demo w l regs cregs m).canIssue 0 = (demo w l [] [] []).canIssue 0 := rfl
  rw [h]
  cases w <;> cases l <;> decide

theorem demo_trace (w l : Bool) (regs cregs : List TWord) (m : List (Nat × TWord)) : (demo w l regs cregs m).tracing 0 = false := by
  have h : (demo w l regs cregs m).tracing 0 = (demo w l [] [] []).tracing 0 := rfl
  rw [h]
  cases w <;> cases l <;> decide

theorem demo_strict (w l : Bool) (regs cregs : List TWord) (m : List (Nat × TWord)) : (demo w l regs cregs m).strict 0 = false := by
  have h : (demo w l regs cregs m).strict 0 = (demo w l [] [] []).strict 0 := rfl
  rw [h]
  cases w <;> cases l <;> decide

theorem demo_replay (w l : Bool) (regs cregs : List TWord) (m : List (Nat × TWord)) :
    (demo w l regs cregs m).mode mREPLAY = false ∧ (demo w l regs cregs m).recording = false := by
  have h : (demo w l regs cregs m).mode mREPLAY = (demo w l [] [] []).mode mREPLAY := rfl
  have g : (demo w l regs cregs m).recording = (demo w l [] [] []).recording := rfl
  rw [h, g]
  cases w <;> cases l <;> decide

theorem demo_trap (w l : Bool) (regs cregs : List TWord) (m : List (Nat × TWord)) : (demo w l regs cregs m).stepDue 0 (!l) w = false := by
  have h : (demo w l regs cregs m).stepDue 0 (!l) w = (demo w l [] [] []).stepDue 0 (!l) w := rfl
  rw [h]
  cases w <;> cases l <;> decide

theorem demo_fetch (w l : Bool) (regs cregs : List TWord) (m : List (Nat × TWord)) :
    fetchOk ((demo w l regs cregs m).core 0) = .inr { pa := 64, mt := 0, tte := none } ∧
      ((demo w l regs cregs m).core 0).hasLine (lineOf 64) = true ∧ ((demo w l regs cregs m).core 0).poisoned 64 = false := by
  have h : fetchOk ((demo w l regs cregs m).core 0) = fetchOk (demoCore w l [] []) := rfl
  have g : ((demo w l regs cregs m).core 0).hasLine (lineOf 64) = (demoCore w l [] []).hasLine (lineOf 64) := rfl
  have e : ((demo w l regs cregs m).core 0).poisoned 64 = (demoCore w l [] []).poisoned 64 := rfl
  rw [h, g, e]
  cases w <;> cases l <;> decide

/-- The core meets nothing but its syllable. -/
theorem demo_quiet (w l : Bool) (regs cregs : List TWord) (m : List (Nat × TWord)) : Quiet (demo w l regs cregs m) 0 where
  issues := demo_issues w l regs cregs m
  remote := rfl
  noParked := rfl
  noReplay := (demo_replay w l regs cregs m).1
  noRecord := (demo_replay w l regs cregs m).2
  noTrace := demo_trace w l regs cregs m
  noStrict := demo_strict w l regs cregs m
  noScene := rfl
  noSlot := rfl
  noLoop := rfl
  noStep := rfl
  noRep := rfl
  noPend := rfl
  noWins := rfl
  noNewWins := rfl
  noSpills := rfl
  noBuf := rfl
  noShadow := rfl
  noMicro := rfl
  noMiss := rfl
  noSingle := rfl
  noTrap := demo_trap w l regs cregs m
  fetch := ⟨_, demo_fetch w l regs cregs m⟩

/-- Operands in registers. -/
theorem demo_stacked (w l : Bool) (regs cregs : List TWord) (m : List (Nat × TWord)) (takes grow : Nat) (h : regs.length + grow ≤ 8) (t : takes ≤ 128)
    (n : regs.length ≤ 128) : Stacked (demo w l regs cregs m) 0 regs takes grow where
  top := List.take_length
  room := h
  deep := by
    show Nat.max regs.length takes = 0 ∨ 0x800 + (Nat.max regs.length takes - 1) < 0x880
    have h1 : Nat.max regs.length takes = max regs.length takes := rfl
    omega

/-- A quiet core with its operands in registers. -/
theorem demo_ready (w l : Bool) (regs cregs : List TWord) (m : List (Nat × TWord)) (takes grow : Nat) (h : regs.length + grow ≤ 8) (t : takes ≤ 128) :
    Quiet (demo w l regs cregs m) 0 ∧ Stacked (demo w l regs cregs m) 0 regs takes grow :=
  ⟨demo_quiet w l regs cregs m, demo_stacked w l regs cregs m takes grow h t (by omega)⟩

/-- Prefetching is off. -/
theorem demo_calm (w l : Bool) (regs cregs : List TWord) (m : List (Nat × TWord)) : bits ((demo w l regs cregs m).core 0).sr.cctl 5 4 = 0 := by
  have h : bits ((demo w l regs cregs m).core 0).sr.cctl 5 4 = bits (demoCore w l [] []).sr.cctl 5 4 := rfl
  rw [h]
  cases w <;> cases l <;> decide

/-- Reads of pa 0x100 to 0x11F hit. -/
theorem demo_hit (w l : Bool) (regs cregs : List TWord) (m : List (Nat × TWord)) (n : Fin 32) :
    Hit (demo w l regs cregs m) 0 (256 + n) { pa := 256 + n, mt := 0, tte := none } where
  leaf := by
    have h : xlateCore ((demo w l regs cregs m).core 0) (256 + n) .read 7 = xlateCore (demoCore w l [] []) (256 + n) .read 7 := rfl
    rw [h]
    clear h
    revert n
    cases w <;> cases l <;> decide
  wb := rfl
  here := .inl (by revert n; decide)
  frame := by
    have h : ((demo w l regs cregs m).core 0).dstate (lineOf (256 + n)) = (demoCore w l [] []).dstate (lineOf (256 + n)) := rfl
    rw [h]
    clear h
    revert n
    cases w <;> cases l <;> decide
  fence := rfl
  core := rfl
  calm := .inl (demo_calm w l regs cregs m)

theorem demo_storable (w l : Bool) (regs cregs : List TWord) (m : List (Nat × TWord)) (n : Fin 32) :
    Storable (demo w l regs cregs m) 0 (256 + n) { pa := 256 + n, mt := 0, tte := none } where
  leaf := by
    have h : xlateCore ((demo w l regs cregs m).core 0) (256 + n) .write 7 = xlateCore (demoCore w l [] []) (256 + n) .write 7 := rfl
    rw [h]
    clear h
    revert n
    cases w <;> cases l <;> decide
  mt := Nat.zero_le _
  here := .inl (by revert n; decide)
  room := by show (0 : Nat) < 8; decide
  fence := rfl
  core := rfl
  calm := .inl (demo_calm w l regs cregs m)

/-- The collector is off: the load barrier leaves every word alone. -/
theorem demo_settled (w l : Bool) (regs cregs : List TWord) (m : List (Nat × TWord)) (v : TWord) : Settled (demo w l regs cregs m) 0 v := by
  have h : (demo w l regs cregs m).colOn = false := by
    have g : (demo w l regs cregs m).colOn = (demo w l [] [] []).colOn := rfl
    rw [g]
    cases w <;> cases l <;> decide
  left
  rw [h]
  simp

/-- A word of a type with a datum. -/
def W (t d : Nat) : TWord := word t d

/-- The one D-frame of the demo core is already the last used. -/
theorem demo_touched (w l : Bool) (regs cregs : List TWord) (m : List (Nat × TWord)) (n : Fin 32) :
    touched (demo w l regs cregs m) 0 (256 + n) = demo w l regs cregs m := by
  revert n
  intro ⟨n, h⟩
  have e : lineOf (256 + n) = 32 ∨ lineOf (256 + n) = 33 ∨ lineOf (256 + n) = 34 ∨ lineOf (256 + n) = 35 := by
    unfold lineOf
    omega
  unfold touched
  rcases e with e | e | e | e <;> simp only [e] <;> rfl

/-- So a read that hits leaves the state as it was. -/
theorem demo_sees (w l : Bool) (regs cregs : List TWord) (m : List (Nat × TWord)) (n : Fin 32) :
    Sees (demo w l regs cregs m) (demo w l regs cregs m) 0 (256 + n) ((demo w l regs cregs m).coreSees 0 (256 + n)) :=
  ⟨_, demo_hit w l regs cregs m n, rfl, (demo_touched w l regs cregs m n).symm⟩

theorem demo_reads (w l : Bool) (regs cregs : List TWord) (m : List (Nat × TWord)) (n : Fin 32) :
    Reads (demo w l regs cregs m) (demo w l regs cregs m) 0 (256 + n) ((demo w l regs cregs m).coreSees 0 (256 + n)) :=
  ⟨demo_sees w l regs cregs m n, demo_settled w l regs cregs m _⟩

/-! ### Witnesses: states and operands that meet a statement's hypotheses -/

theorem witness_StackInstructions :
    (Quiet (demo true true [W tNIL 0, fixN 1, fixN 2] [] []) 0 ∧ Stacked (demo true true [W tNIL 0, fixN 1, fixN 2] [] []) 0
      [W tNIL 0, fixN 1, fixN 2] 3 2) ∧
    (List.replicate 8 wRAW0).length ≤ 15 ∧ ¬ Deep { demo true true [] [] [] with
      cores := [{ demoCore true true [] [] with stk := { sp := 0x880, regs := [], csp := 0x900, cregs := [], sbase := 0x880, slim := 0x700, clim := 0x880 } }] } 0 1 :=
  ⟨demo_ready true true _ [] [] 3 2 (by decide) (by decide), by decide, by unfold Deep; decide⟩

theorem witness_LiteralsAndControlStack :
    Quiet (demo true true [fixN 5] [fixN 9, fixN 8, fixN 7] []) 0 ∧ Stacked (demo true true [fixN 5] [fixN 9, fixN 8, fixN 7] []) 0 [fixN 5] 1 1 ∧
      ((demo true true [fixN 5] [fixN 9, fixN 8, fixN 7] []).core 0).stk.cregs.length ≤ 3 ∧
      ((demo true true [fixN 5] [fixN 9, fixN 8, fixN 7] []).core 0).stk.cregs.head? = some (fixN 9) ∧
      ((demo true true [fixN 5] [fixN 9, fixN 8, fixN 7] []).core 0).stk.cregs[2]? = some (fixN 7) ∧ ty (fixN 5) = tFIX :=
  ⟨demo_quiet _ _ _ _ _, demo_stacked _ _ _ _ _ 1 1 (by decide) (by decide) (by decide), by decide, by decide, by decide, by decide⟩

theorem witness_GenericArithmetic :
    (∀ x ∈ [fixI (2 ^ 62), fixI (-(2 ^ 62)), fixI 64, fixI (-63), fixI 0], ty x = tFIX) ∧
    InFix ((2 : Int) ^ 62 + 64) ∧ InFix (-(2 : Int) ^ 62 - 2 ^ 62) ∧ ¬ InFix ((2 : Int) ^ 62 + 2 ^ 62) ∧ InFix ((2 : Int) ^ 62 * -2) ∧
    (64 : Int) % -63 ≠ 0 ∧ (64 : Int) % 64 = 0 ∧ InFix ((-63 : Int) * 2 ^ 57) ∧ InFix (-(2 : Int) ^ 63 + 1 - 1) ∧
    SomeFlo (W tFLO 0) (fixI 3) ∧ SomeFlo (W tFLO 0x7FF8000000000000) (W tFLO 1) ∧
    (realOf (W tFLO 0)).isNaN = false ∧ (realOf (fixI 3)).isNaN = false ∧ (realOf (W tFLO 0x7FF8000000000000)).isNaN = true ∧
    MicroRoom (demo true true [fixI 3, W tFLO 0] [] []) 0 ∧ Quiet (demo true true [fixI 3, W tFLO 0] [] []) 0 ∧
    Stacked (demo true true [fixI 3, W tFLO 0] [] []) 0 [fixI 3, W tFLO 0] 2 0 := by
  refine ⟨by decide, by unfold InFix; decide, by unfold InFix; decide, by unfold InFix; decide, by unfold InFix; decide, by decide, by decide,
    by unfold InFix; decide, by unfold InFix; decide, by unfold SomeFlo; decide, by unfold SomeFlo; decide, by decide, by decide, by decide,
    by unfold MicroRoom; decide, demo_quiet _ _ _ _ _, demo_stacked _ _ _ _ _ 2 0 (by decide) (by decide) (by decide)⟩

theorem witness_FixFloInstructions :
    (∀ x ∈ [fixI (-(2 ^ 63)), fixI (-1), fixI 0], ty x = tFIX) ∧ (fixI (-1)).datum ≠ 0 ∧ (fixI 0).datum = 0 ∧ ty (W tFLO 8) = tFLO ∧
    Sound (W tNIL 0) ∧ ty (W tNIL 0) ≠ tFIX ∧ ty (W tNIL 0) ≠ tFLO ∧
    Quiet (demo false false [W tNIL 0, W tFLO 8, fixI 0] [] []) 0 ∧
    Stacked (demo false false [W tNIL 0, W tFLO 8, fixI 0] [] []) 0 [W tNIL 0, W tFLO 8, fixI 0] 3 4 := by
  refine ⟨by decide, by decide, by decide, by decide, by unfold Sound; decide, by decide, by decide, demo_quiet _ _ _ _ _,
    demo_stacked _ _ _ _ _ 3 4 (by decide) (by decide) (by decide)⟩

theorem witness_Comparisons : Sound (W tCONS 264) ∧ Sound (W tNIL 0) ∧ (0x2F : Nat) < 0x30 ∧ ty (W tCONS 264) ≠ 0x2F ∧ ty (W tCONS 264) = tCONS ∧
    Quiet (demo true false [W tNIL 0, W tCONS 264] [] []) 0 ∧ Stacked (demo true false [W tNIL 0, W tCONS 264] [] []) 0 [W tNIL 0, W tCONS 264] 2 0 := by
  refine ⟨by unfold Sound; decide, by unfold Sound; decide, by decide, by decide, by decide, demo_quiet _ _ _ _ _,
    demo_stacked _ _ _ _ _ 2 0 (by decide) (by decide) (by decide)⟩

theorem witness_Loads :
    ∃ t w, Reads (demo false false [W tLOC 264] [] [(264, fixN 7)]) t 0 (adr (W tLOC 264)) w ∧ w = fixN 7 ∧
      Pointer (demo false false [W tLOC 264] [] [(264, fixN 7)]) 0 (W tLOC 264) (ty (W tLOC 264)) ∧
      Pointer (demo false false [W tLOC 264] [] [(264, fixN 7)]) 0 (W tCONS 264) tCONS ∧
      Quiet (demo false false [W tLOC 264] [] [(264, fixN 7)]) 0 ∧ Stacked (demo false false [W tLOC 264] [] [(264, fixN 7)]) 0 [W tLOC 264] 1 1 :=
  ⟨_, _, demo_reads false false _ _ _ 8, by decide, ⟨rfl, by decide, by decide, demo_settled _ _ _ _ _ _⟩,
    ⟨rfl, by decide, by decide, demo_settled _ _ _ _ _ _⟩, demo_quiet _ _ _ _ _, demo_stacked _ _ _ _ _ 1 1 (by decide) (by decide) (by decide)⟩

theorem demo_pointer (w l : Bool) (regs cregs : List TWord) (m : List (Nat × TWord)) (p : TWord) (h : hiZero p = true)
    (e : ty p = tCONS → adr p % 2 = 0) : Pointer (demo w l regs cregs m) 0 p (ty p) :=
  ⟨rfl, h, e, demo_settled w l regs cregs m p⟩

theorem demo_noBarrier (w l : Bool) (regs cregs : List TWord) (m : List (Nat × TWord)) (old v : TWord) :
    NoBarrier (demo w l regs cregs m) 0 old v := by
  left
  have g : (demo w l regs cregs m).colOn = (demo w l [] [] []).colOn := rfl
  rw [g]
  cases w <;> cases l <;> decide

/-- A vector of two words at pa 264. -/
def vecMem : List (Nat × TWord) := [(264, mkHdr 0 2), (265, fixN 7), (266, fixN 8)]

theorem witness_ObjectReads :
    HeaderAt (demo false false [fixI 1, W tVEC 264] [] vecMem) (demo false false [fixI 1, W tVEC 264] [] vecMem) 0 264 (mkHdr 0 2) ∧
    Reads (demo false false [fixI 1, W tVEC 264] [] vecMem) (demo false false [fixI 1, W tVEC 264] [] vecMem) 0 266 (fixN 8) ∧
    Pointer (demo false false [fixI 1, W tVEC 264] [] vecMem) 0 (W tVEC 264) tVEC ∧ adr (W tVEC 264) = 264 ∧
    hdrFits tVEC (mkHdr 0 2) = true ∧ isHeaded 0 tVEC = true ∧ (demo false false [] [] []).cuptr 0 = 0 ∧ Sound (W tVEC 264) ∧
    0 ≤ (fixI 1).datum.toInt ∧ (fixI 1).datum.toInt < hdrLen (mkHdr 0 2) ∧
    ¬ (0 ≤ (fixI 2).datum.toInt ∧ (fixI 2).datum.toInt < hdrLen (mkHdr 0 2)) ∧
    ¬ (0 ≤ (fixI (-1)).datum.toInt ∧ (fixI (-1)).datum.toInt < hdrLen (mkHdr 0 2)) ∧
    Quiet (demo false false [fixI 1, W tVEC 264] [] vecMem) 0 ∧
    Stacked (demo false false [fixI 1, W tVEC 264] [] vecMem) 0 [fixI 1, W tVEC 264] 2 0 := by
  refine ⟨⟨demo_sees _ _ _ _ _ 8, by decide⟩, demo_reads _ _ _ _ _ 10, demo_pointer _ _ _ _ _ _ (by decide) (by decide), by decide, by decide,
    by decide, by decide, by unfold Sound; decide, by decide, by decide, by decide, by decide, demo_quiet _ _ _ _ _,
    demo_stacked _ _ _ _ _ 2 0 (by decide) (by decide) (by decide)⟩

theorem witness_ObjectReads_symbol :
    HeaderAt (demo true true [W tSYM 272] [] [(272, mkHdr 0 6)]) (demo true true [W tSYM 272] [] [(272, mkHdr 0 6)]) 0 272 (mkHdr 0 6) ∧
    hdrFits tSYM (mkHdr 0 6) = true ∧ (fixI 2).datum.toInt ≠ 0 ∧ (fixI 2).datum.toInt ≠ 1 ∧
    Pointer (demo true true [fixI 2, W tCONS 264] [] []) 0 (W tCONS 264) tCONS ∧
    Stacked (demo true true [fixI 2, W tCONS 264] [] []) 0 [fixI 2, W tCONS 264] 2 0 :=
  ⟨⟨demo_sees _ _ _ _ _ 16, by decide⟩, by decide, by decide, by decide, demo_pointer _ _ _ _ _ _ (by decide) (by decide),
    demo_stacked _ _ _ _ _ 2 0 (by decide) (by decide) (by decide)⟩

/-- Quiet as a test. -/
def quietB (s : State) (c : Nat) : Bool :=
  let k := s.core c
  s.canIssue c && decide (k.ev.remote = []) && decide (s.parked = []) && !(s.mode mREPLAY) && !s.recording && !(s.tracing c) && !(s.strict c) &&
  !k.psw.sc && !k.psw.ds && !k.psw.lp && !k.psw.step && !k.psw.repp && decide (k.pend = []) && decide (k.wins = []) && decide (k.newWins = []) &&
  decide (k.spills = []) && decide (k.hostBuf = []) && decide (k.shadow = none) && decide (k.micro = none) && !k.mem.miss && !k.stepOnce &&
  !(s.stepDue c (!k.psw.l) k.psw.w) && (match fetchOk k with | .inr lf => k.hasLine (lineOf lf.pa) && !(k.poisoned lf.pa) | .inl _ => false)

theorem quiet_of {s : State} {c : Nat} (h : quietB s c = true) : Quiet s c := by
  simp only [quietB, Bool.and_eq_true, decide_eq_true_eq, Bool.not_eq_true'] at h
  obtain ⟨⟨⟨⟨⟨⟨⟨⟨⟨⟨⟨⟨⟨⟨⟨⟨⟨⟨⟨⟨⟨⟨h1, h2⟩, hp⟩, h3⟩, h4⟩, h5⟩, h6⟩, h7⟩, h8⟩, h9⟩, h10⟩, h11⟩, h12⟩, h13⟩, h14⟩, hs⟩, hb⟩, h15⟩, h16⟩, h17⟩, h18⟩, h19⟩, h20⟩ := h
  refine ⟨h1, h2, hp, h3, h4, h5, h6, h7, h8, h9, h10, h11, h12, h13, h14, hs, hb, h15, h16, h17, h18, h19, ?_⟩
  split at h20
  · simp only [Bool.and_eq_true, Bool.not_eq_true'] at h20
    exact ⟨_, ‹_›, h20⟩
  · exact absurd h20 (by decide)

/-- Uncontested as a test. -/
def uncontestedB (s : State) : Bool := s.cores.all (fun k => !k.psw.sc && decide (k.micro = none)) && decide (s.tour.slots = [])

theorem uncontested_of {s : State} (h : uncontestedB s = true) : Uncontested s := by
  simp only [uncontestedB, Bool.and_eq_true, List.all_eq_true, decide_eq_true_eq, Bool.not_eq_true'] at h
  have g (c : Nat) : (s.core c).psw.sc = false ∧ (s.core c).micro = none := by
    unfold State.core
    rw [List.getD_eq_getElem?_getD]
    cases e : s.cores[c]? with
    | none => exact ⟨rfl, rfl⟩
    | some k => exact h.1 k (List.mem_of_getElem? e)
  exact ⟨fun c => (g c).1, h.2, fun c => (g c).2⟩

/-- No line is lost (R269). -/
theorem noLost_of {s : State} (h : s.clusters.all (fun k => decide (k.lost = [])) = true) (q : Nat) : (s.cluster q).lost = [] := by
  simp only [List.all_eq_true, decide_eq_true_eq] at h
  unfold State.cluster
  rw [List.getD_eq_getElem?_getD]
  cases e : s.clusters[q]? with
  | none => rfl
  | some k => exact h k (List.mem_of_getElem? e)

/-- Stacked as a test. -/
def stackedB (s : State) (c : Nat) (ops : List TWord) (takes grow : Nat) : Bool :=
  let k := s.core c
  decide (k.stk.regs.take ops.length = ops) && decide (k.stk.regs.length + grow ≤ 8) &&
  (decide (Nat.max ops.length takes = 0) || decide (k.stk.sp + (Nat.max ops.length takes - 1) < sbaseOf k))

theorem stacked_of {s : State} {c : Nat} {ops : List TWord} {takes grow : Nat} (h : stackedB s c ops takes grow = true) : Stacked s c ops takes grow := by
  simp only [stackedB, Bool.and_eq_true, Bool.or_eq_true, decide_eq_true_eq] at h
  exact ⟨h.1.1, h.1.2, h.2⟩

theorem demo_mayStore (w l : Bool) (regs cregs : List TWord) (m : List (Nat × TWord)) (v : TWord) (h : ty v ≠ tHDR ∧ ty v ≠ tFWD) :
    MayStore (demo w l regs cregs m) 0 v := .inr h

theorem witness_Stores :
    Quiet (demo false false [W tLOC 264, fixN 9] [] []) 0 ∧ Stacked (demo false false [W tLOC 264, fixN 9] [] []) 0 [W tLOC 264, fixN 9] 2 0 ∧
    MayStore (demo false false [W tLOC 264, fixN 9] [] []) 0 (fixN 9) ∧
    NoBarrier (demo false false [W tLOC 264, fixN 9] [] []) 0 ((demo false false [W tLOC 264, fixN 9] [] []).coreSees 0 264) (fixN 9) ∧
    kBit (W tLOC 264) = false ∧ Pointer (demo false false [W tLOC 264, fixN 9] [] []) 0 (W tLOC 264) tLOC ∧
    Storable (demo false false [W tLOC 264, fixN 9] [] []) 0 264 { pa := 264, mt := 0, tte := none } ∧
    Storable (demo false false [fixN 9, W tCONS 264] [] []) 0 265 { pa := 265, mt := 0, tte := none } ∧
    Pointer (demo false false [fixN 9, W tCONS 264] [] []) 0 (W tCONS 264) tCONS ∧ adr (W tCONS 264) % 2 = 0 ∧
    ((demo false false [W tLOC 264, fixN 8, fixN 9] [] []).core 0).mem.sq.length < 7 :=
  ⟨demo_quiet _ _ _ _ _, demo_stacked _ _ _ _ _ 2 0 (by decide) (by decide) (by decide), demo_mayStore _ _ _ _ _ _ (by decide),
    demo_noBarrier _ _ _ _ _ _ _, by decide, demo_pointer _ _ _ _ _ _ (by decide) (by decide), demo_storable _ _ _ _ _ 8, demo_storable _ _ _ _ _ 9,
    demo_pointer _ _ _ _ _ _ (by decide) (by decide), by decide, by show (0 : Nat) < 7; decide⟩

theorem witness_Stores_object :
    HeaderAt (demo true true [fixN 9, fixN 1, W tVEC 264] [] vecMem) (demo true true [fixN 9, fixN 1, W tVEC 264] [] vecMem) 0 264 (mkHdr 0 2) ∧
    hdrFits tVEC (mkHdr 0 2) = true ∧ kBit (W tVEC 264) = false ∧ Sound (W tVEC 264) ∧ (fixN 1).datum.toInt < hdrLen (mkHdr 0 2) ∧
    MayStore (demo true true [fixN 9, fixN 1, W tVEC 264] [] vecMem) 0 (fixN 9) ∧
    Storable (demo true true [fixN 9, fixN 1, W tVEC 264] [] vecMem) 0 266 { pa := 266, mt := 0, tte := none } ∧
    Stacked (demo true true [fixN 9, fixN 1, W tVEC 264] [] vecMem) 0 [fixN 9, fixN 1, W tVEC 264] 3 0 :=
  ⟨⟨demo_sees _ _ _ _ _ 8, by decide⟩, by decide, by decide, by unfold Sound; decide, by decide, .inl rfl, demo_storable _ _ _ _ _ 10,
    demo_stacked _ _ _ _ _ 3 0 (by decide) (by decide) (by decide)⟩

theorem witness_Atomics :
    Reads (demo true true [fixN 9, fixN 7, W tLOC 264] [] [(264, fixN 7)]) (demo true true [fixN 9, fixN 7, W tLOC 264] [] [(264, fixN 7)]) 0 264 (fixN 7) ∧
    ((demo true true [fixN 9, fixN 7, W tLOC 264] [] [(264, fixN 7)]).core 0).dstate (lineOf 264) = .mod ∧
    ((demo true true [fixN 9, fixN 7, W tLOC 264] [] [(264, fixN 7)]).core 0).mem.sq = [] ∧
    (demo true true [fixN 9, fixN 7, W tLOC 264] [] [(264, fixN 7)]).arbitrate (.core 0) (lineOf 264) true =
      .go (demo true true [fixN 9, fixN 7, W tLOC 264] [] [(264, fixN 7)]) ∧
    Storable (demo true true [fixN 9, fixN 7, W tLOC 264] [] [(264, fixN 7)]) 0 264 { pa := 264, mt := 0, tte := none } ∧ Sound (fixN 7) ∧
    Stacked (demo true true [fixN 9, fixN 7, W tLOC 264] [] [(264, fixN 7)]) 0 [fixN 9, fixN 7, W tLOC 264] 3 4 :=
  ⟨demo_reads _ _ _ _ _ 8, by decide, by decide, rfl, demo_storable _ _ _ _ _ 8, by unfold Sound; decide,
    demo_stacked _ _ _ _ _ 3 4 (by decide) (by decide) (by decide)⟩

/-- The demo core with an allocation buffer from AB to AL. -/
def demoBuf (regs : List TWord) (ab al : W64) : State :=
  (demo true true regs [] []).modCore 0 (fun k => { k with sr := { k.sr with ab := ab, al := al } })

theorem witness_AllocationFencesTags :
    Quiet (demoBuf [fixN 9, fixN 8] 264 266) 0 ∧ Stacked (demoBuf [fixN 9, fixN 8] 264 266) 0 [fixN 9, fixN 8] 2 0 ∧
    bufferHolds ((demoBuf [fixN 9, fixN 8] 264 266).core 0) 2 = true ∧
    Storable (demoBuf [fixN 9, fixN 8] 264 266) 0 264 { pa := 264, mt := 0, tte := none } ∧
    Storable (demoBuf [fixN 9, fixN 8] 264 266) 0 265 { pa := 265, mt := 0, tte := none } ∧
    Stacked (demoBuf [fixN tVEC, fixN 6] 264 272) 0 [fixN tVEC, fixN 6] 2 4 ∧ bufferHolds ((demoBuf [fixN tVEC, fixN 6] 264 272).core 0) (objSize 6) = true ∧
    Storable (demoBuf [fixN tVEC, fixN 6] 264 272) 0 270 { pa := 270, mt := 0, tte := none } :=
  ⟨quiet_of (by decide), stacked_of (by decide), by decide, ⟨by decide, by decide, .inl (by decide), by decide, rfl, rfl, .inl (by decide)⟩,
    ⟨by decide, by decide, .inl (by decide), by decide, rfl, rfl, .inl (by decide)⟩, stacked_of (by decide), by decide,
    ⟨by decide, by decide, .inl (by decide), by decide, rfl, rfl, .inl (by decide)⟩⟩

theorem witness_AllocationFencesTags_types :
    Sound (fixN 9) ∧ ¬ (tRAW = tNIL ∨ tRAW = tTRUE ∨ tRAW = tUNB ∨ tRAW = tEMPTY) ∧ openType tCODE = false ∧ tCODE ≠ tCAP ∧
    ¬ (tCODE = ty (fixN 9) ∧ bit (fixN tCODE).datum 7 = true) ∧ (fixN tCODE).datum.toNat % 64 = tCODE ∧ tCODE < 0x20 ∧
    ((demo true false [fixN tCODE, fixN 9] [] []).core 0).psw.l = false ∧ ((demo true true [fixN tCODE, fixN 9] [] []).core 0).psw.l = true ∧
    Stacked (demo true false [fixN tCODE, fixN 9] [] []) 0 [fixN tCODE, fixN 9] 2 0 :=
  ⟨by unfold Sound; decide, by decide, by decide, by decide, by decide, by decide, by decide, rfl, rfl,
    demo_stacked _ _ _ _ _ 2 0 (by decide) (by decide) (by decide)⟩

/-- A list of one pair whose CAR is an association pair at pa 272. -/
def listMem : List (Nat × TWord) := [(264, W tCONS 272), (265, wNIL), (272, fixN 5)]

theorem witness_SteppedInstructions :
    Quiet (demo true true [W tCONS 264, fixN 5] [] listMem) 0 ∧ Stacked (demo true true [W tCONS 264, fixN 5] [] listMem) 0 [W tCONS 264, fixN 5] 2 4 ∧
    Sound (fixN 5) ∧ Pointer (demo true true [W tCONS 264, fixN 5] [] listMem) 0 (W tCONS 264) tCONS ∧
    Reads (demo true true [W tCONS 264, fixN 5] [] listMem) (demo true true [W tCONS 264, fixN 5] [] listMem) 0 264 (W tCONS 272) ∧
    Reads (demo true true [W tCONS 264, fixN 5] [] listMem) (demo true true [W tCONS 264, fixN 5] [] listMem) 0 272 (fixN 5) ∧
    eqWord (fixN 5) (fixN 5) = true ∧ adr (W tCONS 272) % 2 = 0 ∧ hiZero (W tCONS 272) = true ∧
    Reads (demo true true [W tCONS 264] [] listMem) (demo true true [W tCONS 264] [] listMem) 0 265 wNIL ∧
    Storable (demo true true [W tCONS 264] [] listMem) 0 265 { pa := 265, mt := 0, tte := none } ∧
    Stacked (demo true true [wNIL, fixN 5] [] []) 0 [wNIL, fixN 5] 2 4 ∧ ty wNIL = tNIL ∧
    Stacked (demo true true [fixN 6, fixN 5] [] []) 0 [fixN 6, fixN 5] 2 4 ∧ ty (fixN 5) = ty (fixN 6) :=
  ⟨demo_quiet _ _ _ _ _, demo_stacked _ _ _ _ _ 2 4 (by decide) (by decide) (by decide), by unfold Sound; decide,
    demo_pointer _ _ _ _ _ _ (by decide) (by decide), demo_reads _ _ _ _ _ 8, demo_reads _ _ _ _ _ 16, by decide, by decide, by decide,
    demo_reads _ _ _ _ _ 9, demo_storable _ _ _ _ _ 9, demo_stacked _ _ _ _ _ 2 4 (by decide) (by decide) (by decide), by decide,
    demo_stacked _ _ _ _ _ 2 4 (by decide) (by decide) (by decide), by decide⟩

/-- FILLVEC of the last word of the vector at pa 264; COPYVEC from it to one at pa 272, its deepest operand spilled to a line that the core
holds. -/
theorem witness_SteppedInstructions_fill :
    Quiet (demo true true [fixN 9, fixN 1, fixI 1, W tVEC 264] [] vecMem) 0 ∧
    Stacked (demo true true [fixN 9, fixN 1, fixI 1, W tVEC 264] [] vecMem) 0 [fixN 9, fixN 1, fixI 1, W tVEC 264] 4 4 ∧
    HeaderAt (demo true true [fixN 9, fixN 1, fixI 1, W tVEC 264] [] vecMem) (demo true true [fixN 9, fixN 1, fixI 1, W tVEC 264] [] vecMem) 0 264 (mkHdr 0 2) ∧
    Storable (demo true true [fixN 9, fixN 1, fixI 1, W tVEC 264] [] vecMem) 0 266 { pa := 266, mt := 0, tte := none } ∧
    Pointer (demo true true [fixN 9, fixN 1, fixI 1, W tVEC 264] [] vecMem) 0 (W tVEC 264) tVEC ∧ (fixI 1).datum.toInt < hdrLen (mkHdr 0 2) :=
  ⟨demo_quiet _ _ _ _ _, demo_stacked _ _ _ _ _ 4 4 (by decide) (by decide) (by decide), ⟨demo_sees _ _ _ _ _ 8, by decide⟩,
    demo_storable _ _ _ _ _ 10, demo_pointer _ _ _ _ _ _ (by decide) (by decide), by decide⟩

def copyRegs : List TWord := [fixN 1, fixI 1, W tVEC 272, fixI 0, W tVEC 264]
def copyMem : List (Nat × TWord) := vecMem ++ [(272, mkHdr 0 2)]

/-- The core before COPYVEC, its operand stack ending below pa 0x120, and after its spill. -/
def copyDemo : State := (demo true true copyRegs [] copyMem).modCore 0 (fun k =>
  { k with stk := { k.stk with sp := 276, sbase := 281, slim := 256 } })
def copySpilt : State := (copyDemo.modCore 0 (fun k =>
  { (Core.withQueue k [queued k { pa := 280, mt := 0, tte := none } (W tVEC 264) true]) with
    stk := { k.stk with regs := [fixN 1, fixI 1, W tVEC 272, fixI 0] } })).bump .CORE_SPILLS 0 1

theorem witness_SteppedInstructions_copy :
    Quiet copyDemo 0 ∧ (copyDemo.core 0).stk.regs = copyRegs ∧ Deep copyDemo 0 5 ∧ bits (copyDemo.core 0).stk.slim 47 0 ≤ (copyDemo.core 0).stk.sp + 4 ∧
    Storable copyDemo 0 280 { pa := 280, mt := 0, tte := none } ∧
    HeaderAt copySpilt (touched copySpilt 0 264) 0 264 (mkHdr 0 2) ∧
    Hit (touched copySpilt 0 264) 0 272 { pa := 272, mt := 0, tte := none } ∧ (touched copySpilt 0 264).coreSees 0 272 = mkHdr 0 2 ∧
    Storable (touched (touched copySpilt 0 264) 0 272) 0 274 { pa := 274, mt := 0, tte := none } :=
  ⟨quiet_of (by decide), by decide, by unfold Deep; decide, by decide, ⟨by decide, by decide, .inl (by decide), by decide, rfl, rfl, .inl (by decide)⟩,
    ⟨⟨{ pa := 264, mt := 0, tte := none }, ⟨by decide, rfl, .inl (by decide), by decide, rfl, rfl, .inl (by decide)⟩, by decide, rfl⟩, by decide⟩,
    ⟨by decide, rfl, .inl (by decide), by decide, rfl, rfl, .inl (by decide)⟩, by decide, ⟨by decide, by decide, .inl (by decide), by decide, rfl, rfl, .inl (by decide)⟩⟩

theorem witness_Branches :
    Sound (W tNIL 0) ∧ ty (W tNIL 0) ≠ tFIX ∧ ty (fixN 0) = tFIX ∧ (fixN 0).datum = 0 ∧ (fixI (-1)).datum ≠ 0 ∧
    Quiet (demo false false [fixN 0] [] []) 0 ∧ Stacked (demo false false [fixN 0] [] []) 0 [fixN 0] 1 0 :=
  ⟨by unfold Sound; decide, by decide, by decide, by decide, by decide, demo_quiet _ _ _ _ _,
    demo_stacked _ _ _ _ _ 1 0 (by decide) (by decide) (by decide)⟩

/-- The demo core in a delay slot, or in a loop with count lc whose last syllable is at le. -/
def demoSlot : State := (demo true true [fixN 1] [] []).modCore 0 (fun k => { k with dst := 0x300, psw := { k.psw with ds := true } })
def demoLoop (le lc : W64) : State := (demo true true [fixN 1] [] []).modCore 0 (fun k =>
  { k with psw := { k.psw with lp := true }, sr := { k.sr with ls := 0x100, le := le, lc := lc } })

theorem witness_HardwareLoops :
    (Quiet (demoSlot.modCore 0 (fun k => { k with psw := { k.psw with ds := false, lp := false } })) 0 ∧ (demoSlot.core 0).psw.ds = true ∧
      (demoSlot.core 0).psw.lp = false) ∧
    (Quiet ((demoLoop 0x100 2).modCore 0 (fun k => { k with psw := { k.psw with ds := false, lp := false } })) 0 ∧
      w64 ((demoLoop 0x100 2).core 0).pc = ((demoLoop 0x100 2).core 0).sr.le ∧ 1 < ((demoLoop 0x100 2).core 0).sr.lc.toInt ∧
      ((demoLoop 0x100 1).core 0).sr.lc.toInt ≤ 1 ∧ w64 ((demoLoop 0x104 2).core 0).pc ≠ ((demoLoop 0x104 2).core 0).sr.le) ∧
    (1 : BitVec 8) ≠ 0 ∧ ty (fixN 1) = tFIX ∧ Sound (W tFLO 0) ∧ ty (W tFLO 0) ≠ tFIX :=
  ⟨⟨quiet_of (by decide), by decide, by decide⟩, ⟨quiet_of (by decide), by decide, by decide, by decide, by decide⟩, by decide, by decide,
    by unfold Sound; decide, by decide⟩

/-- The demo core in the last syllable of an LCSET's shadow. -/
def demoShadow : State := (demo true true [fixN 1] [] []).modCore 0 (fun k =>
  { k with shadow := some { remain := 1, sa := 254, syl := 0xA202, upd := .sr false 6 (fixN 4) } })

theorem witness_HardwareLoops_shadow :
    Quiet (demoShadow.modCore 0 (fun k => { k with shadow := none })) 0 ∧
      (demoShadow.core 0).shadow = some { remain := 1, sa := 254, syl := 0xA202, upd := .sr false 6 (fixN 4) } ∧
      (demoShadow.core 0).stk.regs.length ≤ 8 :=
  ⟨quiet_of (by decide), by decide, by decide⟩

/-- The demo core repeating a syllable with count lc. -/
def demoRep (lc : W64) : State := (demo true true [fixN 1] [] []).modCore 0 (fun k =>
  { k with psw := { k.psw with repp := true }, sr := { k.sr with lc := lc } })

theorem witness_Repeat :
    1 ≤ (fixI 1).datum.toInt ∧ (fixI 0).datum.toInt ≤ 0 ∧ ty (fixI 0) = tFIX ∧
    Quiet ((demoRep 2).modCore 0 (fun k => { k with psw := { k.psw with repp := false } })) 0 ∧ ((demoRep 2).core 0).psw.repp = true ∧
    Stacked (demoRep 2) 0 [fixN 1] 1 0 ∧ 2 ≤ ((demoRep 2).core 0).sr.lc.toInt ∧ ((demoRep 1).core 0).sr.lc.toInt = 1 ∧
    (∀ n ∈ [0x0002, 0x1000, 0x4001], repBad ((demo true true [] [] []).insOf 0 n 0) = none) ∧
    repBad ((demo true true [] [] []).insOf 0 0xE900 0) ≠ none :=
  ⟨by decide, by decide, by decide, quiet_of (by decide), by decide, stacked_of (by decide), by decide, by decide, by decide, by decide⟩

/-- A core with a frame in its control-stack registers, its operand stack in a line that it holds. -/
def demoFrame : State := (demo true true [fixN 1, W tCODE 0x300, fixN 5] [mkFrame 0 false 0 0x200] []).modCore 0 (fun k =>
  { k with stk := { k.stk with sp := 268, sbase := 280, slim := 256 } })

/-- A core with a frame in its control-stack registers. -/
theorem witness_Calls :
    (Quiet (demo true true [fixN 0, W tCODE 0x300] [fixN 7, fixN 8] []) 0 ∧ ty (W tCODE 0x300) = tCODE ∧ hiZero (W tCODE 0x300) = true ∧
      Deep (demo true true [fixN 0, W tCODE 0x300] [fixN 7, fixN 8] []) 0 2 ∧ ([fixN 7, fixN 8] : List TWord).length ≤ 2) ∧
    (isFrame (mkFrame 0 false 0 0x200) 0 = true ∧ frameCount (mkFrame 0 false 0 0x200) = 0 ∧ frameLsv (mkFrame 0 false 0 0x200) = false ∧
      isFrame (mkFrame 1 false 0 0x8F0) 1 = true ∧ frameCount (mkFrame 0 false 2 0x200) + 2 ≤ 255 ∧
      [mkFrame 0 false 0 0x200, mkFrame 1 false 0 0x8F0][frameCount (mkFrame 0 false 0 0x200) + 1]? = some (mkFrame 1 false 0 0x8F0)) ∧
    (Quiet demoFrame 0 ∧ Deep demoFrame 0 3 ∧ Storable demoFrame 0 (sbaseOf (demoFrame.core 0) - 1) { pa := 279, mt := 0, tte := none } ∧
      0 < sbaseOf (demoFrame.core 0)) :=
  ⟨⟨demo_quiet _ _ _ _ _, by decide, by decide, by unfold Deep; decide, by decide⟩,
    ⟨by decide, by decide, by decide, by decide, by decide, by decide⟩,
    ⟨quiet_of (by decide), by unfold Deep; decide, ⟨by decide, by decide, .inl (by decide), by decide, rfl, rfl, .inl (by decide)⟩, by decide⟩⟩

/-- Which register an I/O access reaches, or why not. -/
def reaches (s : State) (w l wr : Bool) (a : Nat) : (Option (Reg × Nat)) × Option IoRef :=
  match s.ioTarget (some 0) w l wr a with
  | .inr (r, i) => (some (r.reg, i), none)
  | .inl e => (none, some e)

theorem witness_InputOutput :
    reaches (demo true true [fixN 8, fixN 1] [] []) true true true 8 = (some (.CORE_ERR, 0), none) ∧
    reaches (demo true true [fixN 36702212, fixN 1] [] []) true true true 36702212 = (some (.TOUR_INQT, 0), none) ∧
    reaches (demo true true [fixN 86016, fixN 1] [] []) true true true 86016 = (some (.MATCH_CTL, 0), none) ∧
    reaches (demo true true [fixN 90112, fixN 1] [] []) true true false 90112 = (some (.LOOK_CTL, 0), none) ∧
    ((rowOf .CORE_ERR).map (fun r => (rowWrite r true 0 (fixN 1).datum).2)) = some false ∧ Sound (fixN 1) ∧
    Quiet (demo true true [fixN 8, fixN 1] [] []) 0 ∧ Stacked (demo true true [fixN 8, fixN 1] [] []) 0 [fixN 8, fixN 1] 2 4 ∧
    bits ((demo true true [fixN 1] [] []).core 0).sr.iob 31 0 + (8 : BitVec 10).toNat = 8 ∧
    ((demo true true [fixN 8, fixN 1] [] []).core 0).mem.fence = false ∧ ((demo true true [fixN 8, fixN 1] [] []).core 0).mem.sq = [] ∧
    reaches (demo true true [fixN 8, fixN 1] [] []) false true true 0x2000000 = (none, some .world) :=
  ⟨by decide, by decide, by decide, by decide, by decide, by unfold Sound; decide, demo_quiet _ _ _ _ _,
    demo_stacked _ _ _ _ _ 2 4 (by decide) (by decide) (by decide), by decide, rfl, rfl, by decide⟩

/-- The state that an OUT of 1 to the register r leaves before it retires. -/
def outDone (r : Reg) : Option State :=
  (rowOf r).map (fun row => ((demo true true [fixN 86016, fixN 1] [] []).ready 0 0xB001).ioWrite (some 0) true row 0 1)

theorem witness_InputOutput_write :
    (outDone .MATCH_CTL).map (fun t => quietB t 0 && decide ((t.core 0).stk = ((demo true true [fixN 86016, fixN 1] [] []).core 0).stk) &&
      t.flag f_MATCH_CTL_EN 0) = some true := by decide

theorem witness_InputOutput_refused :
    ¬ (0 ≤ (fixI (-1)).datum.toInt ∧ (fixI (-1)).datum.toInt < 2 ^ 32) ∧ ¬ (0 ≤ (fixI (2 ^ 32)).datum.toInt ∧ (fixI (2 ^ 32)).datum.toInt < 2 ^ 32) ∧
    (fixI (2 ^ 32 - 1)).datum.toInt < 2 ^ 32 ∧
    reaches (demo true true [fixI (2 ^ 32 - 1)] [] []) true true false (2 ^ 32 - 1) = (none, some .bus) ∧
    reaches (demo false true [fixN 0x2000000] [] []) false true false 0x2000000 = (none, some .world) ∧
    reaches (demo true false [fixN 0] [] []) true false false 0x2000000 = (none, some .priv) :=
  ⟨by decide, by decide, by decide, by decide, by decide, by decide⟩

theorem witness_SpecialRegisters :
    (∀ i ∈ [0, 34, 35, 1, 9, 33, 16, 17, 36, 63], i < 64) ∧
    Quiet (demo false true [fixN 36] [] []) 0 ∧ Stacked (demo false true [fixN 36] [] []) 0 [fixN 36] 1 4 ∧
    Quiet (demo false false [fixN 9, fixN 0x1000] [] []) 0 ∧ Stacked (demo true true [fixN 9, fixN 0x1000] [] []) 0 [fixN 9, fixN 0x1000] 2 4 ∧
    (fixN 0x1000).datum.toNat % 2 ^ 8 = 0 ∧ (fixN 0x1001).datum.toNat % 2 ^ 8 ≠ 0 ∧ (fixN 0x20).datum.toNat % 2 ^ 6 ≠ 0 ∧ ty (fixN 0x1000) = tFIX :=
  ⟨by decide, demo_quiet _ _ _ _ _, demo_stacked _ _ _ _ _ 1 4 (by decide) (by decide) (by decide), demo_quiet _ _ _ _ _,
    demo_stacked _ _ _ _ _ 2 4 (by decide) (by decide) (by decide), by decide, by decide, by decide, by decide⟩

theorem witness_SystemInstructions :
    (∀ w l : Bool, Quiet (demo w l [fixN 15] [] []) 0 ∧ Stacked (demo w l [fixN 15] [] []) 0 [fixN 15] 1 4) ∧
    ((demo true true [fixN 15] [] []).core 0).stk.regs.length ≤ 4 ∧ (fixN 15).datum.toNat ≤ 15 ∧ ((demo true true [] [] []).core 0).mem.sq = [] ∧
    (demo true true [] [] []).fld f_KSU_DRBG_STATE 0 ≠ 2 ∧ Quiet ((demo true true [] [] []).setFld f_KSU_DRBG_STATE 0 2) 0 ∧
    ((demo true true [] [] []).setFld f_KSU_DRBG_STATE 0 2).fld f_KSU_DRBG_STATE 0 = 2 ∧
    Stacked (demo true true [fixN 2, fixN 0] [] []) 0 [fixN 2, fixN 0] 2 4 ∧ (demo true true [fixN 2, fixN 0] [] []).mcs.job = none ∧
    (demo true true [fixN 2, fixN 0] [] []).mcs.want = [] ∧ (demo true true [] [] []).mode mSEALED = false ∧
    Quiet ((demo true true [fixN 2, fixN 0] [] []).setReg .DEV_MODE 0 0x80) 0 ∧ ((demo true true [] [] []).setReg .DEV_MODE 0 0x80).mode mSEALED = true :=
  ⟨fun w l => ⟨demo_quiet _ _ _ _ _, demo_stacked _ _ _ _ _ 1 4 (by decide) (by decide) (by decide)⟩, by decide, by decide, by decide, by decide,
    quiet_of (by decide), by decide, demo_stacked _ _ _ _ _ 2 4 (by decide) (by decide) (by decide), rfl, rfl, by decide, quiet_of (by decide),
    by decide⟩

/-- The demo core with a customer image whose opcode 5 is one micro-word that only ends. -/
def demoCustomer : State := ((demo true true [] [] []).setFld f_MCS_STAT_CUST 0 1).modCluster 0 (fun k =>
  k.modBanks (fun _ => { dstore := [(0x805, 0x8003)], ustore := [(0x3003, 0xA09 * 2 ^ 12 + 0x900)]
                         nstore := [(0xA09, 7 * 2 ^ 105 + 6 * 2 ^ 118 + 6 * 2 ^ 114)] }))

theorem witness_UndefinedAndCustomer :
    ty (W tNIL 0) ≠ tINS ∧ ty (W tNIL 0) ≠ tPOISON ∧ ty (W tPOISON 0) = tPOISON ∧
    0xF000 ≤ (W tINS 0xF000EA00EFFF0000).datum.toNat / 2 ^ 48 % 2 ^ 16 ∧ 0xEA00 ≤ (W tINS 0xF000EA00EFFF0000).datum.toNat / 2 ^ 32 % 2 ^ 16 ∧
    (W tINS 0xF000EA00EFFF0000).datum.toNat / 2 ^ 16 % 2 ^ 16 < 0xF000 ∧ ty (W tINS 0xF000EA00EFFF0000) = tINS ∧
    (demo true true [] [] []).custLoaded 0 = false ∧ Quiet demoCustomer 0 ∧ demoCustomer.custLoaded 0 = true ∧
    ((demoCustomer.cluster 0).bank false).defines 0x806 = false ∧ ((demoCustomer.cluster 0).bank false).defines 0x805 = true ∧
    demoCustomer.lockstep 0 = false ∧ demoCustomer.patched 0 0x3003 = 0x3003 ∧ demoCustomer.dword 0 0x805 = 0x8000 + 3 ∧
    demoCustomer.uword 0 0x3003 = 0xA09 * 2 ^ 12 + 0x900 ∧ demoCustomer.nword 0 0xA09 = 7 * 2 ^ 105 + 6 * 2 ^ 118 + 6 * 2 ^ 114 :=
  ⟨by decide, by decide, by decide, by decide, by decide, by decide, by decide, by decide, quiet_of (by decide), by decide, by decide, by decide,
    by decide, by decide, by decide, by decide, by decide⟩

/-- TSBs at pa 0x4000 and vectors at pa 0x5000. -/
def tsbMem : List (Nat × TWord) :=
  [(0x4020, W tFRAME (5 * 2 ^ 60 + 0x4040)), (0x4021, W tFRAME (5 * 2 ^ 60 + 0x4080)), (0x5004, W tCODE 0x6000), (0x5009, W tCODE 0x6100),
    (0x500B, W tCODE 0x6200), (0x503F, W tCODE 0x6300)]

/-- The demo core in world w at user level, with its exception registers set. -/
def demoTsb (w : Bool) (tsbr : W64) : State := (demo w false [fixN 1, fixN 2] [fixN 3] tsbMem).modCore 0 (fun k =>
  { k with house := { k.house with tsbr := tsbr, vbr := 0x5000 }, back := { k.back with tsbr := tsbr, vbr := 0x5000 } })

/-- The hypotheses of full entry that run operations: the TSB's link, its base, the writes of the context, the vector. -/
def fullEntryMeets (s : State) (c : Nat) (t : Trap) (syl : Nat) : Bool :=
  let a0 := s.modCore c (fun k => { k with wins := [], newWins := [], hostBuf := [], spills := [], wait := none, micro := none, scene := { k.scene with av := false },
                                           ev := { k.ev with stepDue := false }, mem := { k.mem with latch := .empty } })
  let k := a0.core c
  let w := k.psw.w
  let base := bits k.bank.tsbr 47 0
  let sAt (i : Nat) : TWord := k.stk.regs.getD i wEMPTY
  let cAt (i : Nat) : TWord := k.stk.cregs.getD i wEMPTY
  match a0.tsbLink c w base 32 with
  | (a, .inr _) =>
    match a.xbase c w base .write with
    | (b, some pa) =>
      match b.physWrites c w pa [word tCODE k.pc, fixW (s.pswOf c), fixN (k.stk.sp + k.stk.regs.length * 2 ^ 48),
        fixN (k.stk.csp + k.stk.cregs.length * 2 ^ 48), fixW k.sr.lc, fixW k.sr.ls, fixW k.sr.le,
        if k.psw.ds = true then word tCODE k.dst else fixN 0,
        sAt 0, sAt 1, sAt 2, sAt 3, sAt 4, sAt 5, sAt 6, sAt 7, cAt 0, cAt 1, cAt 2, cAt 3,
        k.sr.pg0, k.sr.pg1, k.sr.pg2, k.sr.pg3,
        fixN (t.vec * 2 ^ 8 + t.sub % 256), fixN t.addr, fixW (t.aux syl), fixW k.sceneStat,
        fixW k.sr.ab, fixW k.sr.al, fixW k.sr.pkr, fixW k.bank.asid] with
      | some d => match d.vectorOf c w t.vec with
        | (u, .inr _) => !(u.tracing c)
        | _ => false
      | none => false
    | _ => false
  | _ => false

/-- Those of the quick entry. -/
def quickEntryMeets (s : State) (c : Nat) (t : Trap) : Bool :=
  let s0 := if t.vec = 11 then s else s.bump (if t.fx then .CORE_IMISS else .CORE_DMISS) c 1
  let a := s0.modCore c (fun k => { k with wins := [], newWins := [], hostBuf := [], spills := [], wait := none, micro := none, scene := { k.scene with av := false },
                                           ev := { k.ev with stepDue := false }, mem := { k.mem with latch := .empty } })
  match a.vectorOf c (s.core c).psw.w t.vec with
  | (u, .inr _) => decide (u.core c = a.core c) && decide (u.strict c = a.strict c) && !(u.tracing c)
  | _ => false

theorem witness_ExceptionEntry :
    fullEntryMeets (demoTsb true 0x4000) 0 { vec := 4, sub := 2 } 0xC101 = true ∧ fullEntryMeets (demoTsb false 0x4000) 0 { vec := 63 } 0xC01F = true ∧
    quickEntryMeets (demoTsb true 0x4000) 0 { vec := 9, addr := 5 } = true ∧ quickEntryMeets (demoTsb false 0x4000) 0 { vec := 11, addr := 5 } = true ∧
    ((demoTsb true 0x4000).core 0).run = .run ∧ ((demoTsb true 0x4000).core 0).psw.qt = false ∧ ((demoTsb true 0x4000).core 0).pend = [] ∧
    ((demoTsb true 0x4000).core 0).shadow = none ∧ ((demoTsb true 0x4000).core 0).psw.sc = false :=
  by and_intros <;> decide +kernel

/-- A core that handles a double fault and whose TSBR names no memory. -/
def demoDouble : State := (demoTsb true 0x400000000000).setFld f_CORE_XSTAT_DF 0 1

theorem witness_CurtainAndReturn_curtain :
    (match (demoDouble.modCore 0 Core.beforeEntry).tsbLink 0 (demoDouble.core 0).psw.w (bits (demoDouble.core 0).bank.tsbr 47 0) 32 with
      | (a, .inl (n, _)) => decide (n = 1) && a.flag f_CORE_XSTAT_DF 0 && decide (a.cores.length = demoDouble.cores.length) &&
          decide ((a.core 0).psw = (demoDouble.core 0).psw)
      | _ => false) = true ∧ 0 < demoDouble.cores.length :=
  ⟨by decide +kernel, by decide +kernel⟩

/-- The context that RTE restores, in the TSB at pa 0x4080. -/
def savedContext : List TWord :=
  [W tCODE 0x777, fixW (({ w := true, l := false, ipl := 5, ds := true } : Psw).pack false), fixN (0x800 + 3 * 2 ^ 48), fixN (0x900 + 2 ^ 48), fixN 4, fixN 5,
    fixN 6, W tCODE 0x999] ++ List.replicate 3 wNIL ++ List.replicate 5 wEMPTY ++ [wNIL] ++ List.replicate 3 wEMPTY ++ (List.range 12).map fixN

def demoRte : State := (demo true true [fixN 1] [] (tsbMem.take 2 ++ (List.range 32).map (fun i => (0x4080 + i, savedContext.getD i wEMPTY)))).modCore 0
  (fun k => { k with back := { k.back with tsbr := 0x4000 } })

theorem witness_CurtainAndReturn_rte :
    Quiet demoRte 0 ∧ (demoRte.core 0).psw.w = true ∧ (demoRte.core 0).psw.l = true ∧ demoRte.flag f_CORE_XSTAT_DF 0 = false ∧
    (demoRte.core 0).nmiAt ≠ some 0x4080 ∧ place 0x4000 = .loc ∧ demoRte.physRead 0 true 0x4021 = some (W tFRAME (5 * 2 ^ 60 + 0x4080)) ∧
    frameKind (W tFRAME (5 * 2 ^ 60 + 0x4080)) = 5 ∧ savedContext.length = 32 ∧
    (∀ i, i < 32 → demoRte.physRead 0 true (0x4080 + i) = some (savedContext.getD i wEMPTY)) ∧
    pswReserved (savedContext.getD 1 wEMPTY).datum = false ∧ (Psw.unpack (savedContext.getD 1 wEMPTY).datum).qt = false ∧
    (Psw.unpack (savedContext.getD 1 wEMPTY).datum).w = true ∧
    (∀ i, i < 32 → (i = 0 ∨ i = 7 → ty (savedContext.getD i wEMPTY) = tCODE) ∧
      (i ≠ 0 → i ≠ 7 → ¬ (8 ≤ i ∧ i ≤ 23) → ty (savedContext.getD i wEMPTY) = tFIX) ∧
      (11 ≤ i ∧ i ≤ 15 ∨ 17 ≤ i ∧ i ≤ 19 → ty (savedContext.getD i wEMPTY) = tEMPTY)) ∧
    bits (W tFRAME (5 * 2 ^ 60 + 0x4080)).datum 59 48 = 0 ∧ (demoRte.core 0).stk.regs.length ≤ 4 :=
  by refine ⟨quiet_of ?_, ?_⟩ <;> and_intros <;> decide +kernel

/-- A quick-trap handler about to execute RTQ. -/
def demoRtq : State := (demo true true [fixN 1, fixN 2] [] []).modCore 0 (fun k =>
  { k with psw := { k.psw with qt := true }, quick := { k.quick with qpc := 0x300, qpsw := w64 ((({ w := true } : Psw).pack false).toNat + 2 * 2 ^ 20) } })

theorem witness_CurtainAndReturn_rtq :
    Quiet demoRtq 0 ∧ (demoRtq.core 0).psw.qt = true ∧ (Psw.unpack (demoRtq.core 0).quick.qpsw).w = (demoRtq.core 0).psw.w ∧
    2 ≤ bits (demoRtq.core 0).quick.qpsw 23 20 ∧ 2 ≤ (demoRtq.core 0).stk.regs.length ∧ Quiet (demo true true [fixN 1, fixN 2] [] []) 0 ∧ Deep demoRtq 0 2 :=
  ⟨quiet_of (by decide +kernel), by decide +kernel, by decide +kernel, by decide +kernel, by decide +kernel, demo_quiet _ _ _ _ _, by unfold Deep; decide +kernel⟩

/-- A core that calls through the gate record at pa 264, with the Backstage page tables of pa 0x10000 and the record's page in its D-µTLB;
the stack of the record lies at pa 0x906 and below. -/
def gateMem : List (Nat × TWord) :=
  [(264, W tCODE 0x555), (265, fixN 3), (266, fixN 0), (267, fixN (4362 + 2 ^ 48)), (0x10000, W tTTE (0x11000 * 2 ^ 16 + 1)),
    (0x11000, W tTTE 0x1019D)]

def demoGate : State := (demo true true [W tCAP (264 + 2 ^ 48)] [] gateMem).modCore 0 (fun k =>
  { k with
    back := { k.back with dtbr := w64 (2 ^ 63 + 37 * 2 ^ 52 + 0x10000) }
    mem := { k.mem with
      dtlb := [some { tte := w64 (0x1019B + 3 * 2 ^ 17 + 2 ^ 21), base := 0, world := true, asid := 0, vmid := 0, wire := false }]
      dframes := { idx := 1, base := 72, st := [.mod, .mod, .mod, .mod] } :: k.mem.dframes } })

/-- The hypotheses of GATE that run operations: the record and the four slots. -/
def gateMeets (s : State) (c : Nat) (cap : TWord) : Bool :=
  match (gateRecord (bit cap.datum 48) (adr cap)).run c (s.ready c 0x9500) with
  | .ok r s1 =>
    let slim := va48 ((r.top : Int) - r.size * 2048)
    match (gateSlots r.w r.l (if r.w && !(s.core c).psw.w then 0 else (s.core c).sr.pkr) slim 4).run c s1 with
    | .ok [l0, l1, l2, l3] s2 =>
      let k := s2.core c
      decide (r.size ≠ 0 ∧ r.narg = 0) && decide (s1.core c = k) && decide (s1.strict c = s2.strict c) && quietB s2 c && decide (k.psw = (s.core c).psw) &&
      decide (k.traceN = 0 ∧ k.wait = none ∧ k.syl = 0x9500 ∧ k.stk.regs = [cap] ∧ k.stk.cregs = [] ∧ k.mem.sq = [] ∧ k.mem.fence = false ∧ k.unit = false ∧ bits k.sr.cctl 5 4 = 0) &&
      !s2.colOn && [l0, l1, l2, l3].all (fun lf => lf.mt == 0 && place lf.pa == .loc)
    | _ => false
  | .error _ _ => false

/-- A core that returns from a gate: the GATE FRAME and three of its words in its control-stack registers, the others at pa 0x110. -/
def gretFrame : TWord := W tFRAME (4 * 2 ^ 60 + 2 ^ 56 + 2 ^ 48 + 0x444)
def demoGret : State := (demo true true [fixN 0] [gretFrame, fixN 0x1000, fixN 0x1100, fixN 0x1200]
  [(272, fixN 0x1300), (273, fixN 0x1400), (274, fixN 77), (275, fixW (({ w := true, l := false } : Psw).pack false))]).modCore 0 (fun k =>
    { k with stk := { k.stk with csp := 268 } })

def gretMeets (s : State) (c : Nat) (f : TWord) : Bool :=
  match (cRead 0 0).run c (s.ready c 0x9501) with
  | .ok g s1 =>
    match (cFixes 1 7).run c s1 with
    | .ok fs s2 =>
      let d : W64 := (fs.getD 6 wEMPTY).datum
      isFrame g 4 && decide (bits g.datum 55 50 = 0) && bit g.datum 56 && quietB s2 c && stackedB s2 c [f] 0 4 &&
      decide ((s2.core c).traceN = 0 ∧ (s2.core c).wait = none ∧ (s2.core c).syl = 0x9501 ∧ (s2.core c).psw = (s.core c).psw) &&
      decide (bit g.datum 48 = (s.core c).psw.w) && decide (bit d 0 = bit g.datum 48) && decide (bit d 1 = bit g.datum 49) && !(bit g.datum 49)
    | .error _ _ => false
  | .error _ _ => false

theorem witness_Gates : gateMeets demoGate 0 (W tCAP (264 + 2 ^ 48)) = true ∧ Quiet demoGate 0 ∧ gretMeets demoGret 0 (fixN 0) = true ∧ Quiet demoGret 0 ∧
    (cRead 0 0).run 0 (demoGret.ready 0 0x9501) = .ok gretFrame (demoGret.ready 0 0x9501) :=
  ⟨by decide +kernel, quiet_of (by decide +kernel), by decide +kernel, quiet_of (by decide +kernel), rfl⟩

/-- The demo core with something pending. -/
def demoEv (f : Events → Events) : State := (demo false false [] [] []).modCore 0 (fun k => { k with psw := { k.psw with ipl := 0 }, ev := f k.ev })

theorem witness_EventsTaken :
    (demoEv (fun e => { e with house := [0x40] })).takesEvents 0 = true ∧
    ((demoEv (fun e => { e with house := [0x40] })).core 0).topInterrupt = some (false, 0x40) ∧
    ((demoEv (fun e => { e with back := [0xFF] })).core 0).topInterrupt = some (true, 0xFF) ∧
    (demoEv (fun e => { e with mc := [5] })).takesEvents 0 = true ∧ (demoEv (fun e => { e with stepDue := true })).takesEvents 0 = true ∧
    (demoEv (fun e => { e with nmi := true })).nmiReady 0 = true ∧ (demoEv id).takesEvents 0 = true ∧ ((demoEv id).core 0).topInterrupt = none ∧
    (demoEv id).nmiReady 0 = false ∧ (demoEv id).mode mREPLAY = false ∧ (demoEv id).recording = false :=
  by and_intros <;> decide +kernel

def demoCue (v : W64) : State := (demo true true [] [] []).setReg .CUE_SRC 116 v
def demoTimer : State := ((demo true true [] [] []).setReg .CUE_LCTL 0 0xF).modCore 0 (fun k => { k with sr := { k.sr with timecmp1 := 0 }, ev := { k.ev with arm0 := true, arm1 := true } })

theorem witness_CueRouting :
    (demoCue 0).flag f_CUE_SRC_EN 116 = false ∧ (demoCue 0x8000000000000040).flag f_CUE_SRC_EN 116 = true ∧
    (demoCue 0x8000000000000040).fld f_CUE_SRC_CORE 116 = 0 ∧ (demo true true [] [] []).present 0 = true ∧
    ((demo true true [] [] []).core 0).run ≠ .held ∧ ((demo true true [] [] []).core 1).run = .held ∧
    (demo true true [] [] []).flag f_REH_TCTL_EEN 0 = false ∧ (demoTimer.core 0).ev.arm0 = true ∧ demoTimer.flag f_CUE_LCTL_T0EN 0 = true ∧
    demoTimer.flag f_CUE_LCTL_T1EN 0 = true ∧ (demoTimer.core 0).sr.timecmp1.toInt ≤ demoTimer.time ∧ bits (0x3F : BitVec 64) 7 0 < 64 ∧
    bit ((demoCue 0x8000000200000040).reg .CUE_SRC 116) 33 = true ∧ bits (((demo true true [] [] []).setReg .CUE_LCTL 0 0).reg .CUE_LCTL 0) 3 2 = 0 ∧
    (demo true true [] [] []).debugScope = 0 ∧ ({ demo true true [] [] [] with debugScope := 2 } : State).running 0 = true :=
  by and_intros <;> decide +kernel

def waitsB (s : State) (c syl : Nat) (w : Wait) : Bool :=
  decide ((s.core c).wait = some w) && quietB (s.modCore c (fun k => { k with wait := none })) c && decide ((s.core c).syl = syl) &&
    decide ((s.core c).traceN = 0)

theorem waits_of {s : State} {c syl : Nat} {w : Wait} (h : waitsB s c syl w = true) : Waits s c syl w := by
  simp only [waitsB, Bool.and_eq_true, decide_eq_true_eq] at h
  exact ⟨h.1.1.1, quiet_of h.1.1.2, h.1.2, h.2⟩

/-- The demo core frozen on a request. -/
def demoWait (l : List TWord) (syl : Nat) (w : Wait) : State := (demo true true l [] []).modCore 0 (fun k => { k with wait := some w, syl := syl })

/-- The demo core with a slot of wings memory locked by its own world and one by the other. -/
def demoWings (n : Nat) : State := (demo true true [fixN n] [] []).modCore 0 (fun k => { k with mem := { k.mem with
  wings := [{ slot := 3, frame := 1, world := true, words := List.replicate 32 wEMPTY }, { slot := 31, frame := 2, world := false, words := [] }] } })

/-- The demo core with the page of va 0x1000 mapped as DEVICE in its D-µTLB. -/
def demoDevice : State := (demo true true [W tLOC 0x2001] [] []).modCore 0 (fun k => { k with
  back := { k.back with dtbr := w64 (2 ^ 63 + 37 * 2 ^ 52 + 0x10000) }
  mem := { k.mem with dtlb := [some { tte := w64 (0x2000000 * 2 ^ 16 + 2 ^ 14 + 0x19B), base := 0x2000, world := true, asid := 0, vmid := 0, wire := false }] } })

def leafB (k : Core) (a : Nat) (kind : Acc) (pa : Nat) (dev : Bool) : Bool :=
  match xlateCore k a kind 7 with
  | .inr lf => decide (lf.pa = pa) && decide ((2 ≤ lf.mt) = (dev = true))
  | .inl _ => false

theorem witness_CacheMaintenance :
    (∀ x ∈ [W tLOC 264, W tVAR 287], Quiet (demo true true [x] [] []) 0 ∧ Stacked (demo true true [x] [] []) 0 [x] 1 4 ∧ hiZero x = true ∧
      kBit x = false ∧ leafB ((demo true true [x] [] []).core 0) (adr x) .read (adr x) false = true ∧
      leafB ((demo true true [x] [] []).core 0) (adr x) .write (adr x) false = true) ∧
    place 287 ≠ .wings ∧
    leafB ((demo true true [W tCODE 256] [] []).core 0) 256 .fetch 64 false = true ∧
    ((demoWings 3).core 0).mem.wings.any (fun y => y.slot == 3 && y.world) = true ∧
    ((demoWings 31).core 0).mem.wings.any (fun y => y.slot == 31 && !y.world) = true ∧
    ((demo true true [fixN 31] [] []).core 0).freeFrame ≠ none ∧ Quiet (demoWings 3) 0 ∧ Quiet (demoWings 31) 0 ∧
    Stacked (demo true true [] [] []) 0 [] 0 4 :=
  ⟨fun x _ => ⟨demo_quiet _ _ _ _ _, demo_stacked _ _ _ _ _ 1 4 (by simp) (by omega) (by simp), by simp_all; rcases ‹_ ∨ _› with h | h <;> subst h <;> decide,
      by simp_all; rcases ‹_ ∨ _› with h | h <;> subst h <;> decide, by simp_all; rcases ‹_ ∨ _› with h | h <;> subst h <;> decide +kernel,
      by simp_all; rcases ‹_ ∨ _› with h | h <;> subst h <;> decide +kernel⟩,
    by decide, by decide +kernel, by decide +kernel, by decide +kernel, by decide +kernel, quiet_of (by decide +kernel), quiet_of (by decide +kernel),
    demo_stacked _ _ _ _ _ 0 4 (by decide) (by decide) (by decide)⟩

/-- The cluster TLB holds the page of va 0x1000 for the Backstage world. -/
def walkEntry : CtlbE := { isI := false, u := { tte := w64 (0x2000 * 2 ^ 16 + 0x21B), base := 0x1000, world := true, asid := 0, vmid := 0, wire := false }, org := { ia := 0x1000 } }
def demoCtlb (l : List TWord) : State := (demo true true l [] []).modCluster 0 (fun k => { k with ctlb := [walkEntry] })
def demoRoots (l : List TWord) : State := (demo true true l [] []).modCore 0 (fun k => { k with back := { k.back with dtbr := w64 (2 ^ 63 + 37 * 2 ^ 52 + 0x10000) } })

def ctlbFound (s : State) (c kind a : Nat) : Option CtlbE :=
  let x := (s.core c).ctx (kind == 2)
  let input := if kind = 2 then a % 2 ^ 48 / 4 else a % 2 ^ 48
  let acc : Acc := if kind = 1 then .write else if kind = 2 then .fetch else .read
  (s.cluster (c / 8)).ctlb.find? (fun e => e.isI == x.isI && e.u.world == x.world
      && (x.world || e.u.vmid == x.vmid) && (bit e.u.tte 15 || e.u.asid == x.asid)
      && e.u.base == input / 2 ^ sizeShift (bits e.u.tte 20 17) * 2 ^ sizeShift (bits e.u.tte 20 17)
      && (acc != .write || bit e.u.tte 21))

theorem witness_Walks :
    ctlbFound (demoCtlb [fixN 0, fixN 0x11FF]) 0 0 0x11FF = some walkEntry ∧
    Quiet (demoCtlb [fixN 0, fixN 0x11FF]) 0 ∧ stackedB (demoCtlb [fixN 0, fixN 0x11FF]) 0 [fixN 0, fixN 0x11FF] 2 4 = true ∧
    (demoRoots [fixN 1, fixN 0x1000]).walkHits 0 (((demoRoots [fixN 1, fixN 0x1000]).core 0).ctx false) 0x1000 = false ∧
    Quiet (demoRoots [fixN 1, fixN 0x1000]) 0 ∧
    (∀ dead : Bool, Waits ((demoCtlb [fixN 0, fixN 0x1000]).modCore 0 (fun k => { k with wait := some (.walk 0x1000 0 false dead), syl := 0x4087 })) 0
      0x4087 (.walk 0x1000 0 false dead)) :=
  ⟨by decide +kernel, quiet_of (by decide +kernel), by decide +kernel, by decide +kernel, quiet_of (by decide +kernel),
    fun dead => by cases dead <;> exact waits_of (by decide +kernel)⟩

/-- A word in µTLB form, its control word, and the demo core with a µTLB entry and a walk-result latch. -/
def tlbTte : TWord := W tTTE (0x2000 * 2 ^ 16 + 0x1B)
def demoTlb (w : Bool) (l : List TWord) (latch : Latch) : State := (demo w true l [] []).modCore 0 (fun k =>
  { k with mem := { k.mem with latch := latch, dtlb := [some { tte := tlbTte.datum, base := 0x1000, world := w, asid := 0, vmid := 0, wire := true }] } })

theorem witness_TlbInstructions :
    utlbOk tlbTte = true ∧ utlbOk (W tTTE 0) = false ∧ Sound tlbTte ∧ bits (fixN (2 ^ 48 + 15 * 2 ^ 50 + 0x1000)).datum 54 50 ≤ 15 ∧
    Quiet (demoTlb true [fixN 0x1000, tlbTte] .empty) 0 ∧ stackedB (demoTlb true [fixN 0x1000, tlbTte] .empty) 0 [fixN 0x1000, tlbTte] 2 4 = true ∧
    Quiet (demoTlb false [fixN 0x1000, tlbTte] (.valid tlbTte (fixN 0x1000) { ia := 0x1000 })) 0 ∧ bit (fixN 0x1000).datum 49 = false ∧
    Quiet (demoTlb false [fixN 0x1000, tlbTte] .empty) 0 ∧ ((demoTlb true [fixN 0] .empty).core 0).mem.dtlb.getD 1 none = none ∧
    (((demoTlb false [fixN 0] .empty).core 0).mem.dtlb.getD 0 none).map (fun u => (u.world, u.vmid)) = some (false, 0) ∧
    (∀ n ∈ [0, 1, 2, 3], Quiet (demo true true [fixN n, fixN 5, fixN 0x1000] [] []) 0 ∧
      Stacked (demo true true [fixN n, fixN 5, fixN 0x1000] [] []) 0 [fixN n, fixN 5, fixN 0x1000] 3 4) ∧
    Waits (demoWait [fixN 2] 0x4084 (.tlbi 0x4084 1 2)) 0 0x4084 (.tlbi 0x4084 1 2) ∧
    ((demoWait [fixN 2] 0x4084 (.tlbi 0x4084 1 2)).scopeCores 0 2).all (fun h => decide (((demoWait [fixN 2] 0x4084 (.tlbi 0x4084 1 2)).core h).mem.sq = [])) = true :=
  ⟨by decide +kernel, by decide +kernel, by unfold Sound; decide, by decide, quiet_of (by decide +kernel), by decide +kernel, quiet_of (by decide +kernel),
    by decide, quiet_of (by decide +kernel), by decide +kernel, by decide +kernel,
    fun n _ => ⟨demo_quiet _ _ _ _ _, demo_stacked _ _ _ _ _ 3 4 (by simp) (by omega) (by simp)⟩, waits_of (by decide +kernel), by decide +kernel⟩

/-- The demo core inside a Scene that has written two words of lines it holds modified. -/
def demoScene (l : List TWord) (d : Nat) : State := (demo true true l [] []).modCore 0 (fun k =>
  { k with
    psw := { k.psw with sc := true, depth := d }
    scene := { k.scene with ck := some { handler := 0x777, stk := { sp := 5, regs := [fixN 1] }, sr := { lc := 9, ab := 7 }, lp := true }
                            av := true, wbuf := [(0x103, fixN 5), (0x11F, fixN 6)], reads := [3] } })

theorem witness_Scenes :
    Quiet (demo false false [fixN 1, W tCODE 0x1234] [] []) 0 ∧ Stacked (demo false false [fixN 1, W tCODE 0x1234] [] []) 0 [fixN 1, W tCODE 0x1234] 2 4 ∧
    (fixN 1).datum.toNat ≤ 1 ∧ hiZero (W tCODE 0x1234) = true ∧ (demo false false [] [] []).tour.loop = [] ∧
    (∀ d ∈ [1, 2, 14, 15], Quiet ((demoScene [fixN 0xFFFF, W tCODE 0x1234] d).modCore 0 (fun k => { k with psw := { k.psw with sc := false } })) 0 ∧
      (((demoScene [fixN 0xFFFF, W tCODE 0x1234] d).core 0).psw.depth = d ∧ ((demoScene [fixN 0xFFFF, W tCODE 0x1234] d).core 0).psw.ss = false)) ∧
    (((demoScene [] 1).core 0).scene.wbuf.all (fun x => decide (((demoScene [] 1).core 0).dstate (lineOf x.1) = .mod))) = true ∧
    ((demoScene [] 1).core 0).scene.nodes = [] ∧ (((demoScene [] 1).core 0).scene.ck.map (fun x => x.handler)) = some 0x777 ∧
    stackedB (demoScene [] 1) 0 [] 0 4 = true :=
  ⟨demo_quiet _ _ _ _ _, demo_stacked _ _ _ _ _ 2 4 (by decide) (by decide) (by decide), by decide, by decide, by decide +kernel,
    by intro d h; simp only [List.mem_cons, List.not_mem_nil, or_false] at h
       rcases h with h | h | h | h <;> subst h <;> exact ⟨quiet_of (by decide +kernel), by decide +kernel, by decide +kernel⟩,
    by decide +kernel, by decide +kernel, by decide +kernel, by decide +kernel⟩

/-- The demo device with a route to node 5 by port 0, which is UP. -/
def demoNet (l : List TWord) : State := ((demo true true l [] []).setReg .TOUR_RT 5 (w64 (2 ^ 63 + 2 ^ 9))).setFld f_TOUR_PSTAT_STATE 0 5
def farRef : TWord := W tRREF (5 * 2 ^ 50 + 2 ^ 36 * 3 + 17)
def demoFuture : State := (demoNet [fixN 0, farRef]).modCore 0 (fun k =>
  { k with sr := { k.sr with ab := 0x110, al := 0x200 }, mem := { k.mem with dframes := k.mem.dframes ++ [{ idx := 1, base := 9, st := [.mod, .mod, .mod, .mod] }] } })

def futureMeets (s : State) (c : Nat) : Bool :=
  match (newFuture (2 ^ s.fld f_COL_CTL_WSEND 0)).run c (s.ready c 0xD012) with
  | .ok _ u =>
    let w := u.drainAll c
    quietB w c && decide ((w.core c).mem.sq = []) && decide ((w.core c).traceN = 0 ∧ (w.core c).wait = none ∧ (w.core c).syl = 0xD012 ∧
      (w.core c).psw = (s.core c).psw ∧ (w.core c).stk = (s.core c).stk) && decide (w.tour = s.tour) && !(w.mode mREPLAY) && decide (w.node = s.node) &&
      decide (w.fld f_COL_CTL_WSEND 0 = s.fld f_COL_CTL_WSEND 0) && decide (w.route (refNode farRef) = s.route (refNode farRef))
  | .error _ _ => false

theorem witness_RemoteInstructions :
    (∀ l ∈ [[fixN (2 ^ 32 - 1), farRef], [fixN 7, farRef, fixN 9], [fixN (2 ^ 16), farRef, fixN 9]], Quiet (demoNet l) 0 ∧ stackedB (demoNet l) 0 l 2 4 = true) ∧
    (demoNet []).tour.loop = [] ∧ (demoNet []).tour.reqs.length < 4096 ∧ ty farRef = tRREF ∧ bits farRef.datum 35 18 = 0 ∧ refNode farRef ≠ (demoNet []).node ∧
    (demoNet []).route (refNode farRef) = some (0, true) ∧ travels (ty (fixN 9)) = true ∧ (demoNet []).peerFree (refNode farRef) = true ∧
    futureMeets demoFuture 0 = true ∧ Quiet demoFuture 0 :=
  ⟨by intro l h; simp only [List.mem_cons, List.not_mem_nil, or_false] at h
      rcases h with h | h | h <;> subst h <;> exact ⟨quiet_of (by decide +kernel), by decide +kernel⟩,
    by decide +kernel, by decide +kernel, by decide, by decide, by decide +kernel, by decide +kernel, by decide, by decide +kernel, by decide +kernel,
    quiet_of (by decide +kernel)⟩

def demoCol (l : List TWord) (look : List (Nat × W64)) (m : List (Nat × TWord)) : State :=
  ((demo true true l [] m).setFld f_COL_CTL_EN 0 1).modCore 0 (fun k => { k with mem := { k.mem with look := look } })

theorem witness_CollectorInstructions :
    Sound (fixN 5) ∧ Sound (W tCONS 264) ∧ Settled (demo true true [W tCONS 264] [] []) 0 (W tCONS 264) ∧
    Quiet (demoCol [W tLOC 0x101] [(0, 1)] []) 0 ∧ (demoCol [W tLOC 0x101] [(0, 1)] []).colOn = true ∧
    (demoCol [W tLOC 0x101] [(0, 1)] []).regionOf 0x101 = some 0 ∧ ((demoCol [W tLOC 0x101] [(0, 1)] []).core 0).mem.look = [(0, 1)] ∧ rState 1 ≠ gEVAC ∧
    ((((demoCol [W tLOC 0x101] [(0, 1)] []).ready 0 0xD022).markCard 0 0x101).map (fun u => quietB u 0 && decide ((u.core 0).traceN = 0 ∧
      (u.core 0).psw = ((demoCol [W tLOC 0x101] [(0, 1)] []).core 0).psw))) = some true ∧
    leafB ((demoCol [W tLOC 0x101] [(0, 1)] []).core 0) 0x101 .read 0x101 false = true ∧ (demo true true [W tLOC 0x101] [] []).colOn = false ∧
    (∀ w ∈ [fixN 7, W tLOC 0x105], (demo true true [fixN 1, W tLOC 0x101] [] [(0x101, w)]).coreSees 0 0x101 = w) ∧
    (demo true true [fixN 1, W tLOC 0x101] [] []).heapPtr 0 (fixN 7) = false ∧ (demo true true [fixN 1, W tLOC 0x101] [] []).heapPtr 0 (W tLOC 0x105) = true ∧
    hiZero (W tLOC 0x105) = true ∧ leafB ((demo true true [fixN 1, W tLOC 0x101] [] []).core 0) 0x101 .write 0x101 false = true :=
  ⟨by unfold Sound; decide, by unfold Sound; decide, demo_settled _ _ _ _ _ _, quiet_of (by decide +kernel), by decide +kernel, by decide +kernel,
    by decide +kernel, by decide, by decide +kernel, by decide +kernel, by decide +kernel,
    by intro w h; simp only [List.mem_cons, List.not_mem_nil, or_false] at h; rcases h with h | h <;> subst h <;> decide +kernel,
    by decide +kernel, by decide +kernel, by decide, by decide +kernel⟩

def demoUnits (s : State) : State := (s.setFld f_MATCH_CTL_EN 0 1).setFld f_LOOK_CTL_EN 0 1

theorem witness_Coprocessors :
    (demoUnits (demo true true [fixN 0, fixN 5, fixN 5] [] [])).portOk 0 (some 0) = true ∧ (demoUnits (demo true true [fixN 5, W tVEC 264] [] [])).portOk 0 (some 1) = true ∧
    (demo true true [] [] []).portOk 0 (some 0) = false ∧ (demo true true [] [] []).portOk 0 (some 1) = false ∧
    Quiet (demoUnits (demo true true [fixN 0, fixN 5, fixN 5] [] [])) 0 ∧ stackedB (demoUnits (demo true true [fixN 0, fixN 5, fixN 5] [] [])) 0 [fixN 0, fixN 5, fixN 5] 3 4 = true ∧
    ty (W tVAR 264) = tVAR ∧ hiZero (W tVAR 264) = true ∧ Sound (fixN 5) ∧ ty (W tVEC 264) = tVEC ∧ kBit (W tVEC 264) = false ∧
    (∀ i ∈ [(0, 0, 3, 1), (0, 1, 3, 1), (0, 2, 0, 1), (0, 3, 1, 0), (0, 4, 2, 0), (0, 5, 1, 1), (1, 0, 2, 2), (1, 1, 3, 1), (1, 2, 2, 1)],
      Waits (demoWait (List.replicate i.2.2.1 (fixN 5)) (0xE800 + i.1 * 256 + i.2.1) (.coproc i.1 i.2.1 (some (List.replicate i.2.2.2 wNIL)))) 0
        (0xE800 + i.1 * 256 + i.2.1) (.coproc i.1 i.2.1 (some (List.replicate i.2.2.2 wNIL)))) ∧
    ((List.range 8).all (fun h => h == 0 || ((demoUnits (demoWait [] 0xE802 (.coproc 0 2 none))).wantsTurn 0 h).isNone)) = true ∧
    (demoUnits (demoWait [] 0xE802 (.coproc 0 2 none))).running 0 = true ∧ Waits (demoUnits (demoWait [] 0xE802 (.coproc 0 2 none))) 0 0xE802 (.coproc 0 2 none) ∧
    Waits (demoUnits (demoWait [fixN 0, fixN 5, fixN 6] 0xE800 (.coproc 0 0 none))) 0 0xE800 (.coproc 0 0 none) :=
  ⟨by decide +kernel, by decide +kernel, by decide +kernel, by decide +kernel, quiet_of (by decide +kernel), by decide +kernel, by decide, by decide,
    by unfold Sound; decide, by decide, by decide,
    by intro i h; simp only [List.mem_cons, List.not_mem_nil, or_false] at h
       rcases h with h | h | h | h | h | h | h | h | h <;> subst h <;> exact waits_of (by decide +kernel),
    by decide +kernel, by decide +kernel, waits_of (by decide +kernel), waits_of (by decide +kernel)⟩

def demoPhase (n : Nat) (busy on : Bool) : State :=
  (((demo true true [] [] []).setFld f_COL_PHASE_PHASE 0 n).setFld f_COL_STAT_BUSY 0 (b2n busy)).setFld f_COL_CTL_EN 0 (b2n on)

theorem witness_CollectorCommands :
    (demoPhase 0 false false).phase = 0 ∧ ((demoPhase 0 false true).setFld f_COL_FREE_COUNT 0 65536).fld f_COL_FREE_COUNT 0 = 65536 ∧
    ((demoPhase 0 false true).setFld f_COL_FREE_COUNT 0 65535).fld f_COL_FREE_COUNT 0 ≠ 65536 ∧
    (demoPhase 0 false true).colOn = true ∧ (demoPhase 0 false false).colOn = false ∧ (demoPhase 1 true true).phase = 1 ∧ (demoPhase 2 false true).phase = 2 ∧
    (demoPhase 2 true true).colBusy = true ∧ (demoPhase 4 false true).phase = 4 ∧ (demoPhase 4 false true).colBusy = false ∧
    Memory.wf (demoPhase 4 false true) = true ∧ (demoPhase 1 true true).regionOf 0x333 = some 0 ∧
    bits (w64 (65535 + 2 ^ 16 + 262144 * 2 ^ 26)) 18 16 ≠ gEVAC ∧ bits (w64 (65535 + 2 ^ 16 + 262144 * 2 ^ 26)) 44 26 = 262144 ∧
    rState ((demoPhase 0 false true).region0 65535) = gFREE ∧ rSel ((demoPhase 0 false true).region0 65535) = false ∧
    (demoPhase 0 false true).currentRegion 65535 = false ∧ rState (((demoPhase 0 false true).setRegion0 7 4).region0 7) ≠ gFREE ∧
    rState (((demoPhase 4 false true).setRegion0 5 0xD).region0 5) = gEVAC ∧ bits (w64 (6 * 2 ^ 16)) 18 16 = 6 := by
  and_intros <;> decide +kernel

/-- The device with one enabled cluster, collection on, and work for its engine. -/
def demoEngine (e : Engine) : State := (((demoPhase 4 true true).setReg .LOADIN_CLEN 0 1)).modCluster 0 (fun k => { k with engine := e })
def demoCopy : State := ((demoEngine {}).modCore 0 (fun k => { k with wait := some (.barrierCopy 0x100) })).wr 0x100 (W tFWD 0x200)
def demoPacing : State :=
  let p : State := (demoPhase 0 false true).modCore 0 (fun k => { k with wait := some (.pacing 5), syl := 0x3002 })
  let p : State := { p with time := 2 ^ 50, col := { p.col with grants := 3, pacing := [0] } }
  (p.setFld f_COL_PACE_RESERVE 0 65535).setFld f_COL_FREE_COUNT 0 9

def copyMeets (s : State) : Bool := match eForward 0x100 (engine 0) s with | .ok _ _ => true | .error _ _ => false
def chunkMeets (s : State) : Bool := match s.takeChunk 0 with
  | some (_, u) => !u.recording && decide (u.col.pacing = s.col.pacing)
  | none => false

theorem witness_StagehandWork :
    (demoEngine { rescan := [4, 5] }).engineRuns 0 = true ∧ (demo true true [] [] []).engineRuns 0 = false ∧
    ((demoEngine { rescan := [4, 5] }).cluster 0).engine.rescan = [4, 5] ∧ ((demoEngine { jobs := [.flip], rescan := [6] }).cluster 0).engine.jobs = [.flip] ∧
    (demoEngine { jobs := [.flip] }).col.sel = [] ∧ (demoEngine {}).phase = 4 ∧ (demoEngine {}).colBusy = true ∧ (demoEngine {}).enginesIdle = true ∧
    (0 : Nat) < (demoEngine {}).nClusters ∧ (demoCopy.core 0).wait = some (.barrierCopy 0x100) ∧ demoCopy.flag f_STH_ERR_STOP 0 = false ∧ copyMeets demoCopy = true ∧
    (demoPacing.core 0).wait = some (.pacing 5) ∧ demoPacing.firstPacing = some 0 ∧ demoPacing.refillFree = false ∧ demoPacing.mayGrant 0 = true ∧
    chunkMeets demoPacing = true ∧ (demoPacing.reg .COL_PACELIM 0).toNat ≤ demoPacing.time - 5 ∧
    ((demoPacing.setReg .COL_PACELIM 0 (2 ^ 60)).reg .COL_PACELIM 0).toNat > demoPacing.time - 5 ∧ (demoEngine {}).recording = false ∧ (demoEngine {}).mode mREPLAY = false := by
  and_intros <;> decide +kernel

def demoQueue : State := (demo true true [] [] []).modCore 0 (fun k => { k with mem := { k.mem with
  sq := [{ pa := 0x101, val := fixN 4, epoch := 0, strict := false, alloc := true, nc := false }], satb := [fixN 4, wRAW0, W tCONS 8] } })

theorem witness_MemoryAgents :
    (uncontestedB demoQueue = true ∧ demoQueue.parked = [] ∧ demoQueue.clusters.all (fun k => decide (k.lost = [])) = true ∧
      demoQueue.needsHost (lineOf 0x101) = false) ∧
    ((demoWait [] 0 .miss).core 0).wait = some .miss ∧ (demoQueue.core 0).dstate (lineOf 0x101) = .mod ∧ 0 < demoQueue.cores.length ∧
    place 0x101 = .loc ∧ (demoQueue.core 0).unit = false ∧ demoQueue.arbitrate (.core 0) (lineOf 0x101) true = .go demoQueue ∧
    demoQueue.recording = false ∧ Memory.wf demoQueue = true ∧ demoQueue.col.satbCount + (demoQueue.core 0).mem.satb.length ≤ satbMax ∧
    demoQueue.arbitrate (.engine 0) (lineOf 0x100) true = .go demoQueue ∧ demoQueue.dirOf (lineOf 0x100) = none ∧
    ((demoQueue.setDir { line := 0x20, owner := some 3, sharers := [], oldest := none }).dirOf (lineOf 0x100)).bind (fun e => e.owner) = some 3 := by
  and_intros <;> first | decide +kernel | rfl

def demoMcs (j : Option McsJob) (r : Run) (ds : Bool) : State :=
  let s : State := ((demo true true [] [] []).setReg .LOADIN_CLEN 0 1).modCore 0 (fun k => { k with run := r, psw := { k.psw with ds := ds } })
  { s with mcs := { s.mcs with job := j } }
def removal : McsJob := { op := 2, image := [] }

theorem witness_ControlStores :
    (demoMcs none .halt false).enabledClusters = [0] ∧ (demoMcs none .halt false).mcs.job = none ∧ (demoMcs (some removal) .halt false).mcs.job = some removal ∧
    removal.next ≤ 0 ∧ (demoMcs (some removal) .halt false).holdable 0 = true ∧ (demoMcs (some removal) .run true).holdable 0 = false ∧
    (demoMcs none .halt false).mcs.want = [] ∧ (demoMcs none .halt false).fld f_MCS_RFCTL_RFINT 0 = 0 ∧
    ((demoMcs none .halt false).setFld f_MCS_RFCTL_RFINT 0 1).fld f_MCS_RFCTL_RFINT 0 ≠ 0 := by
  and_intros <;> decide +kernel

/-- An empty image fails its checks, whatever the signature function says. -/
theorem witness_ControlStores_check (s : State) : ∃ e u, s.imageVerify 2 [] = (some e, u) := by
  have h : ∀ b, ∃ e, imageCheck 2 [] b = some e := by
    intro b
    cases b <;> exact ⟨_, rfl⟩
  obtain ⟨e, he⟩ := h (s.slotRevoked (s.imageSlot 2))
  simp only [State.imageVerify, he]
  by_cases g : (!s.signatureOk (s.imageSlot 2) (imageBody []) (imagePub []) (imageSig [])) = true
  · simp only [if_pos g]
    exact ⟨_, _, rfl⟩
  · simp only [if_neg g]
    exact ⟨_, _, rfl⟩

def arrivesB (s : State) (p : Nat) (m : Msg) : Bool :=
  s.portUp p && decide (p < s.tour.ports.length) && decide (m.dest = s.node) && decide (s.node ≠ 0x3FFF) && decide (m.src ≠ s.node) &&
    decide (s.status ≠ 5 ∧ s.clk.dark = false) && decide (s.tour.loop = []) && decide (s.parked = []) && !(s.mode mREPLAY) && !s.recording

theorem arrives_of {s : State} {p : Nat} {m : Msg} (h : arrivesB s p m = true) : Arrives s p m := by
  simp only [arrivesB, Bool.and_eq_true, decide_eq_true_eq, Bool.not_eq_true'] at h
  obtain ⟨⟨⟨⟨⟨⟨⟨⟨⟨h1, h2⟩, h3⟩, h4⟩, h5⟩, h6⟩, h7⟩, hp⟩, h8⟩, h9⟩ := h
  exact ⟨h1, h2, h3, h4, h5, h6, h7, hp, h8, h9⟩

/-- Node 7 with ports 0 and 1 UP and node 5 behind port 1; a message header from node 5 to it; a reference to its export entry 9. -/
def fabric (l : List TWord) : State :=
  ((((demo true true l [] []).setReg .TOUR_RT 5 (w64 (2 ^ 63 + 1 + 2 ^ 9))).setFld f_TOUR_PSTAT_STATE 0 5).setFld f_TOUR_PSTAT_STATE 1 5).setReg .TOUR_NODE 0 7
def hdr0 : W64 := w64 (7 * 2 ^ 36 + 5 * 2 ^ 22)
def hdr1 (a : Nat) : W64 := w64 (0x55 * 2 ^ 32 + a)
def export9 : TWord := W tRREF (7 * 2 ^ 50 + 3 * 2 ^ 42 + 9)
def exports (s : State) : State :=
  (((s.setReg .EXP_E0 9 (w64 (2 ^ 63 + 3 * 2 ^ 48 + 0x100))).setReg .EXP_E1 9 100).wr 0x100 (W tHDR 3)).wr 0x102 (fixN 4)

def remoteMeets (s : State) (type : Nat) (wv : Option TWord) : Bool :=
  let m := spelled type hdr0 (hdr1 1) [export9, fixN 77]
  match remoteAccess (s.expObj 9) m.arg wv ((received s 0 m).remote (.tour m.src)) (received s 0 m) with
  | .ok _ t => decide (t.tour = (received s 0 m).tour) && decide (t.node = s.node) && !(t.mode mREPLAY) && decide (t.status = s.status) &&
      decide (t.route m.src = some (1, true))
  | .error _ _ => false

def request (k : ReqKind) : OutReq := { tag := 0x55, core := 0, kind := k, node := 5, addr := 0, since := 0, dist := false }
def asking (k : ReqKind) (w : Wait) (syl : Nat) : State :=
  let s : State := (fabric [fixN 5, fixN 5, fixN 5]).modCore 0 (fun k => { k with wait := some w, syl := syl })
  { s with tour := { s.tour with reqs := [{ request .fetch with tag := 1 }, request k] } }

theorem witness_RemoteMessages :
    Arrives (fabric []) 0 (spelled 1 hdr0 (hdr1 0) [export9, fixN 77]) ∧ (fabric []).route 5 = some (1, true) ∧ (fabric []).expValid 9 = false ∧
    (exports (fabric [])).expValid 9 = true ∧ (exports (fabric [])).expGen 9 = bits export9.datum 49 42 ∧ (exports (fabric [])).flag f_EXP_E0_IND 9 = false ∧
    remoteMeets (exports (fabric [])) 1 none = true ∧ remoteMeets (exports (fabric [])) 3 (some (fixN 77)) = true ∧
    Arrives (asking .fetch (.rfetch 0x55) 0xD010) 0 (spelled 1 hdr0 (hdr1 0) [fixN 77]) ∧
    (asking .fetch (.rfetch 0x55) 0xD010).tour.reqs.find? (fun x => x.tag == (spelled 2 hdr0 (hdr1 0) [fixN 77]).tag) = some (request .fetch) ∧
    Waits (asking .fetch (.rfetch 0x55) 0xD010) 0 0xD010 (.rfetch 0x55) ∧
    (asking .store (.rstore 0x55) 0xD011).tour.reqs.find? (fun x => x.tag == (spelled 2 hdr0 (hdr1 0) []).tag) = some (request .store) ∧
    Waits (asking .store (.rstore 0x55) 0xD011) 0 0xD011 (.rstore 0x55) ∧ (spelled 2 hdr0 (hdr1 255) []).arg % 256 ≠ 0 ∧
    (fabric []).tour.reqs.find? (fun x => x.tag == (spelled 2 hdr0 (hdr1 0) []).tag) = none :=
  ⟨arrives_of (by decide +kernel), by decide +kernel, by decide +kernel, by decide +kernel, by decide +kernel, by decide +kernel, by decide +kernel,
    by decide +kernel, arrives_of (by decide +kernel), by decide +kernel, waits_of (by decide +kernel), by decide +kernel, waits_of (by decide +kernel),
    by decide +kernel, by decide +kernel⟩

/-- The same with a ring at pa 0x2000 and a peer. -/
def peer5 (next : Option Nat) (fl : List Flight) : Peer := { node := 5, nextRx := next, flights := fl }
def ringed (s : State) (next : Option Nat) : State :=
  let s : State := { s with tour := { s.tour with peers := [{ node := 9 }, peer5 next []] } }
  (s.setFld f_TOUR_INQB_BASE 0 0x2000).setFld f_TOUR_INQT_INDEX 0 3

def futureFills (s : State) : Bool :=
  let m := spelled 7 hdr0 (hdr1 0) [export9, fixN 7, fixN 99]
  match (received s 0 m).completeFuture m.src 9 (some (fixN 99)) 0 7 with
  | some t => decide (t.tour = (received s 0 m).tour) && !(t.mode mREPLAY) && decide (t.node = s.node)
  | none => false

theorem witness_ReliableMessages :
    (∀ n ∈ [none, some 0x55, some 0x56, some (0x54 + 2 ^ 31)],
      Arrives (ringed (fabric []) n) 0 (spelled 1 hdr0 (hdr1 0) [export9]) ∧
      ((ringed (fabric []) n).tour.peers.find? (fun x => x.node == 5)).bind (fun x => x.nextRx) = n) ∧
    (ringed (fabric []) none).tour.wait = [] ∧ (ringed (fabric []) none).ringFull = false ∧ Memory.wf (ringed (exports (fabric [])) none) = true ∧
    uncontestedB (ringed (fabric []) none) = true ∧ (ringed (fabric []) none).fld f_TOUR_INQB_BASE 0 % 16 = 0 ∧
    (ringed (fabric []) none).fld f_TOUR_INQB_BASE 0 + 3 % (ringed (fabric []) none).ringEntries * 16 + 16 ≤ 2 ^ 34 ∧
    (ringed (exports (fabric [])) none).expValid 9 = true ∧ (ringed (exports (fabric [])) none).expGen 9 = bits export9.datum 49 42 ∧
    futureFills (ringed (exports (fabric [])) (some 0x55)) = true ∧ (ringed (fabric []) none).expValid ((spelled 8 hdr0 (hdr1 (3 * 2 ^ 18 + 9)) []).arg % 2 ^ 18) = false ∧
    (ringed (exports (fabric [])) none).expGen 9 = (spelled 8 hdr0 (hdr1 (3 * 2 ^ 18 + 9)) []).arg / 2 ^ 18 % 256 ∧
    (fixN 99).datum.toNat < ((ringed (exports (fabric [])) none).reg .EXP_E1 9).toNat ∧ (0x56 + 2 ^ 32 - 0x55) % 2 ^ 32 < 2 ^ 31 ∧
    (0x54 + 2 ^ 31 + 2 ^ 32 - 0x55) % 2 ^ 32 < 2 ^ 31 := by
  refine ⟨?_, ?_⟩
  · intro n h
    simp only [List.mem_cons, List.not_mem_nil, or_false] at h
    rcases h with h | h | h | h <;> subst h <;> exact ⟨arrives_of (by decide +kernel), by decide +kernel⟩
  · and_intros <;> decide +kernel

def sceneId : W64 := w64 (5 * 2 ^ 50 + 1234)
def slot2 : Slot := { slot := 2, id := sceneId, writes := [(0x300, fixN 8)], voted := true, askTag := 0x55 }
def withSlots (l : List Slot) : State :=
  let s := ringed (fabric []) (some 0x55)
  { s with tour := { s.tour with slots := l }, time := 5000 }
def preparing (yes : List Nat) : State := (ringed (fabric []) (some 0x55)).modCore 0 (fun k =>
  { k with psw := { k.psw with sc := true }
           scene := { k.scene with phase := 1, prepTag := 0x55, nodes := [5, 6], yes := yes, ck := some { handler := 3, stk := {}, sr := {}, lp := false } } })

theorem witness_SceneMessages :
    Arrives (withSlots []) 0 (spelled 1 hdr0 (hdr1 0) [fixW sceneId]) ∧ (withSlots []).route 5 = some (1, true) ∧
    ((withSlots []).tour.peers.find? (fun y => y.node == 5)).bind (fun y => y.nextRx) = some 0x55 ∧ (withSlots []).slotOf sceneId = none ∧
    (withSlots [{ slot := 1, id := 4 }, slot2]).slotOf sceneId = some slot2 ∧ place 0x300 = .loc ∧ Memory.wf (withSlots [slot2]) = true ∧
    (preparing []).lowest (fun h => ((preparing []).core h).scene.phase == 1 && ((preparing []).core h).scene.prepTag == 0x55) = some 0 ∧
    ((preparing []).core 0).scene.nodes.contains 5 = true ∧ (spelled 0x11 hdr0 (hdr1 255) []).arg % 256 ≠ 0 ∧ (spelled 0x11 hdr0 (hdr1 0) []).arg.testBit 8 = false ∧
    (spelled 0x11 hdr0 (hdr1 256) []).arg % 256 = 0 ∧ (spelled 0x11 hdr0 (hdr1 256) []).arg.testBit 8 = true ∧
    (preparing []).time - ((preparing []).core 0).scene.prepAt ≤ 50000 ∧ ((preparing []).core 0).scene.yes.length + 1 < ((preparing []).core 0).scene.nodes.length ∧
    (withSlots []).lowest (fun h => ((withSlots []).core h).scene.phase == 1 && ((withSlots []).core h).scene.prepTag == 0x55) = none ∧
    idNode sceneId ≠ (withSlots []).node ∧ (withSlots [slot2]).tour.slots.find? (fun y => y.voted && y.askTag == 0x55) = some slot2 ∧
    (withSlots []).tour.slots.find? (fun y => y.voted && y.askTag == 0x55) = none ∧ (spelled 0x16 hdr0 (hdr1 2) []).arg = 2 ∧
    knownType (bits (hdr0 ||| w64 (0x33 * 2 ^ 56)) 63 56) = false := by
  refine ⟨arrives_of ?_, ?_⟩ <;> and_intros <;> decide +kernel

/-- A Scene of core 0 that this node began. -/
def noticed : State := (preparing []).modCore 0 (fun k => { k with scene := { k.scene with phase := 0 } })

theorem witness_SceneMessages_notice :
    Arrives noticed 0 (spelled 1 hdr0 (hdr1 0) [fixW (noticed.sceneId 0)]) ∧ idNode (noticed.sceneId 0) = noticed.node ∧ idCore (noticed.sceneId 0) = 0 ∧
    (noticed.core 0).psw.sc = true ∧ (noticed.core 0).scene.nodes.contains noticed.node = false ∧ (withSlots [slot2]).home = [] ∧
    (∀ q, ((withSlots [slot2]).cluster q).lost = []) :=
  ⟨arrives_of (by decide +kernel), by decide +kernel, by decide +kernel, by decide +kernel, by decide +kernel, by decide +kernel,
    noLost_of (by decide +kernel)⟩

def flight (tries : Nat) : Flight := { msg := { type := 5, dest := 5, src := 7, tag := 3 }, sent := 0, tries := tries, core := none }
def timed (t : Nat) (l : List Slot) (fl : List Flight) : State :=
  let s := fabric []
  { s with time := t, tour := { s.tour with slots := l, peers := [peer5 (some 0x55) fl] } }

theorem witness_FabricTimers :
    (timed 50000 [] []).mode mREPLAY = false ∧ (timed 50000 [] []).tour.loop = [] ∧ (timed 50000 [] []).tour.held = [] ∧
    ((preparing []).core 0).scene.phase = 1 ∧ 50000 ≤ (timed 50000 [] []).time - 0 ∧ (timed 49999 [] []).time - 0 < 50000 ∧
    (timed 200000 [slot2] []).slotNo 2 = some slot2 ∧ slot2.voted = true ∧ slot2.orphan = false ∧ 200000 ≤ (timed 200000 [slot2] []).time - slot2.asked ∧
    idNode slot2.id ≠ (timed 200000 [slot2] []).node ∧ (timed 200000 [slot2] []).route (idNode slot2.id) = some (1, true) ∧
    (timed 199999 [slot2] []).time - slot2.asked < 200000 ∧ (timed 9999999 [slot2] []).time - slot2.votedAt < 10000000 ∧
    10000000 ≤ (timed 10000000 [slot2] []).time - slot2.votedAt ∧ ((timed 10000000 [slot2] []).setFld f_TOUR_INQT_INDEX 0 64).ringFull = true ∧
    (timed 5 [{ slot2 with orphan := true }] []).slotNo (bits (130 : BitVec 64) 5 0) = some { slot2 with orphan := true } ∧ bit (130 : BitVec 64) 7 = true ∧
    bit (2 : BitVec 64) 7 = false ∧ (timed 100000 [] [flight 15]).tour.peers.find? (fun y => y.node == 5) = some (peer5 (some 0x55) [flight 15]) ∧
    100000 ≤ (timed 100000 [] [flight 15]).time - (flight 15).sent ∧ (flight 15).tries < 16 ∧ (timed 99999 [] [flight 0]).time - (flight 0).sent < 100000 ∧
    (asking .fetch (.rfetch 0x55) 0xD010).tour.reqs.find? (fun y => y.tag == 0x55) = some (request .fetch) ∧
    ((asking .fetch (.rfetch 0x55) 0xD010).core 0).wait = some (.rfetch 0x55) ∧
    (asking .fetch (.rfetch 0x55) 0xD010).time - 0 < ((asking .fetch (.rfetch 0x55) 0xD010).reg .TOUR_RTMO 0).toNat := by
  and_intros <;> decide +kernel

/-- Port 1 in a state, enabled or not, at a time. -/
def portIn (st en t : Nat) : State :=
  { ((demo true true [] [] []).setFld f_TOUR_PSTAT_STATE 1 st).setFld f_TOUR_PCTL_EN 1 en with time := t }
def aMsg : Msg := { type := 5, dest := 9, src := 3 }
def portUp1 (f : PortSt → PortSt) : State := (portIn 5 1 (2 ^ 40)).modPort 1 f

theorem witness_TourPorts :
    1 < (portIn 1 1 0).nPorts ∧ 1 < (portIn 1 1 0).tour.ports.length ∧ (portIn 1 1 0).tour.reqs = [] ∧ (portIn 1 1 0).clk.noPort = [] ∧
    (∀ st ∈ [0, 1, 2, 3, 4], (portIn st 0 0).portState 1 = st) ∧ (15 : BitVec 4).toNat % 4 = 3 ∧ (7 : BitVec 4).toNat % 4 = 3 ∧ (5 : BitVec 4).toNat % 4 ≠ 3 ∧
    500000000 ≤ (portIn 2 1 500000000).time - ((portIn 2 1 500000000).port 1).since ∧ (portIn 2 1 499999999).time - ((portIn 2 1 499999999).port 1).since < 500000000 ∧
    10000000 ≤ (portIn 3 1 10000000).time - ((portIn 3 1 10000000).port 1).since ∧ (portIn 3 1 9999999).time - ((portIn 3 1 9999999).port 1).since < 10000000 ∧
    (portIn 4 1 0).node = 0x3FFF ∧ (5 : BitVec 14).toNat ≠ (portIn 4 1 0).node ∧ (portIn 4 1 0).flag f_TOUR_PCTL_SEAL 1 = false ∧
    (portUp1 (fun q => { q with replay := [(7, aMsg, 1)], tries := 7 })).portUp 1 = true ∧ 2048 ≤ (6 + 4096 - 7) % 4096 ∧
    ((portUp1 (fun q => { q with replay := [(7, aMsg, 1)], tries := 7 })).port 1).tries < 8 ∧ 8 ≤ ((portUp1 (fun q => { q with tries := 8 })).port 1).tries ∧
    16000 ≤ (portUp1 id).time - ((portUp1 id).port 1).ackAt ∧
    ((portUp1 id).port 1).credit.length = 8 ∧ ((portUp1 id).port 1).creditAt.length = 4 ∧ ((portUp1 id).port 1).queue = [] ∧ ((portUp1 id).port 1).replay = [] ∧
    ((portUp1 (fun q => { q with tagFails := 15 })).setFld f_TOUR_PSTAT_SEALED 1 1).flag f_TOUR_PSTAT_SEALED 1 = true ∧
    2 ^ 40 ≤ ((portUp1 (fun q => { q with keyed := 2 ^ 40 })).port 1).keyed ∧ ((portUp1 (fun q => { q with keyed := 2 ^ 40 - 1 })).port 1).keyed < 2 ^ 40 ∧
    ((portUp1 (fun q => { q with queue := [aMsg] })).port 1).queue = [aMsg] ∧ reliable aMsg.type = true ∧ bit ((portUp1 id).reg .TOUR_RT aMsg.dest) 63 = false ∧
    10000000 ≤ (portUp1 id).time - ((portUp1 id).port 1).creditAt.getD (msgVc aMsg.type) 0 ∧ (portIn 0 1 0).flag f_TOUR_PCTL_EN 1 = true ∧
    ((portUp1 id).setFld f_TOUR_TSYNC_MASTER 0 0x3FFF).fld f_TOUR_TSYNC_MASTER 0 = (portUp1 id).node ∧
    bit ((((portUp1 id).setFld f_TOUR_TSYNC_MASTER 0 9).setReg .TOUR_RT 9 (w64 (2 ^ 63 + 1))).reg .TOUR_RT 9) 63 = true ∧
    ((portUp1 (fun q => { q with offset := some (-10000) })).port 1).offset = some (-10000) ∧ ((portUp1 id).port 1).offset = none ∧
    ((portUp1 id).port 1).degraded = false := by
  and_intros <;> decide +kernel

/-- A host whose link is up in CXL mode, with the queues 3 of 16 entries enabled. -/
def hosted : State :=
  let s : State := { demo true true [] [] [] with time := 2 ^ 40 }
  let s := ((s.setFld f_HOST_LINK_UP 0 1).setFld f_HOST_LINK_CXL 0 1).setFld f_LOADIN_STAT_STAGE 0 7
  ((s.setReg .HOST_SQCFG 3 (w64 (2 ^ 63))).setReg .HOST_CQCFG 3 (w64 (2 ^ 63))).modHost (fun h => { h with hdm0 := some 0x10000, hdm1 := some 0x8000000000 })
def windowed : State := hosted.setReg .HOST_PWIN 0 (w64 (2 ^ 63 + 0x01005000))
def reachesNone (s : State) (wr : Bool) (a : Nat) : Option (Reg × Nat) :=
  match s.ioTarget none false true wr a with
  | .inr (r, i) => some (r.reg, i)
  | .inl _ => none

theorem witness_HostQueues :
    hosted.barUp = true ∧ hosted.mode mREPLAY = false ∧ hosted.recording = false ∧ hosted.flag f_HOST_SQCFG_EN 3 = true ∧ ringSize (hosted.reg .HOST_SQCFG 3) = 16 ∧
    ringDist 16 (hosted.fld f_HOST_SQT_INDEX 3) (hosted.fld f_HOST_SQH_INDEX 3) ≤ ringDist 16 15 (hosted.fld f_HOST_SQH_INDEX 3) ∧ hosted.status ≠ 5 ∧ hosted.clk.dark = false ∧
    ¬ (ringDist 16 7 0 ≤ ringDist 16 5 0) ∧ ringDist 16 7 5 ≤ ringDist 16 7 0 ∧ ¬ (ringDist 16 0 5 ≤ ringDist 16 0 0) ∧ ringDist 16 7 0 ≤ ringDist 16 15 0 ∧
    (hosted.setFld f_HOST_CQCFG_IE 3 1).flag f_HOST_CQCFG_IE 3 = true ∧ hosted.flag f_HOST_CQCFG_IE 3 = false ∧ (hosted.host.msix.getD 63 {}).pend = false ∧
    hosted.status = 4 ∧ hosted.flag f_HOST_CTL_MBAUTH 0 = false ∧ (hosted.setFld f_HOST_CTL_MBAUTH 0 1).flag f_HOST_CTL_MBAUTH 0 = true ∧
    ({ hosted with status := 6 } : State).barUp = true ∧ 0xFFF000 + 4096 ≤ 2 ^ hosted.load.flash.log2 ∧
    hosted.pwinAddr 0 = none ∧ windowed.barUp = true ∧ windowed.pwinAddr 0 = some 0x01005000 ∧
    reachesNone windowed true 0x01005000 = some (.MATCH_CTL, 0) ∧ reachesNone windowed false 0x01005000 = some (.MATCH_CTL, 0) ∧
    windowed.flag f_HOST_PWIN_RO 0 = false ∧ ((rowOf .MATCH_CTL).map (fun r => (rowWrite r false 0 1).2)) = some false := by
  and_intros <;> decide +kernel

def awaiting (pa : Nat) : State := hosted.modCore 0 (fun k => { k with wait := some (.hostRead pa 0x99), syl := 0x4000 })

theorem witness_HostMemory :
    Memory.wf hosted = true ∧ uncontestedB hosted = true ∧ (hosted.parked = [] ∧ hosted.clusters.all (fun k => decide (k.lost = [])) = true) ∧ hosted.cxlMem = true ∧
    hosted.flag f_REH_STAT_SNAPHOLD 0 = false ∧ hosted.host.hdm0 = some 0x10000 ∧ 0x20 * 64 < hdm0Size ∧ hdm0Size - 1 < hdm0Size ∧ hosted.host.hdm1 = some 0x8000000000 ∧
    0x100 < hdm1Size ∧ hosted.tagWrites = false ∧ (hosted.setFld f_HOST_CTL_TAGWR 0 1).tagWrites = true ∧ hosted.dirOf 0x20 = none ∧
    (List.range 8).all (fun i => decide (ty (hosted.rd (0x100 + i)) ≠ tPOISON)) = true ∧ hosted.linkUp = true ∧ hosted.flag f_HOST_LINK_CXL 0 = true ∧
    (hosted.reg .HOST_CACHEBASE 0).toNat / 8 * 8 ≤ 0x4000 ∧ place (0x001000000000 + 0x4000 / 8) = .host ∧ hosted.home = [] ∧ hosted.held = [] ∧
    hosted.dirOf (lineOf (0x001000000000 + 0x800)) = none ∧ hosted.hostStage = true ∧ ((awaiting 0x001000000123).core 0).wait = some (.hostRead 0x001000000123 0x99) ∧
    ((List.range 256).all (fun h => h == 0 || (((awaiting 0x002000000123).core h).waitsHost 0x002000000123).isNone)) = true ∧
    place 0x002000000123 = .mmio ∧ place 0x001000000123 = .host ∧ 0 < (awaiting 0x001000000123).nCores := by
  and_intros <;> decide +kernel

theorem witness_HostLink :
    hosted.cores.all (fun k => match k.wait with | some (.hostRead _ _) => false | _ => true) = true ∧ hosted.host.bias = none ∧
    (hosted.modHost (fun h => { h with bias := some (1, 2, true, false) })).host.bias ≠ none ∧ hosted.linkUp = true ∧
    (hosted.setReg .HOST_LINK 0 0).linkUp = false ∧ (hosted.modHost (fun h => { h with perst := false })).host.perst = false ∧
    (hosted.modHost (fun h => { h with perst := true })).host.perst = true ∧ hosted.status ≠ 0 ∧ hosted.retryStatus = false ∧ (9 : BitVec 10) ≠ 0 ∧
    (9 : BitVec 10) ≠ 2 ∧ hosted.barUp = true ∧ hosted.hostStage = true ∧ hosted.hostLines = [] ∧ hosted.emptied = [] := by
  and_intros <;> decide +kernel

/-- The Green Room running, with the host's link up. -/
def green : State := (hosted.modClk (fun k => { k with aon := true, por := false, dark := false }))
def spdmAt (n : Nat) (keyx sess : Bool) : State := { green with host := { green.host with spdm := { stage := n, keyx := keyx, session := sess } } }

theorem witness_KeyStore :
    green.greenUp = true ∧ (∀ k ∈ [0, 3, 5, 6], k ≠ 4 ∧ k ≠ 7) ∧ green.slotFused 0 = true ∧ green.slotFused 3 = false ∧ green.slotFused 6 = false ∧ green.mode mSEALED = false ∧
    green.flag f_KSU_STATE_PROVLOCK 0 = false ∧ (green.setFld f_KSU_STATE_PROVLOCK 0 1).flag f_KSU_STATE_PROVLOCK 0 = true ∧
    (green.setReg .DEV_MODE 0 0x80).mode mSEALED = true ∧ green.load.secs = [] ∧ green.slotRevoked 0 = false ∧
    2 ^ 20 ≤ ({ green with drbg := 2 ^ 20 } : State).drbg ∧ (green.setFld f_KSU_DRBG_STATE 0 1).fld f_KSU_DRBG_STATE 0 = 1 ∧ green.drbg < 2 ^ 20 ∧
    green.fld f_KSU_DRBG_STATE 0 = 0 := by
  and_intros <;> decide +kernel

theorem witness_SecureSession :
    (spdmAt 0 false false).doeUp = true ∧ (∀ n ∈ [0, 1, 2, 3], (spdmAt n false false).host.spdm.stage = n) ∧ (spdmAt 3 true false).host.spdm.keyx = true ∧
    (spdmAt 3 false true).host.spdm.session = true ∧ (spdmAt 3 false true).flag f_HOST_LINK_CXL 0 = true ∧ (spdmAt 3 false false).fld f_KSU_DRBG_STATE 0 ≠ 2 ∧
    ((spdmAt 3 false false).setFld f_KSU_DRBG_STATE 0 2).fld f_KSU_DRBG_STATE 0 = 2 ∧ (7 : BitVec 8).toNat ≤ 7 ∧ 7 < (8 : BitVec 8).toNat ∧
    (spdmAt 3 false true).host.ideIo.prog = none ∧ (spdmAt 3 false true).host.ideIo.live = none ∧
    ({ green with host := { green.host with ideCm := { prog := some 1, live := some 1 } } } : State).host.ideCm.live ≠ none := by
  and_intros <;> decide +kernel

/-- With a session, at a status; with an unused lockout time. -/
def session (st : Nat) : State :=
  (({ green with status := st } : State).setFld f_PROMPTER_STAT_SESSION 0 1).modPm (fun p => { p with last := green.time, lockAt := green.time })


theorem witness_PrompterRequests :
    (∀ st ∈ [4, 5, 6], (session st).pmUp = true ∧ (session st).pmSettle = session st ∧ (session st).pm.rst ≠ 6 ∧ (session st).pm.coldAt = none ∧
      (session st).flag f_PROMPTER_STAT_SESSION 0 = true ∧ (session st).clk.dark = false ∧ (session st).clk.wake = none) ∧
    (green.pmUp = true ∧ green.pmSettle = green ∧ green.pm.rst ≠ 6 ∧ green.pm.coldAt = none ∧ green.flag f_PROMPTER_STAT_SESSION 0 = false) ∧
    (∀ x ∈ [0x04, 0x10, 0x11, 0x13, 0x14, 0x15, 0x60, 0x61, 0x40, 0x22, 0x23], serveOf x 0 (session 4).pmState = .yes) ∧
    (∀ x ∈ [0, 1, 2], serveOf 0x12 x (session 4).pmState = .yes) ∧ serveOf 0x50 0 (session 6).pmState = .yes ∧ serveOf 0x51 0 (session 6).pmState = .yes ∧
    serveOf 0x50 0 (session 4).pmState = .notNow ∧ (session 4).load.warm = none ∧ (session 4).load.creset = [] ∧
    3 ∈ ((session 4).setReg .LOADIN_CLEN 0 0xF).enabledClusters ∧ 5 ∉ ((session 4).setReg .LOADIN_CLEN 0 0xF).enabledClusters ∧ (session 4).recal = [] ∧
    (session 4).flag f_MC_STAT_SREF 3 = false ∧ ((session 4).setReg .DEV_MODE 0 2).darkOk = false ∧
    (({ session 4 with cores := State.reset.cores } : State).setReg .LOADIN_CLEN 0 0).darkOk = true ∧ 0xFFFFFF + 1 ≤ 2 ^ (session 6).load.flash.log2 ∧
    (session 4).flag f_PROMPTER_MBCTL_INFULL 0 = false ∧ ((session 4).setFld f_PROMPTER_MBCTL_OUTFULL 0 1).flag f_PROMPTER_MBCTL_OUTFULL 0 = true ∧
    (session 4).pmAlert = false ∧ ((session 4).setFld f_PWR_ALSTAT_ALERT 0 1).pmAlert = true ∧ 0xFFFF + 1 ≤ 0x10000 := by
  refine ⟨?_, ⟨?_, rfl, ?_, ?_, ?_⟩, ?_⟩
  · intro st h
    simp only [List.mem_cons, List.not_mem_nil, or_false] at h
    rcases h with h | h | h <;> subst h <;>
      exact ⟨by decide +kernel, rfl, by decide +kernel, by decide +kernel, by decide +kernel, by decide +kernel, by decide +kernel⟩
  all_goals and_intros <;> decide +kernel

def fusedAll : State := (session 4).setFld f_KSU_STATE_FUSED 0 0xFF

theorem witness_PrompterSecurity :
    ((session 4).setFld f_PROMPTER_STAT_LOCKOUT 0 1).flag f_PROMPTER_STAT_LOCKOUT 0 = true ∧ (session 4).flag f_PROMPTER_STAT_LOCKOUT 0 = false ∧
    (session 4).fld f_KSU_DRBG_STATE 0 ≠ 2 ∧ ((session 4).setFld f_KSU_DRBG_STATE 0 2).fld f_KSU_DRBG_STATE 0 = 2 ∧
    (List.replicate 96 (7 : BitVec 8)).length = 96 ∧ (session 4).slotFused 5 = false ∧ fusedAll.slotFused 5 = true ∧ fusedAll.pm.nonce = none ∧
    (fusedAll.modPm (fun p => { p with nonce := some (List.replicate 48 9), fails := 2 })).pm.nonce = some (List.replicate 48 9) ∧
    serveOf 0x23 0 fusedAll.pmState = .yes ∧ fusedAll.slotFused 6 = true ∧ (session 4).slotFused 6 = false ∧ fusedAll.mode mSEALED = false ∧
    (fusedAll.setReg .DEV_MODE 0 0x80).mode mSEALED = true ∧ serveOf 0x40 0 (session 4).pmState = .yes := by
  and_intros <;> decide +kernel

def scrubbed : State := green.setFld f_MC_SCRUB_PERIOD (mcOf 0x4321) 5
def recal7 (d : Bool) : Recal := { mc := 2, chan := 7, since := 0, deferred := d }

theorem witness_MemoryControllers :
    isLocal 0x4321 = true ∧ scrubbed.dataPlane = true ∧ scrubbed.fld f_MC_SCRUB_PERIOD (mcOf 0x4321) ≠ 0 ∧ scrubbed.flag f_MC_STAT_SREF (mcOf 0x4321) = false ∧
    green.fld f_MC_SCRUB_PERIOD (mcOf 0x4321) = 0 ∧ scrubbed.fld f_MC_CTL_CETHR (mcOf 0x4321) = 0 ∧
    (scrubbed.setFld f_MC_CTL_CETHR (mcOf 0x4321) 1).fld f_MC_CTL_CETHR (mcOf 0x4321) = 1 ∧ scrubbed.lineHeld 0x4321 = false ∧
    (scrubbed.modCluster 0 (fun k => { k with lines := [{ line := lineOf 0x4321, way := 0, st := .mod }] })).lineHeld 0x4321 = true ∧
    (scrubbed.setFld f_MC_CTL_UEMC (mcOf 0x4321) 1).flag f_MC_CTL_UEMC (mcOf 0x4321) = true ∧
    (scrubbed.setFld f_MC_CTL_UEMC (mcOf 0x4321) 0).flag f_MC_CTL_UEMC (mcOf 0x4321) = false ∧ (94 : BitVec 8).toNat < 95 ∧ 95 ≤ (95 : BitVec 8).toNat ∧
    (green.setFld f_MC_STAT_SREF 2 1).flag f_MC_STAT_SREF 2 = true ∧ green.recal = [] ∧
    ({ green with recal := [recal7 false, { recal7 false with chan := 8 }] } : State).recal.all (fun r => !r.deferred) = true := by
  and_intros <;> decide +kernel

/-- A device whose cluster 0 can enter LOCKSTEP, and one that is in it. -/
def pairable : State := ((green.setReg .LOADIN_CLEN 0 0xFFFFFFFF).modCore 0 (fun k => { k with mem := { k.mem with dframes := [], iframes := [] } })).modCore 1
  (fun k => { k with run := .run, psw := { w := true }, pc := 999 })
def paired : State := pairable.setReg .CLU_MODE 0 2

theorem witness_OperatingModes :
    (∀ j, j < 4 → (0x1A2 : BitVec 9).toNat / 4 ^ j % 4 ≠ 3) ∧ (0x1A3 : BitVec 9).toNat % 4 = 3 ∧ pairable.modes = [] ∧ pairable.status = 4 ∧ pairable.clk.dark = false ∧
    pairable.flag f_REH_STAT_SNAPHOLD 0 = false ∧ (pairable.setFld f_DEV_MODESTAT_BUSY 0 1).flag f_DEV_MODESTAT_BUSY 0 = true ∧
    pairable.flag f_DEV_MODESTAT_BUSY 0 = false ∧ (pairable.reg .DEV_MODE 0).toNat < 256 ∧ (pairable.reg .DEV_MODE 0).toNat / 128 = 0 ∧
    ({ pairable with debugScope := 1 } : State).debugScope ≠ 0 ∧ pairable.fld f_REH_RPSTAT_CODE 0 ≠ 2 ∧ pairable.fld f_REH_RING_SIZE 0 = 0 ∧ pairable.pm.ropc ≠ 0x11 ∧
    0x40 % 64 = (pairable.reg .DEV_MODE 0).toNat % 64 ∧ pairable.reg .CLU_MODE 0 = 0 ∧ pairable.mode mLOCKSTEP = false ∧ pairable.mode mREPLAY = false ∧
    pairable.cores.length = 256 ∧ 0 ∈ pairable.enabledClusters ∧ pairable.holdable 0 = true ∧ pairable.flag f_REH_TCTL_EEN 0 = false ∧
    pairable.cores.all (fun k => decide (k.frameLines = []) && !k.psw.sc) = true ∧ pairable.lockstep 0 = false ∧ paired.lockstep 0 = true ∧ paired.running 0 = true ∧
    (paired.setFld f_CLU_MODE_DEVHALT 0 1).flag f_CLU_MODE_DEVHALT 0 = true ∧ (paired.setFld f_CLU_MODE_DEVHALT 0 0).flag f_CLU_MODE_DEVHALT 0 = false := by
  and_intros <;> decide +kernel

/-- What a request has to find so that a mode change is made at once. -/
def admitsB (t : State) : Bool :=
  decide (pairable.differs t f_CLU_MODE_LOCKSTEP mLOCKSTEP = []) && (pairable.affected t).all (fun q => pairable.holdable q)

theorem witness_OperatingModes_made :
    admitsB (pairable.setReg .DEV_MODE 0 (w64 0x40)) = true ∧ (∀ b ∈ [mRECORD, mREPLAY, mECONOMY, mSEALED], 0x40 / 2 ^ b % 2 = 0) ∧
    admitsB (pairable.setReg .CLU_MODE 0 (w64 0x20)) = true ∧ (∀ j, j < 4 → (0x20 : BitVec 9).toNat / 4 ^ j % 4 ≠ 3) ∧
    pairable.affected (pairable.setReg .CLU_MODE 0 (w64 0x20)) = [0] := by
  and_intros <;> decide +kernel

/-- A device under SELFTEST, and one with a requested test. -/
def tested : State := ((green.setReg .LOADIN_CLEN 0 0xFFFFFFFF).setReg .DEV_MODE 0 0x40).setFld f_DEV_STCFG_ROTINT 0 1
def halted9 : State := tested.modCore 9 (fun k => { k with run := .halt })
def aTest (cls idx : Nat) (r : Bool) : SelfTest := { cls := cls, idx := idx, since := 0, running := r }
def asked (cls idx : Nat) (r : Bool) : State := { halted9 with test := some (aTest cls idx r) }

theorem witness_SelfTests :
    tested.mode mSELFTEST = true ∧ green.mode mSELFTEST = false ∧ tested.status = 4 ∧ 3 ∈ tested.enabledClusters ∧ tested.rotDue 3 = true ∧
    (tested.cluster 3).rot = none ∧ (tested.cluster 3).lines = [] ∧ halted9.present 9 = true ∧ halted9.testIdle 9 = true ∧ 9 < halted9.cores.length ∧
    halted9.flag f_DEV_STRES_PEND 0 = false ∧ (halted9.setFld f_DEV_STRES_PEND 0 1).flag f_DEV_STRES_PEND 0 = true ∧ tested.testPresent 1 32 = false ∧
    tested.testPresent 1 31 = true ∧ tested.testPresent 0 255 = true ∧ tested.test = none ∧ (asked 3 0 false).test = some (aTest 3 0 false) ∧
    (asked 3 0 false).unitIdle (aTest 3 0 false) = true ∧ (asked 1 3 false).unitIdle (aTest 1 3 false) = true ∧ (asked 0 9 true).unitIdle (aTest 0 9 true) = true ∧
    (asked 0 0 true).unitIdle (aTest 0 0 true) = false ∧ (asked 0 9 false).fld f_DEV_STCFG_DEADLINE 0 * 1000 ≤ (asked 0 9 false).time - 0 ∧
    ((asked 0 9 false).setFld f_DEV_STCFG_DEADLINE 0 5).fld f_DEV_STCFG_DEADLINE 0 * 1000 > ({ (asked 0 9 false).setFld f_DEV_STCFG_DEADLINE 0 5 with time := 4999 } : State).time - 0 ∧
    ((asked 1 3 true).modCluster 3 (fun k => { k with rot := some 5 })).test = some (aTest 1 3 true) ∧
    (((asked 1 3 true).modCluster 3 (fun k => { k with rot := some 5 })).cluster 3).rot = some 5 := by
  and_intros <;> decide +kernel

/-- A device that records into a ring at the end of its indices. -/
def recorded : State :=
  let s := (green.setReg .LOADIN_CLEN 0 0xFFFFFFFF).setFld f_REH_RING_BASE 0 0x00040B040000
  let s := ((s.setFld f_REH_RING_SIZE 0 1).setReg .DEV_MODE 0 2).setFld f_REH_STAT_ACTIVE 0 1
  ((s.setFld f_REH_RTAIL_INDEX 0 (2 ^ 17 - 1)).setFld f_REH_RHEAD_INDEX 0 (2 ^ 17 - 5)).setFld f_REH_STAT_SEQ 0 77
def dueOf (a : Nat) : State := recorded.modChunk a (fun k => { k with due := some 3, len := 9, ret := 100, num := 4, steps := 6 })
def dueStep : State := (dueOf 5).modCore 5 (fun k => { k with psw := { k.psw with step := true } })
def oneEnded : Ended := { agent := 5, cause := 3, len := 9, ret := 100, num := 5, recs := [], steps := none, after := [] }
def queued : State := { recorded with reh := { recorded.reh with queue := [oneEnded] } }
def fullRing : State := queued.setFld f_REH_RHEAD_INDEX 0 0
/-- A host drain of the record at the last index. -/
def draining : State :=
  let s := ((hosted.setFld f_REH_RING_BASE 0 0x00040B040000).setFld f_REH_RING_SIZE 0 1).setFld f_REH_RTAIL_INDEX 0 2
  ((s.setFld f_REH_CTL_DRAIN 0 1).setFld f_REH_HBSIZE_SIZE 0 1).setFld f_REH_HBUF_BASE 0 2
def drainPa (k : Nat) : Nat :=
  draining.hostPa (draining.fld f_REH_HBUF_BASE 0 * 4096 + (2 * draining.fld f_REH_HTAIL_INDEX 0 + k) % Nat.max 1 (draining.fld f_REH_HBSIZE_SIZE 0 * 512) * 8)

theorem witness_Recording :
    Memory.wf recorded = true ∧ recorded.cores.length = 256 ∧ recorded.clusters.length = 32 ∧ recorded.recording = true ∧ recorded.mode mREPLAY = false ∧
    (recorded.chunkOf 5).due = none ∧ ((dueOf 5).chunkOf 5).due = some 3 ∧ (dueOf 5).recording = true ∧ ((dueOf 5).core 5).psw.step = false ∧
    ((dueOf 287).chunkOf 287).due = some 3 ∧ (dueStep.chunkOf 5).due = some 3 ∧ (dueStep.core 5).psw.step = true ∧ recorded.reh.queue = [] ∧
    queued.reh.queue = [oneEnded] ∧ queued.fld f_REH_HASHINT_CHUNKS 0 = 0 ∧ queued.ringRoom 1 = true ∧
    (fullRing.ringRoom ((oneEnded.records 77 0 (Config.freeValue fullRing.free)).map Recd.size).sum = false) ∧ fullRing.flag f_REH_CTL_OVF 0 = false ∧
    (fullRing.setFld f_REH_CTL_OVF 0 1).flag f_REH_CTL_OVF 0 = true ∧ (recorded.setReg .DEV_MODE 0 4).mode mREPLAY = true ∧ green.recording = false ∧
    recorded.flag f_REH_STAT_SNAPHOLD 0 = false ∧ (recorded.setFld f_REH_STAT_SNAPHOLD 0 1).flag f_REH_STAT_SNAPHOLD 0 = true ∧ recorded.tour.held = [] ∧
    recorded.tour.loop = [] ∧ recorded.tour.reqs = [] ∧ recorded.flag f_REH_STAT_ACTIVE 0 = true ∧ green.flag f_REH_STAT_ACTIVE 0 = false ∧
    draining.fld f_REH_CTL_DRAIN 0 = 1 ∧ draining.hostUp = true ∧ draining.mode mREPLAY = false ∧ draining.recording = false ∧ draining.reh.queue = [] ∧
    bits (draining.rd (0x00040B040000 + draining.fld f_REH_RHEAD_INDEX 0 * 2)).datum 50 44 + 1 ≤ draining.ringUsed ∧ 1 ≤ draining.hostRoom ∧
    (∀ k, k < 2 → place (drainPa k) = .host ∧ draining.dirOf (lineOf (drainPa k)) = none) := by
  and_intros <;> decide +kernel

def replays : State := (recorded.setReg .DEV_MODE 0 4).setFld f_REH_RPSTAT_CODE 0 3
def logged (q0 : Nat) : State := { replays with reh := { replays.reh with log := [{ q0 := q0, q1 := 2 ^ 60 + 4095 * 2 ^ 48 }, { q0 := 5, q1 := 6 }] } }
def lossy (i e : Nat) : State := { recorded with reh := { recorded.reh with lossI := i, lossE := e } }
def prepares : State := recorded.setReg .DEV_MODE 0 0

theorem witness_Replaying :
    replays.mode mREPLAY = true ∧ prepares.mode mREPLAY = false ∧ prepares.time < 2 ^ 64 ∧
    (((9 * 2 ^ 60 + 21 * 2 ^ 44) :: prepares.time :: prepares.beginWords).map (BitVec.ofNat 64)).map BitVec.toNat =
      (9 * 2 ^ 60 + 21 * 2 ^ 44) :: prepares.time :: prepares.beginWords ∧
    prepares.flag f_REH_RPCTL_RESTORE 0 = false ∧ (prepares.setFld f_REH_RPCTL_RESTORE 0 1).flag f_REH_RPCTL_RESTORE 0 = true ∧
    ({ prepares.setFld f_REH_RPSTAT_CODE 0 1 with reh := { prepares.reh with hold := true } } : State).fld f_REH_RPSTAT_CODE 0 = 1 ∧
    replays.fld f_REH_RPSTAT_CODE 0 = 3 ∧ replays.status = 4 ∧ replays.reh.cur = none ∧ replays.reh.log = [] ∧ (logged (8 * 2 ^ 60)).fld f_REH_RPSTAT_CODE 0 = 3 ∧
    ((8 * 2 ^ 60) / 2 ^ 60 % 16 = 8) ∧ ((10 * 2 ^ 60) / 2 ^ 60 % 16 = 10) ∧ ((7 * 2 ^ 51 + 99) / 2 ^ 60 % 16 = 0) ∧ bit (w64 (7 * 2 ^ 51 + 99)) 43 = false ∧
    (7 * 2 ^ 51 + 99) / 2 ^ 51 % 512 < 256 ∧ bits ((logged (7 * 2 ^ 51 + 99)).reg .REH_RPCTL 0) 39 0 = 0 ∧
    bits (((logged (7 * 2 ^ 51 + 99)).setReg .REH_RPCTL 0 99).reg .REH_RPCTL 0) 39 0 = 99 ∧ (7 * 2 ^ 51 + 99) % 2 ^ 40 = 99 ∧
    0 < ((replays.modChunk 7 (fun k => { k with left := 4096 })).chunkOf 7).left ∧ (replays.setFld f_REH_RPSTAT_CODE 0 4).fld f_REH_RPSTAT_CODE 0 = 4 ∧
    replays.reh.ended = false ∧ ({ replays with reh := { replays.reh with ended := true } } : State).reh.ended = true ∧
    (lossy 0 0).flag f_REH_TCTL_FROZEN 0 = false ∧ ((lossy 3 0).setFld f_REH_TCTL_FROZEN 0 1).flag f_REH_TCTL_FROZEN 0 = true ∧
    (lossy 0 5).flag f_REH_TCTL_STREAM 0 = false ∧ 0 < (lossy 0 5).reh.lossE ∧ 0 < (lossy 0x1000005 0).reh.lossI := by
  and_intros <;> decide +kernel

/-- With the clocks on, and before and after POR_N is released. -/
def clocked : State := green.modClk (fun k => { k with timeOn := true, aonrc := true })
def powered (por : Bool) : State := State.reset.modClk (fun k => { k with aon := true, por := por })
def greening (rec' : Bool) : State := { (powered false).modClk (fun k => { k with aonrc := true, recover := rec' }) with status := 1 }
def slowAt (n : Nat) : State := { clocked.modClk (fun k => { k with wake := some 2, aonrc := false, rcAt := clocked.time - n }) with status := 5 }
def gate9 : Gate := { cls := 0, idx := 9, since := 2 ^ 40 }
def gate4 : Gate := { cls := 4, idx := 3, since := 0 }
def gating (g : Gate) : State := (clocked.modCore 9 (fun k => { k with run := .halt })).modClk (fun k => { k with gate := some g })
def gatingLong : State := { (gating gate9).setFld f_CLK_TPLL_EFFMHZ 0 1000 with time := 2 ^ 41 }

theorem witness_ClocksAndGating :
    clocked.clk.aon = true ∧ clocked.clk.tpll.length = 4 ∧ clocked.clk.tpllNext.length = 4 ∧ (powered true).clk.por = true ∧ (powered true).clk.aon = true ∧
    (powered false).clk.por = false ∧ (powered false).clk.aonrc = false ∧ (powered false).clk.timeOn = false ∧ (powered false).status ≠ 0xE ∧
    (slowAt 0).clk.aonrc = false ∧ (slowAt 0).clk.timeOn = true ∧ (slowAt 0).flag f_CLK_STAT_ON32 0 = false ∧ (powered false).clk.good32 = false ∧
    clocked.flag f_CLK_STAT_FALLBACK 0 = false ∧ (clocked.setFld f_CLK_STAT_FALLBACK 0 1).flag f_CLK_STAT_FALLBACK 0 = true ∧ clocked.clk.aonrc = true ∧
    clocked.status = 4 ∧ (∀ b, (greening b).clk.aonrc = true ∧ (greening b).clk.timeOn = false ∧ (greening b).status = 1 ∧ (greening b).clk.recover = b) ∧
    clocked.flag f_CLK_CTL_LRACT 0 = false ∧ (clocked.setFld f_CLK_CTL_LRACT 0 1).flag f_CLK_CTL_LRACT 0 = true ∧ (clocked.core 0).run = .run ∧ 0 < clocked.nCores ∧
    (∀ p : Fin 9, ((clocked.setFld f_CLK_STAT_PLLLOST 0 (2 ^ p.val)).fld f_CLK_STAT_PLLLOST 0).testBit p = true) ∧ (slowAt 0).status = 5 ∧ (slowAt 0).clk.wake ≠ none ∧
    33 * 10 ^ 9 ≤ ((slowAt 1007081).time - (slowAt 1007081).clk.rcAt) * 32768 ∧ ((slowAt 1007080).time - (slowAt 1007080).clk.rcAt) * 32768 < 33 * 10 ^ 9 ∧
    clocked.clk.tpll.getD 2 none = none ∧ (399 : BitVec 12).toNat < 400 ∧ (200 : BitVec 12).toNat % 25 = 0 ∧
    (clocked.modClk (fun k => { k with tpll := k.tpll.set 2 (some 5) })).clk.tpll.getD 2 none = some 5 ∧ clocked.clk.tpllNext.getD 2 none = none ∧
    clocked.flag f_DEV_MODESTAT_BUSY 0 = false ∧ clocked.clk.gate = none ∧ clocked.gatePresent 1 32 = false ∧ clocked.gatePresent 0 0 = true ∧ clocked.gateOk 0 0 = false ∧
    (gating gate9).gatePresent 0 9 = true ∧ (gating gate9).gateOk 0 9 = true ∧ clocked.gatePresent 4 3 = true ∧ (gating gate9).clk.gate = some gate9 ∧
    (gating gate4).gateOk 4 3 = true ∧ (gating gate9).lockstep 9 = false ∧ ((gating gate9).core 9).frameLines = [] ∧ 9 < (gating gate9).cores.length ∧
    gatingLong.fld f_CLK_GATE_TMO_CYCLES 0 * 16000 ≤ (gatingLong.time - gate9.since) * gatingLong.unitRate gate9 ∧ gatingLong.gateOk 0 9 = true ∧
    (let s := ({ gating gate9 with time := 2 ^ 40 } : State).setFld f_CLK_GATE_TMO_CYCLES 0 1
     (s.time - gate9.since) * s.unitRate gate9 < s.fld f_CLK_GATE_TMO_CYCLES 0 * 16000) := by
  and_intros <;> decide +kernel

def darkening : State := clocked.modClk (fun k => { k with dark := true })
def waking : State := { clocked.modClk (fun k => { k with wake := some 2 }) with status := 5 }
def limited (sup cut : Nat) : State := (clocked.setFld f_PWR_PLIM_LIMIT 0 100).modClk (fun k => { k with pwSup := sup, pwCut := cut })
def warmed (n : Nat) (hot : Bool) : State := clocked.modClk (fun k => { k with thSup := k.thSup.set 1 n, thHot := k.thHot.set 1 hot })
def pulsing (ofs : Nat) : State := ((clocked.setFld f_TIME_CTL_EXTAL 0 1).setFld f_TIME_PPS_INT 0 1000).setFld f_TIME_PPS_OFS 0 ofs

theorem witness_PowerAndTime :
    (clocked.setReg .LOADIN_CLEN 0 0).darkOk = true ∧ recorded.darkOk = false ∧ recorded.clk.dark = false ∧ (darkening.setReg .DEV_MODE 0 2).darkOk = false ∧
    darkening.clk.dark = true ∧ waking.status = 5 ∧ waking.clk.aonrc = true ∧ waking.tour.held = [] ∧ waking.tour.loop = [] ∧ waking.tour.reqs = [] ∧ waking.recal = [] ∧
    waking.pm.wait = none ∧ waking.flag f_CLK_STAT_FALLBACK 0 = false ∧ waking.clk.wake = some 2 ∧ clocked.status = 4 ∧ (limited 3 0).fld f_PWR_PLIM_LIMIT 0 = 100 ∧
    100 < (101 : BitVec 16).toNat ∧ (limited 3 0).clk.pwSup < 12 ∧ 12 ≤ (limited 12 0).clk.pwSup ∧ (95 : BitVec 16).toNat * 100 ≤ 100 * 95 ∧
    100 * 95 < (96 : BitVec 16).toNat * 100 ∧ (limited 12 100).clk.pwCut ≠ 0 ∧ (limited 12 0).clk.pwCut = 0 ∧ (warmed 15 true).clk.thSup.length = 4 ∧
    (warmed 15 true).clk.thHot.length = 4 ∧ (warmed 15 true).clk.thCap.length = 4 ∧ 100 ≤ (100 : BitVec 8).toInt ∧ (warmed 3 true).clk.thHot.getD 1 false = true ∧
    98 ≤ (98 : BitVec 8).toInt ∧ (97 : BitVec 8).toInt < 98 ∧ 105 ≤ (105 : BitVec 8).toInt ∧ (warmed 15 true).clk.thSup.getD 1 0 = 15 ∧ (200 : BitVec 8).toInt < 98 ∧
    clocked.clk.aon = true ∧ clocked.clk.por = false ∧ clocked.clk.trip = false ∧ 115 ≤ (115 : BitVec 8).toInt ∧
    (∀ c, c < 256 → clocked.flag f_CUE_LCTL_T0EN c = false ∧ clocked.flag f_CUE_LCTL_T1EN c = false) ∧ 255 < clocked.nCores ∧ clocked.mode mREPLAY = false ∧
    (clocked.setFld f_CUE_LCTL_T0EN 255 1).flag f_CUE_LCTL_T0EN 255 = true ∧ ((clocked.modCore 255 (fun k => { k with sr := { k.sr with timecmp0 := 5 } })).core 255).sr.timecmp0.toInt ≤ (clocked.time : Int) ∧ clocked.clk.timeOn = true ∧ (powered false).clk.timeOn = false ∧
    clocked.flag f_TIME_CTL_EXTAL 0 = false ∧ (pulsing 0).flag f_TIME_CTL_EXTAL 0 = true ∧ (pulsing 0).timeMaster = true ∧ (pulsing 0).fld f_TIME_PPS_INT 0 = 1000 ∧
    (-1000 : Int) ≤ ((pulsing 2).time - 2 : Int) % 1000 ∧ (pulsing 2).fld f_TIME_PPS_OFS 0 ≤ (pulsing 2).time ∧
    (pulsing 2).clk.pulsed < (pulsing 2).time - ((pulsing 2).time - 2) % 1000 ∧ ({ pulsing 2 with time := 1 } : State).time < (pulsing 2).fld f_TIME_PPS_OFS 0 ∧
    ((pulsing 2).modClk (fun k => { k with pulsed := 2 ^ 41 })).time ≤ ((pulsing 2).modClk (fun k => { k with pulsed := 2 ^ 41 })).clk.pulsed := by
  and_intros <;> decide +kernel

/-- The Green Room's clock runs and Load-in has not begun; the flash is erased. -/
def loading : State := { (powered false).modClk (fun k => { k with timeOn := true, aonrc := true, profile := 2 }) with status := 1 }
def trained (waiting cleared : Bool) : State := { loading with load := { loading.load with trained := true, waiting := waiting, cleared := cleared } }
def starting : State := clocked.setReg .LOADIN_CLEN 0 0xFFFFFFFF

theorem witness_LoadInStages :
    loading.clk.profile < 4 ∧ loading.status = 1 ∧ loading.clk.timeOn = true ∧ loading.fld f_LOADIN_STAT_CAUSE 0 = 0 ∧ 21 ≤ loading.load.flash.log2 ∧
    loading.load.flash.log2 ≤ 28 ∧ headerOk (loading.header false) = false ∧ headerOk (loading.header true) = false ∧ loading.flag f_LOADIN_NEXT_V 0 = false ∧
    (loading.setFld f_LOADIN_NEXT_V 0 1).flag f_LOADIN_NEXT_V 0 = true ∧ (loading.setFld f_LOADIN_NEXT_STICKY 0 1).flag f_LOADIN_NEXT_STICKY 0 = true ∧
    clocked.status = 4 ∧ loading.load.trained = false ∧ loading.load.waiting = false ∧
    ({ loading with load := { loading.load with waiting := true } } : State).load.waiting = true ∧ (trained true false).load.trained = true ∧
    (trained false false).load.cleared = false ∧ (trained false false).load.waiting = false ∧ (trained false true).load.cleared = true ∧
    clusterOf 9 ∈ starting.enabledClusters ∧ (starting.core 9).run = .held ∧ starting.checker 9 = false ∧ (starting.core 0).run ≠ .held := by
  and_intros <;> decide +kernel

def warmAsked : State := { starting with load := { starting.load with warm := some 3 } }
def clusterAsked : State := { starting with load := { starting.load with creset := [(1, 3)] } }

theorem witness_Resets :
    (powered true).clk.por = true ∧ (powered true).clk.aon = true ∧ starting.clk.por = false ∧ starting.status = 4 ∧
    starting.load.warm = none ∧ warmAsked.load.warm = some 3 ∧ (∀ x ∈ starting.load.creset, x.1 ≠ 31) ∧ (31 : Fin 32).val ∈ starting.enabledClusters ∧
    5 ∉ (starting.setReg .LOADIN_CLEN 0 0xF).enabledClusters ∧ (∃ x ∈ clusterAsked.load.creset, x.1 = 1) ∧ warmAsked.mode mRECORD = false ∧
    warmAsked.mode mREPLAY = false ∧ warmAsked.load.secs = [] ∧ warmAsked.cores.length = 256 ∧ warmAsked.clusters.length = 32 ∧ clusterAsked.load.creset = [(1, 3)] ∧
    clusterAsked.cores.all (fun k => !k.psw.sc && decide (k.wait = none)) = true ∧ clusterAsked.clusterLines 1 = [] ∧ clusterAsked.load.secs = [] := by
  and_intros <;> decide +kernel

theorem witness_MemoryStaysCanonical : MemoryCanonical recorded ∧ ∃ t, step recorded = .next t := ⟨show Memory.wf recorded = true by decide +kernel, _, rfl⟩

/-- A queue of one well-formed command. -/
def oneWaits : State := { State.reset with pending := [.aonrcOk] }
theorem witness_QueueStaysWellFormed :
    oneWaits.pending.all (fun c => c.wellFormed) = true ∧ ∃ t, step oneWaits = .next t ∧ t.pending = [] := ⟨by decide, _, rfl, rfl⟩

/-! ### What the check refuses -/

/-- Header word 0 with a TYPE and a LEN, the rest zero. -/
def hdrOf (type len : Nat) : BitVec 64 := BitVec.ofNat 64 (type * 2 ^ 56 + len * 2 ^ 13)
def unit' : TWord := W tRAW 7

theorem test_wf_copyvec : (Instr.copyvec 0 0).wellFormed = false := by decide
theorem test_wf_fillvec : (Instr.fillvec 0 0).wellFormed = false := by decide
theorem test_wf_equal : (Instr.equal 0 0).wellFormed = false := by decide
theorem test_wf_assq : (Instr.assq 0 0).wellFormed = false := by decide
theorem test_wf_memq : (Instr.memq 0 0).wellFormed = false := by decide
theorem test_wf_nreverse : (Instr.nreverse 0 0).wellFormed = false := by decide
theorem test_wf_rep : (Instr.rep 0 3 0).wellFormed = false := by decide
theorem test_wf_storeQueueDrain : (Instr.storeQueueDrain 0 8).wellFormed = false := by decide
theorem test_wf_rdreq : (Instr.rdreq 0 (hdrOf 2 0) 0 []).wellFormed = false := by decide
theorem test_wf_rdreq_good : (Instr.rdreq 0 (hdrOf 1 0) 0 []).wellFormed = true := by decide
theorem test_wf_rdrsp : (Instr.rdrsp 0 (hdrOf 2 1) 0 []).wellFormed = false := by decide
theorem test_wf_wrreq : (Instr.wrreq 0 (hdrOf 3 2) 0 [unit']).wellFormed = false := by decide
theorem test_wf_wrreq_good : (Instr.wrreq 0 (hdrOf 3 1) 0 [unit']).wellFormed = true := by decide
theorem test_wf_wrrsp : (Instr.wrrsp 0 (hdrOf 3 0) 0 []).wellFormed = false := by decide
theorem test_wf_invoke : (Instr.invoke 0 (hdrOf 6 0) 0 []).wellFormed = false := by decide
theorem test_wf_send : (Instr.send 0 (hdrOf 6 17) 0 (List.replicate 17 unit')).wellFormed = false := by decide
theorem test_wf_result : (Instr.result 0 (hdrOf 8 0) 0 []).wellFormed = false := by decide
theorem test_wf_wret : (Instr.wret 0 (hdrOf 7 0) 0 []).wellFormed = false := by decide
theorem test_wf_eack : (Instr.eack 0 (hdrOf 0x10 0) 0 []).wellFormed = false := by decide
theorem test_wf_prepare : (Instr.prepare 0 (hdrOf 9 0) 0 []).wellFormed = false := by decide
theorem test_wf_vote : (Instr.vote 0 (hdrOf 0x11 0) 0 [unit']).wellFormed = false := by decide
theorem test_wf_commit : (Instr.commit 0 (hdrOf 0x13 0) 0 []).wellFormed = false := by decide
theorem test_wf_abort : (Instr.abort 0 (hdrOf 0x12 0) 0 []).wellFormed = false := by decide
theorem test_wf_notice : (Instr.notice 0 (hdrOf 0 0) 0 []).wellFormed = false := by decide
theorem test_wf_oquery : (Instr.oquery 0 (hdrOf 0x16 0) 0 []).wellFormed = false := by decide
theorem test_wf_oreply : (Instr.oreply 0 (hdrOf 0x15 0) 0 []).wellFormed = false := by decide
theorem test_wf_mgmt : (Instr.mgmt 0 (hdrOf 0x21 0) 0 []).wellFormed = false := by decide
theorem test_wf_reserved : (Instr.tourReservedMessage 0 (hdrOf 0x20 0) 0 []).wellFormed = false := by decide
theorem test_wf_reserved_good : (Instr.tourReservedMessage 0 (hdrOf 0x21 0) 0 []).wellFormed = true := by decide
theorem test_wf_keyExchange : (Instr.keyExchange (List.replicate 95 0) true).wellFormed = false := by decide
theorem test_wf_pauth : (Instr.pauth (List.replicate 97 0)).wellFormed = false := by decide
theorem test_wf_mailboxFlashwr : (Instr.mailboxFlashwr 0 []).wellFormed = false := by decide
theorem test_wf_prompterFlashwr : (Instr.prompterFlashwr 0 (List.replicate 241 0)).wellFormed = false := by decide
theorem test_wf_mbwrite : (Instr.mbwrite (List.replicate 65 0)).wellFormed = false := by decide
theorem test_wf_hello : (Instr.hello 0 0 0 false false 0 false [] (List.replicate 95 0)).wellFormed = false := by decide
theorem test_wf_dbgunlock : (Instr.dbgunlock 1 (List.replicate 95 0)).wellFormed = false := by decide
theorem test_wf_replayPrep : (Instr.replayPrep [0] none []).wellFormed = false := by decide
theorem test_wf_hdm0Write : (Instr.hdm0Write 0 (List.replicate 7 0) 0 false).wellFormed = false := by decide
theorem test_wf_hostReadCompletion_line : (Instr.hostReadCompletion 0x001FFFFFFFF8 [0] false false).wellFormed = false := by decide
theorem test_wf_hostReadCompletion_word : (Instr.hostReadCompletion 0x002000000000 (List.replicate 8 0) false false).wellFormed = false := by decide
theorem test_wf_hostReadCompletion_good : (Instr.hostReadCompletion 0x002000000000 [0] false false).wellFormed = true := by decide

end Sys2Proof.Tests
end

section
/-! PROOFS. Cold, warm and cluster resets (R10, R431, R479, R499-R501, R540), and the state before POR_N is released. -/

namespace Sys2Proof.Machine

open Sys2Proof

/-! ### The state after reset -/

theorem reset_core (c : Nat) : State.reset.core c = {} := by
  simp only [State.core, State.reset, State.resetPart, List.getD, List.getElem?_replicate]
  split <;> rfl

theorem holds_of_status_ne_run {s : State} (h : s.status ≠ 4) (c : Nat) : s.holds c = true := by simp [State.holds, h]

/-- A core that is held by the device issues nothing (R431). -/
theorem canIssue_of_holds {s : State} {c : Nat} (h : s.holds c = true) : s.canIssue c = false := by simp [State.canIssue, h]

/-- No port leaves DOWN before Load-in (R357, R359). -/
theorem reset_port_down (p : Nat) : State.reset.portState p = 0 ∧ State.reset.portUp p = false := by
  have h : State.reset.reg .TOUR_PSTAT p = resetOf .TOUR_PSTAT := by
    change (cellGet (resetCells .xpr3610) .TOUR_PSTAT p).getD (resetOf .TOUR_PSTAT) = _
    simp [resetCells, cellGet]
  have h0 : State.reset.portState p = 0 := by
    rw [State.portState, State.fld, show f_TOUR_PSTAT_STATE.reg = .TOUR_PSTAT from rfl, h]; decide
  have h1 : State.reset.fld f_TOUR_PSTAT_STATE p = 0 := h0
  exact ⟨h0, by simp [State.portUp, h1]⟩

/-- Settles O58: each part is read off the state given; no core issues, for STATUS is not that of Run. -/
theorem resetState : Obligations.ResetState := by
  unfold Obligations.ResetState
  refine ⟨reset_wf, rfl, rfl, rfl, rfl, rfl, fun c _ => ?_, fun c => ?_, by decide, fun p _ => reset_port_down p, rfl, by decide, by decide,
    by decide, by decide, by decide, by decide, by decide, by decide, by decide, rfl, by decide, rfl, by decide, by decide⟩
  · simp [reset_core]
  · exact canIssue_of_holds (holds_of_status_ne_run (by decide) c)

/-! ### Register cells under a filter -/

theorem cellGet_filter (p : RegCell → Bool) (r : Reg) (i : Nat) : ∀ l : List RegCell, (∀ x ∈ l, x.reg = r → x.inst = i → p x = true) →
    cellGet (l.filter p) r i = cellGet l r i
  | [], _ => rfl
  | x :: l, h => by
    have ih := cellGet_filter p r i l (fun y hy => h y (List.mem_cons_of_mem x hy))
    by_cases hx : x.reg = r ∧ x.inst = i
    · simp [List.filter_cons_of_pos (h x List.mem_cons_self hx.1 hx.2), cellGet, hx]
    · cases hp : p x <;> simp [hp, cellGet, hx, ih]

theorem cellGet_filter_none (p : RegCell → Bool) (r : Reg) (i : Nat) (h : ∀ x, x.reg = r → p x = false) :
    ∀ l : List RegCell, cellGet (l.filter p) r i = none
  | [] => rfl
  | x :: l => by
    have ih := cellGet_filter_none p r i h l
    cases hp : p x with
    | false => simp [hp, ih]
    | true =>
      have hx : x.reg ≠ r := fun e => by simp [h x e] at hp
      simp [hp, cellGet, hx, ih]

theorem cellGet_append_of_ne (r : Reg) (i : Nat) (m : List RegCell) (h : ∀ x ∈ m, x.reg ≠ r) :
    ∀ l : List RegCell, cellGet (l ++ m) r i = cellGet l r i
  | x :: l => by simp [cellGet, cellGet_append_of_ne r i m h l]
  | [] => by
    induction m with
    | nil => rfl
    | cons y m ih =>
      have hy : y.reg ≠ r := h y List.mem_cons_self
      simpa [cellGet, hy] using ih (fun x hx => h x (List.mem_cons_of_mem y hx))

/-- A register whose cells a filter keeps reads as before. -/
theorem reg_of_filter {s t : State} {p : RegCell → Bool} (r : Reg) (i : Nat) (ht : t.regs = s.regs.filter p)
    (h : ∀ x : RegCell, x.reg = r → p x = true) : t.reg r i = s.reg r i := by
  simp only [State.reg, ht, cellGet_filter p r i s.regs (fun x _ e _ => h x e)]

/-- A register whose cells a filter drops reads its reset value. -/
theorem reg_of_filter_dropped {s t : State} {p : RegCell → Bool} (r : Reg) (i : Nat) (ht : t.regs = s.regs.filter p)
    (h : ∀ x : RegCell, x.reg = r → p x = false) : t.reg r i = resetOf r := by
  simp only [State.reg, ht, cellGet_filter_none p r i h, Option.getD_none]

/-- A filter of the registers by name: those kept read as before, the others their reset values. -/
theorem reg_filter_regs {s t : State} {keeps : Reg → Bool} (ht : t.regs = s.regs.filter (fun x => keeps x.reg)) (r : Reg) (i : Nat) :
    t.reg r i = if keeps r then s.reg r i else resetOf r := by
  split
  next h => exact reg_of_filter r i ht (fun x e => e ▸ h)
  next h => exact reg_of_filter_dropped r i ht (fun x e => by simpa [e] using h)

theorem reg_setFld_ne (s : State) (f : Fld) (q : Reg) (i j v : Nat) (h : f.reg ≠ q) : (s.setFld f i v).reg q j = s.reg q j :=
  reg_setReg_ne s f.reg q i j _ (fun e => h e.1)

/-! ### Changes of a list at an index, and of several cores -/

/-- What a change of an element keeps, a change at an index keeps. -/
theorem modAt_getD_keeps {α β : Type} (d : α) (f : α → α) (g : α → β) (h : ∀ x, g (f x) = g x) (l : List α) (i j : Nat) :
    g ((modAt l i f).getD j d) = g (l.getD j d) := by
  by_cases hij : i = j
  · subst hij
    by_cases hl : i < l.length
    · rw [modAt_getD d f l i hl, h]
    · rw [List.getD_eq_default _ _ (by rw [modAt_length]; omega), List.getD_eq_default _ _ (by omega)]
  · rw [modAt_getD_ne d f l i j hij]

theorem modCore_keeps {β : Type} (g : Core → β) (s : State) (c d : Nat) (f : Core → Core) (h : ∀ k, g (f k) = g k) :
    g ((s.modCore c f).core d) = g (s.core d) := modAt_getD_keeps ({} : Core) f g h s.cores c d

theorem modCluster_keeps {β : Type} (g : Cluster → β) (s : State) (cl q : Nat) (f : Cluster → Cluster) (h : ∀ k, g (f k) = g k) :
    g ((s.modCluster cl f).cluster q) = g (s.cluster q) := modAt_getD_keeps ({} : Cluster) f g h s.clusters cl q

theorem mem_coresOf {c cl : Nat} : c ∈ coresOf cl ↔ clusterOf c = cl := by
  simp only [coresOf, clusterOf, List.mem_map, List.mem_range]
  exact ⟨fun ⟨i, hi, e⟩ => by omega, fun e => ⟨c % 8, by omega, by omega⟩⟩

theorem coresOf_nodup (cl : Nat) : (coresOf cl).Nodup := by
  unfold coresOf
  exact List.Nodup.map (fun a b (e : 8 * cl + a = 8 * cl + b) => by omega) List.nodup_range

/-- The same change of several cores. -/
def State.modCores (s : State) (l : List Nat) (f : Core → Core) : State := l.foldl (fun (s : State) c => s.modCore c f) s

/-- A change of cores is a change of the list of cores alone. -/
theorem modCores_rest (f : Core → Core) (l : List Nat) (s : State) : s.modCores l f = { s with cores := (s.modCores l f).cores } := by
  induction l generalizing s with
  | nil => rfl
  | cons c l ih => exact ih (s.modCore c f)

theorem core_modCores_ne (s : State) (l : List Nat) (f : Core → Core) (c : Nat) (h : c ∉ l) : (s.modCores l f).core c = s.core c :=
  List.foldlRecOn (motive := fun t : State => t.core c = s.core c) l _ rfl
    (fun t ht d hd => by rw [core_modCore_ne t d c f (fun e => h (e ▸ hd)), ht])

theorem core_modCores (f : Core → Core) (c : Nat) (l : List Nat) (s : State) (hn : l.Nodup) (hm : c ∈ l) (hc : c < s.cores.length) :
    (s.modCores l f).core c = f (s.core c) := by
  induction l generalizing s with
  | nil => simp at hm
  | cons d l ih =>
    obtain ⟨hd, hn⟩ := List.nodup_cons.mp hn
    change ((s.modCore d f).modCores l f).core c = _
    rcases List.mem_cons.mp hm with rfl | hm
    · rw [core_modCores_ne _ l f c hd, core_modCore s c f hc]
    · rw [ih (s.modCore d f) hn hm (by simpa using hc), core_modCore_ne s d c f (fun e => hd (e ▸ hm))]

theorem core_of_cores {s t : State} (h : t.cores = s.cores) (c : Nat) : t.core c = s.core c := by rw [State.core, h, State.core]

/-! ### What a change carries over -/

/-- Registers that every kind of work before, in and after a warm reset leaves alone, but for the count in LOADIN.WARM (R500). -/
def warmPins : List Reg := [.DEV_MODE, .LOADIN_WARM, .HOST_LINK, .HOST_SQCFG, .HOST_CQCFG]

/-- What every part of a warm reset carries over: the part, Load-in's state, the vendor image, the pinned registers and each core's
Backstage VBR. -/
structure Carries (s t : State) : Prop where
  part : t.part = s.part
  load : t.load = s.load
  vendor : t.mcs.vendor = s.mcs.vendor
  cores : t.cores.length = s.cores.length
  pins : ∀ r ∈ warmPins, ∀ i, t.reg r i = s.reg r i
  vbr : ∀ c, (t.core c).back.vbr = (s.core c).back.vbr

theorem Carries.refl (s : State) : Carries s s := ⟨rfl, rfl, rfl, rfl, fun _ _ _ => rfl, fun _ => rfl⟩

theorem Carries.trans {s t u : State} (h : Carries s t) (g : Carries t u) : Carries s u :=
  ⟨g.part.trans h.part, g.load.trans h.load, g.vendor.trans h.vendor, g.cores.trans h.cores,
    fun r hr i => (g.pins r hr i).trans (h.pins r hr i), fun c => (g.vbr c).trans (h.vbr c)⟩

theorem Carries.foldl {α : Type} {f : State → α → State} (h : ∀ s a, Carries s (f s a)) (l : List α) (s : State) : Carries s (l.foldl f s) :=
  List.foldlRecOn (motive := Carries s) l f (.refl s) (fun t ht a _ => ht.trans (h t a))

theorem Carries.ite {p : Prop} [Decidable p] {s t u : State} (h : Carries s t) (g : Carries s u) : Carries s (if p then t else u) := by
  split
  · exact h
  · exact g

/-- A change that leaves the registers and the cores as they are. -/
theorem Carries.of_same {s t : State} (hp : t.part = s.part) (hl : t.load = s.load) (hm : t.mcs.vendor = s.mcs.vendor) (hc : t.cores = s.cores)
    (hr : t.regs = s.regs) : Carries s t :=
  ⟨hp, hl, hm, by rw [hc], fun _ _ _ => by rw [State.reg, hr, State.reg], fun c => by rw [core_of_cores hc]⟩

theorem Carries.mode {s t : State} (h : Carries s t) (k : Nat) : t.mode k = s.mode k := by
  simp only [State.mode, h.pins .DEV_MODE (by decide) 0]

theorem Carries.nCores {s t : State} (h : Carries s t) : t.nCores = s.nCores := by simp only [State.nCores, h.part]

theorem Carries.nClusters {s t : State} (h : Carries s t) : t.nClusters = s.nClusters := by simp only [State.nClusters, h.part]

theorem carries_modCore (s : State) (c : Nat) (f : Core → Core) (h : ∀ k, (f k).back.vbr = k.back.vbr) : Carries s (s.modCore c f) :=
  ⟨rfl, rfl, rfl, by simp, fun _ _ _ => rfl, fun d => modCore_keeps (fun k => k.back.vbr) s c d f h⟩

theorem carries_modCluster (s : State) (cl : Nat) (f : Cluster → Cluster) : Carries s (s.modCluster cl f) := .of_same rfl rfl rfl rfl rfl

theorem carries_wr (s : State) (a : Nat) (w : TWord) : Carries s (s.wr a w) := .of_same rfl rfl rfl rfl rfl

/-- The same change of every core and cluster, which keeps each VBR. -/
theorem carries_mapCores {s t : State} (f : Core → Core) (h : ∀ k, (f k).back.vbr = k.back.vbr) (hp : t.part = s.part) (hl : t.load = s.load)
    (hm : t.mcs.vendor = s.mcs.vendor) (hc : t.cores = s.cores.map f) (hr : t.regs = s.regs) : Carries s t := by
  refine ⟨hp, hl, hm, by simp [hc], fun _ _ _ => by rw [State.reg, hr, State.reg], fun c => ?_⟩
  simp only [State.core, hc, List.getD, List.getElem?_map]
  cases s.cores[c]? with
  | none => rfl
  | some k => exact h k

/-! ### Changes of registers and control stores alone -/

/-- Nothing changes but registers that are not pinned and, in the clusters, what is beside the cache lines. -/
structure StoresOnly (s t : State) : Prop where
  rest : t = { s with regs := t.regs, clusters := t.clusters }
  pins : ∀ r ∈ warmPins, ∀ i, t.reg r i = s.reg r i
  lines : ∀ q, (t.cluster q).lines = (s.cluster q).lines

theorem StoresOnly.refl (s : State) : StoresOnly s s := ⟨rfl, fun _ _ _ => rfl, fun _ => rfl⟩

theorem StoresOnly.trans {s t u : State} (h : StoresOnly s t) (g : StoresOnly t u) : StoresOnly s u := by
  refine ⟨g.rest.trans ?_, fun r hr i => (g.pins r hr i).trans (h.pins r hr i), fun q => (g.lines q).trans (h.lines q)⟩
  exact (congrArg (fun x : State => ({ x with regs := u.regs, clusters := u.clusters } : State)) h.rest :)

theorem StoresOnly.foldl {α : Type} {f : State → α → State} (h : ∀ s a, StoresOnly s (f s a)) (l : List α) (s : State) :
    StoresOnly s (l.foldl f s) :=
  List.foldlRecOn (motive := StoresOnly s) l f (.refl s) (fun t ht a _ => ht.trans (h t a))

theorem StoresOnly.cores {s t : State} (h : StoresOnly s t) : t.cores = s.cores := (congrArg State.cores h.rest :)
theorem StoresOnly.mem {s t : State} (h : StoresOnly s t) : t.mem = s.mem := (congrArg State.mem h.rest :)
theorem StoresOnly.load {s t : State} (h : StoresOnly s t) : t.load = s.load := (congrArg State.load h.rest :)
theorem StoresOnly.col {s t : State} (h : StoresOnly s t) : t.col = s.col := (congrArg State.col h.rest :)
theorem StoresOnly.status {s t : State} (h : StoresOnly s t) : t.status = s.status := (congrArg State.status h.rest :)

theorem StoresOnly.core {s t : State} (h : StoresOnly s t) (c : Nat) : t.core c = s.core c := core_of_cores h.cores c

theorem StoresOnly.carries {s t : State} (h : StoresOnly s t) : Carries s t :=
  ⟨(congrArg State.part h.rest :), h.load, (congrArg (fun u : State => u.mcs.vendor) h.rest :), by rw [h.cores], h.pins, fun c => by rw [h.core]⟩

/-- The cache lines that a cluster's caches hold are the same. -/
theorem StoresOnly.clusterLines {s t : State} (h : StoresOnly s t) (cl : Nat) : t.clusterLines cl = s.clusterLines cl := by
  simp only [State.clusterLines, h.lines, h.core]

theorem storesOnly_setReg (s : State) (r : Reg) (i : Nat) (v : W64) (h : r ∉ warmPins) : StoresOnly s (s.setReg r i v) :=
  ⟨rfl, fun q hq j => reg_setReg_ne s r q i j v (fun e => h (e.1 ▸ hq)), fun _ => rfl⟩

theorem storesOnly_setFld (s : State) (f : Fld) (i v : Nat) (h : f.reg ∉ warmPins) : StoresOnly s (s.setFld f i v) := storesOnly_setReg s f.reg i _ h

theorem storesOnly_bump (s : State) (r : Reg) (i n : Nat) (h : r ∉ warmPins) : StoresOnly s (s.bump r i n) := storesOnly_setReg s r i _ h

/-- Cells of a register that is not pinned go. -/
theorem storesOnly_filter (s : State) (p : RegCell → Bool) (h : ∀ x : RegCell, x.reg ∈ warmPins → p x = true) :
    StoresOnly s { s with regs := s.regs.filter p } :=
  ⟨rfl, fun r hr i => reg_of_filter r i rfl (fun x e => h x (e ▸ hr)), fun _ => rfl⟩

theorem storesOnly_clearReg (s : State) (r : Reg) (i : Nat) (h : r ∉ warmPins) : StoresOnly s (s.clearReg r i) :=
  storesOnly_filter s _ (fun x hx => by simp [show x.reg ≠ r from fun e => h (e ▸ hx)])

theorem storesOnly_setSref (s : State) (b : Bool) : StoresOnly s (s.setSref b) :=
  .foldl (fun s m => storesOnly_setFld s f_MC_STAT_SREF m _ (by decide)) _ s

theorem storesOnly_defaults (s : State) : StoresOnly s s.defaults := by
  unfold State.defaults
  refine (StoresOnly.foldl (fun s t => ?_) _ s).trans ((storesOnly_setFld _ f_PWR_PLIM_LIMIT 0 _ (by decide)).trans (.foldl (fun s m => ?_) _ _))
  · exact (storesOnly_setFld s f_CLK_TPLL_COREMHZ t _ (by decide)).trans (storesOnly_setFld _ f_CLK_TPLL_CCHMHZ t _ (by decide))
  · exact storesOnly_setFld s f_MC_CAL_INT m _ (by decide)

theorem storesOnly_lockPlls (s : State) : StoresOnly s s.lockPlls :=
  (storesOnly_setReg s .PWR_THR 0 _ (by decide)).trans (.foldl (fun s t =>
    (storesOnly_setFld s f_CLK_TPLL_EFFMHZ t _ (by decide)).trans (storesOnly_setReg _ .PWR_AVS 0 _ (by decide))) _ _)

theorem storesOnly_fillRoutes (s : State) : StoresOnly s s.fillRoutes := by
  refine ⟨rfl, fun r hr i => ?_, fun _ => rfl⟩
  have hne : r ≠ .TOUR_RT := fun e => absurd (e ▸ hr) (by decide)
  simp only [State.reg, State.fillRoutes]
  rw [cellGet_append_of_ne, cellGet_filter]
  · exact fun x _ e _ => by simp [e, hne]
  · intro x hx
    split at hx
    · simp at hx
    · obtain ⟨d, _, hd⟩ := List.mem_filterMap.mp hx
      obtain ⟨v, _, rfl⟩ := Option.map_eq_some_iff.mp hd
      exact hne.symm

/-! ### The logger and the trace -/

theorem carries_putTrace (s : State) (instr : Bool) (a b : Nat) : Carries s (s.putTrace instr a b) := by
  unfold State.putTrace
  split
  · exact ((carries_wr s _ _).trans (carries_wr _ _ _)).trans (storesOnly_setFld _ f_REH_TPTR_STREAM 0 _ (by decide)).carries
  split
  · exact (storesOnly_bump s .REH_TLOSS 0 1 (by decide)).carries.trans (.of_same rfl rfl rfl rfl rfl)
  split
  · exact (((storesOnly_setReg s .REH_ITB _ _ (by decide)).trans (storesOnly_setReg _ .REH_ITB _ _ (by decide))).trans
      (storesOnly_setFld _ f_REH_TPTR_ITB 0 _ (by decide))).carries
  · exact (((storesOnly_setReg s .REH_ETB _ _ (by decide)).trans (storesOnly_setReg _ .REH_ETB _ _ (by decide))).trans
      (storesOnly_setFld _ f_REH_TPTR_ETB 0 _ (by decide))).carries

theorem carries_traceE (s : State) (kind agent a info : Nat) : Carries s (s.traceE kind agent a info) := by
  unfold State.traceE
  exact .ite (.ite ((carries_putTrace s _ _ _).trans (storesOnly_setFld _ f_REH_TCTL_FROZEN 0 1 (by decide)).carries) (carries_putTrace s _ _ _)) (.refl s)

theorem carries_raiseVec (s : State) (c vec : Nat) (w : Bool) : Carries s (s.raiseVec c vec w) := by
  unfold State.raiseVec
  exact .ite (storesOnly_bump s .CUE_DROPS 0 1 (by decide)).carries (carries_modCore s c _ (fun k => by split <;> rfl))

theorem carries_cueEvent (s : State) (src : Nat) : Carries s (s.cueEvent src) := by
  unfold State.cueEvent
  exact .ite (.of_same rfl rfl rfl rfl rfl) (.ite ((carries_traceE s _ _ _ _).trans (carries_raiseVec _ _ _ _)) (.refl s))

theorem carries_modChunk (s : State) (a : Nat) (f : Chunk → Chunk) : Carries s (s.modChunk a f) := by
  unfold State.modChunk
  exact .ite (carries_modCore s a _ (fun _ => rfl)) (carries_modCluster s _ _)

theorem carries_dropChunks (s : State) : Carries s s.dropChunks :=
  carries_mapCores (fun k => { k with chunk := {} }) (fun _ => rfl) rfl rfl rfl rfl rfl

theorem carries_ringWords (l : List Nat) (s : State) (i : Nat) : Carries s (s.ringWords i l) := by
  induction l generalizing s i with
  | nil => exact .refl s
  | cons w l ih => exact (carries_wr s _ _).trans (ih _ _)

theorem carries_putRecord (s : State) (r : Recd) : Carries s (s.putRecord r) := by
  unfold State.putRecord
  extract_lets t pad s1 s2 reh s3
  have h1 : Carries s s1 := carries_ringWords _ s _
  have h2 : Carries s1 s2 := (storesOnly_setFld s1 f_REH_RTAIL_INDEX 0 _ (by decide)).carries
  clear_value s2
  have h3 : Carries s2 s3 := .of_same rfl rfl rfl rfl rfl
  exact ((h1.trans h2).trans h3).trans (storesOnly_bump s3 .REH_RECORDS 0 1 (by decide)).carries

theorem carries_ringDrop (s : State) : Carries s s.ringDrop := by
  unfold State.ringDrop
  extract_lets s1 s2 s3
  have h1 : Carries s s1 := carries_putRecord s _
  have h3 : StoresOnly s1 s3 := ((storesOnly_setFld s1 f_REH_STAT_STOPPED 0 1 (by decide)).trans (storesOnly_setFld _ f_REH_STAT_ACTIVE 0 0 (by decide))).trans
    (storesOnly_bump s2 .REH_GAPS 0 1 (by decide))
  exact ((h1.trans h3.carries).trans (carries_dropChunks s3)).trans (carries_cueEvent _ _)

theorem carries_endChunk (s : State) (a cause : Nat) (after : List Recd) : Carries s (s.endChunk a cause after) := by
  unfold State.endChunk
  exact .ite (.refl s) ((carries_modChunk s a _).trans (.of_same rfl rfl rfl rfl rfl))

theorem carries_replayStop (s : State) (code cause agent seq : Nat) : Carries s (s.replayStop code cause agent seq) := by
  unfold State.replayStop
  extract_lets s0 s1 s2 s3 s4
  have h0 : Carries s s0 := by
    unfold s0
    split
    · exact carries_modChunk s _ _
    · exact .refl s
  have h4 : StoresOnly s0 s4 := (((storesOnly_setFld s0 f_REH_RPSTAT_CODE 0 code (by decide)).trans
    (storesOnly_setFld s1 f_REH_RPSTAT_CAUSE 0 cause (by decide))).trans
    (storesOnly_setFld s2 f_REH_RPSTAT_AGENT 0 agent (by decide))).trans (storesOnly_setFld s3 f_REH_RPSTAT_SEQ 0 seq (by decide))
  exact ((h0.trans h4.carries).trans (carries_traceE s4 _ _ _ _)).trans (carries_cueEvent _ _)

theorem carries_verifyRec (s : State) (r : Recd) : Carries s (s.verifyRec r) := by
  unfold State.verifyRec
  refine .ite (.refl s) ?_
  split
  · exact .ite (.refl s) (carries_replayStop s _ _ _ _)
  · exact carries_replayStop s _ _ _ _

theorem carries_commitChunk (s : State) : Carries s s.commitChunk := by
  unfold State.commitChunk
  split
  · exact .refl s
  · refine .ite ?_ (.ite (carries_ringDrop s) (.refl s))
    extract_lets s1 s2 s3 s4
    have h1 : Carries s s1 := .ite (.refl s) (.of_same rfl rfl rfl rfl rfl)
    have h2 : Carries s1 s2 := .foldl (fun s r => (carries_putRecord s r).trans (carries_verifyRec _ r)) _ s1
    have h3 : Carries s2 s3 := .ite (.refl s2) (storesOnly_setFld s2 f_REH_STAT_SEQ 0 _ (by decide)).carries
    have h4 : Carries s3 s4 := .ite (storesOnly_bump s3 .CORE_CHUNKS _ 1 (by decide)).carries (.refl s3)
    exact (((h1.trans h2).trans h3).trans h4).trans (.of_same rfl rfl rfl rfl rfl)

theorem carries_commitAll (n : Nat) (s : State) : Carries s (State.commitAll n s) := by
  induction n generalizing s with
  | zero => exact .refl s
  | succ n ih =>
    unfold State.commitAll
    split
    · exact .refl s
    · exact (carries_commitChunk s).trans (ih _)

/-- The end of a session by END: recording has stopped, and no snapshot holds the cores (R448). -/
theorem carries_closeSession (s : State) : Carries s ((s.setFld f_REH_STAT_ACTIVE 0 0).setFld f_REH_STAT_SNAPHOLD 0 0) :=
  ((storesOnly_setFld s f_REH_STAT_ACTIVE 0 0 (by decide)).trans (storesOnly_setFld _ f_REH_STAT_SNAPHOLD 0 0 (by decide))).carries

theorem carries_sessionEnd (s t : State) (sub : Nat) (h : s.sessionEnd sub = some t) : Carries s t := by
  unfold State.sessionEnd at h
  have hend (u : State) : Carries u (u.recordedAgents.foldl (fun (s : State) a => s.endChunk a 6 []) u) :=
    .foldl (fun s a => carries_endChunk s a 6 []) _ u
  split at h
  · exact Option.some.inj h ▸ .refl s
  dsimp only at h
  split at h
  · exact Option.some.inj h ▸ (hend s).trans (carries_commitAll _ _)
  split at h
  · exact Option.some.inj h ▸ ((hend s).trans (carries_commitAll _ _)).trans (((carries_putRecord _ _).trans (carries_dropChunks _)).trans
      (carries_closeSession _))
  · exact nomatch h

theorem carries_warmSession (s : State) : Carries s s.warmSession := by
  unfold State.warmSession
  split
  next t h => exact carries_sessionEnd s t 1 h
  · exact ((carries_dropChunks s).trans (carries_putRecord _ _)).trans (carries_closeSession _)

theorem carries_dropModes (s : State) : Carries s s.dropModes := by
  unfold State.dropModes
  exact .ite (.of_same rfl rfl rfl rfl rfl) (.of_same rfl rfl rfl rfl rfl)

/-! ### What the parts of a reset do to cores -/

theorem carries_modCores (s : State) (l : List Nat) (f : Core → Core) (h : ∀ k, (f k).back.vbr = k.back.vbr) : Carries s (s.modCores l f) :=
  .foldl (fun s c => carries_modCore s c f h) l s

/-- What work of a cluster carries over: all that a warm reset carries over, and the cores of other clusters. -/
structure InCluster (cl : Nat) (s t : State) : Prop where
  carries : Carries s t
  others : ∀ c, clusterOf c ≠ cl → t.core c = s.core c

theorem InCluster.refl (cl : Nat) (s : State) : InCluster cl s s := ⟨.refl s, fun _ _ => rfl⟩

theorem InCluster.trans {cl : Nat} {s t u : State} (h : InCluster cl s t) (g : InCluster cl t u) : InCluster cl s u :=
  ⟨h.carries.trans g.carries, fun c hc => (g.others c hc).trans (h.others c hc)⟩

theorem InCluster.foldl {cl : Nat} {α : Type} {f : State → α → State} (h : ∀ s a, InCluster cl s (f s a)) (l : List α) (s : State) :
    InCluster cl s (l.foldl f s) :=
  List.foldlRecOn (motive := InCluster cl s) l f (.refl cl s) (fun t ht a _ => ht.trans (h t a))

/-- Work that changes no core. -/
theorem Carries.inCluster {s t : State} (h : Carries s t) (hc : t.cores = s.cores) (cl : Nat) : InCluster cl s t :=
  ⟨h, fun c _ => by rw [State.core, hc, State.core]⟩

/-- Work that changes neither registers nor cores. -/
theorem InCluster.of_same {s t : State} (cl : Nat) (hp : t.part = s.part) (hl : t.load = s.load) (hm : t.mcs.vendor = s.mcs.vendor)
    (hc : t.cores = s.cores) (hr : t.regs = s.regs) : InCluster cl s t := (Carries.of_same hp hl hm hc hr).inCluster hc cl

theorem StoresOnly.inCluster {s t : State} (h : StoresOnly s t) (cl : Nat) : InCluster cl s t := h.carries.inCluster h.cores cl

theorem inCluster_modCores (s : State) (cl : Nat) (f : Core → Core) (h : ∀ k, (f k).back.vbr = k.back.vbr) :
    InCluster cl s (s.modCores (coresOf cl) f) :=
  ⟨carries_modCores s _ f h, fun c hc => core_modCores_ne s _ f c (fun hm => hc (mem_coresOf.mp hm))⟩

theorem inCluster_clSet (s : State) (cl line : Nat) (m : Mesi) : InCluster cl s (s.clSet cl line m) :=
  ((carries_modCluster s cl _).inCluster rfl cl).trans (inCluster_modCores _ cl _ (fun k => by split <;> rfl))

theorem inCluster_writeHome (s : State) (cl line : Nat) : InCluster cl s (s.writeHome cl line) := by
  unfold State.writeHome
  extract_lets out s1
  have h1 : InCluster cl s s1 := InCluster.of_same cl rfl rfl rfl rfl rfl
  exact h1.trans ((storesOnly_bump s1 .CC_WB cl 1 (by decide)).inCluster cl)

theorem inCluster_dropDirty (s : State) (cl line : Nat) : InCluster cl s (s.dropDirty line) := by
  unfold State.dropDirty
  extract_lets olds s1
  have h1 : InCluster cl s s1 := .foldl (fun s x => (carries_wr s x.1 x.2).inCluster rfl cl) olds s
  exact h1.trans (InCluster.of_same cl rfl rfl rfl rfl rfl)

theorem inCluster_clGiveUp (s : State) (cl line : Nat) : InCluster cl s (s.clGiveUp cl line) := by
  unfold State.clGiveUp State.homeAgain
  split
  · exact (inCluster_writeHome s cl line).trans (inCluster_clSet _ cl line .inv)
  split
  · exact (inCluster_clSet s cl line .inv).trans (inCluster_dropDirty _ cl line)
  · exact inCluster_clSet s cl line .inv

theorem inCluster_setDir (s : State) (cl : Nat) (e : DirE) : InCluster cl s (s.setDir e) := by
  unfold State.setDir
  split
  · exact InCluster.of_same cl rfl rfl rfl rfl rfl
  · exact InCluster.of_same cl rfl rfl rfl rfl rfl

theorem inCluster_emptyCluster (s : State) (cl : Nat) : InCluster cl s (s.emptyCluster cl) := by
  refine .foldl (fun s line => ?_) _ s
  dsimp only
  split
  · exact inCluster_clGiveUp s cl line
  · exact (inCluster_clGiveUp s cl line).trans (inCluster_setDir _ cl _)

/-- No pinned register is one of a core or of a cluster. -/
theorem pinned_unit : ∀ r ∈ warmPins, (rowOf r).all (fun row => row.unit != .core && row.unit != .cluster) = true := by decide

theorem storesOnly_warmRegs (s : State) (cl : Nat) : StoresOnly s (s.warmRegs cl) := by
  refine storesOnly_filter s _ (fun x hx => ?_)
  have hu := pinned_unit x.reg hx
  split
  · rfl
  next row hrow =>
    rw [hrow] at hu
    split
    next h => simp [h] at hu
    next h => simp [h] at hu
    · rfl

/-- A cluster whose caches hold nothing is empty already. -/
theorem emptyCluster_of_none (s : State) (cl : Nat) (h : s.clusterLines cl = []) : s.emptyCluster cl = s := by
  simp only [State.emptyCluster, h, List.foldl_nil]

theorem inCluster_warmCluster (s : State) (cl : Nat) : InCluster cl s (s.warmCluster cl) := by
  unfold State.warmCluster
  extract_lets s1 s2 mine col tour s3 s4
  have h1 : InCluster cl s s1 := inCluster_emptyCluster s cl
  have h2 : InCluster cl s1 s2 := inCluster_modCores s1 cl Core.warm (fun _ => rfl)
  have h3 : InCluster cl s2 s3 := .of_same cl rfl rfl rfl rfl rfl
  have h4 : InCluster cl s3 s4 := (carries_modCluster s3 cl _).inCluster rfl cl
  exact (((h1.trans h2).trans h3).trans h4).trans ((storesOnly_warmRegs s4 cl).inCluster cl)

/-- The cores of the cluster take their warm values (R500, R501). -/
theorem warmCluster_core (s : State) (cl c : Nat) (hc : clusterOf c = cl) (hl : c < s.cores.length) :
    (s.warmCluster cl).core c = ((s.emptyCluster cl).core c).warm := by
  have hl' : c < (s.emptyCluster cl).cores.length := by rwa [(inCluster_emptyCluster s cl).carries.cores]
  unfold State.warmCluster
  extract_lets s1 s2 mine col tour s3 s4
  have h2 : s2.core c = (s1.core c).warm := core_modCores Core.warm c (coresOf cl) s1 (coresOf_nodup cl) (mem_coresOf.mpr hc) hl'
  clear_value s2
  exact ((storesOnly_warmRegs s4 cl).core c).trans h2

/-- A core has its warm values, with the given Backstage VBR: it is held in reset, and its stacks, frames and Scene state are empty. -/
def Core.IsWarm (k : Core) (vbr : W64) : Prop := k.back.vbr = vbr ∧ ∃ j : Core, k = j.warm

/-- The warm reset of one cluster: it is woken, takes its warm values and leaves its hold (R500, R501). -/
def State.resetCluster (s : State) (cl : Nat) : State := ((s.ungateCluster cl).warmCluster cl).setHold cl false

/-- A vendor patch goes into the control stores of its cluster. -/
theorem storesOnly_putVendor (s : State) (cl : Nat) (img : Option (List Nat)) : StoresOnly s (s.putVendor cl img) := by
  unfold State.putVendor
  extract_lets m s1 s2 s3
  have h1 : StoresOnly s s1 := ⟨rfl, fun _ _ _ => rfl, fun q => modCluster_keeps Cluster.lines s cl q _ (fun _ => rfl)⟩
  have h2 : StoresOnly s1 s2 := .foldl (fun s j => storesOnly_clearReg s .MCS_PATCH _ (by decide)) _ s1
  have h3 : StoresOnly s2 s3 := .foldl (fun s r => storesOnly_setReg s .MCS_PATCH _ _ (by decide)) _ s2
  exact ((h1.trans h2).trans h3).trans (storesOnly_setFld s3 f_MCS_STAT_PATCH cl _ (by decide))

theorem storesOnly_putCust (s : State) (cl : Nat) (img : Option (List Nat)) : StoresOnly s (s.putCust cl img) := by
  unfold State.putCust
  extract_lets m disp s1
  have h1 : StoresOnly s s1 := ⟨rfl, fun _ _ _ => rfl, fun q => modCluster_keeps Cluster.lines s cl q _ (fun _ => rfl)⟩
  exact (h1.trans (storesOnly_setFld s1 f_MCS_CUPTR_MASK cl _ (by decide))).trans (storesOnly_setFld _ f_MCS_STAT_CUST cl _ (by decide))

theorem storesOnly_reload (s : State) (cl : Nat) : StoresOnly s (s.reload cl) :=
  (storesOnly_putVendor s cl _).trans (storesOnly_putCust _ cl _)

theorem storesOnly_ungateCluster (s : State) (cl : Nat) : StoresOnly s (s.ungateCluster cl) := by
  unfold State.ungateCluster
  split
  · exact (storesOnly_setReg s .PWR_CLGATED 0 _ (by decide)).trans (storesOnly_reload _ cl)
  · exact .refl s

theorem inCluster_setHold (s : State) (cl : Nat) (on : Bool) : InCluster cl s (s.setHold cl on) := by
  unfold State.setHold
  extract_lets l
  exact InCluster.trans (t := { s with mcs := { s.mcs with hold := if on then l ++ [cl] else l } }) (.of_same cl rfl rfl rfl rfl rfl)
    ((storesOnly_setFld _ f_MCS_STAT_HOLD cl _ (by decide)).inCluster cl)

@[simp] theorem setHold_core (s : State) (cl : Nat) (on : Bool) (c : Nat) : (s.setHold cl on).core c = s.core c := rfl

theorem inCluster_resetCluster (s : State) (cl : Nat) : InCluster cl s (s.resetCluster cl) :=
  (((storesOnly_ungateCluster s cl).inCluster cl).trans (inCluster_warmCluster _ cl)).trans (inCluster_setHold _ cl false)

theorem resetCluster_core (s : State) (cl c : Nat) (hc : clusterOf c = cl) (hl : c < s.cores.length) :
    ((s.resetCluster cl).core c).IsWarm (s.core c).back.vbr := by
  refine ⟨(inCluster_resetCluster s cl).carries.vbr c, ((s.ungateCluster cl).emptyCluster cl).core c, ?_⟩
  rw [State.resetCluster, setHold_core, warmCluster_core _ cl c hc]
  rwa [(storesOnly_ungateCluster s cl).cores]

/-- The warm reset of the clusters below n. -/
theorem resetClusters_isWarm (s : State) (n : Nat) :
    let t := (List.range n).foldl State.resetCluster s
    Carries s t ∧ ∀ c, clusterOf c < n → c < s.cores.length → (t.core c).IsWarm (s.core c).back.vbr := by
  induction n with
  | zero => exact ⟨.refl s, fun c h => absurd h (Nat.not_lt_zero _)⟩
  | succ n ih =>
    obtain ⟨hc, hw⟩ := ih
    simp only [List.range_succ, List.foldl_append, List.foldl_cons, List.foldl_nil]
    generalize (List.range n).foldl State.resetCluster s = u at hc hw
    refine ⟨hc.trans (inCluster_resetCluster u n).carries, fun c hn hl => ?_⟩
    by_cases hcn : clusterOf c = n
    · rw [← hc.vbr c]
      exact resetCluster_core u n c hcn (by rw [hc.cores]; exact hl)
    · rw [(inCluster_resetCluster u n).others c hcn]
      exact hw c (by omega) hl

/-! ### The units beside the clusters, and the profile -/

theorem staged_nil (s : State) (t : Nat) (h : s.load.secs = []) : s.staged t = [] := by simp only [State.staged, h]; rfl

theorem applyList_nil (s : State) (t : Nat) : s.applyList t [] = .inr s := rfl

theorem applyLinks_nil (s : State) : s.applyLinks [] = .inr s.fillRoutes := rfl

/-- Without staged sections a list of a profile writes routes at most. -/
theorem storesOnly_reapply (s : State) (t : Nat) (h : s.load.secs = []) : StoresOnly s (s.reapply t) := by
  simp only [State.reapply, staged_nil s t h, applyLinks_nil, applyList_nil]
  by_cases ht : t = 6
  · simpa [ht] using storesOnly_fillRoutes s
  · simpa [ht] using StoresOnly.refl s

theorem storesOnly_reapplyAll (l : List Nat) (s : State) (h : s.load.secs = []) : StoresOnly s (l.foldl (fun (s : State) t => s.reapply t) s) :=
  List.foldlRecOn (motive := StoresOnly s) l _ (.refl s) (fun u hu t _ => hu.trans (storesOnly_reapply u t (by rw [hu.load]; exact h)))

/-- What the units' warm values keep (R500 step 3): a register reads as before, or its reset value. -/
theorem warmUnits_reg (s : State) (r : Reg) (i : Nat) : s.warmUnits.reg r i = if warmKeeps r then s.reg r i else resetOf r :=
  reg_filter_regs (keeps := warmKeeps) rfl r i

/-! ### Warm entry -/

theorem putTrace_cores (s : State) (instr : Bool) (a b : Nat) : (s.putTrace instr a b).cores = s.cores := by
  unfold State.putTrace
  split_ifs <;> rfl

theorem putTrace_col (s : State) (instr : Bool) (a b : Nat) : (s.putTrace instr a b).col = s.col := by
  unfold State.putTrace
  split_ifs <;> rfl

theorem traceE_cores (s : State) (kind agent a info : Nat) : (s.traceE kind agent a info).cores = s.cores := by
  simp only [State.traceE]
  split_ifs <;> simp [putTrace_cores]

theorem traceE_col (s : State) (kind agent a info : Nat) : (s.traceE kind agent a info).col = s.col := by
  simp only [State.traceE]
  split_ifs <;> simp [putTrace_col]

theorem not_running_of_held {s : State} {c : Nat} (h : (s.core c).run = .held) : s.running c = false := by simp [State.running, h]

theorem lowest_none (s : State) (p : Nat → Bool) (h : ∀ c, c < s.nCores → p c = false) : s.lowest p = none := by
  simpa [State.lowest] using h

/-- The Backstage vector entry is read at its pa: no walk, no change of the state (R188). -/
theorem vectorOf_back (s : State) (c vec : Nat) : (s.vectorOf c true vec).1 = s := by
  obtain ⟨o, ho⟩ : ∃ o, s.xbase c true (bits (s.core c).back.vbr 47 0 + vec) .read = (s, o) := ⟨_, rfl⟩
  unfold State.vectorOf
  extract_lets k a
  change s.xbase c true a .read = (s, o) at ho
  rw [ho]
  cases o with
  | none => rfl
  | some pa =>
    cases h : s.physRead c true pa with
    | none => simp only [h]
    | some v => simp only [h]; split <;> rfl

/-- A core that halts in Curtain while every other core is held in reset: no core takes the machine check, so STATUS is 0x8 (R202). -/
theorem curtain_alone (s : State) (c vec sub : Nat) (hl : c < s.cores.length) (hh : ∀ x, x ≠ c → x < s.nCores → (s.core x).run = .held) :
    ∃ t, s.curtain c true vec sub = t ∧ Carries s t ∧ t.status = 8 ∧ t.core c = { s.core c with run := .curtain, wait := none } ∧
      (∀ x, x ≠ c → t.core x = s.core x) ∧ t.col = { s.col with pacing := s.col.pacing.filter (fun x => x != c) } := by
  unfold State.curtain
  extract_lets s1 s2 col s3 s4 s5
  have h1 : Carries s s1 := carries_modCore s c _ (fun _ => rfl)
  have h2 : Carries s s2 := h1.trans (storesOnly_setReg s1 .CORE_HALT c _ (by decide)).carries
  have h4 : Carries s2 s4 := .of_same rfl rfl rfl rfl rfl
  have h5 : Carries s s5 := (h2.trans h4).trans (carries_traceE s4 _ _ _ _)
  have hcore (x : Nat) : s5.core x = s1.core x := core_of_cores (traceE_cores s4 _ _ _ _) x
  have hoth (x : Nat) (hx : x ≠ c) : s5.core x = s.core x := (hcore x).trans (core_modCore_ne s c x _ hx.symm)
  have hrun (x : Nat) (hx : x < s5.nCores) (hxc : x ≠ c) : s5.running x = false :=
    not_running_of_held (by rw [hoth x hxc]; exact hh x hxc (by rwa [h5.nCores] at hx))
  have hlow (p : Nat → Bool) (hp : ∀ x, p x = true → x ≠ c ∧ s5.running x = true) : s5.lowest p = none :=
    lowest_none s5 p (fun x hx => by
      by_contra hpx
      obtain ⟨hxc, hr⟩ := hp x (by simpa using hpx)
      simp [hrun x hx hxc] at hr)
  refine ⟨{ s5 with status := 8 }, ?_, h5.trans (.of_same rfl rfl rfl rfl rfl), rfl, (hcore c).trans (core_modCore s c _ hl), hoth,
    traceE_col s4 _ _ _ _⟩
  rw [hlow _ (fun x hx => by simp at hx; exact hx.1), hlow _ (fun x hx => by simpa using hx)]

/-- EC000's warm entry while every other core is held in reset (R208): it runs in Run, or has halted in Curtain. -/
theorem warmEntry_alone (s : State) (hl : 0 < s.cores.length) (hst : s.status = 4) (hcol : s.col = {})
    (hh : ∀ x, x ≠ 0 → x < s.nCores → (s.core x).run = .held) :
    ∃ t, s.warmEntry 0 = t ∧ Carries s t ∧ (t.status = 4 ∨ t.status = 8 ∧ (t.core 0).run = .curtain) ∧ (t.core 0).run ≠ .held ∧
      (t.core 0).mem = (s.core 0).mem ∧ (t.core 0).scene = (s.core 0).scene ∧ (∀ x, x ≠ 0 → t.core x = s.core x) ∧ t.col = {} := by
  unfold State.warmEntry
  extract_lets s1 s2
  have h1 : Carries s s1 := carries_modCore s 0 _ (fun _ => rfl)
  have h2 : Carries s s2 := h1.trans (storesOnly_setReg s1 .CORE_XSTAT 0 0 (by decide)).carries
  have hself : s2.core 0 = _ := core_modCore s 0 _ hl
  have hoth (x : Nat) (hx : x ≠ 0) : s2.core x = s.core x := core_modCore_ne s 0 x _ hx.symm
  have hl2 : 0 < s2.cores.length := by rwa [h2.cores]
  have hv : s2.vectorOf 0 true 0 = (s2, (s2.vectorOf 0 true 0).2) := Prod.ext (vectorOf_back s2 0 0) rfl
  rw [hv]
  cases (s2.vectorOf 0 true 0).2 with
  | inl pa =>
    obtain ⟨t, ht, hc, hs8, h0, ho, hco⟩ :=
      curtain_alone s2 0 0 0xFF hl2 (fun x hx hn => by rw [hoth x hx]; exact hh x hx (by rwa [h2.nCores] at hn))
    refine ⟨t, ht, h2.trans hc, .inr ⟨hs8, by rw [h0]⟩, by rw [h0]; nofun, by rw [h0, hself], by rw [h0, hself],
      fun x hx => (ho x hx).trans (hoth x hx), ?_⟩
    have hcol2 : s2.col = {} := hcol
    rw [hco, hcol2]
    rfl
  | inr pc =>
    have h0 := core_modCore s2 0 (fun k => { k with pc := pc }) hl2
    exact ⟨_, rfl, h2.trans (carries_modCore s2 0 _ (fun _ => rfl)), .inl hst, by rw [h0, hself]; nofun, by rw [h0, hself], by rw [h0, hself],
      fun x hx => (core_modCore_ne s2 0 x _ hx.symm).trans (hoth x hx), hcol⟩

/-! ### The warm reset, in its parts -/

/-- The first part of a warm reset: self-refresh, a session, a replay and the mode requests end (R500). -/
def State.warmQuiet (s : State) : State :=
  let s := (s.setSref false).warmSession
  (if s.mode mREPLAY && s.fld f_REH_RPSTAT_CODE 0 ≤ 3 then (s.replayStop 9 0 0 0).replayLeave else s).dropModes

/-- The second part of a warm reset: every cluster is reset. -/
def State.warmClusters (s : State) : State := (List.range s.nClusters).foldl State.resetCluster s

/-- The third part of a warm reset: the units' warm values, the defaults and the profile. -/
def State.warmApply (s : State) : State :=
  let s : State := { (s.warmUnits.setFld f_REH_TCTL_FROZEN 0 0).setFld f_REH_TCTL_TRIG 0 15 with status := 2 }
  ([1, 3, 10, 4, 6, 7].foldl (fun (s : State) t => s.reapply t) s.defaults).lockPlls

/-- The fourth part of a warm reset: it is counted and logged, its requests end, and the device is in Run. -/
def State.warmDone (s : State) (who : Nat) : State :=
  let s := (s.bump .LOADIN_WARM 0 1).logBb 6 1 who
  { s with status := 4, load := { s.load with warm := none, creset := [] } }

/-- The last part of a warm reset: a new recording session where RECORD is set, and EC000's warm entry. -/
def State.warmGo (s : State) : State := (if s.mode mRECORD then s.sessionBegin else s).warmEntry 0

/-- The warm reset is its five parts in order. -/
theorem warmReset_eq (s : State) (who : Nat) : s.warmReset who = (s.warmQuiet.warmClusters.warmApply.warmDone who).warmGo := by
  unfold State.warmReset
  extract_lets s1 s2 s3 s4 s5 s6 s7 s8 s9 load s10 s11
  have h4 : s4 = s.warmQuiet := rfl
  clear_value s4
  have h5 : s5 = s4.warmClusters := rfl
  clear_value s5
  have h8 : s8.lockPlls = s5.warmApply := rfl
  clear_value s8
  have h10 : s10 = s8.lockPlls.warmDone who := rfl
  clear_value s10
  change s10.warmGo = _
  rw [h10, h8, h5, h4]

theorem carries_warmQuiet (s : State) (hrep : s.mode mREPLAY = false) : Carries s s.warmQuiet := by
  unfold State.warmQuiet
  extract_lets s1
  have h1 : Carries s s1 := (storesOnly_setSref s false).carries.trans (carries_warmSession _)
  rw [if_neg (by simp [h1.mode, hrep])]
  exact h1.trans (carries_dropModes s1)

/-- What the units' part of a warm reset leaves: a pinned register reads as before, or its reset value. -/
theorem warmApply_keeps (s : State) (h : s.load.secs = []) :
    ∃ t, s.warmApply = t ∧ t.cores = s.cores ∧ t.col = {} ∧ t.part = s.part ∧ t.load = s.load ∧ t.mcs.vendor = s.mcs.vendor ∧
      ∀ r ∈ warmPins, ∀ i, t.reg r i = if warmKeeps r then s.reg r i else resetOf r := by
  unfold State.warmApply
  extract_lets s0 s1
  have h0 : StoresOnly s.warmUnits s0 :=
    (storesOnly_setFld _ f_REH_TCTL_FROZEN 0 0 (by decide)).trans (storesOnly_setFld _ f_REH_TCTL_TRIG 0 15 (by decide))
  have h1 : Carries s.warmUnits s1 := h0.carries.trans (.of_same rfl rfl rfl rfl rfl)
  have hcores : s1.cores = s.cores := h0.cores
  have hcol : s1.col = {} := h0.col
  have hsecs : s1.defaults.load.secs = [] := by rw [(storesOnly_defaults s1).load, h1.load]; exact h
  clear_value s1
  have h2 := ((storesOnly_defaults s1).trans (storesOnly_reapplyAll [1, 3, 10, 4, 6, 7] s1.defaults hsecs)).trans (storesOnly_lockPlls _)
  have h3 := h1.trans h2.carries
  exact ⟨_, rfl, h2.cores.trans hcores, h2.col.trans hcol, h3.part, h3.load, h3.vendor,
    fun r hr i => (h3.pins r hr i).trans (warmUnits_reg s r i)⟩

/-- How the device stands when EC000 makes its warm entry (R500), reached from s. -/
structure WarmReady (s u : State) : Prop where
  status : u.status = 4
  warm : u.load.warm = none
  creset : u.load.creset = []
  col : u.col = {}
  part : u.part = s.part
  vendor : u.mcs.vendor = s.mcs.vendor
  cores : u.cores.length = s.cores.length
  count : u.reg .LOADIN_WARM 0 = s.reg .LOADIN_WARM 0 + 1
  pins : ∀ r ∈ warmPins, r ≠ .LOADIN_WARM → ∀ i, u.reg r i = if warmKeeps r then s.reg r i else resetOf r
  isWarm : ∀ c, c < s.nCores → c < s.cores.length → (u.core c).IsWarm (s.core c).back.vbr

theorem clusterOf_lt (s : State) (c : Nat) (h : c < s.nCores) : clusterOf c < s.nClusters := by
  unfold State.nCores at h
  unfold State.nClusters clusterOf
  cases hp : s.part <;> simp only [hp] at h ⊢ <;> omega

/-- The first four parts of a warm reset lead to EC000's warm entry (R500). -/
theorem warmReady (s : State) (who : Nat) (hrep : s.mode mREPLAY = false) (hsecs : s.load.secs = []) :
    WarmReady s (s.warmQuiet.warmClusters.warmApply.warmDone who) := by
  have hq := carries_warmQuiet s hrep
  generalize s.warmQuiet = a at hq
  obtain ⟨hab, hwarm⟩ : Carries a a.warmClusters ∧
      ∀ c, clusterOf c < a.nClusters → c < a.cores.length → (a.warmClusters.core c).IsWarm (a.core c).back.vbr :=
    resetClusters_isWarm a a.nClusters
  generalize a.warmClusters = b at hab hwarm
  have hb := hq.trans hab
  obtain ⟨d, hd, hc, hcol, hp, hl, hv, hr⟩ := warmApply_keeps b (by rw [hb.load]; exact hsecs)
  rw [hd]
  refine ⟨rfl, rfl, rfl, hcol, hp.trans hb.part, hv.trans hb.vendor, (congrArg List.length hc).trans hb.cores, ?_,
    fun r hm hne i => ?_, fun c hn hlen => ?_⟩
  · have hcount : d.reg .LOADIN_WARM 0 = s.reg .LOADIN_WARM 0 := (hr .LOADIN_WARM (by decide) 0).trans (hb.pins .LOADIN_WARM (by decide) 0)
    rw [← hcount]
    exact reg_setReg d .LOADIN_WARM 0 _
  · rw [← hb.pins r hm i, ← hr r hm i]
    exact reg_setReg_ne d .LOADIN_WARM r 0 i _ (fun e => hne e.1.symm)
  · have hcore : (d.warmDone who).core c = b.core c := core_of_cores hc c
    rw [hcore, ← hq.vbr c]
    exact hwarm c (by rw [hq.nClusters]; exact clusterOf_lt s c hn) (by rw [hq.cores]; exact hlen)

/-! ### The cluster reset -/

theorem applyShadow_sc (k : Core) : k.applyShadow.psw.sc = k.psw.sc := by
  unfold Core.applyShadow
  cases k.shadow with
  | none => rfl
  | some sh =>
    obtain ⟨remain, sa, syl, upd, used⟩ := sh
    cases upd with
    | none => rfl
    | ipl v => rfl
    | tlb isI i auto e => cases isI <;> rfl
    | sr w i v =>
      dsimp only
      split <;> cases w <;> rfl

/-- A core that is in no Scene has none to abort. -/
theorem abortScene_of_none (s : State) (c : Nat) (d : Doom) (forced : Bool) (h : (s.core c).psw.sc = false) : s.abortScene c d forced = s := by
  unfold State.abortScene
  extract_lets k
  have hk : k.psw.sc = false := (applyShadow_sc _).trans h
  rw [hk]

theorem abortCluster_of_none (s : State) (cl code : Nat) (h : ∀ c, (s.core c).psw.sc = false) : s.abortCluster cl code = s :=
  List.foldlRecOn (motive := fun t : State => t = s) _ _ rfl (fun t ht c _ => by rw [ht, abortScene_of_none s c _ false (h c)])

/-- The warm reset of a cluster whose caches hold nothing writes no memory. -/
theorem warmCluster_mem_status (s : State) (cl : Nat) (h : s.clusterLines cl = []) :
    (s.warmCluster cl).mem = s.mem ∧ (s.warmCluster cl).status = s.status := by
  unfold State.warmCluster
  rw [emptyCluster_of_none s cl h]
  extract_lets s0 s1 mine col tour s2 s3
  have h1 : s1 = { s with cores := s1.cores } := modCores_rest Core.warm (coresOf cl) s
  have hm : s1.mem = s.mem := (congrArg State.mem h1 :)
  have hs : s1.status = s.status := (congrArg State.status h1 :)
  clear_value s1
  exact ⟨(storesOnly_warmRegs s3 cl).mem.trans hm, (storesOnly_warmRegs s3 cl).status.trans hs⟩

@[simp] theorem setHold_mem (s : State) (cl : Nat) (on : Bool) : (s.setHold cl on).mem = s.mem := rfl
@[simp] theorem setHold_status (s : State) (cl : Nat) (on : Bool) : (s.setHold cl on).status = s.status := rfl

theorem resetCluster_mem_status (s : State) (cl : Nat) (h : s.clusterLines cl = []) :
    (s.resetCluster cl).mem = s.mem ∧ (s.resetCluster cl).status = s.status := by
  have hu := storesOnly_ungateCluster s cl
  obtain ⟨hm, hs⟩ := warmCluster_mem_status (s.ungateCluster cl) cl ((hu.clusterLines cl).trans h)
  rw [State.resetCluster, setHold_mem, setHold_status, hm, hs]
  exact ⟨hu.mem, hu.status⟩

theorem wakeLines_core (s : State) (c : Nat) (h : ∀ l, (s.core c).wait ≠ some (.line l)) : s.wakeLines.core c = s.core c := by
  have hc : s.wakeLines.core c = (match (s.core c).wait with | some (.line _) => { s.core c with wait := none } | _ => s.core c) := by
    simp only [State.core, State.wakeLines, List.getD, List.getElem?_map]
    cases s.cores[c]? <;> rfl
  rw [hc]
  split
  next l hl => exact absurd hl (h l)
  · rfl

/-- What a cluster reset leaves where no Scene runs and the cluster's caches hold nothing (R501): memory, STATUS and the cores of other
clusters as they were, its own cores warm, and its event in the black box. -/
theorem clusterReset_quiet (s : State) (cl who : Nat) (hsecs : s.load.secs = []) (hsc : ∀ c, (s.core c).psw.sc = false)
    (hwait : ∀ c l, (s.core c).wait ≠ some (.line l)) (hlines : s.clusterLines cl = []) :
    ∃ t, s.clusterReset cl who = t ∧ t.status = s.status ∧ t.load = s.load ∧ t.mem = s.mem ∧
      (t.bb.events.head?.map (fun e => (e.code, e.unit, e.detail))) = some (6, 2, who % 2 ^ 40) ∧
      (∀ c, clusterOf c ≠ cl → t.core c = s.core c) ∧
      ∀ c, clusterOf c = cl → c < s.cores.length → (t.core c).IsWarm (s.core c).back.vbr := by
  unfold State.clusterReset
  rw [abortCluster_of_none s cl 4 hsc]
  extract_lets s0 st s1 s2 lo es s3
  obtain ⟨hm, hs⟩ := resetCluster_mem_status s cl hlines
  have hin := inCluster_resetCluster s cl
  have hown := resetCluster_core s cl
  have h1 : s1 = s.resetCluster cl := rfl
  rw [← h1] at hm hs hin hown
  clear_value s1
  have h2 : StoresOnly s1 s2 := by
    unfold s2
    split
    · exact storesOnly_setReg s1 .MCS_LDSTAT cl st (by decide)
    · exact .refl s1
  have hes : es = [] := by
    have hst : s2.staged 3 = [] := staged_nil s2 3 (by rw [h2.load, hin.carries.load]; exact hsecs)
    simp only [es, hst]
    rfl
  have h3 : s3 = s2 := by simp only [s3, hes, List.foldl_nil]
  have h4 : StoresOnly s1 (s3.reload cl) := by
    rw [h3]
    exact h2.trans (storesOnly_reload s2 cl)
  generalize s3.reload cl = u at h4
  have hcore (c : Nat) (hc : (s1.core c).wait = none ∨ s1.core c = s.core c) : (u.wakeLines.logBb 6 2 who).core c = s1.core c := by
    refine (wakeLines_core u c (fun l => ?_)).trans (h4.core c)
    rw [h4.core c]
    rcases hc with hc | hc
    · rw [hc]
      nofun
    · rw [hc]
      exact hwait c l
  refine ⟨_, rfl, h4.status.trans hs, h4.load.trans hin.carries.load, h4.mem.trans hm, rfl, fun c hc => ?_, fun c hc hl => ?_⟩
  · exact (hcore c (.inr (hin.others c hc))).trans (hin.others c hc)
  · have hw := hown c hc hl
    obtain ⟨_, j, hj⟩ := id hw
    rw [hcore c (.inl (by rw [hj]; rfl))]
    exact hw

/-! ### The cold reset, and requests for resets -/

/-- The state of a cold reset before TOUR.NODE and the Prompter's address are written. -/
def State.coldBase (s : State) : State :=
  { State.reset with
    pending := s.pending, free := s.free, part := s.part, mem := s.mem, emptied := s.emptied
    regs := s.regs.filter (fun x => coldKeeps x.reg), ksu := s.ksu
    load := { flash := s.load.flash }, host := { perst := s.host.perst }
    clk := { aon := s.clk.aon, por := s.clk.por, profile := s.clk.profile, paddr := s.clk.paddr, recover := s.clk.recover }
    reh := { mirror := s.reh.mirror, mirrored := s.reh.mirrored }, bb := s.bb, wire := s.wire }

theorem coldReset_eq (s : State) :
    s.coldReset = (s.coldBase.setFld f_TOUR_NODE_NODE 0 0x3FFF).setFld f_PROMPTER_STAT_ADDR 0 (s.fld f_PROMPTER_STAT_ADDR 0) := rfl

theorem coldBase_reg (s : State) (r : Reg) (i : Nat) : s.coldBase.reg r i = if coldKeeps r then s.reg r i else resetOf r :=
  reg_filter_regs (keeps := coldKeeps) rfl r i

theorem coldReset_reg (s : State) (r : Reg) (i : Nat) (hn : r ≠ .TOUR_NODE) (hp : r ≠ .PROMPTER_STAT) :
    s.coldReset.reg r i = if coldKeeps r then s.reg r i else resetOf r := by
  rw [coldReset_eq, reg_setFld_ne _ f_PROMPTER_STAT_ADDR r 0 i _ hp.symm, reg_setFld_ne _ f_TOUR_NODE_NODE r 0 i _ hn.symm, coldBase_reg]

/-- A cold reset leaves the part without a node ID (R15). -/
theorem coldReset_node (s : State) : s.coldReset.fld f_TOUR_NODE_NODE 0 = 0x3FFF := by
  have hr : s.coldReset.reg .TOUR_NODE 0 = setBits (resetOf .TOUR_NODE) 13 0 0x3FFF := by
    rw [coldReset_eq, reg_setFld_ne _ f_PROMPTER_STAT_ADDR .TOUR_NODE 0 0 _ (by decide)]
    change ((s.coldBase.setReg .TOUR_NODE 0 (setBits (s.coldBase.reg .TOUR_NODE 0) 13 0 0x3FFF)).reg .TOUR_NODE 0) = _
    rw [reg_setReg, coldBase_reg]
    rfl
  simp only [State.fld, show f_TOUR_NODE_NODE.reg = .TOUR_NODE from rfl, hr]
  decide

/-- STATUS is one of those in which a warm or cluster reset is taken (R499): Run, Dark and the two Curtain codes. -/
def State.takesResets (s : State) : Prop := s.status = 4 ∨ s.status = 5 ∨ s.status = 8 ∨ s.status = 9

theorem wantWarm_taken (s : State) (who : Nat) (h : s.takesResets) (hw : s.load.warm = none) :
    s.wantWarm who = { s with load := { s.load with warm := some who } } :=
  if_pos (by simpa [hw, or_assoc, State.takesResets] using h)

theorem wantWarm_ignored (s : State) (who : Nat) (h : ¬ s.takesResets ∨ s.load.warm ≠ none) : s.wantWarm who = s :=
  if_neg (by
    rw [State.takesResets] at h
    simp only [Bool.and_eq_true, Bool.or_eq_true, beq_iff_eq, Option.isNone_iff_eq_none, or_assoc]
    exact fun ⟨ho, hw⟩ => h.elim (fun h => h ho) (fun h => h hw))

theorem wantCluster_taken (s : State) (cl who : Nat) (h : s.takesResets) (he : cl ∈ s.enabledClusters) (hn : ∀ x ∈ s.load.creset, x.1 ≠ cl) :
    s.wantCluster cl who = { s with load := { s.load with creset := s.load.creset ++ [(cl, who)] } } :=
  if_pos (by
    rw [State.takesResets] at h
    simpa [he, or_assoc] using ⟨h, fun a b hab e => hn (a, b) hab e⟩)

theorem wantCluster_ignored (s : State) (cl who : Nat) (h : ¬ s.takesResets ∨ cl ∉ s.enabledClusters ∨ ∃ x ∈ s.load.creset, x.1 = cl) :
    s.wantCluster cl who = s :=
  if_neg (by
    rw [State.takesResets] at h
    simp only [Bool.and_eq_true, Bool.or_eq_true, beq_iff_eq, List.contains_iff_mem, Bool.not_eq_true', List.any_eq_false, or_assoc]
    rintro ⟨⟨ho, he⟩, hn⟩
    rcases h with h | h | ⟨x, hx, e⟩
    · exact h ho
    · exact h he
    · exact hn x hx (by simp [e]))

/-! ### What each reset leaves -/

/-- POR_N asserted on a part that is powered and released, or on one that is Off. -/
theorem porNAssert_resets (s : State) (h : s.clk.por = false ∨ s.clk.aon = false) :
    execPorNAssert s = .next ((s.logBb 6 0 0).coldReset.modClk (fun k => { k with aon := true, por := true })) :=
  congrArg Host.Outcome.next (if_neg (by rcases h with h | h <;> simp [h]))

theorem warmReset_unasked (s : State) (h : s.load.warm = none) : execWarmReset s = .next s := by simp only [execWarmReset, h]

theorem warmReset_asked (s : State) (who : Nat) (h : s.load.warm = some who) : execWarmReset s = .next (s.warmReset who) := by
  simp only [execWarmReset, h]

theorem clusterReset_unasked (s : State) (cl : Fin 32) (h : ∀ x ∈ s.load.creset, x.1 ≠ cl.val) : execClusterReset cl s = .next s := by
  have hf : s.load.creset.find? (fun x => x.1 == cl.val) = none := by simpa using h
  simp only [execClusterReset, hf]

theorem clusterReset_asked (s : State) (cl : Fin 32) (who : Nat) (h : s.load.creset = [(cl.val, who)]) :
    execClusterReset cl s = .next (({ s with load := { s.load with creset := [] } } : State).clusterReset cl who) := by
  have hf : s.load.creset.find? (fun x => x.1 == cl.val) = some (cl.val, who) := by simp [h]
  have he : s.load.creset.filter (fun x => x.1 != cl.val) = [] := by simp [h]
  simp only [execClusterReset, hf, he]

/-- What the whole warm reset leaves (R500). -/
theorem warmReset_result (s : State) (who : Nat) (hrec : s.mode mRECORD = false) (hrep : s.mode mREPLAY = false) (hsecs : s.load.secs = [])
    (hlen : s.cores.length = 256) :
    ∃ u t, s.warmReset who = t ∧ WarmReady s u ∧ Carries u t ∧ (t.status = 4 ∨ t.status = 8 ∧ (t.core 0).run = .curtain) ∧
      (t.core 0).run ≠ .held ∧ (t.core 0).mem = (u.core 0).mem ∧ (t.core 0).scene = (u.core 0).scene ∧ (∀ x, x ≠ 0 → t.core x = u.core x) ∧ t.col = {} := by
  have hu := warmReady s who hrep hsecs
  rw [warmReset_eq]
  generalize (s.warmQuiet.warmClusters.warmApply.warmDone who) = u at hu
  have hmode : u.mode mRECORD = false := by
    simp only [State.mode, hu.pins .DEV_MODE (by decide) (by decide) 0]
    exact hrec
  have hheld (x : Nat) (hx : x ≠ 0) (hn : x < u.nCores) : (u.core x).run = .held := by
    have hn' : x < s.nCores := by simpa only [State.nCores, hu.part] using hn
    have h256 : s.nCores ≤ 256 := by unfold State.nCores; split <;> omega
    obtain ⟨_, j, hj⟩ := hu.isWarm x hn' (by omega)
    rw [hj]
    rfl
  obtain ⟨t, ht, h⟩ := warmEntry_alone u (by rw [hu.cores]; omega) hu.status hu.col hheld
  exact ⟨u, t, by rw [State.warmGo, if_neg (by simp [hmode]), ht], hu, h⟩

/-- What a cold reset by POR_N keeps and changes (R10, R479, R540). -/
theorem porNAssert_leaves (s : State) (h : s.clk.por = false ∨ s.clk.aon = false) :
    ∃ t, exec .porNAssert s = .next t ∧ t.status = 0 ∧ t.clk.por = true ∧ t.clk.aon = true ∧ t.cores = State.reset.cores ∧
      t.clusters = State.reset.clusters ∧ t.fld f_TOUR_NODE_NODE 0 = 0x3FFF ∧ t.load.flash = s.load.flash ∧ t.pm.rst = 9 ∧
      (∀ r ∈ [Reg.DEV_ID, .DEV_CLEN, .DEV_PORTEN, .KSU_STATE, .LOADIN_NEXT, .LOADIN_COLD, .LOADIN_WARM, .PROMPTER_CMDS, .PROMPTER_PECERR],
        t.reg r 0 = s.reg r 0) ∧
      t.reg .DEV_MODE 0 = 0 ∧ (t.bb.events.head?.map (fun e => e.code)) = some 6 ∧ t.bb.count = s.bb.count + 1 := by
  refine ⟨_, porNAssert_resets s h, rfl, rfl, rfl, rfl, rfl, coldReset_node _, rfl, rfl, fun r hr => ?_, ?_, rfl, rfl⟩
  · have hk : ∀ r ∈ [Reg.DEV_ID, .DEV_CLEN, .DEV_PORTEN, .KSU_STATE, .LOADIN_NEXT, .LOADIN_COLD, .LOADIN_WARM, .PROMPTER_CMDS, .PROMPTER_PECERR],
        coldKeeps r = true ∧ r ≠ .TOUR_NODE ∧ r ≠ .PROMPTER_STAT := by decide
    obtain ⟨hk, hn, hp⟩ := hk r hr
    exact (coldReset_reg (s.logBb 6 0 0) r 0 hn hp).trans (if_pos hk)
  · exact (coldReset_reg (s.logBb 6 0 0) .DEV_MODE 0 (by decide) (by decide)).trans ((if_neg (by decide)).trans (by decide))

/-- What the loss of VDD_AON keeps and changes (R431). -/
theorem vddAonLoss_leaves (s : State) :
    ∃ t, exec .vddAonLoss s = .next t ∧ t.status = 0 ∧ t.clk.aon = false ∧ t.bb = {} ∧ t.cores = State.reset.cores ∧
      t.load.flash = s.load.flash ∧ t.ksu = s.ksu ∧ (∀ r ∈ [Reg.DEV_ID, .DEV_CLEN, .DEV_PORTEN, .KSU_STATE], t.reg r 0 = s.reg r 0) ∧
      t.reg .LOADIN_NEXT 0 = 0 ∧ t.reg .LOADIN_COLD 0 = 0 := by
  refine ⟨_, rfl, rfl, rfl, rfl, rfl, rfl, rfl, fun r hr => ?_, ?_, ?_⟩
  · have hk : ∀ r ∈ [Reg.DEV_ID, .DEV_CLEN, .DEV_PORTEN, .KSU_STATE], fuseReg r = true := by decide
    exact (reg_filter_regs (s := s) (keeps := fuseReg) rfl r 0).trans (if_pos (hk r hr))
  · exact (reg_filter_regs (s := s) (keeps := fuseReg) rfl .LOADIN_NEXT 0).trans ((if_neg (by decide)).trans (by decide))
  · exact (reg_filter_regs (s := s) (keeps := fuseReg) rfl .LOADIN_COLD 0).trans ((if_neg (by decide)).trans (by decide))

/-- What a requested warm reset keeps and changes, the conditions on its state given (R11, R500). -/
theorem warmReset_leaves (s : State) (who : Nat) (hw : s.load.warm = some who) (hrec : s.mode mRECORD = false) (hrep : s.mode mREPLAY = false)
    (hsecs : s.load.secs = []) (hlen : s.cores.length = 256) :
    ∃ t, exec .warmReset s = .next t ∧ (t.status = 4 ∨ (t.status = 8 ∧ (t.core 0).run = .curtain)) ∧ t.load.warm = none ∧ t.load.creset = [] ∧
      t.reg .LOADIN_WARM 0 = s.reg .LOADIN_WARM 0 + 1 ∧ t.reg .DEV_MODE 0 = s.reg .DEV_MODE 0 ∧ t.fld f_HOST_LINK_UP 0 = s.fld f_HOST_LINK_UP 0 ∧
      t.col = State.reset.col ∧ t.mcs.vendor = s.mcs.vendor ∧ (∀ q, q < 64 → t.flag f_HOST_SQCFG_EN q = false ∧ t.flag f_HOST_CQCFG_EN q = false) ∧
      (∀ c, c ≠ 0 → c < 256 → c < s.nCores → (t.core c).run = .held ∧ (t.core c).stk.regs = []) ∧ (t.core 0).run ≠ .held ∧
      (∀ c, c < s.nCores → c < 256 → (t.core c).back.vbr = (s.core c).back.vbr ∧ (t.core c).mem.dframes = [] ∧ (t.core c).scene = {}) := by
  obtain ⟨u, t, ht, hu, hc, hst, hrun, hmem, hsc, hoth, hcol⟩ := warmReset_result s who hrec hrep hsecs hlen
  have hpin (r : Reg) (hm : r ∈ warmPins) (hne : r ≠ .LOADIN_WARM) (i : Nat) : t.reg r i = if warmKeeps r then s.reg r i else resetOf r :=
    (hc.pins r hm i).trans (hu.pins r hm hne i)
  have hmode : t.reg .DEV_MODE 0 = s.reg .DEV_MODE 0 := (hpin .DEV_MODE (by decide) (by decide) 0).trans (if_pos (by decide))
  have hlink : t.reg .HOST_LINK 0 = s.reg .HOST_LINK 0 := (hpin .HOST_LINK (by decide) (by decide) 0).trans (if_pos (by decide))
  have hsq (q : Nat) : t.reg .HOST_SQCFG q = resetOf .HOST_SQCFG := (hpin .HOST_SQCFG (by decide) (by decide) q).trans (if_neg (by decide))
  have hcq (q : Nat) : t.reg .HOST_CQCFG q = resetOf .HOST_CQCFG := (hpin .HOST_CQCFG (by decide) (by decide) q).trans (if_neg (by decide))
  have hwarm (c : Nat) (hn : c < s.nCores) (hl : c < 256) : (u.core c).IsWarm (s.core c).back.vbr := hu.isWarm c hn (by omega)
  refine ⟨t, (warmReset_asked s who hw).trans (by rw [ht]), hst, by rw [hc.load, hu.warm], by rw [hc.load, hu.creset], (hc.pins .LOADIN_WARM (by decide) 0).trans hu.count, hmode, ?_, hcol,
    hc.vendor.trans hu.vendor, fun q _ => ⟨?_, ?_⟩, fun c h0 hl hn => ?_, hrun, fun c hn hl => ?_⟩
  · exact congrArg (fun w => bits w 11 11) hlink
  · exact (congrArg (fun w => bits w 63 63 == 1) (hsq q)).trans (by decide)
  · exact (congrArg (fun w => bits w 63 63 == 1) (hcq q)).trans (by decide)
  · obtain ⟨_, j, hj⟩ := hwarm c hn hl
    rw [hoth c h0, hj]
    exact ⟨rfl, rfl⟩
  · obtain ⟨hv, j, hj⟩ := hwarm c hn hl
    refine ⟨(hc.vbr c).trans hv, ?_⟩
    by_cases h0 : c = 0
    · subst h0
      rw [hmem, hsc, hj]
      exact ⟨rfl, rfl⟩
    · rw [hoth c h0, hj]
      exact ⟨rfl, rfl⟩

/-- What a requested cluster reset keeps and changes, the conditions on its state given (R501). -/
theorem clusterReset_leaves (s : State) (cl : Fin 32) (who : Nat) (hcr : s.load.creset = [(cl.val, who)]) (hlen : s.cores.length = 256)
    (hsecs : s.load.secs = []) (hsc : ∀ c, (s.core c).psw.sc = false) (hwait : ∀ c l, (s.core c).wait ≠ some (.line l))
    (hlines : s.clusterLines cl = []) :
    ∃ t, exec (.clusterReset cl) s = .next t ∧ t.status = s.status ∧ t.load.creset = [] ∧ t.mem = s.mem ∧
      (t.bb.events.head?.map (fun e => (e.code, e.unit, e.detail))) = some (6, 2, who % 2 ^ 40) ∧
      ∀ c, c < 256 → if clusterOf c = cl.val then (t.core c).run = .held ∧ (t.core c).back.vbr = (s.core c).back.vbr else t.core c = s.core c := by
  obtain ⟨t, ht, hst, hl, hm, hbb, hoth, hown⟩ :=
    clusterReset_quiet ({ s with load := { s.load with creset := [] } } : State) cl who hsecs hsc hwait hlines
  refine ⟨t, (clusterReset_asked s cl who hcr).trans (by rw [ht]), hst, by rw [hl], hm, hbb, fun c hc => ?_⟩
  split
  next h =>
    obtain ⟨hv, j, hj⟩ := hown c h (by change c < s.cores.length; omega)
    exact ⟨by rw [hj]; rfl, hv⟩
  next h => exact hoth c h

/-- Settles O57: a warm reset is followed through its parts by what each of them carries over, and a cluster reset by what its steps do to
the cores. -/
theorem resets : Obligations.Resets := by
  unfold Obligations.Resets
  intro s cl who open'
  refine ⟨fun hp ha => ?_, porNAssert_leaves s, vddAonLoss_leaves s, fun ho hw => ?_, fun h => ?_, fun ho he hn => ?_, fun h => ?_, warmReset_unasked s,
    fun hw hrec hrep hsecs hlen _ => warmReset_leaves s who hw hrec hrep hsecs hlen, fun hn => clusterReset_unasked s cl hn,
    fun hcr hlen _ hsecs hsc hwait hlines => clusterReset_leaves s cl who hcr hlen hsecs hsc hwait hlines⟩
  · exact congrArg Host.Outcome.next (if_pos (by simp [hp, ha]))
  · exact ⟨congrArg Host.Outcome.next (wantWarm_taken s 3 ho hw), congrArg Host.Outcome.next (wantWarm_taken s 0 ho hw)⟩
  · exact ⟨congrArg Host.Outcome.next (wantWarm_ignored s 3 h), congrArg Host.Outcome.next (wantWarm_ignored s 0 h)⟩
  · exact congrArg Host.Outcome.next (wantCluster_taken s cl 3 ho he hn)
  · exact congrArg Host.Outcome.next (wantCluster_ignored s cl 3 h)

end Sys2Proof.Machine
end

section
/-! PROOFS. Every step keeps canonical memory (O59): what a command keeps of the queue and of memory, and programs that keep it. -/

namespace Sys2Proof.Machine
open Sys2Proof

/-! ### What a command keeps -/

/-- From `s₀` to `s` the queue is unchanged, and memory that is canonical in `s₀` is canonical in `s`. -/
structure Keeps (s₀ s : State) : Prop where
  pending : s.pending = s₀.pending
  wf : Memory.wf s₀ = true → Memory.wf s = true

/-- A property of the value of an option, where there is one. -/
def OptAll {α : Type} (P : α → Prop) : Option α → Prop
  | none => True
  | some x => P x

/-- A property of either side of a sum. -/
def SumAll {α β : Type} (P : α → Prop) (Q : β → Prop) : α ⊕ β → Prop
  | .inl x => P x
  | .inr y => Q y

/-- The next state of an answer, where there is one, keeps what `s₀` has. -/
def AnsKeeps (s₀ : State) : Ans → Prop
  | .next s => Keeps s₀ s
  | _ => True

/-- The state of a verdict that lets an access proceed keeps what `s₀` has. -/
def VerdictKeeps (s₀ : State) : Verdict → Prop
  | .go s => Keeps s₀ s
  | _ => True

/-- The state that a run of a program leaves, whether it ends or stops. -/
def endState {ε α : Type} : EStateM.Result ε State α → State
  | .ok _ s => s
  | .error _ s => s

/-- Run from any state in any context, a program leaves a state that keeps what the one it began in has kept. -/
def Keeping {ρ ε α : Type} (m : ReaderT ρ (EStateM ε State) α) : Prop :=
  ∀ ⦃s₀ s : State⦄ ⦃c : ρ⦄, Keeps s₀ s → Keeps s₀ (endState (m c s))

/-- Run in context `c` from `s`, a program leaves a state that keeps what `s₀` has. -/
def KeepsAt {ρ ε α : Type} (s₀ : State) (c : ρ) (s : State) (m : ReaderT ρ (EStateM ε State) α) : Prop :=
  Keeps s₀ (endState (m c s))

section
variable {s₀ s t : State} {α β ρ ε : Type}

theorem Keeps.refl (s : State) : Keeps s s := ⟨rfl, id⟩

/-- Fields other than the queue, memory and its cleared ranges may change. -/
theorem Keeps.upd (h : Keeps s₀ s) {free time part home held asked parked regs cores clusters dir col reh tour host mcs modes test recal
    clk load ksu pm drbg debugScope wire status bb} :
    Keeps s₀ ⟨s.pending, free, time, part, s.mem, s.emptied, home, held, asked, parked, regs, cores, clusters, dir, col, reh, tour,
      host, mcs, modes, test, recal, clk, load, ksu, pm, drbg, debugScope, wire, status, bb⟩ := ⟨h.pending, h.wf⟩

theorem Keeps.ite {p : Prop} [Decidable p] (hs : Keeps s₀ s) (ht : Keeps s₀ t) : Keeps s₀ (if p then s else t) := by
  split
  · exact hs
  · exact ht

theorem Keeps.foldl {l : List β} {f : State → β → State} (h : Keeps s₀ s)
    (hf : ∀ ⦃s x⦄, Keeps s₀ s → Keeps s₀ (f s x)) : Keeps s₀ (l.foldl f s) := by
  induction l generalizing s with
  | nil => exact h
  | cons x l ih => exact ih (hf h)

theorem Keeps.fst {p : State × α} {x : α} (h : Keeps s₀ p.1) (e : p = (s, x)) : Keeps s₀ s := by
  subst e
  exact h

theorem Keeps.snd {p : α × State} {x : α} (h : Keeps s₀ p.2) (e : p = (x, s)) : Keeps s₀ s := by
  subst e
  exact h

theorem OptAll.some {P : α → Prop} {o : Option α} {x : α} (h : OptAll P o) (e : o = .some x) : P x := by
  subst e
  exact h

theorem OptAll.map {P : α → Prop} {Q : β → Prop} {o : Option α} {f : α → β} (h : OptAll P o) (hf : ∀ x, P x → Q (f x)) :
    OptAll Q (o.map f) := by
  cases o with
  | none => trivial
  | some x => exact hf x h

theorem OptAll.getD {P : α → Prop} {o : Option α} {d : α} (h : OptAll P o) (hd : P d) : P (o.getD d) := by
  cases o with
  | none => exact hd
  | some x => exact h

theorem SumAll.inl {P : α → Prop} {Q : β → Prop} {o : α ⊕ β} {x : α} (h : SumAll P Q o) (e : o = .inl x) : P x := by
  subst e
  exact h

theorem SumAll.inr {P : α → Prop} {Q : β → Prop} {o : α ⊕ β} {y : β} (h : SumAll P Q o) (e : o = .inr y) : Q y := by
  subst e
  exact h

theorem OptAll.bind {P : α → Prop} {Q : β → Prop} {o : Option α} {f : α → Option β} (h : OptAll P o)
    (hf : ∀ x, P x → OptAll Q (f x)) : OptAll Q (o.bind f) := by
  cases o with
  | none => trivial
  | some x => exact hf x h

theorem OptAll.of_ite {P : α → Prop} {p : Prop} [Decidable p] {o q : Option α} (ho : OptAll P o) (hq : OptAll P q) :
    OptAll P (if p then o else q) := by
  split
  · exact ho
  · exact hq

theorem foldl_all {P : α → Prop} {f : α → β → α} {a : α} {l : List β} (h : P a) (hf : ∀ a x, P a → P (f a x)) :
    P (l.foldl f a) := by
  induction l generalizing a with
  | nil => exact h
  | cons x l ih => exact ih (hf a x h)

theorem VerdictKeeps.go {v : Verdict} (h : VerdictKeeps s₀ v) (e : v = .go s) : Keeps s₀ s := by
  subst e
  exact h

theorem Keeps.ok {r : EStateM.Result ε State α} {x : α} (h : Keeps s₀ (endState r)) (e : r = .ok x s) : Keeps s₀ s := by
  subst e
  exact h

theorem Keeps.error {r : EStateM.Result ε State α} {x : ε} (h : Keeps s₀ (endState r)) (e : r = .error x s) : Keeps s₀ s := by
  subst e
  exact h

/-! ### Programs -/

theorem Keeping.read : Keeping (MonadReader.read : ReaderT ρ (EStateM ε State) ρ) := fun _ _ _ h => h

theorem Keeping.pure {x : α} : Keeping (Pure.pure x : ReaderT ρ (EStateM ε State) α) := fun _ _ _ h => h

theorem Keeping.throw {e : ε} : Keeping (MonadExcept.throw e : ReaderT ρ (EStateM ε State) α) := fun _ _ _ h => h

theorem Keeping.bind {x : ReaderT ρ (EStateM ε State) α} {f : α → ReaderT ρ (EStateM ε State) β} (hx : Keeping x)
    (hf : ∀ v, Keeping (f v)) : Keeping (x >>= f) := by
  intro s₀ s c h
  have hs := hx (c := c) h
  change Keeps s₀ (endState (EStateM.bind (x c) (fun v => f v c) s))
  unfold EStateM.bind
  cases e : x c s with
  | ok v u =>
    rw [e] at hs
    exact hf v hs
  | error v u =>
    rw [e] at hs
    exact hs

theorem Keeping.ite {p : Prop} [Decidable p] {x y : ReaderT ρ (EStateM ε State) α} (hx : Keeping x) (hy : Keeping y) :
    Keeping (if p then x else y) := by
  split
  · exact hx
  · exact hy

theorem Keeping.at {c : ρ} {m : ReaderT ρ (EStateM ε State) α} (hm : Keeping m) (h : Keeps s₀ s) : KeepsAt s₀ c s m := hm h

/-- A program that goes on with the state as it finds it. -/
theorem Keeping.get {f : State → ReaderT ρ (EStateM ε State) α} (hf : ∀ ⦃s₀ s c⦄, Keeps s₀ s → KeepsAt s₀ c s (f s)) :
    Keeping (MonadState.get >>= f) := fun _ _ _ h => hf h

/-- The state is replaced, and the program goes on. -/
theorem KeepsAt.set {c : ρ} {f : PUnit → ReaderT ρ (EStateM ε State) α} (h : Keeps s₀ t) (hf : Keeping (f ⟨⟩)) :
    KeepsAt s₀ c s (MonadStateOf.set t >>= f) := hf h

theorem Keeping.change {f : State → State} (hf : ∀ ⦃s₀ s⦄, Keeps s₀ s → Keeps s₀ (f s)) :
    Keeping (modify f : ReaderT ρ (EStateM ε State) PUnit) := fun _ _ _ h => hf h

theorem Keeping.me : Keeping me := fun _ _ _ h => h
theorem Keeping.raise {t : Trap} : Keeping (raise t : M α) := fun _ _ _ h => h
theorem Keeping.raiseSome {t : Option Trap} : Keeping (raiseSome t) := by
  cases t with
  | none => exact .pure
  | some t => exact .raise
theorem Keeping.getCore : Keeping getCore := fun _ _ _ h => h
theorem Keeping.modMe {f : Core → Core} : Keeping (modMe f) := fun _ _ _ h => h.upd
theorem Keeping.updS {f : State → Nat → State} (hf : ∀ ⦃s₀ s c⦄, Keeps s₀ s → Keeps s₀ (f s c)) : Keeping (updS f) :=
  fun _ _ _ h => hf h
theorem Keeping.askS {f : State → Nat → α} : Keeping (askS f) := fun _ _ _ h => h
theorem Keeping.eAsk {f : State → α} : Keeping (eAsk f) := fun _ _ _ h => h

/-- A program that goes on with an answer about the state as it finds it. -/
theorem Keeping.asked {f : State → Nat → α} {g : α → M β}
    (hg : ∀ ⦃s₀ s c⦄, Keeps s₀ s → KeepsAt s₀ c s (g (f s c))) : Keeping (Machine.askS f >>= g) := fun _ _ _ h => hg h

end
end Sys2Proof.Machine
end

section
/-! PROOFS. Every step keeps canonical memory (O59): the operations of the state, recording, the caches and the table walk. -/

namespace Sys2Proof.Machine

open Sys2Proof

variable {s₀ s t : State} {α β ρ ε : Type}

/-! ### Machine/Access -/

theorem Keeps.modCore {c f} (h : Keeps s₀ s) : Keeps s₀ (s.modCore c f) := h.upd

theorem Keeps.modCluster {cl f} (h : Keeps s₀ s) : Keeps s₀ (s.modCluster cl f) := h.upd

theorem Keeps.setReg {r i v} (h : Keeps s₀ s) : Keeps s₀ (s.setReg r i v) := h.upd

theorem Keeps.clearReg {r i} (h : Keeps s₀ s) : Keeps s₀ (s.clearReg r i) := h.upd

theorem Keeps.setFld {f i v} (h : Keeps s₀ s) : Keeps s₀ (s.setFld f i v) := h.setReg

theorem Keeps.bump {r i n} (h : Keeps s₀ s) : Keeps s₀ (s.bump r i n) := h.setReg

theorem Keeps.fresh (h : Keeps s₀ s) : Keeps s₀ s.fresh.2 := h.upd

theorem Keeps.drawDrbg (h : Keeps s₀ s) : Keeps s₀ s.drawDrbg.2 := h.upd

theorem Keeps.wr {pa w} (h : Keeps s₀ s) : Keeps s₀ (s.wr pa w) := ⟨h.pending, fun h0 => wr_wf s pa w (h.wf h0)⟩

theorem Keeps.clearEmpty {pa len} (h : Keeps s₀ s) : Keeps s₀ (s.clearEmpty pa len) :=
  ⟨h.pending, fun h0 => clearEmpty_wf s pa len (h.wf h0)⟩

/-! ### Machine/Record -/

theorem Keeps.putTrace {instr q0 q1} (h : Keeps s₀ s) : Keeps s₀ (s.putTrace instr q0 q1) :=
  .ite h.wr.wr.setFld (.ite h.bump.upd (.ite h.setReg.setReg.setFld h.setReg.setReg.setFld))

theorem Keeps.traceI {c kind a info} (h : Keeps s₀ s) : Keeps s₀ (s.traceI c kind a info) := .ite h.putTrace h

theorem Keeps.traceE {kind agent a info} (h : Keeps s₀ s) : Keeps s₀ (s.traceE kind agent a info) :=
  .ite (.ite h.putTrace.setFld h.putTrace) h

theorem Keeps.traceSync {c} (h : Keeps s₀ s) : Keeps s₀ (s.traceSync c) := .ite (.ite h.traceI h) h.modCore

theorem Keeps.raiseVec {c vec w} (h : Keeps s₀ s) : Keeps s₀ (s.raiseVec c vec w) := .ite h.bump h.modCore

theorem Keeps.cueEvent {src} (h : Keeps s₀ s) : Keeps s₀ (s.cueEvent src) := .ite h.upd (.ite h.traceE.raiseVec h)

theorem Keeps.fireTimer {c t'} (h : Keeps s₀ s) : Keeps s₀ (s.fireTimer c t') := .ite (.ite h.modCore h.modCore.raiseVec) h

theorem Keeps.fireTimers {c} (h : Keeps s₀ s) : Keeps s₀ (s.fireTimers c) := h.fireTimer.fireTimer

theorem Keeps.raiseNmi {c} (h : Keeps s₀ s) : Keeps s₀ (s.raiseNmi c) := .ite h.modCore h.bump

theorem Keeps.cueIpi {back v} (h : Keeps s₀ s) : Keeps s₀ (s.cueIpi back v) := .ite h.setFld h.raiseVec

theorem Keeps.cueNmi {v} (h : Keeps s₀ s) : Keeps s₀ (s.cueNmi v) := h.raiseNmi

theorem Keeps.cueSrcWrite {back i old v} (h : Keeps s₀ s) : Keeps s₀ (s.cueSrcWrite back i old v) :=
  .ite h.setReg (.ite h.setReg.setFld h.setReg)

theorem Keeps.cueLctlWrite {back c old v} (h : Keeps s₀ s) : Keeps s₀ (s.cueLctlWrite back c old v) := h.setReg.fireTimers

theorem Keeps.clearPend {c i back v} (h : Keeps s₀ s) : Keeps s₀ (s.clearPend c i back v) := h.modCore

theorem Keeps.raiseMc {c sub} (h : Keeps s₀ s) : Keeps s₀ (s.raiseMc c sub) := h.modCore

theorem Keeps.backstageMc {sub} (h : Keeps s₀ s) : Keeps s₀ (s.backstageMc sub) := by
  unfold State.backstageMc
  split
  · exact h.raiseMc
  · split
    · exact h.raiseMc
    · exact h

theorem Keeps.logBb {code unit detail} (h : Keeps s₀ s) : Keeps s₀ (s.logBb code unit detail) := h.upd

theorem Keeps.modChunk {a f} (h : Keeps s₀ s) : Keeps s₀ (s.modChunk a f) := .ite h.modCore h.modCluster

theorem Keeps.note {a r} (h : Keeps s₀ s) : Keeps s₀ (s.note a r) := .ite h.modChunk h

theorem Keeps.ringWords {i l} (h : Keeps s₀ s) : Keeps s₀ (s.ringWords i l) := by
  induction l generalizing s i with
  | nil => exact h
  | cons w l ih => exact ih h.wr

theorem Keeps.putRecord {r} (h : Keeps s₀ s) : Keeps s₀ (s.putRecord r) := h.ringWords.setFld.upd.bump

theorem Keeps.dropChunks (h : Keeps s₀ s) : Keeps s₀ s.dropChunks := h.upd

theorem Keeps.ringDrop (h : Keeps s₀ s) : Keeps s₀ s.ringDrop := h.putRecord.setFld.setFld.bump.dropChunks.cueEvent

theorem Keeps.endChunk {a cause after} (h : Keeps s₀ s) : Keeps s₀ (s.endChunk a cause after) := .ite h h.modChunk.upd

theorem Keeps.replayStop {code cause agent seq} (h : Keeps s₀ s) : Keeps s₀ (s.replayStop code cause agent seq) := by
  unfold State.replayStop
  extract_lets s1
  have h1 : Keeps s₀ s1 := by
    unfold s1
    split
    · exact h.modChunk
    · exact h
  exact h1.setFld.setFld.setFld.setFld.traceE.cueEvent

theorem Keeps.verifyRec {r} (h : Keeps s₀ s) : Keeps s₀ (s.verifyRec r) := by
  unfold State.verifyRec
  extract_lets
  split
  · exact h
  · split
    · exact .ite h h.replayStop
    · exact h.replayStop

theorem Keeps.commitChunk (h : Keeps s₀ s) : Keeps s₀ s.commitChunk := by
  unfold State.commitChunk
  split
  · exact h
  · split
    next e =>
      have h1 := h.fresh.snd e
      extract_lets _ _ s4 s5 s6 s7
      have h4 : Keeps s₀ s4 := .ite h h1
      have h5 : Keeps s₀ s5 := h4.foldl fun _ _ h => h.putRecord.verifyRec
      have h6 : Keeps s₀ s6 := .ite h5 h5.setFld
      have h7 : Keeps s₀ s7 := .ite h6.bump h6
      exact .ite h7.upd (.ite h.ringDrop h)

theorem Keeps.commitAll {fuel} (h : Keeps s₀ s) : Keeps s₀ (s.commitAll fuel) := by
  induction fuel generalizing s with
  | zero => exact h
  | succ fuel ih =>
    rw [State.commitAll]
    split
    · exact h
    · exact ih h.commitChunk

theorem Keeps.replayEvent {a halts} (h : Keeps s₀ s) : Keeps s₀ (s.replayEvent a halts) := .ite h.modChunk.replayStop h.modChunk

theorem Keeps.chunkEvent {a halts} (h : Keeps s₀ s) : Keeps s₀ (s.chunkEvent a halts) := by
  unfold State.chunkEvent
  extract_lets s1
  have h1 : Keeps s₀ s1 := .ite h.replayEvent h
  exact .ite h1 h1.modChunk

theorem Keeps.truncate {a line write} (h : Keeps s₀ s) : Keeps s₀ (s.truncate a line write) :=
  .ite h (h.foldl fun _ _ h => h.endChunk.bump)

theorem Keeps.noteChunk {a line write} (h : Keeps s₀ s) : Keeps s₀ (s.noteChunk a line write) := by
  unfold State.noteChunk
  split
  · exact h
  · extract_lets _ _ _ s4
    have h4 : Keeps s₀ s4 := .ite h.truncate.endChunk h.truncate
    exact h4.modChunk

theorem Keeps.chunkGive {cl line} (h : Keeps s₀ s) : Keeps s₀ (s.chunkGive cl line) := .ite h (h.foldl fun _ _ h => .ite h.endChunk h)

theorem Keeps.external {f} (h : Keeps s₀ s) : OptAll (Keeps s₀) (s.external f) := by
  unfold State.external
  split
  · exact h
  · extract_lets
    split
    · exact h.commitAll
    · split
      · exact h.commitAll.putRecord.setFld
      · split
        · exact h.commitAll.ringDrop
        · exact trivial

theorem Keeps.noteScene {c stat} (h : Keeps s₀ s) : Keeps s₀ (s.noteScene c stat) := h.note.traceI

/-! ### Machine/Tour -/

theorem Keeps.wakeEvent {cause} (h : Keeps s₀ s) : Keeps s₀ (s.wakeEvent cause) := .ite (.ite h.upd h) (.ite h.upd.setFld.setFld h)

theorem Keeps.modPort {p f} (h : Keeps s₀ s) : Keeps s₀ (s.modPort p f) := h.upd

theorem Keeps.putFlits {p m} (h : Keeps s₀ s) : Keeps s₀ (s.putFlits p m) := h.foldl fun _ _ h => h.modPort.upd

theorem Keeps.pumpPort {p} (h : Keeps s₀ s) : Keeps s₀ (s.pumpPort p) := by
  unfold State.pumpPort
  extract_lets go
  have hgo : ∀ a m, Keeps s₀ a.1 → Keeps s₀ (go a m).1 := by
    rintro ⟨u, kept, shut⟩ m hu
    unfold go
    dsimp only
    split
    · exact hu
    · exact hu.putFlits
  exact (foldl_all (P := fun a : State × List Msg × List Nat => Keeps s₀ a.1) h hgo).modPort

theorem Keeps.portSend {p m} (h : Keeps s₀ s) : Keeps s₀ (s.portSend p m) := .ite h.modPort.pumpPort.bump h.modPort.pumpPort

theorem Keeps.toSelf {m} (h : Keeps s₀ s) : Keeps s₀ (s.toSelf m) := h.upd

theorem Keeps.forward {inp m} (h : Keeps s₀ s) : Keeps s₀ (s.forward inp m) := by
  unfold State.forward
  extract_lets _ f2
  have hf2 : ∀ {x}, Keeps s₀ x → Keeps s₀ (f2 x) := by
    intro x h
    unfold f2
    split
    · extract_lets
      split
      · exact h.toSelf
      · split
        · exact h.portSend
        · exact h.bump
    · exact .ite h h.bump
  split
  · exact hf2 h
  · split
    · exact h.portSend
    · exact hf2 h

theorem Keeps.sendMsg {m} (h : Keeps s₀ s) : Keeps s₀ (s.sendMsg m) := .ite h.bump (.ite h.toSelf h.forward)

theorem Keeps.putPeer {p} (h : Keeps s₀ s) : Keeps s₀ (s.putPeer p) := h.upd

theorem Keeps.peerFor {node} (h : Keeps s₀ s) : OptAll (fun p => Keeps s₀ p.2) (s.peerFor node) := by
  unfold State.peerFor
  split
  · exact h
  · split
    · exact h
    · split
      · exact h.upd
      · exact trivial

theorem Keeps.sendReliable {m core} (h : Keeps s₀ s) : Keeps s₀ (s.sendReliable m core) := by
  unfold State.sendReliable
  split
  · exact h.bump
  · split
    · exact h.toSelf
    · split
      · exact h.upd
      next e => exact (h.peerFor.some e).putPeer.forward

theorem Keeps.retryWaiting (h : Keeps s₀ s) : Keeps s₀ s.retryWaiting := h.upd.foldl fun _ _ h => h.sendReliable

theorem Keeps.logOutcome {id res} (h : Keeps s₀ s) : Keeps s₀ (s.logOutcome id res) := h.upd

theorem Keeps.wakeLines (h : Keeps s₀ s) : Keeps s₀ s.wakeLines := h.upd

theorem Keeps.putSlot {x} (h : Keeps s₀ s) : Keeps s₀ (s.putSlot x) := h.upd

theorem Keeps.freeSlot {x} (h : Keeps s₀ s) : Keeps s₀ (s.freeSlot x) := h.upd.wakeLines

theorem Keeps.slotLoses {x kind} (h : Keeps s₀ s) : Keeps s₀ (s.slotLoses x kind) := h.freeSlot.sendReliable

/-! ### Machine/Cache -/

theorem Keeps.abandon {id nodes} (h : Keeps s₀ s) : Keeps s₀ (s.abandon id nodes) := by
  unfold State.abandon
  split
  · exact h
  · extract_lets s1
    have h1 : Keeps s₀ s1 := h.foldl fun _ _ h => h.sendReliable
    exact h1.logOutcome.wakeLines

theorem Keeps.abortScene {c d forced} (h : Keeps s₀ s) : Keeps s₀ (s.abortScene c d forced) := by
  unfold State.abortScene
  extract_lets
  split
  · extract_lets _ _ _ s10 _ s12
    have h10 : Keeps s₀ s10 := by
      unfold s10
      split
      · exact h.modCore.setReg.setReg
      · exact h.modCore.setReg
    have h12 : Keeps s₀ s12 := .ite h10.bump.bump h10.bump
    exact h12.abandon.upd.noteScene
  · exact h

theorem Keeps.loseTo {d kind h'} (h : Keeps s₀ s) : Keeps s₀ (s.loseTo d kind h') := by
  unfold State.loseTo
  split
  · exact h.abortScene
  · split
    · exact h.slotLoses
    · exact h

theorem Keeps.arbitrate {a line write} (h : Keeps s₀ s) : VerdictKeeps s₀ (s.arbitrate a line write) := by
  unfold State.arbitrate
  extract_lets x
  clear_value x
  split
  · exact trivial
  · split
    · split
      · exact h.foldl fun _ _ h => h.loseTo
    · split
      · split
        · exact trivial
      · split
        · exact h.foldl fun _ _ h => h.loseTo

theorem Keeps.writeHome {cl line} (h : Keeps s₀ s) : Keeps s₀ (s.writeHome cl line) := h.upd.bump

theorem Keeps.dropDirty {line} (h : Keeps s₀ s) : Keeps s₀ (s.dropDirty line) := by
  unfold State.dropDirty
  extract_lets _ s2
  have h2 : Keeps s₀ s2 := h.foldl fun _ _ h => h.wr
  exact h2.upd

theorem Keeps.clSet {cl line m} (h : Keeps s₀ s) : Keeps s₀ (s.clSet cl line m) := h.modCluster.foldl fun _ _ h => h.modCore

theorem Keeps.homeAgain {line} (h : Keeps s₀ s) : Keeps s₀ (s.homeAgain line) := .ite h.dropDirty h

theorem Keeps.clGiveUp {cl line} (h : Keeps s₀ s) : Keeps s₀ (s.clGiveUp cl line) := .ite h.writeHome.clSet h.clSet.homeAgain

theorem Keeps.clDemote {cl line} (h : Keeps s₀ s) : Keeps s₀ (s.clDemote cl line) := by
  unfold State.clDemote
  extract_lets s1
  have h1 : Keeps s₀ s1 := .ite h.writeHome h
  exact h1.clSet

theorem Keeps.foundLost {line} (h : Keeps s₀ s) : Keeps s₀ (s.foundLost line) := by
  unfold State.foundLost
  split
  · extract_lets
    refine Keeps.backstageMc ?_
    refine h.upd.foldl fun _ _ h => ?_
    extract_lets s2
    have h2 : Keeps s₀ s2 := by
      unfold s2
      split
      · exact h.upd
      · exact h
    exact h2.wr
  · exact h

theorem Keeps.countUreq {line} (h : Keeps s₀ s) : Keeps s₀ (s.countUreq line) := by
  unfold State.countUreq
  extract_lets
  split
  · exact h.foundLost.bump
  · exact h.foundLost.bump

theorem Keeps.countUback {line} (h : Keeps s₀ s) : Keeps s₀ (s.countUback line) := by
  unfold State.countUback
  split
  · exact h.bump
  · exact h.bump

theorem Keeps.doomHolders {line detail p} (h : Keeps s₀ s) : Keeps s₀ (s.doomHolders line detail p) :=
  h.foldl fun _ _ h => .ite (.ite h.abortScene (.ite h.abortScene h)) h

theorem Keeps.setDir {e'} (h : Keeps s₀ s) : Keeps s₀ (s.setDir e') := .ite h.upd h.upd

theorem Keeps.askHost {line own} (h : Keeps s₀ s) : Keeps s₀ (s.askHost line own) := .ite h.upd h

theorem Keeps.hostGives {n pa} (h : Keeps s₀ s) : Keeps s₀ (s.hostGives n pa) := by
  induction n generalizing s pa with
  | zero => exact h
  | succ fuel ih =>
    rw [State.hostGives]
    split
    next e => exact ih (h.fresh.snd e).wr

theorem Keeps.obtain {line} (h : Keeps s₀ s) : Keeps s₀ (s.obtain line) := by
  unfold State.obtain
  split
  · extract_lets _ s2
    have h2 : Keeps s₀ s2 := by
      unfold s2
      split
      · exact h.askHost.hostGives
      · exact h.askHost
    exact h2.upd
  · exact h

theorem Keeps.recall {line except} (h : Keeps s₀ s) : Keeps s₀ (s.recall line except) := by
  unfold State.recall
  split
  · exact h
  · extract_lets _ s2
    have h2 : Keeps s₀ s2 := h.foldl fun _ _ h => h.clGiveUp
    exact h2.setDir

theorem Keeps.freeMarks {fuel cl l' detail} (h : Keeps s₀ s) : Keeps s₀ (s.freeMarks fuel cl l' detail) := by
  induction fuel generalizing s cl l' detail with
  | zero => exact h
  | succ fuel ih =>
    rw [State.freeMarks]
    split
    · split
      · exact h
      · exact ih h.abortScene
    · exact h

theorem Keeps.dirRoom {line} (h : Keeps s₀ s) : Keeps s₀ (s.dirRoom line) := by
  unfold State.dirRoom
  extract_lets _ _ _ x
  clear_value x
  split
  · exact h
  · split
    · exact h
    · exact h.upd.doomHolders.recall.countUback

theorem Keeps.usher {cl line own age} (h : Keeps s₀ s) : Keeps s₀ (s.usher cl line own age) := by
  unfold State.usher
  extract_lets
  split
  · exact h.countUreq.dirRoom.setDir
  · split
    · extract_lets _ _ s6 s7
      have h6 : Keeps s₀ s6 := h.countUreq.foldl fun _ _ h => h.clSet
      have h7 : Keeps s₀ s7 := .ite h6 h6.homeAgain
      exact h7.setDir
    · split
      · exact .ite h.countUreq.setDir h.countUreq.clDemote.setDir
      · exact h.countUreq.setDir

theorem Keeps.ccAlloc {cl line m} (h : Keeps s₀ s) : Keeps s₀ (s.ccAlloc cl line m) := by
  unfold State.ccAlloc
  extract_lets _ _ _ _ _ _ s7
  have h7 : Keeps s₀ s7 := .ite h.freeMarks h
  split
  · exact .ite h.modCluster h
  · split
    · exact h
    · split
      · exact h.modCluster
      · split
        · exact h7
        · extract_lets _ _ s14
          have h14 : Keeps s₀ s14 := .ite h7.upd.chunkGive.writeHome h7.upd.chunkGive
          exact .ite h14.modCluster h14.modCluster.homeAgain

theorem Keeps.takeSector {cl line m} (h : Keeps s₀ s) : Keeps s₀ (s.takeSector cl line m) := by
  unfold State.takeSector
  split
  · exact h
  · exact .ite h.ccAlloc h.ccAlloc.writeHome
  · exact h.ccAlloc

theorem Keeps.evictFrame {c f} (h : Keeps s₀ s) : Keeps s₀ (s.evictFrame c f) := by
  unfold State.evictFrame
  extract_lets s1
  have h1 : Keeps s₀ s1 := h.foldl fun _ _ h => h.takeSector
  exact h1.modCore

theorem Keeps.fillFrame {c line m} (h : Keeps s₀ s) : Keeps s₀ (s.fillFrame c line m) := by
  unfold State.fillFrame
  extract_lets
  split
  · exact h.modCore
  · split
    · exact h.modCore
    · split
      · exact h
      · exact h.upd.evictFrame.modCore

theorem Keeps.othersGone {c line} (h : Keeps s₀ s) : Keeps s₀ (s.othersGone c line) := h.modCluster.foldl fun _ _ h => .ite h h.modCore

theorem Keeps.lineFill {c line hit fill} (h : Keeps s₀ s) : Keeps s₀ (s.lineFill c line hit fill) := by
  unfold State.lineFill
  extract_lets _ s2
  have h2 : Keeps s₀ s2 := .ite h.clDemote h.ccAlloc
  exact .ite h2.fillFrame (.ite h h.ccAlloc)

theorem Keeps.lineRead {c line alloc age} (h : Keeps s₀ s) : Keeps s₀ (s.lineRead c line alloc age).1 := by
  unfold State.lineRead
  extract_lets _ _ _ _ s5
  have h5 : Keeps s₀ s5 := .ite h.bump.bump h.bump.usher.bump
  split
  · exact h.fillFrame
  · exact h5.lineFill

theorem Keeps.lineOwn {c line alloc age} (h : Keeps s₀ s) : Keeps s₀ (s.lineOwn c line alloc age).1 := by
  unfold State.lineOwn
  extract_lets _ _ _ s4 _ s6 _ s8
  have h4 : Keeps s₀ s4 := .ite h h.bump
  have h6 : Keeps s₀ s6 := .ite (.ite h4 h4.bump) h4.usher.bump
  have h8 : Keeps s₀ s8 := .ite h6.ccAlloc h6
  split
  · exact h
  · exact .ite h8.othersGone.fillFrame h8.othersGone.ccAlloc

theorem Keeps.clRead {cl line} (h : Keeps s₀ s) : Keeps s₀ (s.clRead cl line) := .ite h.bump h.usher.bump.ccAlloc

theorem Keeps.clOwn {cl line} (h : Keeps s₀ s) : Keeps s₀ (s.clOwn cl line) := by
  unfold State.clOwn
  extract_lets s1 s2
  have h1 : Keeps s₀ s1 := .ite h.bump h.usher.bump
  have h2 : Keeps s₀ s2 := h1.foldl fun _ _ h => .ite h h.modCore
  exact h2.ccAlloc

theorem Keeps.clOwned {cl line} (h : Keeps s₀ s) : Keeps s₀ (s.clOwned cl line) := by
  unfold State.clOwned
  extract_lets _ _ s3
  have h3 : Keeps s₀ s3 := h.usher.bump.foldl fun _ _ h => .ite h h.modCore
  exact .ite (.ite h3.ccAlloc.writeHome h3.ccAlloc.modCluster) h3.ccAlloc.modCluster

theorem Keeps.storeWord {pa w dirty} (h : Keeps s₀ s) : Keeps s₀ (s.storeWord pa w dirty) := by
  unfold State.storeWord
  extract_lets s1 s2
  have h1 : Keeps s₀ s1 := .ite h.upd h
  have h2 : Keeps s₀ s2 := .ite h1.upd h1
  exact h2.wr

theorem Keeps.cleanLine {line} (h : Keeps s₀ s) : Keeps s₀ (s.cleanLine line) :=
  h.foldl fun _ _ h => .ite (h.writeHome.modCluster.foldl fun _ _ h => h.modCore) h

theorem Keeps.flushLine {line} (h : Keeps s₀ s) : Keeps s₀ (s.flushLine line) := h.cleanLine.recall

theorem Keeps.dropLine {cl line} (h : Keeps s₀ s) : Keeps s₀ (s.dropLine cl line) := by
  unfold State.dropLine
  extract_lets s1
  have h1 : Keeps s₀ s1 := .ite h.dropDirty h
  split
  · exact h1.clSet
  · exact h1.clSet.setDir

theorem Keeps.snoopLine {line own} (h : Keeps s₀ s) : Keeps s₀ (s.snoopLine line own) := by
  unfold State.snoopLine
  extract_lets _ _ _ _ _ _ s7
  have h7 : Keeps s₀ s7 := by
    unfold s7
    split
    · exact h.bump.truncate.upd.recall.upd
    · split
      · split
        · exact h.bump.truncate.upd.clDemote.setDir
        · exact h.bump.truncate.upd
      · exact h.bump.truncate.upd
  exact h7.upd

theorem Keeps.hostWords {line l'} (h : Keeps s₀ s) : Keeps s₀ (s.hostWords line l') := h.countUreq.recall.foldl fun _ _ h => h.storeWord

theorem Keeps.usherLine {cl line own} (h : Keeps s₀ s) : Keeps s₀ (s.usherLine cl line own) :=
  .ite h.obtain.clOwned (.ite h.obtain.usher.bump h.obtain.usher.bump.ccAlloc)

theorem Keeps.serveOne {p} (h : Keeps s₀ s) : OptAll (Keeps s₀) (s.serveOne p) := by
  unfold State.serveOne
  split
  · split
    next e => exact (h.arbitrate.go e).usherLine
    · exact trivial
  · split
    next e => exact (h.arbitrate.go e).snoopLine
    · exact trivial
  · split
    next e => exact (h.arbitrate.go e).truncate.external.map fun _ h => h.hostWords.upd
    · exact trivial

theorem Keeps.serveAll {l} (h : Keeps s₀ s) : Keeps s₀ (s.serveAll l) := by
  induction l generalizing s with
  | nil => exact h
  | cons p l ih =>
    rw [State.serveAll]
    split
    next e => exact ih ((OptAll.of_ite (o := none) trivial h.serveOne).some e)
    · exact ih h.upd

theorem Keeps.serveParked (h : Keeps s₀ s) : Keeps s₀ s.serveParked := .ite h h.upd.serveAll

theorem Keeps.atHome {p} (h : Keeps s₀ s) : Keeps s₀ (s.atHome p) := h.upd.serveAll

theorem Keeps.cleanAll {c} (h : Keeps s₀ s) : Keeps s₀ (s.cleanAll c) := h.foldl fun _ _ h => .ite h.writeHome.modCluster.modCore h

theorem Keeps.ccClean {cl p} (h : Keeps s₀ s) : Keeps s₀ (s.ccClean cl p) := by
  unfold State.ccClean
  refine h.foldl fun _ _ h => ?_
  extract_lets _ s2 _ s4
  have h2 : Keeps s₀ s2 := .ite h h.doomHolders
  have h4 : Keeps s₀ s4 := .ite h2.chunkGive.writeHome h2.chunkGive
  exact h4.modCluster

theorem Keeps.ccWaydis {cl old new} (h : Keeps s₀ s) : Keeps s₀ (s.ccWaydis cl old new) := h.setFld.ccClean

theorem Keeps.ccFlush {cl} (h : Keeps s₀ s) : Keeps s₀ (s.ccFlush cl) := h.ccClean.setFld

/-! ### Machine/Walk -/

theorem Keeps.tableRead {cl pa} (h : Keeps s₀ s) : Keeps s₀ (s.tableRead cl pa).1 := by
  unfold State.tableRead
  extract_lets
  split
  · exact h.bump
  · split
    · exact h.bump.obtain.clRead
    · split
      · exact h.bump.obtain.clRead
      · exact h.bump.obtain.clRead

theorem Keeps.ctlbRoom {cl} (h : Keeps s₀ s) : Keeps s₀ (s.ctlbRoom cl) := .ite h h.upd.modCluster

theorem Keeps.leafDropped {cl} (h : Keeps s₀ s) : Keeps s₀ (s.leafDropped t cl) := h.modCluster

theorem Keeps.walk2 {fuel cl x input k tab} (h : Keeps s₀ s) : Keeps s₀ (Machine.walk2 fuel s cl x input k tab).1 := by
  induction fuel generalizing s cl x input k tab with
  | zero => exact h
  | succ fuel ih =>
    rw [Machine.walk2]
    split
    · exact h
    · split
      next e => exact h.tableRead.fst e
      next e =>
        have h1 := h.tableRead.fst e
        split
        · exact h1
        · split
          · split
            · exact ih h1.modCluster
            · exact h1
          · split
            · exact h1
            · exact h1

theorem Keeps.stage2 {cl x input need} (h : Keeps s₀ s) : Keeps s₀ (Machine.stage2 s cl x input need).1 := by
  unfold Machine.stage2
  split
  · exact h
  · split
    · exact h
    · extract_lets f1
      have hf1 : ∀ {x1 x2 x3}, Keeps s₀ x1 → Keeps s₀ (f1 x1 x2 x3).1 := by
        intro x1 x2 x3 h
        unfold f1
        split
        · exact h
        · exact h
      split
      · exact hf1 h
      · split
        · extract_lets
          split
          next e => exact h.bump.walk2.fst e
          next e =>
            have h3 := h.bump.walk2.fst e
            extract_lets
            split
            next e => exact (hf1 h3).fst e
            next e => exact ((hf1 h3).fst e).ctlbRoom.modCluster

theorem Keeps.tablePa {cl x ea k} (h : Keeps s₀ s) : Keeps s₀ (Machine.tablePa s cl x ea k).1 := by
  unfold Machine.tablePa
  split
  · split
    · exact h
    · exact h
  · split
    next e => exact h.stage2.fst e
    next e =>
      have h1 := h.stage2.fst e
      extract_lets
      split
      · exact h1.leafDropped
      · split
        · exact h1.leafDropped
        · split
          · exact h1.leafDropped
          · exact h1

theorem Keeps.walk1 {fuel cl x input k tab} (h : Keeps s₀ s) : Keeps s₀ (Machine.walk1 fuel s cl x input k tab).1 := by
  induction fuel generalizing s cl x input k tab with
  | zero => exact h
  | succ fuel ih =>
    rw [Machine.walk1]
    split
    next e => exact h.tablePa.fst e
    next e =>
      have h1 := h.tablePa.fst e
      split
      next e => exact h1.tableRead.fst e
      next e =>
        have h2 := h1.tableRead.fst e
        split
        · exact h2
        · split
          · split
            · exact ih h2.modCluster
            · exact h2
          · split
            · exact h2
            · exact h2

theorem Keeps.walkFinal {cl x input lv sh leaf kind} (h : Keeps s₀ s) : Keeps s₀ (Machine.walkFinal s cl x input lv sh leaf kind).1 := by
  unfold Machine.walkFinal
  extract_lets _ _ f3
  have hf3 : ∀ {x1 x2 x3 x4}, Keeps s₀ x1 → Keeps s₀ (f3 x1 x2 x3 x4).1 := by
    intro x1 x2 x3 x4 h
    unfold f3
    extract_lets
    split
    · exact h.leafDropped
    · split
      · exact h.leafDropped
      · exact h
  split
  · exact hf3 h
  · split
    next e => exact h.stage2.fst e
    next e => exact hf3 (h.stage2.fst e)

theorem Keeps.walk {cl x input kind cache} (h : Keeps s₀ s) : Keeps s₀ (s.walk cl x input kind cache).1 := by
  unfold State.walk
  extract_lets _ x2 _ _ s5
  have h5 : Keeps s₀ s5.1 := by
    unfold s5
    split
    · exact h.bump.walkFinal
    · split
      · exact h.bump
      · split
        · extract_lets
          split
          next e => exact h.bump.bump.walk1.fst e
          next e => exact (h.bump.bump.walk1.fst e).walkFinal
  clear_value x2 s5
  split
  · extract_lets
    split
    · exact h.bump.bump.bump
    · exact h.bump.bump
  · split
    · have h7 : Keeps s₀ _ := h5
      extract_lets s8
      have h8 : Keeps s₀ s8 := .ite h7 h7.upd
      split
      · exact h8.bump
      · exact .ite h8.ctlbRoom.modCluster h8

end Sys2Proof.Machine
end

section
/-! PROOFS. Every step keeps canonical memory (O59): the operands of an instruction, objects, the heap and the collector. -/

namespace Sys2Proof.Machine

open Sys2Proof

variable {s₀ s t : State} {α β ρ ε : Type}

/-! ### Machine/Mem -/

theorem Keeping.check {l'} : Keeping (Machine.check l') := .bind .askS fun _ => .raiseSome

theorem Keeping.unitXlate {a kind} : Keeping (Machine.unitXlate a kind) := by
  refine .bind .getCore fun _ => ?_
  extract_lets
  split
  · split
    · exact .raise
    · exact .pure
  · refine .bind .me fun _ => ?_
    refine .get fun s₀ s c h => ?_
    split
    next e => exact KeepsAt.set (h.walk.fst e) (.raise)
    next e =>
      have h3 := h.walk.fst e
      refine KeepsAt.set h3 ?_
      extract_lets
      split
      · exact .raise
      · exact .pure

theorem Keeping.noteData : Keeping Machine.noteData := by
  refine .bind .getCore fun _ => ?_
  split
  · exact .pure
  · exact .modMe

theorem Keeping.xlate {a kind} : Keeping (Machine.xlate a kind) := by
  refine .bind .getCore fun _ => .bind .noteData fun _ => ?_
  split
  · exact .unitXlate
  · split
    · exact .raise
    · exact .pure

theorem Keeping.target {a lf wr} : Keeping (Machine.target a lf wr) := .bind .getCore fun _ => .bind .askS fun _ => .ite .raise .pure

theorem Keeping.sceneSafe {lf} : Keeping (Machine.sceneSafe lf) := .bind .getCore fun _ => .ite .throw (.ite .throw .pure)

theorem Keeping.contend {line write} : Keeping (Machine.contend line write) := by
  unfold Machine.contend
  refine .asked fun s₀ s c h => ?_
  split
  next e => exact h.arbitrate.go e
  · exact h
  · exact h

theorem Keeping.doomYoung {l' detail} : Keeping (Machine.doomYoung l' detail) := by
  refine .bind .me fun _ => .bind .askS fun _ => ?_
  split
  · exact .pure
  · exact .bind .askS fun _ => .ite .throw (.updS fun _ _ _ h => h.abortScene)

theorem Keeping.sceneRoom {line} : Keeping (Machine.sceneRoom line) := by
  refine .bind .me fun _ => ?_
  extract_lets
  refine .bind .askS fun _ => .bind .askS fun _ => .bind (.ite .doomYoung .pure) fun _ => ?_
  refine .bind .askS fun _ => .bind (.ite .doomYoung .pure) fun _ => .bind .askS fun _ => ?_
  split
  · refine .bind .askS fun _ => .bind .getCore fun _ => ?_
    exact .ite (.bind (.updS fun _ _ _ h => h.doomHolders) fun _ => .throw) (.updS fun _ _ _ h => h.doomHolders)
  · exact .pure

theorem Keeping.joinRead {a line} : Keeping (Machine.joinRead a line) :=
  .bind .getCore fun _ => .ite .pure (.ite .pure (.ite .throw (.bind .contend fun _ => .bind .sceneRoom fun _ => .modMe)))

theorem Keeping.joinWrite {a line} : Keeping (Machine.joinWrite a line) :=
  .bind .getCore fun _ => .ite .pure (.ite .throw (.bind .contend fun _ => .sceneRoom))

theorem Keeping.markUnsafe : Keeping Machine.markUnsafe := .updS fun _ _ _ h => h.modChunk

theorem Keeping.unsafeAccess {lf} : Keeping (Machine.unsafeAccess lf) := .ite .markUnsafe .pure

theorem Keeps.performStore {c q} (h : Keeps s₀ s) : OptAll (Keeps s₀) (s.performStore c q) := by
  unfold State.performStore
  extract_lets
  split
  · exact h.upd
  · split
    · exact trivial
    · split
      next e =>
        have h3 := h.arbitrate.go e
        extract_lets s4
        have h4 : Keeps s₀ s4 := .ite h3 (.ite h3.countUreq.recall (.ite h3.clOwn h3.lineOwn))
        exact h4.noteChunk.foldl fun _ _ h => h.storeWord
      · exact trivial

theorem Keeps.drainAt {c i} (h : Keeps s₀ s) : Keeps s₀ (s.drainAt c i) := by
  unfold State.drainAt
  extract_lets
  split
  · exact h
  · split
    · split
      next e => exact (h.performStore.some e).modCore
      · exact h.askHost
    · exact h

theorem Keeps.drainStep {c p} (h : Keeps s₀ s) : Keeps s₀ (s.drainStep c p) := by
  unfold State.drainStep
  extract_lets
  split
  · exact h
  · exact h.drainAt

theorem Keeps.drainFor {fuel c p} (h : Keeps s₀ s) : Keeps s₀ (s.drainFor fuel c p).1 := by
  induction fuel generalizing s c p with
  | zero =>
    rw [State.drainFor]
    split
    · exact h
    · exact h
  | succ fuel ih =>
    rw [State.drainFor]
    split
    · exact ih h.drainStep
    · exact h

theorem Keeping.drainThose {p} : Keeping (Machine.drainThose p) := by
  refine .bind .me fun _ => ?_
  refine .get fun s₀ s c h => ?_
  split
  · extract_lets
    refine KeepsAt.set h.drainFor ?_
    split
    · exact .throw
    · exact .pure
  · exact h

theorem Keeps.drainAll {c} (h : Keeps s₀ s) : Keeps s₀ (s.drainAll c) := h.foldl fun _ _ h => h.drainAt

theorem Keeping.drainMine : Keeping Machine.drainMine := by
  refine .bind (.updS fun _ _ _ h => h.drainAll) fun _ => .bind .getCore fun _ => ?_
  split
  · exact .pure
  · exact .throw

theorem Keeping.meetFence : Keeping Machine.meetFence := .bind .getCore fun _ => .ite (.bind .drainMine fun _ => .modMe) .pure

theorem Keeping.takeRec {type sub} : Keeping (Machine.takeRec type sub) := by
  refine .bind .getCore fun _ => ?_
  split
  · exact .ite (.bind (.updS fun _ _ _ h => h.modChunk) fun _ => .pure) .throw
  · exact .throw

theorem Keeping.ndval {sub v units} : Keeping (Machine.ndval sub v units) := by
  refine .bind .askS fun _ => ?_
  exact .bind (.ite (.bind .takeRec fun _ => .pure) .pure) fun _ => .bind (.updS fun _ _ _ h => h.note) fun _ => .pure

theorem Keeping.windowNote {pa w} : Keeping (Machine.windowNote pa w) := .updS fun _ _ _ h => h.note

theorem Keeping.windowLogged {pa} : Keeping (Machine.windowLogged pa) := .bind .takeRec fun _ => .bind .windowNote fun _ => .pure

theorem Keeping.outwardStore {lf} : Keeping (Machine.outwardStore lf) :=
  .bind .askS fun _ => .ite (.bind (.updS fun _ _ _ h => h.bump) fun _ => .pure) .pure

theorem Keeping.ownOrder {lf} : Keeping (Machine.ownOrder lf) := .bind (.ite .drainThose .pure) fun _ => .ite .drainThose .pure

theorem Keeps.readLine {c lf alloc} (h : Keeps s₀ s) : Keeps s₀ (s.readLine c lf alloc) := by
  unfold State.readLine
  extract_lets _ _ s3 s4
  have h3 : Keeps s₀ s3.1 := h.lineRead
  have h4 : Keeps s₀ s4 := .ite h.countUreq.recall h
  exact .ite (.ite h.clRead h3.modCore) h4.upd

theorem Keeps.prefetch {c u a frame} (h : Keeps s₀ s) : Keeps s₀ (s.prefetch c u a frame) := by
  unfold State.prefetch
  split
  · exact h
  · extract_lets _ _ _ _ _ s6
    have h6 : Keeps s₀ s6 := .ite h.bump.bump h.bump.usher.bump
    exact .ite h (.ite h (.ite h.bump.askHost h6.lineFill))

theorem Keeps.prefetches {c u a pa missed} (h : Keeps s₀ s) : Keeps s₀ (s.prefetches c u a pa missed) := by
  unfold State.prefetches
  extract_lets _ _ _ s4
  have h4 : Keeps s₀ s4 := .ite h.prefetch h
  split
  · exact h
  · split
    · exact h4
    · split
      · exact h4.modCore.prefetch.prefetch
      · exact .ite h4.modCore h4

theorem Keeping.prefetchFor {a lf missed} : Keeping (Machine.prefetchFor a lf missed) := by
  refine .bind .getCore fun _ => ?_
  split
  · exact .ite (.updS fun _ _ _ h => h.prefetches) .pure
  · exact .pure

theorem Keeping.readWord {a lf ld alloc} : Keeping (Machine.readWord a lf ld alloc) := by
  refine .bind .sceneSafe fun _ => .bind .target fun _ => ?_
  refine .bind .unsafeAccess fun _ => .bind .meetFence fun _ => .bind .ownOrder fun _ => .bind .getCore fun _ => ?_
  extract_lets _ x2
  clear_value x2
  refine .bind ?_ fun _ => ?_
  · split
    · exact .pure
    · refine .bind .joinRead fun _ => .bind .askS fun _ => .bind .askS fun _ => .bind .askS fun _ => ?_
      split
      · exact .windowLogged
      · split
        · split
          · exact .bind .windowNote fun _ => .pure
          · exact .throw
        · split
          · exact .throw
          · refine .bind .me fun _ => ?_
            refine .get fun s₀ s c h => ?_
            refine KeepsAt.set h.readLine.noteChunk ?_
            refine .bind .prefetchFor fun _ => .bind .getCore fun _ => ?_
            extract_lets _ _ f5
            have hf5 : ∀ x1, Keeping (f5 x1) := fun _ => .ite (.bind .windowNote fun _ => .pure) .pure
            exact .ite (.bind .throw fun _ => hf5 ()) (hf5 ())
  · split
    · split
      · exact .pure
      · exact .bind .askS fun _ => .ite .raise .pure
    · exact .pure

theorem Keeping.queueRoom : Keeping Machine.queueRoom := by
  refine .bind .getCore fun _ => ?_
  split
  · exact .bind (.updS fun _ _ _ h => h.foldl fun _ _ h => .ite h.drainAt h) fun _ => .bind .getCore fun _ => .ite .throw .pure
  · exact .pure

theorem Keeping.writeWord {a lf w alloc win more} : Keeping (Machine.writeWord a lf w alloc win more) := by
  refine .bind .sceneSafe fun _ => ?_
  refine .bind .target fun _ => .bind .unsafeAccess fun _ => .bind .meetFence fun _ => .bind .getCore fun _ => ?_
  extract_lets
  refine .bind .askS fun _ => .bind .outwardStore fun _ => .bind ?_ fun _ => ?_
  · split
    · exact .pure
    · split
      · exact .modMe
      · split
        · exact .bind .joinWrite fun _ => .modMe
        · split
          · refine .bind .drainMine fun _ => ?_
            refine .asked fun s₀ s c h => ?_
            split
            next e => exact h.performStore.some e
            · exact h
          · exact .bind .queueRoom fun _ => .bind .modMe fun _ => .prefetchFor
  · exact .ite .modMe .pure

theorem Keeping.writeNow {a lf w} : Keeping (Machine.writeNow a lf w) := by
  refine .bind .getCore fun _ => ?_
  split
  · exact .writeWord
  · refine .bind .target fun _ => .bind .unsafeAccess fun _ => .bind .drainThose fun _ => .bind .outwardStore fun _ => ?_
    split
    · exact .pure
    · refine .asked fun s₀ s c h => ?_
      split
      next e => exact h.performStore.some e
      · exact h

theorem Keeps.ownLine {c line} (h : Keeps s₀ s) : OptAll (Keeps s₀) (s.ownLine c line) := by
  unfold State.ownLine
  split
  · exact trivial
  · split
    next e => exact (h.arbitrate.go e).lineOwn.noteChunk
    · exact trivial

theorem Keeping.ownWord {lf} : Keeping (Machine.ownWord lf) := by
  refine .bind .getCore fun _ => ?_
  split
  · exact .pure
  · refine .asked fun s₀ s c h => ?_
    split
    next e => exact h.ownLine.some e
    · exact h

theorem Keeping.atomicWord {a} : Keeping (Machine.atomicWord a) := by
  refine .bind .xlate fun _ => .bind .xlate fun _ => ?_
  exact .bind .sceneSafe fun _ => .ite .raise (.bind .target fun _ => .bind .meetFence fun _ => .bind .ownWord fun _ => .readWord)

theorem Keeps.setRegion0 {r d} (h : Keeps s₀ s) : Keeps s₀ (s.setRegion0 r d) := .ite h.wr.upd.setFld (.ite h.wr.upd.setFld h.wr.upd)

theorem Keeping.lookRegion {r} : Keeping (Machine.lookRegion r) := by
  refine .bind .getCore fun _ => ?_
  split
  · exact .bind .modMe fun _ => .pure
  · exact .bind .askS fun _ => .bind .modMe fun _ => .pure

theorem Keeping.isStale {w} : Keeping (Machine.isStale w) := by
  refine .bind .askS fun _ => .bind .askS fun _ => ?_
  split
  · exact .bind .lookRegion fun _ => .pure
  · exact .pure

theorem Keeping.peek {a} : Keeping (Machine.peek a) := .bind .xlate fun _ => .readWord

theorem Keeping.poke {a w} : Keeping (Machine.poke a w) := .bind .xlate fun _ => .writeWord

theorem Keeping.findHdr {fuel cur} : Keeping (Machine.findHdr fuel cur) := by
  induction fuel generalizing cur with
  | zero => exact .pure
  | succ fuel ih =>
    refine .bind .peek fun _ => .ite .pure ?_
    cases cur with
    | zero => exact .pure
    | succ cur => exact ih

theorem Keeping.findLarge {fuel r} : Keeping (Machine.findLarge fuel r) := by
  induction fuel generalizing r with
  | zero => exact .pure
  | succ fuel ih =>
    refine .bind .askS fun _ => .bind .peek fun _ => .ite .pure ?_
    cases r with
    | zero => exact .pure
    | succ r => exact ih

theorem Keeping.baseOf {a} : Keeping (Machine.baseOf a) := by
  refine .bind .askS fun _ => ?_
  split
  · exact .pure
  · refine .bind .lookRegion fun _ => .bind .askS fun _ => ?_
    split
    · exact .bind .findLarge fun _ => .askS
    · refine .bind .findHdr fun _ => ?_
      split
      · exact .pure
      · exact .ite .pure (.bind .peek fun _ => .pure)

theorem Keeping.ptrBase {w} : Keeping (Machine.ptrBase w) := .ite .baseOf .pure

theorem Keeps.colXlate {cl va kind} (h : Keeps s₀ s) : Keeps s₀ (s.colXlate cl va kind).1 := by
  unfold State.colXlate
  extract_lets
  split
  · exact h
  · split
    next e => exact h.walk.fst e
    next e => exact h.walk.fst e

theorem Keeps.clearVa {fuel cl va len} (h : Keeps s₀ s) : Keeps s₀ (s.clearVa fuel cl va len) := by
  induction fuel generalizing s cl va len with
  | zero => exact h
  | succ fuel ih =>
    rw [State.clearVa]
    split
    · exact h
    · split
      next e => exact h.colXlate.fst e
      next e => exact ih (h.colXlate.fst e).clearEmpty

theorem Keeps.openRegion {cl r st top} (h : Keeps s₀ s) : Keeps s₀ (s.openRegion cl r st top) := h.clearVa.setRegion0

theorem Keeps.evacRoom {cl old size} (h : Keeps s₀ s) : OptAll (fun p => Keeps s₀ p.2) (s.evacRoom cl old size) := by
  unfold State.evacRoom
  extract_lets
  split
  · exact h.setRegion0
  · split
    · exact trivial
    · exact h.openRegion.modCluster.setRegion0

theorem Keeping.copyWords {n i src dst} : Keeping (Machine.copyWords n i src dst) := by
  induction n generalizing i src dst with
  | zero => exact .pure
  | succ fuel ih => exact .bind .peek fun _ => .bind .poke fun _ => ih

theorem Keeping.forward {base} : Keeping (Machine.forward base) := by
  refine .bind .peek fun _ => ?_
  split
  · exact .pure
  · extract_lets
    split
    · exact .throw
    · refine .bind .askS fun _ => .bind .lookRegion fun _ => .bind .askS fun _ => ?_
      extract_lets
      refine .bind .me fun _ => ?_
      refine .get fun s₀ s c h => ?_
      split
      · exact h
      next e => exact KeepsAt.set (h.evacRoom.some e) (.bind .copyWords fun _ => .bind .askS fun _ => .bind .askS fun _ =>
        .bind .xlate fun _ => .bind .writeNow fun _ => .pure)

theorem Keeping.heal {w} : Keeping (Machine.heal w) := by
  refine .bind .ptrBase fun _ => .bind .forward fun _ => ?_
  split
  · exact .pure

theorem Keeping.barrier {w a} : Keeping (Machine.barrier w a) := by
  refine .bind .isStale fun _ => ?_
  split
  · exact .pure
  · refine .bind .heal fun _ => .bind .getCore fun _ => ?_
    split
    · exact .pure
    · exact .bind .peek fun _ => .ite (.bind .writeNow fun _ => .pure) .pure

theorem Keeping.load {a ld} : Keeping (Machine.load a ld) := .bind .xlate fun _ => .bind .readWord fun _ => .barrier

theorem Keeping.resolve {w pos} : Keeping (Machine.resolve w pos) :=
  .bind .isStale fun _ => .ite (.bind .heal fun _ => .bind .modMe fun _ => .pure) .pure

theorem Keeps.markCard {c va} (h : Keeps s₀ s) : OptAll (Keeps s₀) (s.markCard c va) := by
  unfold State.markCard
  split
  · exact h
  · exact h.performStore

theorem Keeping.markMine {va} : Keeping (Machine.markMine va) := by
  unfold Machine.markMine
  refine .asked fun s₀ s c h => ?_
  split
  next e => exact h.markCard.some e
  · exact h

theorem Keeping.cardMark {va v} : Keeping (Machine.cardMark va v) := by
  refine .bind .askS fun _ => .bind .askS fun _ => .bind .askS fun _ => ?_
  split
  · exact .bind .lookRegion fun _ => .bind .lookRegion fun _ => .ite .markMine .pure
  · exact .pure

theorem Keeps.flushSatb {c} (h : Keeps s₀ s) : Keeps s₀ (s.flushSatb c) := by
  unfold State.flushSatb
  extract_lets _ s2
  have h2 : Keeps s₀ s2 := h.foldl fun _ _ h => h.wr
  exact .ite h2.upd.modCore h

theorem Keeping.satbLog {old} : Keeping (Machine.satbLog old) := by
  refine .bind .askS fun _ => ?_
  split
  · exact .pure
  · refine .bind .getCore fun _ => ?_
    extract_lets
    split
    · exact .bind (.updS fun _ _ _ h => h.flushSatb.bump) fun _ => .bind .getCore fun _ => .ite .throw .modMe
    · exact .bind .getCore fun _ => .ite .throw .modMe

theorem Keeping.writeBarrier {va v old} : Keeping (Machine.writeBarrier va v old) := .bind .satbLog fun _ => .cardMark

theorem Keeping.overwritten {lf} : Keeping (Machine.overwritten lf) := .askS

theorem Keeping.store {a v alloc win} : Keeping (Machine.store a v alloc win) := by
  refine .bind .xlate fun _ => ?_
  exact .bind .sceneSafe fun _ => .bind .target fun _ => .bind .overwritten fun _ => .bind .writeBarrier fun _ => .writeWord

theorem Keeping.atomicWrite {a v} : Keeping (Machine.atomicWrite a v) :=
  .bind .xlate fun _ => .bind .sceneSafe fun _ => .bind .overwritten fun _ => .bind .writeBarrier fun _ => .writeNow

theorem Keeping.atomicRead {a} : Keeping (Machine.atomicRead a) := .bind .atomicWord fun _ => .barrier

theorem Keeping.storePair {a v w win} : Keeping (Machine.storePair a v w win) := by
  refine .bind .xlate fun _ => .bind .sceneSafe fun _ => .bind .target fun _ => ?_
  exact .bind .overwritten fun _ => .bind .overwritten fun _ => .bind .writeBarrier fun _ => .bind .writeBarrier fun _ => .writeWord

/-! ### Machine/Ops -/

theorem Keeps.xbase {c w a kind} (h : Keeps s₀ s) : Keeps s₀ (s.xbase c w a kind).1 := by
  unfold State.xbase
  extract_lets
  split
  · exact h
  · split
    next e => exact h.stage2.fst e
    next e =>
      have h4 := h.stage2.fst e
      split
      · exact h4
      · exact h4

theorem Keeps.entryStore {c pa v} (h : Keeps s₀ s) : Keeps s₀ (s.entryStore c pa v) :=
  h.drainFor.obtain.performStore.getD h.drainFor.obtain.storeWord

theorem Keeps.physWrite {c w pa v} (h : Keeps s₀ s) : OptAll (Keeps s₀) (s.physWrite c w pa v) := by
  unfold State.physWrite
  split
  · split
    · exact h.modCore
    · exact trivial
  · split
    · exact h.entryStore
    · exact trivial
  · exact h.entryStore
  · exact h.entryStore
  · exact trivial

theorem Keeps.physWrites {c w pa l} (h : Keeps s₀ s) : OptAll (Keeps s₀) (s.physWrites c w pa l) := by
  induction l generalizing s c w pa with
  | nil => exact h
  | cons w_1 l ih =>
    rw [State.physWrites]
    split
    · exact trivial
    next e => exact ih (h.physWrite.some e)

theorem Keeps.vectorOf {c w vec} (h : Keeps s₀ s) : Keeps s₀ (s.vectorOf c w vec).1 := by
  unfold State.vectorOf
  extract_lets
  split
  next e => exact h.xbase.fst e
  next e =>
    have h3 := h.xbase.fst e
    split
    · exact h3
    · split
      · exact h3
      · exact h3

theorem Keeps.tsbLink {c w base off} (h : Keeps s₀ s) : Keeps s₀ (s.tsbLink c w base off).1 := by
  unfold State.tsbLink
  split
  next e => exact h.xbase.fst e
  next e =>
    have h1 := h.xbase.fst e
    split
    · exact h1
    · split
      · exact h1
      · exact h1

theorem Keeps.curtain {c w vec sub} (h : Keeps s₀ s) : Keeps s₀ (s.curtain c w vec sub) := by
  unfold State.curtain
  extract_lets
  split
  · exact h.modCore.setReg.upd.logBb.traceE.raiseMc
  · split
    · exact h.modCore.setReg.upd.logBb.traceE.raiseMc
    · exact h.modCore.setReg.upd.logBb.traceE.upd

theorem Keeps.traceExc {c quick vec sub} (h : Keeps s₀ s) : Keeps s₀ (s.traceExc c quick vec sub) := h.traceI

theorem Keeps.doubleFault {c w esc vec xinfo dsub addr aux ctx} (h : Keeps s₀ s) :
    Keeps s₀ (s.doubleFault c w esc vec xinfo dsub addr aux ctx) := by
  unfold State.doubleFault
  split
  · exact h.curtain
  · extract_lets
    split
    next e => exact (h.xbase.fst e).curtain
    next e =>
      have h3 := h.xbase.fst e
      split
      · exact h3.curtain
      · split
        · exact h3.curtain
        next e =>
          have h4 := h3.physWrites.some e
          split
          next e => exact (h4.vectorOf.fst e).curtain
          next e => exact (h4.vectorOf.fst e).setFld.bump.modCore.traceExc

theorem Keeps.fullEntry {c t' syl iw} (h : Keeps s₀ s) : Keeps s₀ (s.fullEntry c t' syl iw) := by
  unfold State.fullEntry
  extract_lets
  split
  next e => exact (h.tsbLink.fst e).doubleFault
  next e =>
    have h10 := h.tsbLink.fst e
    split
    next e => exact (h10.xbase.fst e).doubleFault
    next e =>
      have h11 := h10.xbase.fst e
      split
      · exact h11.doubleFault
      next e =>
        have h12 := h11.physWrites.some e
        split
        next e => exact (h12.vectorOf.fst e).doubleFault
        next e => exact (h12.vectorOf.fst e).bump.modCore.traceExc

theorem Keeps.escalate {c t' syl iw} (h : Keeps s₀ s) : Keeps s₀ (s.escalate c t' syl iw) := by
  unfold State.escalate
  extract_lets
  split
  next e => exact (h.tsbLink.fst e).doubleFault
  next e =>
    have h13 := h.tsbLink.fst e
    split
    next e => exact (h13.tsbLink.fst e).doubleFault
    next e =>
      have h14 := h13.tsbLink.fst e
      split
      next e1 e2 =>
        have h15 := h14.xbase.fst e1
        split
        · exact h15.doubleFault
        next e =>
          have h17 := h15.physWrites.some e
          split
          · exact h17.doubleFault
          next e =>
            have h18 := h17.physWrites.some e
            split
            next e => exact (h18.vectorOf.fst e).doubleFault
            next e => exact (h18.vectorOf.fst e).bump.modCore.traceExc
      next e1 => exact (h14.xbase.fst e1).doubleFault
      next e2 _ => exact (h14.xbase.fst e2).doubleFault

theorem Keeps.quickEntry {c t' syl} (h : Keeps s₀ s) : Keeps s₀ (s.quickEntry c t' syl) := by
  unfold State.quickEntry
  extract_lets
  split
  next e => exact (h.vectorOf.fst e).doubleFault
  next e => exact (h.vectorOf.fst e).bump.modCore.traceExc

theorem Keeps.trapNotes {c t'} (h : Keeps s₀ s) : Keeps s₀ (s.trapNotes c t') := by
  unfold State.trapNotes
  extract_lets s1 s2
  have h1 : Keeps s₀ s1 := .ite (.ite h.bump h.bump) h
  have h2 : Keeps s₀ s2 := by
    unfold s2
    split
    · exact h1.setReg
    · exact h1
  split
  · exact h2
  · exact h2.setReg.setReg.bump

theorem Keeps.enterTrap {c t' syl iw} (h : Keeps s₀ s) : Keeps s₀ (s.enterTrap c t' syl iw) := by
  unfold State.enterTrap
  extract_lets _ _ s3
  have h3 : Keeps s₀ s3 := .ite h.modCore.fireTimers h.modCore
  exact .ite h3.doubleFault (.ite h3.escalate (.ite h3.quickEntry h3.fullEntry))

theorem Keeps.takeTrap {c t' syl} (h : Keeps s₀ s) : Keeps s₀ (s.takeTrap c t' syl) :=
  .ite (.ite h.trapNotes.abortScene.enterTrap h.trapNotes.abortScene) h.trapNotes.enterTrap

theorem Keeping.underflow {m} : Keeping (Machine.underflow m) := .bind .getCore fun _ => .ite .pure .raise

theorem Keeping.awaitPend {p} : Keeping (Machine.awaitPend p) := .bind .getCore fun _ => .ite .throw .pure

theorem Keeping.landEarly : Keeping Machine.landEarly := .bind .awaitPend fun _ => .modMe

theorem Keeping.noteSpill {a w} : Keeping (Machine.noteSpill a w) := .bind .modMe fun _ => .updS fun _ _ _ h => h.bump

theorem Keeping.spillOne : Keeping Machine.spillOne := by
  refine .bind .getCore fun _ => .bind .awaitPend fun _ => ?_
  exact .bind .modMe fun _ => .bind .getCore fun _ => .ite .raise (.bind .store fun _ => .bind .noteSpill fun _ => .modMe)

theorem Keeping.spillFor {fuel k} : Keeping (Machine.spillFor fuel k) := by
  induction fuel generalizing k with
  | zero => exact .pure
  | succ fuel ih => exact .bind .getCore fun _ => .ite .pure (.bind .spillOne fun _ => ih)

theorem Keeping.spillAll : Keeping Machine.spillAll := .spillFor

theorem Keeping.fillTo {fuel p} : Keeping (Machine.fillTo fuel p) := by
  induction fuel generalizing p with
  | zero => exact .pure
  | succ fuel ih =>
    rw [Machine.fillTo]
    refine .bind .getCore fun _ => ?_
    exact .ite .pure (.bind .load fun _ => .bind .modMe fun _ => .bind (.updS fun _ _ _ h => h.bump) fun _ => ih)

theorem Keeping.operandAt {p} : Keeping (Machine.operandAt p) := by
  refine .bind .getCore fun _ => ?_
  split
  · exact .pure
  · exact .bind .load fun _ => .bind (.updS fun _ _ _ h => h.bump) fun _ => .pure

theorem Keeping.strictArgs {p n} : Keeping (Machine.strictArgs p n) := .bind .getCore fun _ => .bind .askS fun _ => .ite .raiseSome .pure

theorem Keeping.operands {n} : Keeping (Machine.operands n) := by
  induction n with
  | zero => exact .pure
  | succ fuel ih => exact .bind ih fun _ => .bind .operandAt fun _ => .pure

theorem Keeping.prepare {g} : Keeping (Machine.prepare g) := by
  unfold Machine.prepare
  extract_lets _ f2 f3
  have hf2 : ∀ x, Keeping (f2 x) := fun _ => .bind .operands fun _ => .bind .spillFor fun _ => .pure
  have hf3 : ∀ x, Keeping (f3 x) := by
    intro x
    unfold f3
    split
    · exact .operands
    · extract_lets f14
      have hf14 : ∀ x, Keeping (f14 x) := fun _ => .bind .operands fun _ => .bind .operandAt fun _ => .pure
      exact .ite (.bind .fillTo fun _ => hf14 ()) (hf14 ())
  refine .bind .underflow fun _ => ?_
  split
  · exact .ite (hf2 ()) (.bind .fillTo fun _ => hf2 ())
  · exact .bind .spillFor fun _ => .ite (hf3 ()) (.bind .fillTo fun _ => hf3 ())

theorem Keeps.ifill {c lf} (h : Keeps s₀ s) : Keeps s₀ (s.ifill c lf) := by
  unfold State.ifill
  extract_lets _ _ _ s4
  have h4 : Keeps s₀ s4 := .ite h.bump.clRead h.bump.countUreq.recall
  split
  · exact h
  · split
    · exact h4.modCore
    · split
      · exact h4.modCore
      · exact h4.upd.modCore

theorem Keeps.traceRetire {c syl taken} (h : Keeps s₀ s) : Keeps s₀ (s.traceRetire c syl taken) :=
  .ite h.traceI (.ite h.traceI (.ite h.traceI (.ite h.traceI (.ite h.traceI h))))

theorem Keeps.retire {c g o user back} (h : Keeps s₀ s) : Keeps s₀ (s.retire c g o user back) := by
  unfold State.retire
  extract_lets _ _ _ s4 _ s6 s7
  have h4 : Keeps s₀ s4 := .ite h.modCore.fireTimers h.modCore
  have h6 : Keeps s₀ s6 := .ite h4.traceRetire.modChunk (.ite h4.traceRetire h4.traceRetire.chunkEvent)
  have h7 : Keeps s₀ s7 := .ite h6 (h6.ite h6.modCore).bump
  split
  · exact h7.takeTrap
  · exact .ite h7.modCore h7

theorem Keeps.freeze {c w count} (h : Keeps s₀ s) : Keeps s₀ (s.freeze c w count) := by
  unfold State.freeze
  extract_lets s1 s2 s3
  have h1 : Keeps s₀ s1 := by
    unfold s1
    split
    · exact .ite h.upd h.askHost
    · exact h.askHost.foldl fun _ _ h => h.askHost
    · exact h
  have h2 : Keeps s₀ s2 := .ite h1.bump h1
  have h3 : Keeps s₀ s3 := .ite h2.bump h2
  exact h3.modCore

theorem Keeps.trapOr {c t' syl count} (h : Keeps s₀ s) (h1 : Keeps s₀ t) : Keeps s₀ (s.trapOr c t' syl t count) :=
  .ite h.takeTrap h1.freeze

theorem Keeps.stopped {c g x count} (h : Keeps s₀ s) (h1 : Keeps s₀ t) : Keeps s₀ (s.stopped c g x t count) := by
  unfold State.stopped
  split
  · exact h.trapOr h1
  · exact h.abortScene
  · exact h
  · extract_lets s2
    have h2 : Keeps s₀ s2 := .ite h.replayStop h
    exact .ite h1.freeze h2.freeze

theorem Keeps.respill {c l'} (h : Keeps s₀ s) : Keeps s₀ (s.respill c l') := by
  unfold State.respill
  refine h.foldl fun _ _ h => ?_
  split
  next e => exact ((Keeping.store h).ok e).bump
  next e => exact (Keeping.store h).error e

theorem Keeps.runIns {c i} (h : Keeps s₀ s) (hi : ∀ l, Keeping (i.body l)) : SumAll (fun p => Keeps s₀ p.1) (fun p =>
    Keeps s₀ p.1) (s.runIns c i) := by
  unfold State.runIns
  extract_lets
  split
  next e =>
    have h2 := ((.ite .pure .prepare : Keeping _) h).error e
    exact .ite h2 h2.modCore
  next e =>
    have h2 := ((.ite .pure .prepare : Keeping _) h).ok e
    split
    next e => exact (hi _ h2).ok e
    next e => exact .ite ((hi _ h2).error e) h2.modCore.respill

theorem Keeps.shortCount {c} (h : Keeps s₀ s) : SumAll (Keeps s₀) (Keeps s₀) (s.shortCount c) := by
  unfold State.shortCount
  extract_lets
  split
  · split
    · exact h.abortScene
    · exact h.modCore
  · exact h

theorem Keeps.takeRemote {c} (h : Keeps s₀ s) : OptAll (Keeps s₀) (s.takeRemote c) := by
  unfold State.takeRemote
  extract_lets
  split
  · exact trivial
  · split
    · extract_lets _ s3
      have h3 : Keeps s₀ s3 := .ite h.modCore.abortScene h.modCore
      exact h3.enterTrap
    · exact trivial

theorem Keeps.forcedAbort {c} (h : Keeps s₀ s) : OptAll (Keeps s₀) (s.forcedAbort c) := by
  unfold State.forcedAbort
  extract_lets
  split
  · exact trivial
  · split
    · extract_lets
      split
      · exact h.modChunk.abortScene
      · exact trivial
    · exact trivial

theorem Keeps.first {c} (h : Keeps s₀ s) : OptAll (Keeps s₀) (s.first c) := by
  unfold State.first
  split
  next e => exact h.takeRemote.some e
  · exact h.forcedAbort

theorem Keeps.issue {c i} (hi : ∀ l, Keeping (i.body l)) (h : Keeps s₀ s) : Keeps s₀ (Machine.issue c i s) := by
  unfold Machine.issue
  extract_lets
  split
  · exact h.serveParked
  · split
    next e => exact h.serveParked.first.some e
    · split
      next e => exact h.serveParked.shortCount.inr e
      next e =>
        have h4 := h.serveParked.shortCount.inl e
        split
        · exact h4.trapOr h4
        · extract_lets _ _ _ s8
          have h8 : SumAll (fun p => Keeps s₀ p.1) (fun p => Keeps s₀ p.1) s8 := h4.traceSync.ifill.modCore.runIns hi
          clear_value s8
          split
          · exact h4.traceSync.ifill
          · split
            · exact h4.traceSync.ifill.trapOr h4.traceSync.ifill
            · split
              · exact h4.traceSync.ifill.modCore.trapOr h4.traceSync.ifill
              · split
                · exact h4.traceSync.ifill.modCore.trapOr h4.traceSync.ifill
                · split
                  · exact h4.traceSync.ifill.modCore.abortScene
                  · split
                    · have h9 : Keeps s₀ _ := h8
                      exact .ite h9 (h9.stopped h4.traceSync.ifill)
                    · have h9 : Keeps s₀ _ := h8
                      exact .ite h9 h9.retire

theorem Keeps.complete {c g o} (h : Keeps s₀ s) : Keeps s₀ (s.complete c g o) := h.modCore.retire

theorem Keeps.failWait {c t'} (h : Keeps s₀ s) : Keeps s₀ (s.failWait c t') := h.modCore.takeTrap

/-! ### Machine/Obj -/

theorem Keeping.readAt {a ld} : Keeping (Machine.readAt a ld) := .bind .xlate fun _ => .readWord

theorem Keeping.initStore {a v win} : Keeping (Machine.initStore a v win) := .bind .xlate fun _ => .writeWord

theorem Keeping.checkMem {w a} : Keeping (Machine.checkMem w a) := .check

theorem Keeping.typeFault {sub w pos} : Keeping ((Machine.typeFault sub w pos) : M α) := .raise

theorem Keeping.memFault {sub w a} : Keeping ((Machine.memFault sub w a) : M α) := .raise

theorem Keeping.hdrFrom {fuel a ld} : Keeping (Machine.hdrFrom fuel a ld) := by
  induction fuel generalizing a with
  | zero => exact .bind .readAt fun _ => .bind .checkMem fun _ => .ite .pure (.ite .memFault .memFault)
  | succ fuel ih => exact .bind .readAt fun _ => .bind .checkMem fun _ => .ite .pure (.ite ih .memFault)

theorem Keeping.hdrOf {p ld} : Keeping (Machine.hdrOf p ld) := .hdrFrom

theorem Keeping.objHdr {w pos ld} : Keeping (Machine.objHdr w pos ld) := by
  refine .bind .resolve fun _ => .bind .hdrOf fun _ => ?_
  split
  · exact .ite .pure .memFault

theorem Keeping.cSpillOne : Keeping Machine.cSpillOne :=
  .bind .getCore fun _ => .ite .raise (.bind .store fun _ => .bind .noteSpill fun _ => .modMe)

theorem Keeping.cSpillFor {fuel n} : Keeping (Machine.cSpillFor fuel n) := by
  induction fuel generalizing n with
  | zero => exact .pure
  | succ fuel ih => exact .bind .getCore fun _ => .ite .pure (.bind .cSpillOne fun _ => ih)

theorem Keeping.cFillTo {fuel p} : Keeping (Machine.cFillTo fuel p) := by
  induction fuel generalizing p with
  | zero => exact .pure
  | succ fuel ih =>
    rw [Machine.cFillTo]
    refine .bind .getCore fun _ => ?_
    exact .ite .pure (.bind .load fun _ => .bind .modMe fun _ => .bind (.updS fun _ _ _ h => h.bump) fun _ => ih)

theorem Keeping.cReadAs {p n ld} : Keeping (Machine.cReadAs p n ld) := by
  unfold Machine.cReadAs
  extract_lets f1
  have hf1 : ∀ x, Keeping (f1 x) := by
    intro x
    unfold f1
    refine .bind .getCore fun _ => ?_
    split
    · exact .pure
    · exact .bind .load fun _ => .bind (.updS fun _ _ _ h => h.bump) fun _ => .pure
  exact .ite (.bind .cFillTo fun _ => hf1 ()) (hf1 ())

theorem Keeping.cRead {p n} : Keeping (Machine.cRead p n) := .cReadAs

theorem Keeping.cPush {w} : Keeping (Machine.cPush w) := .bind .cSpillFor fun _ => .modMe

theorem Keeping.cDrop {n} : Keeping (Machine.cDrop n) := .modMe

theorem Keeping.cWrite {p w} : Keeping (Machine.cWrite p w) :=
  .bind .getCore fun _ => .ite .modMe (.bind .store fun _ => .updS fun _ _ _ h => h.bump)

theorem Keeping.cPushEmpty {n} : Keeping (Machine.cPushEmpty n) := by
  induction n with
  | zero => exact .pure
  | succ fuel ih => exact .bind .cPush fun _ => ih

theorem Keeping.cFrame {p kind} : Keeping (Machine.cFrame p kind) :=
  .bind .getCore fun _ => .bind .cRead fun _ => .bind .checkMem fun _ => .ite .pure .memFault

theorem Keeps.takeChunk {cl} (h : Keeps s₀ s) : OptAll (fun p => Keeps s₀ p.2) (s.takeChunk cl) := by
  unfold State.takeChunk
  extract_lets
  split
  · exact h.setRegion0
  · split
    · exact trivial
    · exact h.openRegion.modCluster

theorem Keeps.setGrants {n} (h : Keeps s₀ s) : Keeps s₀ (s.setGrants n) := h.upd.setFld

theorem Keeps.refill {c grant} (h : Keeps s₀ s) : OptAll (Keeps s₀) (s.refill c grant) := by
  unfold State.refill
  split
  · exact trivial
  next e =>
    have h1 := h.takeChunk.some e
    extract_lets s2
    have h2 : Keeps s₀ s2 := .ite h1.setGrants h1
    exact h2.upd.modCore

theorem Keeping.enterPacing {n} : Keeping (Machine.enterPacing n) := by
  refine .bind .getCore fun _ => .bind .askS fun _ => ?_
  extract_lets
  refine .bind ?_ fun _ => ?_
  · refine .updS fun s₀ _ _ h => ?_
    extract_lets _ s5
    have h5 : Keeps s₀ s5 := .ite h h.bump
    exact h5.upd
  · exact .bind .modMe fun _ => .ite .throw (.bind .modMe fun _ => .throw)

theorem Keeping.allocRoom {n} : Keeping (Machine.allocRoom n) := by
  refine .bind .getCore fun _ => ?_
  split
  · exact .pure
  · extract_lets f1
    have hf1 : ∀ x, Keeping (f1 x) := by
      intro x
      unfold f1
      refine .bind .me fun _ => ?_
      refine .get fun s₀ s c h => ?_
      extract_lets
      split
      · split
        next e =>
          have h12 := h.refill.some e
          refine KeepsAt.set h12 ?_
          refine .bind .getCore fun _ => .bind .ndval fun _ => ?_
          split
          · exact .bind .modMe fun _ => .pure
        · exact Keeping.at (.bind .enterPacing fun _ => .pure) h
      · exact Keeping.at (.bind .enterPacing fun _ => .pure) h
    exact .ite (hf1 ()) (.bind (.updS fun _ _ _ h => h.upd) fun _ => hf1 ())

theorem Keeping.allocDone {n} : Keeping (Machine.allocDone n) := .modMe

theorem Keeping.epochAt {a} : Keeping (Machine.epochAt a) := .askS

theorem Keeping.allocPair {car cdr win} : Keeping (Machine.allocPair car cdr win) := by
  refine .bind .allocRoom fun _ => ?_
  exact .bind .initStore fun _ => .bind .initStore fun _ => .bind .allocDone fun _ => .bind .epochAt fun _ => .pure

theorem Keeping.initWords {a l} : Keeping (Machine.initWords a l) := by
  induction l generalizing a with
  | nil => exact .pure
  | cons w l ih => exact .bind .initStore fun _ => ih

theorem Keeping.initFill {n a w} : Keeping (Machine.initFill n a w) := by
  induction n generalizing a w with
  | zero => exact .pure
  | succ fuel ih => exact .bind .initStore fun _ => ih

theorem Keeping.allocObj {t' sub ws} : Keeping (Machine.allocObj t' sub ws) := by
  unfold Machine.allocObj
  extract_lets
  refine .bind .allocRoom fun _ => ?_
  exact .bind .initStore fun _ => .bind .initWords fun _ => .bind .allocDone fun _ => .bind .epochAt fun _ => .pure

theorem Keeping.allocate {w1 w2} : Keeping (Machine.allocate w1 w2) := by
  refine .bind .askS fun _ => ?_
  split
  · exact .typeFault
  · exact .typeFault
  · extract_lets _ _ _ f4
    have hf4 : ∀ x, Keeping (f4 x) := by
      intro x
      unfold f4
      refine .bind .allocRoom fun _ => .bind .initStore fun _ => .bind .initFill fun _ => .bind .allocDone fun _ => ?_
      extract_lets
      split
      · exact .bind (.updS fun _ _ _ h => h.upd) fun _ => .bind .epochAt fun _ => .pure
      · exact .bind .epochAt fun _ => .pure
    exact .ite .raise (.bind .askS fun _ => .ite (.bind .raise fun _ => hf4 ()) (hf4 ()))

theorem Keeping.microPrep : Keeping Machine.microPrep := .spillFor

theorem Keeping.pureIns {g delay f l} : Keeping ((Machine.pureIns g delay f).body l) := .pure

/-! ### Machine/Heap -/

theorem Keeping.eStop {cause va} : Keeping ((Machine.eStop cause va) : EM α) := .throw

theorem Keeps.homeRead {line} (h : Keeps s₀ s) : Keeps s₀ (s.homeRead line) := by
  unfold State.homeRead
  extract_lets
  split
  · split
    · exact h.countUreq.obtain.clDemote.setDir
    · exact h.countUreq.obtain
  · exact h.countUreq.obtain

theorem Keeps.agentRead {num line} (h : Keeps s₀ s) : Keeps s₀ (s.agentRead num line) := .ite h.clRead.noteChunk h.homeRead.truncate

theorem Keeps.agentWrite {num pa w} (h : Keeps s₀ s) : Keeps s₀ (s.agentWrite num pa w) :=
  .ite h.clOwn.noteChunk.storeWord h.countUreq.obtain.recall.truncate.storeWord

theorem Keeping.eXlate {va kind} : Keeping (Machine.eXlate va kind) := by
  refine .bind .read fun _ => ?_
  refine .get fun s₀ s c h => ?_
  split
  · exact Keeping.at (.eStop) h
  next e =>
    have h1 := h.colXlate.fst e
    refine KeepsAt.set h1 ?_
    split
    · exact .pure
    · exact .pure
    · exact .ite .pure .eStop
    · exact .eStop

theorem Keeping.eReadPa {va pa} : Keeping (Machine.eReadPa va pa) := by
  refine .bind .read fun _ => ?_
  refine .get fun s₀ s c h => ?_
  extract_lets
  split
  · exact h
  · split
    · split
      · exact Keeping.at (.eStop) h
      · split
        · exact h
        · exact KeepsAt.set h.slotLoses (.eStop)
        next e =>
          have h1 := h.arbitrate.go e
          split
          · exact Keeping.at (.eStop) h
          · refine KeepsAt.set h1.putSlot.agentRead ?_
            split
            · exact .pure
            · exact .pure
    · exact KeepsAt.set h.agentRead (.pure)

theorem Keeping.eWritePa {va pa w} : Keeping (Machine.eWritePa va pa w) := by
  refine .bind .read fun _ => ?_
  refine .get fun s₀ s c h => ?_
  extract_lets
  split
  · exact h
  · split
    · exact h
    · split
      · split
        · exact KeepsAt.set h.slotLoses .eStop
        · exact Keeping.at .eStop h
      · exact h
    next e =>
      have h1 := h.arbitrate.go e
      split
      · split
        · exact Keeping.at .eStop h
        · split
          · exact Keeping.at .eStop h
          · exact h1.putSlot
      · exact h1.agentWrite

theorem Keeping.eRead {va} : Keeping (Machine.eRead va) := .bind .eXlate fun _ => .eReadPa

theorem Keeping.eWrite {va w} : Keeping (Machine.eWrite va w) := .bind .eXlate fun _ => .eWritePa

theorem Keeping.eCopyWords {n i src dst} : Keeping (Machine.eCopyWords n i src dst) := by
  induction n generalizing i src dst with
  | zero => exact .pure
  | succ fuel ih => exact .bind .eRead fun _ => .bind .eWrite fun _ => ih

theorem Keeping.eForward {base} : Keeping (Machine.eForward base) := by
  refine .bind .eRead fun _ => ?_
  split
  · exact .pure
  · refine .bind .read fun _ => ?_
    extract_lets
    refine .bind .eAsk fun _ => ?_
    refine .get fun s₀ s c h => ?_
    extract_lets
    split
    · exact Keeping.at (.eStop) h
    next e => exact KeepsAt.set (h.evacRoom.some e) (.bind .eCopyWords fun _ => .bind .eAsk fun _ => .bind .eWrite fun _ =>
      .bind (.change fun _ _ h => h.bump) fun _ => .pure)

theorem Keeping.eFindHdr {fuel cur} : Keeping (Machine.eFindHdr fuel cur) := by
  induction fuel generalizing cur with
  | zero => exact .pure
  | succ fuel ih =>
    refine .bind .eRead fun _ => .ite .pure ?_
    cases cur with
    | zero => exact .pure
    | succ cur => exact ih

theorem Keeping.eFindLarge {fuel r} : Keeping (Machine.eFindLarge fuel r) := by
  induction fuel generalizing r with
  | zero => exact .pure
  | succ fuel ih =>
    refine .bind .eAsk fun _ => .bind .eRead fun _ => .ite .pure ?_
    cases r with
    | zero => exact .pure
    | succ r => exact ih

theorem Keeping.eBase {p} : Keeping (Machine.eBase p) := by
  unfold Machine.eBase
  extract_lets
  split
  · exact .pure
  · refine .bind .eAsk fun _ => ?_
    split
    · exact .pure
    · refine .bind .eAsk fun _ => ?_
      split
      · split
        · exact .bind .eFindLarge fun _ => .eAsk
        · refine .bind .eFindHdr fun _ => ?_
          split
          · exact .pure
          · exact .ite .pure (.bind .eRead fun _ => .pure)

theorem Keeping.eHeapPtr {w} : Keeping (Machine.eHeapPtr w) := .bind .read fun _ => .eAsk

theorem Keeping.eHeal {w} : Keeping (Machine.eHeal w) := by
  refine .bind .eHeapPtr fun _ => .bind .eAsk fun _ => ?_
  split
  · exact .pure
  · refine .bind .eBase fun _ => .bind .eForward fun _ => ?_
    split
    · exact .pure

theorem Keeping.eObj {va} : Keeping (Machine.eObj va) := by
  refine .bind .eAsk fun _ => ?_
  split
  · refine .bind .eForward fun _ => ?_
    split
    · exact .pure
  · exact .bind .eRead fun _ => .pure

theorem Keeps.modEngine {cl f} (h : Keeps s₀ s) : Keeps s₀ (s.modEngine cl f) := h.modCluster

theorem Keeps.pushJob {cl j} (h : Keeps s₀ s) : Keeps s₀ (s.pushJob cl j) := by
  unfold State.pushJob
  split
  · exact .ite h.modEngine.bump h.modEngine
  · exact h.modEngine

theorem Keeps.setMark {pa} (h : Keeps s₀ s) : Keeps s₀ (s.setMark pa) := h.wr

theorem Keeping.eMark {base} : Keeping (Machine.eMark base) := by
  refine .bind .read fun _ => .bind .eAsk fun _ => ?_
  split
  · exact .pure
  · refine .bind .eAsk fun _ => ?_
    split
    · exact .pure
    · exact .bind .eXlate fun _ => .ite .eStop (.bind .eAsk fun _ => .ite .pure (.change fun _ _ h => h.setMark.bump.pushJob))

theorem Keeping.eMarkWord {w} : Keeping (Machine.eMarkWord w) := by
  refine .bind .read fun _ => ?_
  split
  · exact .change fun _ _ h => h.bump
  · exact .bind .eHeapPtr fun _ => .bind .eAsk fun _ => .ite (.bind .eBase fun _ => .eMark) .pure

theorem Keeping.eMarkWords {n va} : Keeping (Machine.eMarkWords n va) := by
  induction n generalizing va with
  | zero => exact .pure
  | succ fuel ih => exact .bind .eRead fun _ => .bind .eMarkWord fun _ => ih

theorem Keeps.addLive {r n} (h : Keeps s₀ s) : Keeps s₀ (s.addLive r n) := h.upd

theorem Keeping.eObject {va} : Keeping (Machine.eObject va) := .bind .eRead fun _ => .ite (.bind .eRead fun _ => .pure) .pure

theorem Keeping.eLive {r va} : Keeping (Machine.eLive r va) := by
  refine .bind .eAsk fun _ => ?_
  split
  · exact .ite .pure (.bind .eAsk fun _ => .bind .eAsk fun _ => .ite .pure (.bind .eXlate fun _ => .eAsk))

theorem Keeping.eFixWord {r va} : Keeping (Machine.eFixWord r va) := by
  refine .bind .read fun _ => .bind .eRead fun _ => .bind .eHeapPtr fun _ => .bind .eAsk fun _ => ?_
  split
  · exact .pure
  · refine .bind .eBase fun _ => .bind .eRead fun _ => ?_
    split
    · exact .pure
    · extract_lets
      refine .bind .eWrite fun _ => ?_
      refine .change fun s₀ _ h => ?_
      extract_lets
      split
      · exact h.bump.agentWrite
      · exact h.bump

theorem Keeping.eFixWords {r n va} : Keeping (Machine.eFixWords r n va) := by
  induction n generalizing r va with
  | zero => exact .pure
  | succ fuel ih => exact .bind .eFixWord fun _ => ih

theorem Keeps.expOpen {i va weight ind t'} (h : Keeps s₀ s) : Keeps s₀ (s.expOpen i va weight ind t') := h.setReg.setReg.upd

theorem Keeps.expClose {i} (h : Keeps s₀ s) : Keeps s₀ (s.expClose i) := h.setReg.upd

theorem Keeps.weightBack {i gen weight} (h : Keeps s₀ s) : OptAll (Keeps s₀) (s.weightBack i gen weight) := by
  unfold State.weightBack
  extract_lets
  split
  · exact trivial
  · exact .ite h.setReg.expClose h.setReg

theorem Keeps.exportPtr {w ind} (h : Keeps s₀ s) : SumAll (fun _ => True) (fun p => Keeps s₀ p.2) (s.exportPtr w ind) := by
  unfold State.exportPtr
  extract_lets
  split
  · extract_lets
    split
    · exact trivial
    · exact h.setReg
  · split
    · exact trivial
    · exact h.expOpen

theorem Keeping.eSend {w} : Keeping (Machine.eSend w) := by
  refine .bind .read fun _ => .bind .eAsk fun _ => ?_
  split
  · exact .pure
  · split
    · exact .pure
    · split
      · refine .bind .eObj fun _ => .bind .eRead fun _ => .bind .eRead fun _ => ?_
        extract_lets
        split
        · exact .bind .eWrite fun _ => .pure
        · refine .get fun s₀ s c h => ?_
          split
          · exact h
          next e => exact KeepsAt.set (h.exportPtr.inr e) (.pure)
      · refine .bind .eHeapPtr fun _ => ?_
        split
        · refine .get fun s₀ s c h => ?_
          split
          · exact h
          next e => exact KeepsAt.set (h.exportPtr.inr e) (.pure)
        · exact .pure

theorem Keeps.localWord {w} (h : Keeps s₀ s) : Keeps s₀ (s.localWord w).2 := by
  unfold State.localWord
  extract_lets
  split
  · split
    · exact h
    · split
      · exact h
      · split
        next e => exact h.fresh.snd e
  · exact h

/-! ### Machine/Collect -/

theorem Keeps.setPhase {n} (h : Keeps s₀ s) : Keeps s₀ (s.setPhase n) := h.setFld.upd

theorem Keeps.setBusy {b} (h : Keeps s₀ s) : Keeps s₀ (s.setBusy b) := h.setFld

theorem Keeps.cmdErr (h : Keeps s₀ s) : Keeps s₀ s.cmdErr := h.setFld

theorem Keeps.phaseDone (h : Keeps s₀ s) : Keeps s₀ s.phaseDone := h.cueEvent

theorem Keeps.clearEngines (h : Keeps s₀ s) : Keeps s₀ s.clearEngines := h.upd

theorem Keeps.colHeapbase {v} (h : Keeps s₀ s) : Keeps s₀ (s.colHeapbase v) := .ite h.setFld h.setFld

theorem Keeps.colRset {v} (h : Keeps s₀ s) : Keeps s₀ (s.colRset v) := by
  unfold State.colRset
  extract_lets _ _ _ _ s5
  have h5 : Keeps s₀ s5 := .ite h.setFld h
  exact .ite h5.setFld (.ite h5.openRegion h5.setRegion0)

theorem Keeps.colRootq {va} (h : Keeps s₀ s) : Keeps s₀ (s.colRootq va) := by
  unfold State.colRootq
  split
  · split
    · exact h.pushJob
    · exact h
  · exact h

theorem Keeps.clearMarks {pa len} (h : Keeps s₀ s) : Keeps s₀ (s.clearMarks pa len) := h.foldl fun _ _ h => h.wr

theorem Keeps.clearRegionMarks {fuel va len} (h : Keeps s₀ s) : Keeps s₀ (s.clearRegionMarks fuel va len) := by
  induction fuel generalizing s va len with
  | zero => exact h
  | succ fuel ih =>
    rw [State.clearRegionMarks]
    split
    · exact h
    · split
      next e => exact h.colXlate.fst e
      next e => exact ih (h.colXlate.fst e).clearMarks

theorem Keeps.takeCards (h : Keeps s₀ s) : Keeps s₀ s.takeCards := h.foldl fun _ _ h => h.wr.foldl fun _ _ h => h.pushJob

theorem Keeps.colMark {young} (h : Keeps s₀ s) : Keeps s₀ (s.colMark young) := by
  unfold State.colMark
  split
  · exact h.cmdErr
  · extract_lets s1 _ s3 _ _ _ s7
    have h1 : Keeps s₀ s1 := h.foldl fun _ _ h => h.setRegion0
    have h3 : Keeps s₀ s3 := h1.setFld.foldl fun _ _ h => h.clearRegionMarks
    have h7 : Keeps s₀ s7 := by
      unfold s7
      refine h3.upd.clearEngines.setPhase.setBusy.foldl fun _ _ h => ?_
      split
      · exact h.pushJob
      · exact h
    exact .ite h7.takeCards h7

theorem Keeps.selectRegions {n j} (h : Keeps s₀ s) : Keeps s₀ (s.selectRegions n j) := by
  induction n generalizing j s with
  | zero => exact h
  | succ fuel ih => exact ih (.ite h h.upd.setRegion0)

theorem Keeps.colEvacuate {count} (h : Keeps s₀ s) : Keeps s₀ (s.colEvacuate count) :=
  .ite h.cmdErr (.ite h.selectRegions.setBusy h.selectRegions.setBusy.pushJob)

theorem Keeps.unselect (h : Keeps s₀ s) : Keeps s₀ s.unselect := by
  unfold State.unselect
  extract_lets s1
  have h1 : Keeps s₀ s1 := h.foldl fun _ _ h => h.setRegion0
  exact h1.upd.upd

theorem Keeps.colFinish (h : Keeps s₀ s) : Keeps s₀ s.colFinish := by
  unfold State.colFinish
  split
  · exact h.cmdErr
  · extract_lets _ s2
    have h2 : Keeps s₀ s2 := h.foldl fun _ _ h => h.setRegion0
    exact h2.setGrants.setPhase

theorem Keeps.colIdle (h : Keeps s₀ s) : Keeps s₀ s.colIdle := .ite h.cmdErr h.unselect.setBusy.setPhase

theorem Keeps.colAbort (h : Keeps s₀ s) : Keeps s₀ s.colAbort :=
  .ite h.setFld (.ite h.clearEngines.setBusy.setPhase.setFld (.ite (.ite h.unselect.setBusy.setFld h.setFld) h.setFld))

theorem Keeps.colCommand {v} (h : Keeps s₀ s) : Keeps s₀ (s.colCommand v) := by
  unfold State.colCommand
  split
  · exact h.colMark
  · exact h.colMark
  · exact h.colEvacuate
  · exact h.colFinish
  · exact h.colIdle
  · exact h.colAbort
  · exact h.cmdErr.setFld

theorem Keeps.doomRegion {pas} (h : Keeps s₀ s) : Keeps s₀ (s.doomRegion pas) := by
  unfold State.doomRegion
  extract_lets _ _ s3
  have h3 : Keeps s₀ s3 := by
    unfold s3
    refine h.foldl fun _ _ h => ?_
    extract_lets
    split
    · exact .ite h.abortScene h
    · exact h
  exact h3.foldl fun _ _ h => h.slotLoses

theorem Keeps.flip (h : Keeps s₀ s) : Keeps s₀ s.flip := by
  unfold State.flip
  extract_lets _ s2
  have h2 : Keeps s₀ s2 := h.foldl fun _ _ h => h.setRegion0.doomRegion.pushJob
  exact h2.upd.setPhase

theorem Keeps.finalise {va w} (h : Keeps s₀ s) : Keeps s₀ (s.finalise va w) := .ite h.upd h

theorem Keeping.runJob {j} : Keeping (Machine.runJob j) := by
  unfold Machine.runJob
  split
  · exact .bind .eRead fun _ => .bind .eMark fun _ => .pure
  · exact .bind .eAsk fun _ => .bind .eMarkWords fun _ => .pure
  · exact .bind .eRead fun _ => .bind .eAsk fun _ => .bind (.change fun _ _ h => h.addLive) fun _ => .bind .eMarkWords fun _ => .pure
  · refine .bind .eAsk fun _ => ?_
    split
    · split
      · exact .pure
      · refine .bind .eObject fun _ => ?_
        split
        · refine .bind .eLive fun _ => ?_
          exact .ite (.bind .eForward fun _ => .pure) (.ite .pure (.bind (.change fun _ _ h => h.finalise) fun _ => .pure))
  · refine .bind .eAsk fun _ => ?_
    split
    · split
      · exact .pure
      · refine .bind .eObject fun _ => ?_
        split
        · exact .bind .eLive fun _ => .ite (.bind .eFixWords fun _ => .pure) (.bind (.change fun _ _ h => h.finalise) fun _ => .pure)
  · refine .bind .eAsk fun _ => ?_
    split
    · exact .bind (.ite .eObj .pure) fun _ => .bind (.change fun _ _ h => .ite h.setFld h) fun _ => .pure
  · exact .bind .eObj fun _ => .bind (.change fun _ _ h => h.upd) fun _ => .pure
  · refine .bind .eAsk fun _ => ?_
    split
    · exact .pure
    · refine .bind .eAsk fun _ => .bind .eLive fun _ => ?_
      split
      · exact .pure
      · refine .bind .eRead fun _ => ?_
        extract_lets f1
        have hf1 : ∀ x, Keeping (f1 x) := fun _ =>
          .bind .eRead fun _ => .bind (.change fun _ _ h => h.upd.sendReliable) fun _ => .pure
        exact .ite (.bind .eStop fun _ => hf1 ()) (hf1 ())
  · exact .bind (.change fun _ _ h => h.flip) fun _ => .pure

theorem Keeps.writeLive (h : Keeps s₀ s) : Keeps s₀ s.writeLive := h.foldl fun _ _ h => h.wr

theorem Keeps.engineStop {cl cause va} (h : Keeps s₀ s) : Keeps s₀ (s.engineStop cl cause va) := by
  unfold State.engineStop
  split
  next e =>
    have ht := h.fresh.snd e
    split
    next e =>
      split at e
      · exact (h.snd e).setFld.setFld.setFld.cueEvent
      · exact (ht.snd e).setFld.setFld.setFld.cueEvent

theorem Keeps.takeSatb {cl} (h : Keeps s₀ s) : Keeps s₀ (s.takeSatb cl) := by
  unfold State.takeSatb
  extract_lets n _ work
  have hw : Keeping work := .bind .eBase fun _ => .eMark
  split
  next e => exact (hw h.upd).ok e
  · exact h.engineStop
  · exact h.askHost

theorem Keeps.engineIdle {cl} (h : Keeps s₀ s) : Keeps s₀ (s.engineIdle cl) := by
  unfold State.engineIdle
  split
  · exact h.modEngine.pushJob
  · split
    · split
      · exact h.takeSatb
      · split
        · exact h
        · extract_lets s1
          have h1 : Keeps s₀ s1 := h.foldl fun _ _ h => .ite h h.flushSatb
          split
          · exact h1
          · refine Keeps.phaseDone ?_
            refine h1.writeLive.setPhase.setBusy.setFld.foldl fun _ _ h => ?_
            split
            · exact h.pushJob
            · exact h
    · split
      · extract_lets _ s2 s3
        have h2 : Keeps s₀ s2 := h.setPhase.foldl fun _ _ h => h.pushJob
        have h3 : Keeps s₀ s3 := h2.foldl fun _ _ h => h.pushJob
        exact (h3.foldl fun _ _ h => h.pushJob).phaseDone
      · exact .ite h.setBusy.phaseDone h

theorem Keeps.engineStep {cl} (h : Keeps s₀ s) : Keeps s₀ (s.engineStep cl) := by
  unfold State.engineStep
  extract_lets
  split
  · exact h.serveParked
  · split
    · exact h.serveParked.engineIdle.chunkEvent
    · split
      next e => exact ((Keeping.runJob h.serveParked.modEngine).ok e).modEngine.chunkEvent
      · exact h.serveParked.askHost
      · exact h.serveParked.engineStop

theorem Keeps.barrierCopy {c} (h : Keeps s₀ s) : Keeps s₀ (s.barrierCopy c) := by
  unfold State.barrierCopy
  split
  · extract_lets
    split
    · exact h
    · split
      next e => exact ((Keeping.eForward h).ok e).modCore
      · exact h.askHost
      · exact h.engineStop
  · exact h

theorem Keeps.engineResume {cl} (h : Keeps s₀ s) : Keeps s₀ (s.engineResume cl) := h.setFld

theorem Keeps.pacingGrant {c} (h : Keeps s₀ s) : Keeps s₀ (s.pacingGrant c) := by
  unfold State.pacingGrant
  split
  · split
    · split
      next e => exact (h.refill.some e).note.modCore
      · exact h
    · exact h
  · exact h

theorem Keeps.execPacelimExpiry {c} (h : Keeps s₀ s) : AnsKeeps s₀ (Machine.execPacelimExpiry c s) := by
  unfold Machine.execPacelimExpiry
  split
  · exact .ite h.bump.upd.failWait h
  · exact h

end Sys2Proof.Machine
end

section
/-! PROOFS. Every step keeps canonical memory (O59): Scenes, messages, the ports, control stores, the host and sessions. -/

namespace Sys2Proof.Machine

open Sys2Proof

variable {s₀ s t : State} {α β ρ ε : Type}

/-! ### Machine/Fabric -/

theorem Keeps.commitScene {c} (h : Keeps s₀ s) : Keeps s₀ (s.commitScene c) := by
  unfold State.commitScene
  extract_lets _ _ _ s4 _ _ s7
  have h4 : Keeps s₀ s4 := h.foldl fun _ _ h => h.lineOwn.noteChunk.storeWord
  have h7 : Keeps s₀ s7 := .ite h4.modCore.bump.bump h4.modCore.bump
  exact h7.noteScene

theorem Keeps.newTag (h : Keeps s₀ s) : Keeps s₀ s.newTag.2 := h.upd

theorem Keeps.prepare {c} (h : Keeps s₀ s) : Keeps s₀ (s.prepare c) := by
  unfold State.prepare
  extract_lets
  split
  next e => exact (h.newTag.snd e).logOutcome.modCore.foldl fun _ _ h => h.sendMsg

theorem Keeps.commitDist {c} (h : Keeps s₀ s) : Keeps s₀ (s.commitDist c) := by
  unfold State.commitDist
  extract_lets _ _ _ s4
  have h4 : Keeps s₀ s4 := h.commitScene.logOutcome.foldl fun _ _ h => h.sendReliable
  exact h4.wakeLines.complete

theorem Keeps.externalMsg {m} (h : Keeps s₀ s) : OptAll (Keeps s₀) (s.externalMsg m) := h.external

theorem Keeps.ringWrite {node pa l} (h : Keeps s₀ s) : OptAll (Keeps s₀) (s.ringWrite node pa l) := by
  induction l generalizing s node pa with
  | nil => exact h
  | cons w l ih =>
    rw [State.ringWrite]
    split
    next e => exact ih (h.arbitrate.go e).agentWrite
    · exact trivial

theorem Keeps.localWords {l} (h : Keeps s₀ s) : Keeps s₀ (s.localWords l).2 := by
  induction l generalizing s with
  | nil => exact h
  | cons w l ih =>
    rw [State.localWords]
    split
    next e =>
      have h1 := h.localWord.snd e
      split
      next e => exact (ih h1).snd e

theorem Keeps.ringPut {port m} (h : Keeps s₀ s) : OptAll (Keeps s₀) (s.ringPut port m) := by
  unfold State.ringPut
  split
  · exact trivial
  · extract_lets
    split
    next e =>
      have h5 := h.fresh.snd e
      extract_lets _ s7
      have h7 : Keeps s₀ s7 := .ite h5 h
      split
      next e =>
        have h9 := h7.localWords.snd e
        split
        · exact trivial
        next e =>
          have h10 := h9.ringWrite.some e
          extract_lets _ s12
          have h12 : Keeps s₀ s12 := .ite h10.setFld.cueEvent h10.setFld
          split
          · exact .ite h12.cueEvent h12
          · exact h12

theorem Keeps.ringArrive {port m} (h : Keeps s₀ s) : Keeps s₀ (s.ringArrive port m) := by
  unfold State.ringArrive
  extract_lets s1
  have h1 : OptAll (Keeps s₀) s1 := by
    unfold s1
    split
    · exact trivial
    · split
      · exact trivial
      next e => exact (h.externalMsg.some e).ringPut
  clear_value s1
  split
  · exact h1
  · exact h.upd.bump

theorem Keeps.tourRun {a} {x : EM α} (h : Keeps s₀ s) (hx : Keeping x) : Keeps s₀ (endState (s.tourRun a x)) := hx h

theorem Keeps.completeFuture {node entry v sub weight} (h : Keeps s₀ s) :
    OptAll (Keeps s₀) (s.completeFuture node entry v sub weight) := by
  unfold State.completeFuture
  split
  · exact h
  · extract_lets work
    have hw : Keeping work := by
      refine .bind .eObj fun _ => ?_
      cases v with
      | none => exact .eWrite
      | some w => exact .bind .eWrite fun _ => .eWrite
    split
    · exact trivial
    next e =>
      have h2 := (h.tourRun hw).error e
      exact h2.weightBack.getD h2
    next e =>
      have h2 := (h.tourRun hw).ok e
      exact h2.weightBack.getD h2

theorem Keeps.dropReq {tag} (h : Keeps s₀ s) : Keeps s₀ (s.dropReq tag) := h.upd

theorem Keeps.failReq {r sub node} (h : Keeps s₀ s) : OptAll (Keeps s₀) (s.failReq r sub node) := by
  unfold State.failReq
  split
  · exact h.completeFuture.map fun _ h => h.dropReq
  · extract_lets
    split
    · exact h.dropReq
    · split
      · exact h.dropReq.abortScene
      · exact h.dropReq.failWait

theorem Keeps.response {m} (h : Keeps s₀ s) : OptAll (Keeps s₀) (s.response m) := by
  unfold State.response
  split
  · exact h
  · extract_lets
    split
    · split
      · exact trivial
      next e =>
        have h7 := h.externalMsg.some e
        split
        · exact h7.failReq
        · exact h7.completeFuture.map fun _ h => h.dropReq
    · split
      · exact h.dropReq
      · split
        · exact h.note.failReq
        · split
          · exact h.note.dropReq.complete
          · exact h.note.dropReq.complete

theorem Keeps.answer {m status units} (h : Keeps s₀ s) : Keeps s₀ (s.answer m status units) := .ite h.toSelf h.forward

theorem Keeps.slotFor {id} (h : Keeps s₀ s) : OptAll (fun p => Keeps s₀ p.2) (s.slotFor id) := by
  unfold State.slotFor
  split
  · exact h
  · split
    · exact h.putSlot
    · exact trivial

theorem Keeping.remoteAccess {obj idx val} : Keeping (Machine.remoteAccess obj idx val) := by
  refine .bind .eObj fun _ => .bind .eRead fun _ => ?_
  extract_lets
  split
  · exact .pure
  · split
    · exact .bind .eWrite fun _ => .pure
    · refine .bind .eRead fun _ => .bind .eHeal fun _ => .bind .eSend fun _ => ?_
      split
      · exact .pure
      · exact .pure

theorem Keeps.serve {m} (h : Keeps s₀ s) : OptAll (Keeps s₀) (s.serve m) := by
  unfold State.serve
  extract_lets r i wr s4
  have h4 : OptAll (OptAll (fun p => Keeps s₀ p.2)) s4 := by
    unfold s4
    split
    · exact h.slotFor
    · exact trivial
  clear_value s4
  split
  · exact h.answer
  · split
    · split
      · exact h.answer
      · have hw : Keeping (Machine.eObj (s.expObj i) >>= fun b => Machine.eRead (b + 1)) := .bind .eObj fun _ => .eRead
        split
        · exact trivial
        next e => exact ((h.tourRun hw).error e).answer
        next e =>
          have h5 := (h.tourRun hw).ok e
          exact .ite h5.toSelf h5.forward
    · split
      · exact h.answer
      · split
        next e =>
          extract_lets s6
          have h6 : OptAll (Keeps s₀) s6 := by
            split at e
            next n u _ => exact OptAll.of_ite (Keeps.snd (p := (Agent.slot n, u)) h4 e).externalMsg (Keeps.snd (p :=
              (Agent.slot n, u)) h4 e)
            · exact OptAll.of_ite (h.snd e).externalMsg (h.snd e)
          clear_value s6
          split
          · exact trivial
          · have h7 : Keeps s₀ _ := h6
            split
            · exact trivial
            · exact h.answer
            next e => exact (h7.tourRun .remoteAccess).error e
            next e => exact ((h7.tourRun .remoteAccess).error e).answer
            next e => exact ((h7.tourRun .remoteAccess).ok e).answer

theorem Keeps.applySlot {x} (h : Keeps s₀ s) : Keeps s₀ (s.applySlot x) := h.freeSlot.foldl fun _ _ h => h.agentWrite

theorem Keeps.vote {m} (h : Keeps s₀ s) : Keeps s₀ (s.vote m) := by
  unfold State.vote
  split
  · exact h
  · exact .ite h (.ite h.abortScene (.ite h.abortScene (.ite h.abortScene (.ite h.modCore.commitDist h.modCore))))

theorem Keeps.notice {m} (h : Keeps s₀ s) : Keeps s₀ (s.notice m) := .ite h.abortScene h

theorem Keeps.outcome {m} (h : Keeps s₀ s) : Keeps s₀ (s.outcome m) := by
  unfold State.outcome
  split
  · exact h
  · split
    · exact h.applySlot
    · exact h.freeSlot
    · exact .ite h h.putSlot.ringArrive
    · exact h

theorem Keeps.deliver {port m} (h : Keeps s₀ s) : OptAll (Keeps s₀) (s.deliver port m) := by
  unfold State.deliver
  extract_lets
  split
  · exact h.serve
  · exact h.response
  · exact h.serve
  · exact h.response
  · exact .ite h.ringArrive h
  · exact .ite h.ringArrive h
  · split
    · split
      · exact trivial
      next e => exact (h.externalMsg.some e).completeFuture
    · exact h.bump
  · exact h.weightBack.getD h.bump
  · split
    · exact h.putPeer.retryWaiting
    · exact h
  · split
    next e =>
      split at e
      · exact (h.putSlot.snd e).sendMsg
      · exact (h.snd e).sendMsg
  · exact h.vote
  · split
    · exact h.externalMsg.map fun _ h => h.applySlot
    · exact h
  · split
    · exact h.freeSlot
    · exact h
  · exact h.notice
  · exact h.sendMsg
  · exact h.outcome
  · exact h.ringArrive
  · exact h.bump

theorem Keeps.eack {node seq} (h : Keeps s₀ s) : Keeps s₀ (s.eack node seq) := h.sendMsg

theorem Keeps.arriveReliable {port m} (h : Keeps s₀ s) : OptAll (Keeps s₀) (s.arriveReliable port m) := by
  unfold State.arriveReliable
  split
  · exact trivial
  next e =>
    have h1 := h.peerFor.some e
    extract_lets
    split
    · exact .ite h1.putPeer.eack h1.putPeer
    · split
      · exact trivial
      · split
        · exact trivial
        next e => exact (h1.deliver.some e).putPeer.eack

theorem Keeps.arrive {port m} (h : Keeps s₀ s) : Keeps s₀ (s.arrive port m) := by
  unfold State.arrive
  split
  · exact .ite h.bump.answer h.bump
  · split
    next e => exact (OptAll.of_ite h.arriveReliable h.deliver).some e
    · exact .ite h.upd.bump h.upd

theorem Keeps.settleN {fuel} (h : Keeps s₀ s) : Keeps s₀ (s.settleN fuel) := by
  induction fuel generalizing s with
  | zero => exact h
  | succ fuel ih =>
    rw [State.settleN]
    split
    · exact h
    · exact ih h.upd.arrive

theorem Keeps.settle (h : Keeps s₀ s) : Keeps s₀ s.settle := h.settleN

theorem Keeps.retryHeld (h : Keeps s₀ s) : Keeps s₀ s.retryHeld := (h.upd.foldl fun _ _ h => .ite h.arrive h.forward).settle

theorem Keeps.portArrive {p m} (h : Keeps s₀ s) : Keeps s₀ (s.portArrive p m) := by
  unfold State.portArrive
  split
  · exact h
  · extract_lets _ _ _ s4 _ _ s7
    have h4 : Keeps s₀ s4 := .ite h.serveParked.modPort.wakeEvent h.serveParked.modPort
    have h7 : Keeps s₀ s7 := .ite h4.arrive.settle h4.forward
    exact .ite h4.upd (.ite h7 h7.upd)

theorem Keeps.requestTimeout {tag} (h : Keeps s₀ s) : Keeps s₀ (s.requestTimeout tag) := by
  unfold State.requestTimeout
  split
  · exact h
  · exact .ite (h.failReq.getD h) h

theorem Keeps.undeliv {f} (h : Keeps s₀ s) : Keeps s₀ (s.undeliv f) := by
  unfold State.undeliv
  extract_lets _ s2
  have h2 : Keeps s₀ s2 := by
    unfold s2
    split
    · exact .ite h.bump.modCore h.bump
    · exact h.bump
  exact h2.ringArrive

theorem Keeps.retransmit {node} (h : Keeps s₀ s) : Keeps s₀ (s.retransmit node) := by
  unfold State.retransmit
  split
  · exact h
  · split
    · exact h
    · exact .ite h (.ite h.putPeer.undeliv (h.putPeer.foldl fun _ _ h => h.forward))

theorem Keeps.execArrival {type p h0 h1 units} (h : Keeps s₀ s) : AnsKeeps s₀ (Machine.execArrival type p h0 h1 units s) := h.portArrive

theorem Keeps.execOqueryTimer {slot} (h : Keeps s₀ s) : AnsKeeps s₀ (Machine.execOqueryTimer slot s) := by
  unfold Machine.execOqueryTimer
  split
  · split
    · split
      next e => exact (h.newTag.snd e).putSlot.sendMsg.settle
    · exact h
  · exact h

theorem Keeps.execOriginUnreachable {slot} (h : Keeps s₀ s) : AnsKeeps s₀ (Machine.execOriginUnreachable slot s) := by
  unfold Machine.execOriginUnreachable
  split
  · exact .ite h.putSlot.ringArrive h
  · exact h

theorem Keeps.scres {v} (h : Keeps s₀ s) : Keeps s₀ (s.scres v) := by
  unfold State.scres
  split
  · exact .ite (.ite h.applySlot h.freeSlot) h
  · exact h

theorem Keeps.inqhWrite {v} (h : Keeps s₀ s) : Keeps s₀ (s.inqhWrite v) := h.setFld.retryHeld

/-! ### Machine/Ports -/

theorem Keeps.portEnter {p st} (h : Keeps s₀ s) : Keeps s₀ (s.portEnter p st) := h.setFld.modPort

theorem Keeps.portDetect {p} (h : Keeps s₀ s) : Keeps s₀ (s.portDetect p) := .ite h h.portEnter.setFld

theorem Keeps.failRoutes (h : Keeps s₀ s) : Keeps s₀ s.failRoutes := h.foldl fun _ _ h => .ite (h.failReq.getD h) h

theorem Keeps.portDown {p cause} (h : Keeps s₀ s) : Keeps s₀ (s.portDown p cause) := by
  unfold State.portDown
  extract_lets _ _ _ s4 _ _ s7 s8 s9
  have h4 : Keeps s₀ s4 := by
    unfold s4
    split
    · exact h.portEnter.setFld
    · exact h.portEnter
  have h7 : Keeps s₀ s7 := .ite h4.setFld.modPort.bump.cueEvent h4.setFld.modPort
  have h8 : Keeps s₀ s8 := h7.foldl fun _ _ h => h.forward
  have h9 : Keeps s₀ s9 := .ite h8.failRoutes h8
  exact .ite h9.portDetect h9

theorem Keeps.execHello {p node nport w2 seal' sysid idbad cert sig} (h : Keeps s₀ s) :
    AnsKeeps s₀ (Machine.execHello p node nport w2 seal' sysid idbad cert sig s) := by
  unfold Machine.execHello
  split
  · exact h
  · extract_lets _ _ s3
    have h3 : Keeps s₀ s3 := .ite h.bump h
    exact .ite h3.portDown h3.setFld.setFld.setFld.setFld.portEnter.modPort.cueEvent

theorem Keeps.portAck {p ack} (h : Keeps s₀ s) : Keeps s₀ (s.portAck p ack) := .ite h h.modPort.pumpPort

theorem Keeps.stepTime {ns} (h : Keeps s₀ s) : Keeps s₀ (s.stepTime ns) := h.upd.foldl fun _ _ h => h.fireTimers

theorem Keeps.slewBy {tenths} (h : Keeps s₀ s) : Keeps s₀ (s.slewBy tenths) := h.upd

theorem Keeps.align {off} (h : Keeps s₀ s) : Keeps s₀ (s.align off) := .ite h.stepTime h.slewBy

theorem Keeps.execTsyncExchange (h : Keeps s₀ s) : AnsKeeps s₀ (Machine.execTsyncExchange s) := by
  unfold Machine.execTsyncExchange
  extract_lets _ _ _ _ s5
  have h5 : Keeps s₀ s5 := by
    unfold s5
    split
    · exact h.setFld
    · exact h.setFld.setFld.setFld.modPort.align
  exact .ite h h5.upd

theorem Keeps.retrain {p} (h : Keeps s₀ s) : Keeps s₀ (s.retrain p) := .ite h.portDown.portDetect h.portDown

theorem Keeps.portEnable {p en} (h : Keeps s₀ s) : Keeps s₀ (s.portEnable p en) :=
  .ite (.ite h.setFld.portDetect h.setFld) (.ite h.setFld h.setFld.portDown)

/-! ### Machine/Green -/

theorem Keeps.platform (h : Keeps s₀ s) : Keeps s₀ s.platform := by
  unfold State.platform
  split
  next e =>
    have h1 := h.fresh.snd e
    extract_lets x
    clear_value x
    split
    · exact h1.raiseMc.logBb
    · exact h1.logBb

theorem Keeps.msix {v} (h : Keeps s₀ s) : Keeps s₀ (s.msix v) := .ite h.upd h.upd

theorem Keeps.abortCluster {cl code} (h : Keeps s₀ s) : Keeps s₀ (s.abortCluster cl code) := h.foldl fun _ _ h => h.abortScene

theorem Keeps.stopCore {vec sub c} (h : Keeps s₀ s) : Keeps s₀ (s.stopCore vec sub c) := by
  unfold State.stopCore
  split
  · exact h
  · exact h
  · exact h
  · exact h.traceE.modCore.setReg

theorem Keeps.stopAll {vec sub} (h : Keeps s₀ s) : Keeps s₀ (s.stopAll vec sub) := h.foldl fun _ _ h => h.stopCore

theorem Keeps.warmEntry {c} (h : Keeps s₀ s) : Keeps s₀ (s.warmEntry c) := by
  unfold State.warmEntry
  extract_lets
  split
  next e => exact (h.modCore.setReg.vectorOf.fst e).curtain
  next e => exact (h.modCore.setReg.vectorOf.fst e).modCore

theorem Keeps.emptyCluster {cl} (h : Keeps s₀ s) : Keeps s₀ (s.emptyCluster cl) := by
  unfold State.emptyCluster
  refine h.foldl fun _ _ h => ?_
  extract_lets
  split
  · exact h.clGiveUp
  · exact h.clGiveUp.setDir

theorem Keeps.warmRegs {cl} (h : Keeps s₀ s) : Keeps s₀ (s.warmRegs cl) := h.upd

theorem Keeps.warmCluster {cl} (h : Keeps s₀ s) : Keeps s₀ (s.warmCluster cl) := by
  unfold State.warmCluster
  extract_lets _ s2
  have h2 : Keeps s₀ s2 := h.emptyCluster.foldl fun _ _ h => h.modCore
  exact h2.upd.modCluster.warmRegs

theorem Keeps.startCore {c sa cctl} (h : Keeps s₀ s) : Keeps s₀ (s.startCore c sa cctl) := h.modCore

/-! ### Machine/Verify -/

theorem Keeps.leaveEval {f} (h : Keeps s₀ s) : Keeps s₀ (s.leaveEval f) := h.setFld.setFld

/-! ### Machine/Mcs -/

theorem Keeps.imageVerify {kind l'} (h : Keeps s₀ s) : Keeps s₀ (s.imageVerify kind l').2 := by
  unfold State.imageVerify
  extract_lets
  split
  · exact h.bump
  · exact .ite h.bump h

theorem Keeps.putCust {cl img} (h : Keeps s₀ s) : Keeps s₀ (s.putCust cl img) := h.modCluster.setFld.setFld

theorem Keeps.putVendor {cl img} (h : Keeps s₀ s) : Keeps s₀ (s.putVendor cl img) := by
  unfold State.putVendor
  extract_lets _ _ s3 s4
  have h3 : Keeps s₀ s3 := h.modCluster.foldl fun _ _ h => h.clearReg
  have h4 : Keeps s₀ s4 := h3.foldl fun _ _ h => h.setReg
  exact h4.setFld

theorem Keeps.reload {cl} (h : Keeps s₀ s) : Keeps s₀ (s.reload cl) := h.putVendor.putCust

theorem Keeps.setHold {cl on} (h : Keeps s₀ s) : Keeps s₀ (s.setHold cl on) := h.upd.setFld

theorem Keeps.ldBusy {on} (h : Keeps s₀ s) : Keeps s₀ (s.ldBusy on) := h.foldl fun _ _ h => h.setFld

theorem Keeps.dropMicro {cl} (h : Keeps s₀ s) : Keeps s₀ (s.dropMicro cl) := h.foldl fun _ _ h => h.modCore

theorem Keeps.refreshCluster {cl} (h : Keeps s₀ s) : Keeps s₀ (s.refreshCluster cl) := h.reload.modCluster.upd.bump.setFld

theorem Keeps.refreshWanted (h : Keeps s₀ s) : Keeps s₀ s.refreshWanted := by
  unfold State.refreshWanted
  split
  · exact h
  · extract_lets s1
    have h1 : Keeps s₀ s1 := h.foldl fun _ _ h => .ite h.refreshCluster.setHold h.setHold
    exact h1.ldBusy

theorem Keeps.wantRefresh {cl} (h : Keeps s₀ s) : Keeps s₀ (s.wantRefresh cl) := .ite h h.upd

theorem Keeps.rfNow {cl} (h : Keeps s₀ s) : Keeps s₀ (s.rfNow cl) := .ite h.setFld.wantRefresh.refreshWanted h

theorem Keeps.ldstat {busy code op area addr} (h : Keeps s₀ s) : Keeps s₀ (s.ldstat busy code op area addr) :=
  h.foldl fun _ _ h => h.setReg

theorem Keeps.ldEnd {code op area addr} (h : Keeps s₀ s) : Keeps s₀ (s.ldEnd code op area addr) := h.ldstat.upd.refreshWanted

theorem Keeps.stageImage {n l'} (h : Keeps s₀ s) : Keeps s₀ (s.stageImage n l') := h.foldl fun _ _ h => h.agentWrite

theorem Keeps.loadCluster {j cl} (h : Keeps s₀ s) : Keeps s₀ (s.loadCluster j cl) := by
  unfold State.loadCluster
  extract_lets
  split
  · exact h.abortCluster.setHold.dropMicro.putVendor
  · exact h.abortCluster.setHold.dropMicro.putCust
  · exact h.abortCluster.setHold.dropMicro.putCust
  · exact h.abortCluster.setHold.dropMicro.putVendor

theorem Keeps.loadClusters {j l} (h : Keeps s₀ s) : Keeps s₀ (s.loadClusters j l) := by
  induction l generalizing s j with
  | nil =>
    unfold State.loadClusters
    extract_lets m m' u v
    have hu : Keeps s₀ u := h.upd
    have hv : Keeps s₀ v := .ite hu.stageImage (.ite hu.stageImage hu)
    exact (hv.leaveEval.ite hv).ldEnd
  | cons w l ih => exact .ite (ih h.loadCluster) h.upd.setHold

theorem Keeps.loadStep (h : Keeps s₀ s) : Keeps s₀ s.loadStep := by
  unfold State.loadStep
  split
  · exact h
  · extract_lets
    split
    · exact h.loadClusters
    · split
      next e => exact (h.imageVerify.snd e).ldEnd
      next e => exact (h.imageVerify.snd e).loadClusters

theorem Keeps.mcload {pa op} (h : Keeps s₀ s) : Keeps s₀ (s.mcload pa op).2 := by
  unfold State.mcload
  extract_lets
  split
  · exact h
  · split
    · exact h
    · split
      · exact h
      · split
        · split
          · exact h
          · exact h.upd.ldstat.stageImage
        · split
          · exact h.upd.ldstat.stageImage
          · exact h

/-! ### Machine/Host -/

theorem Keeps.modHost {f} (h : Keeps s₀ s) : Keeps s₀ (s.modHost f) := h.upd

theorem Keeps.answerHost {status data} (h : Keeps s₀ s) : Keeps s₀ (s.answerHost status data) := h.upd

theorem Keeps.rejectDoorbell {q} (h : Keeps s₀ s) : Keeps s₀ (s.rejectDoorbell q) := h.bump.setFld

theorem Keeps.sqTail {q t'} (h : Keeps s₀ s) : Keeps s₀ (s.sqTail q t') :=
  .ite (.ite h.setFld (.ite h.setFld.wakeEvent h.setFld.wakeEvent.cueEvent)) h.rejectDoorbell

theorem Keeps.cqHead {q h'} (h : Keeps s₀ s) : Keeps s₀ (s.cqHead q h') := .ite h.setFld h.rejectDoorbell

theorem Keeps.doorbell {sub q v} {f : State → State} (h : Keeps s₀ s) (hf : ∀ ⦃u⦄, Keeps s₀ u → Keeps s₀ (f u)) :
    Keeps s₀ (s.doorbell sub q v f) := by
  unfold State.doorbell
  split
  · exact h
  · split
    · exact h.rejectDoorbell.bump
    · split
      · exact h
      next e => exact hf (h.external.some e)

theorem Keeps.cqTail {q c} (h : Keeps s₀ s) : Keeps s₀ (s.cqTail q c) := .ite (.ite h.setFld.msix h.setFld) h.setFld

theorem Keeps.execHdm0Write {addr data mask poison} (h : Keeps s₀ s) : AnsKeeps s₀ (Machine.execHdm0Write addr data mask poison s) := by
  unfold Machine.execHdm0Write
  split
  · exact h
  · split
    · exact h
    · exact .ite h.bump.answerHost h.atHome

theorem Keeps.execHdm1Write {addr tags mask} (h : Keeps s₀ s) : AnsKeeps s₀ (Machine.execHdm1Write addr tags mask s) := by
  unfold Machine.execHdm1Write
  split
  · exact h
  · split
    · exact h
    · exact .ite h.bump.answerHost (.ite h.bump.answerHost h.atHome)

theorem Keeps.hostFetch {line} (h : Keeps s₀ s) : Keeps s₀ (s.hostFetch line) := by
  unfold State.hostFetch
  extract_lets
  split
  · exact h.countUreq
  · split
    · exact h.countUreq.clDemote.setDir
    · exact h.countUreq

theorem Keeps.execHostMemRead {addr} (h : Keeps s₀ s) : AnsKeeps s₀ (Machine.execHostMemRead addr s) := by
  unfold Machine.execHostMemRead
  split
  · exact h
  · split
    · exact h.hostFetch.answerHost
    · extract_lets _ s2
      have h2 : Keeps s₀ s2 := h.foldl fun _ _ h => h.hostFetch
      exact h2.answerHost
    · exact h

theorem Keeps.failReads {p} (h : Keeps s₀ s) : Keeps s₀ (s.failReads p) := h.foldl fun _ _ h => h.failWait

theorem Keeps.hostGave {line data poison} (h : Keeps s₀ s) : Keeps s₀ (s.hostGave line data poison) := by
  unfold State.hostGave
  extract_lets _ _ s3
  have h3 : Keeps s₀ s3 := by
    unfold s3
    split
    · exact h.foldl fun _ _ h => .ite h.upd h.wr
    · exact h
  exact h3.upd

theorem Keeps.execHostReadCompletion {pa data poison err} (h : Keeps s₀ s) :
    AnsKeeps s₀ (Machine.execHostReadCompletion pa data poison err s) := by
  unfold Machine.execHostReadCompletion
  extract_lets
  split
  · exact .ite h (.ite h.failReads.upd h.hostGave)
  · split
    · exact h
    · exact .ite h.failReads h.modCore

theorem Keeps.setBias {p host} (h : Keeps s₀ s) : Keeps s₀ (s.setBias p host) := by
  unfold State.setBias
  exact h.agentWrite

theorem Keeps.biasPage {p toDev} (h : Keeps s₀ s) : Keeps s₀ (s.biasPage p toDev) := by
  unfold State.biasPage
  split
  · exact h
  · extract_lets _ s2
    have h2 : Keeps s₀ s2 := .ite (h.foldl fun _ _ h => h.upd) (h.foldl fun _ _ h => h.flushLine)
    exact h2.setBias

theorem Keeps.biasEnd {st} (h : Keeps s₀ s) : Keeps s₀ (s.biasEnd st) := h.modHost.setFld.setFld

theorem Keeps.biasStep (h : Keeps s₀ s) : Keeps s₀ s.biasStep := by
  unfold State.biasStep
  split
  · exact h
  · exact .ite h.biasPage.biasEnd (.ite h.biasPage.biasEnd h.biasPage.modHost)

theorem Keeps.biasStart {old v} (h : Keeps s₀ s) : Keeps s₀ (s.biasStart old v) := .ite h.setReg.setFld h.setReg.modHost

theorem Keeps.biasAbort (h : Keeps s₀ s) : Keeps s₀ s.biasAbort := by
  unfold State.biasAbort
  extract_lets
  split
  · exact h.setFld.modHost
  · exact h.setFld.setFld

theorem Keeps.viral (h : Keeps s₀ s) : Keeps s₀ s.viral := h.setFld.upd

theorem Keeps.failWindows (h : Keeps s₀ s) : Keeps s₀ s.failWindows := h.failReads

theorem Keeps.linkLost (h : Keeps s₀ s) : Keeps s₀ s.linkLost := h.setReg.failWindows

theorem Keeps.clearQueues (h : Keeps s₀ s) : Keeps s₀ s.clearQueues := by
  unfold State.clearQueues
  extract_lets s1
  have h1 : Keeps s₀ s1 := h.foldl fun _ _ h => h.clearReg.clearReg.clearReg.clearReg
  exact h1.modHost

theorem Keeps.perstAssert (h : Keeps s₀ s) : Keeps s₀ s.perstAssert := by
  unfold State.perstAssert
  extract_lets _ s2 _ _ _ s6
  have h2 : Keeps s₀ s2 := h.foldl fun _ _ h => h.foldl fun _ _ h => h.dropLine
  have h6 : Keeps s₀ s6 := h2.bump.linkLost.setReg.clearQueues.foldl fun _ _ h => h.setReg
  exact h6.setFld.modHost.cueEvent

theorem Keeps.flushHost (h : Keeps s₀ s) : Keeps s₀ s.flushHost := h.foldl fun _ _ h => h.flushLine.upd

theorem Keeps.clearLocal (h : Keeps s₀ s) : Keeps s₀ s.clearLocal := by
  unfold State.clearLocal
  extract_lets _ u
  have hu : Keeps s₀ u := h.foldl fun _ _ h => h.flushLine
  refine ⟨hu.pending, fun h0 => filter_wf u.emptied _ _ u.mem 0 (hu.wf h0) fun x _ hp _ => ?_⟩
  simp only [Bool.and_eq_true, bne_iff_ne] at hp
  exact hp.2

/-! ### Machine/Session -/

theorem Keeps.dropTranslations (h : Keeps s₀ s) : Keeps s₀ s.dropTranslations := h.upd

theorem Keeps.sessionBegin (h : Keeps s₀ s) : Keeps s₀ s.sessionBegin := h.dropTranslations.dropChunks.putRecord.setReg

theorem Keeps.sessionEnd {sub} (h : Keeps s₀ s) : OptAll (Keeps s₀) (s.sessionEnd sub) := by
  unfold State.sessionEnd
  split
  · exact h
  · extract_lets s1
    have h1 : Keeps s₀ s1 := h.foldl fun _ _ h => h.endChunk
    split
    · exact h1.commitAll
    · split
      · exact h1.commitAll.putRecord.dropChunks.setFld.setFld
      · exact trivial

theorem Keeps.sessionAbort (h : Keeps s₀ s) : Keeps s₀ s.sessionAbort :=
  .ite (.ite h.setFld.commitAll.dropChunks.putRecord.setFld.setFld.setFld h.setFld.commitAll.setFld) h.setFld.setFld

theorem Keeps.execChunkEnd {a} (h : Keeps s₀ s) : AnsKeeps s₀ (Machine.execChunkEnd a s) := by
  unfold Machine.execChunkEnd
  split
  · exact h.endChunk
  · exact h

theorem Keeps.rheadWrite {v} (h : Keeps s₀ s) : Keeps s₀ (s.rheadWrite v) := h.setFld.commitAll

theorem Keeps.mark {c v} (h : Keeps s₀ s) : Keeps s₀ (s.mark c v) := h.note

theorem Keeps.pushWords {i j n} (h : Keeps s₀ s) : Keeps s₀ (s.pushWords i j n) := h.foldl fun _ _ h => h.agentWrite

theorem Keeps.prepStart (h : Keeps s₀ s) : Keeps s₀ s.prepStart := .ite h.setFld h.setFld.setReg

theorem Keeps.prepCheck {log image} (h : Keeps s₀ s) : Keeps s₀ (s.prepCheck log image).2 := by
  unfold State.prepCheck
  extract_lets
  split
  · exact h.setReg
  · exact h.setFld.upd

theorem Keeps.replayBegin (h : Keeps s₀ s) : Keeps s₀ s.replayBegin := h.dropTranslations.upd.setReg

theorem Keeps.replayLeave (h : Keeps s₀ s) : Keeps s₀ s.replayLeave := by
  unfold State.replayLeave
  extract_lets _ _ _ s4 s5
  have h4 : Keeps s₀ s4 := .ite h.upd.setReg h.upd
  have h5 : Keeps s₀ s5 := h4.foldl fun _ _ h => h.cueEvent
  exact h5.foldl fun _ _ h => h.fireTimers

theorem Keeps.consume {r rest} (h : Keeps s₀ s) : Keeps s₀ (s.consume r rest) := h.upd.setFld

theorem Keeps.applyExternal {r} (h : Keeps s₀ s) : Keeps s₀ (s.applyExternal r) := by
  unfold State.applyExternal
  extract_lets x
  clear_value x
  split
  · split
    · exact h.foldl fun _ _ h => h.agentWrite
    · exact h.foldl fun _ _ h => h.agentWrite
    · exact h.setFld
    · exact h.setFld
  · split
    · exact h
    next e => exact (h.deliver.some e).upd

theorem Keeps.startChunk {a vals r} (h : Keeps s₀ s) : Keeps s₀ (s.startChunk a vals r) := by
  unfold State.startChunk
  extract_lets _ _ _ s4
  have h4 : Keeps s₀ s4 := .ite h.modChunk.modCore h.modChunk
  exact h4.upd

theorem Keeps.replayNext {fuel resumed} (h : Keeps s₀ s) : Keeps s₀ (s.replayNext fuel resumed) := by
  induction fuel generalizing resumed s with
  | zero => exact h
  | succ fuel ih =>
    rw [State.replayNext]
    split
    · exact h
    · extract_lets
      split
      · exact h.consume.replayStop
      · split
        · exact h.consume.upd.replayStop
        · split
          · exact ih h.consume.applyExternal
          · split
            · exact ih h.consume
            · split
              · exact h
              · extract_lets _ _ s7
                have h7 : Keeps s₀ s7 := h.foldl fun _ _ h => h.consume
                exact .ite h.replayStop (.ite h.replayStop h7.consume.startChunk)

theorem Keeps.replayResume (h : Keeps s₀ s) : Keeps s₀ s.replayResume := .ite h.setFld.setReg.replayNext h.setFld

theorem Keeps.replayAbort (h : Keeps s₀ s) : Keeps s₀ s.replayAbort := .ite h.setFld (.ite h.setFld.setFld h.setFld.replayStop)

theorem Keeps.traceLoss (h : Keeps s₀ s) : Keeps s₀ s.traceLoss := by
  unfold State.traceLoss
  split
  · exact h
  · extract_lets _ _ _ _ _ s6 s7
    have h6 : Keeps s₀ s6 := .ite h.upd h.upd.putTrace
    have h7 : Keeps s₀ s7 := .ite h6 h6.putTrace
    exact .ite h7 h7.upd

theorem Keeps.frozenClear (h : Keeps s₀ s) : Keeps s₀ s.frozenClear := h.setFld.traceLoss

end Sys2Proof.Machine
end

section
/-! PROOFS. Every step keeps canonical memory (O59): clocks, modes, Load-in, resets and the device management. -/

namespace Sys2Proof.Machine

open Sys2Proof

variable {s₀ s t : State} {α β ρ ε : Type}

/-! ### Machine/Clocks -/

theorem Keeps.modClk {f} (h : Keeps s₀ s) : Keeps s₀ (s.modClk f) := h.upd

theorem Keeps.alert {k} (h : Keeps s₀ s) : Keeps s₀ (s.alert k) := h.setFld

theorem Keeps.setThr (h : Keeps s₀ s) : Keeps s₀ s.setThr := h.setReg

theorem Keeps.tpllStart {t' core cch} (h : Keeps s₀ s) : Keeps s₀ (s.tpllStart t' core cch) := by
  unfold State.tpllStart
  exact h.setFld.setFld.setFld.modClk

theorem Keeps.tpllSet {t' core cch} (h : Keeps s₀ s) : Keeps s₀ (s.tpllSet t' core cch) := .ite h.modClk h.tpllStart

theorem Keeps.tpllTouch {t'} (h : Keeps s₀ s) : Keeps s₀ (s.tpllTouch t') := .ite h.setThr h.setThr.tpllStart

theorem Keeps.tpllWrite {t' core cch} (h : Keeps s₀ s) : Keeps s₀ (s.tpllWrite t' core cch) := by
  unfold State.tpllWrite
  extract_lets s1
  have h1 : Keeps s₀ s1 := .ite h h.setFld
  exact h1.tpllSet

theorem Keeps.setMv {t' mv} (h : Keeps s₀ s) : Keeps s₀ (s.setMv t' mv) := h.setReg

theorem Keeps.tpllDone {t'} (h : Keeps s₀ s) : Keeps s₀ (s.tpllDone t') := by
  unfold State.tpllDone
  split
  · exact h
  · extract_lets _ _ x
    clear_value x
    split
    · exact h.setFld.setMv.setFld.modClk.setThr
    · exact h.setFld.setMv.setFld.modClk.tpllStart.setThr

theorem Keeps.logClock {unit} (h : Keeps s₀ s) : Keeps s₀ (s.logClock unit) := h.logBb

theorem Keeps.pllLose {mask unit cause} (h : Keeps s₀ s) : Keeps s₀ (s.pllLose mask unit cause) := by
  unfold State.pllLose
  extract_lets _ _ s3
  have h3 : Keeps s₀ s3 := h.setFld.setFld.setFld.foldl fun _ _ h => .ite h.setFld h
  split
  · split
    next e => exact (h3.alert.logClock.cueEvent.fresh.snd e).stopAll.upd
  · exact h3.alert.logClock.cueEvent.platform

theorem Keeps.pllBack {p} (h : Keeps s₀ s) : Keeps s₀ (s.pllBack p) := .ite (.ite h.setFld.setFld h.setFld) h

theorem Keeps.fallback (h : Keeps s₀ s) : Keeps s₀ s.fallback := h.setFld.setFld.setFld.setFld.setFld.alert.logClock

theorem Keeps.sysrefLost (h : Keeps s₀ s) : Keeps s₀ s.sysrefLost := by
  unfold State.sysrefLost
  split
  · exact h
  · split
    · exact h.setFld
    · split
      · exact h
      · extract_lets s1
        have h1 : Keeps s₀ s1 := .ite h.fallback h.setFld.setFld.setFld
        exact .ite h1.pllLose h1

theorem Keeps.reportEvict {cl line} (h : Keeps s₀ s) : Keeps s₀ (s.reportEvict cl line) := by
  unfold State.reportEvict
  split
  · exact h
  · split
    · exact h
    · exact h.setDir

theorem Keeps.gateCore {c} (h : Keeps s₀ s) : Keeps s₀ (s.gateCore c) := by
  unfold State.gateCore
  extract_lets _ _ s3
  have h3 : Keeps s₀ s3 := h.modCore.foldl fun _ _ h => h.reportEvict
  exact h3.setReg

theorem Keeps.gateCluster {cl} (h : Keeps s₀ s) : Keeps s₀ (s.gateCluster cl) := by
  unfold State.gateCluster
  extract_lets _ _ s3
  have h3 : Keeps s₀ s3 := h.modCluster.foldl fun _ _ h => h.reportEvict
  exact h3.setReg

theorem Keeps.ungateCluster {cl} (h : Keeps s₀ s) : Keeps s₀ (s.ungateCluster cl) := .ite h.setReg.reload h

theorem Keeps.ungateCore {c} (h : Keeps s₀ s) : Keeps s₀ (s.ungateCore c) := .ite (h.foldl fun _ _ h => h.ungateCluster.modCore.setReg) h

theorem Keeps.gateCommit {cls i} (h : Keeps s₀ s) : Keeps s₀ (s.gateCommit cls i) := by
  unfold State.gateCommit
  split
  · exact h.foldl fun _ _ h => h.gateCore
  · exact h.gateCluster
  · exact h.modClk
  · exact h.modClk
  · exact h.modClk
  · exact h.modClk

theorem Keeps.ungate {cls i} (h : Keeps s₀ s) : Keeps s₀ (s.ungate cls i) := by
  unfold State.ungate
  split
  · exact h.ungateCore
  · exact h.ungateCluster
  · exact h.modClk
  · exact h.modClk
  · exact h.modClk
  · exact h.modClk

theorem Keeps.gstat {pend code op cls i} (h : Keeps s₀ s) : Keeps s₀ (s.gstat pend code op cls i) := h.setReg

theorem Keeps.gateEnd {g code} (h : Keeps s₀ s) : Keeps s₀ (s.gateEnd g code) := h.modClk.gstat

theorem Keeps.gateRequest {cls i} (h : Keeps s₀ s) : Keeps s₀ (s.gateRequest cls i) :=
  .ite h.setFld (.ite h (.ite h.gstat (.ite h.gstat.bump h.modClk.gstat)))

theorem Keeps.ungateRequest {cls i} (h : Keeps s₀ s) : Keeps s₀ (s.ungateRequest cls i) := by
  unfold State.ungateRequest
  split
  · exact h.setFld
  · split
    · exact .ite h.gateEnd h
    · exact .ite h.gstat h.ungate.gstat

theorem Keeps.execGateAck (h : Keeps s₀ s) : AnsKeeps s₀ (Machine.execGateAck s) := by
  unfold Machine.execGateAck
  split
  · exact h
  · exact .ite h.gateCommit.gateEnd h.gateEnd

theorem Keeps.execGateTimeout (h : Keeps s₀ s) : AnsKeeps s₀ (Machine.execGateTimeout s) := by
  unfold Machine.execGateTimeout
  split
  · exact h
  · exact .ite (.ite h.gateEnd.bump h.gateEnd) h

theorem Keeps.darkRequest (h : Keeps s₀ s) : Keeps s₀ s.darkRequest := by
  unfold State.darkRequest
  split
  · extract_lets _ s2
    have h2 : Keeps s₀ s2 := h.modClk.foldl fun _ _ h => h.foldl fun _ _ h => h.cleanLine
    exact h2.flushHost.setFld.setFld
  · exact .ite h h.setFld

theorem Keeps.darkAbort (h : Keeps s₀ s) : Keeps s₀ s.darkAbort := .ite h.setFld.modClk.setFld.setFld h.setFld.setFld

theorem Keeps.setSref {b} (h : Keeps s₀ s) : Keeps s₀ (s.setSref b) := h.foldl fun _ _ h => h.setFld

theorem Keeps.powerDown (h : Keeps s₀ s) : Keeps s₀ s.powerDown := by
  unfold State.powerDown
  extract_lets s1
  have h1 : Keeps s₀ s1 := h.foldl fun _ _ h => h.emptyCluster
  exact h1.upd

theorem Keeps.recalDone {m} (h : Keeps s₀ s) : Keeps s₀ (s.recalDone m) := h.setFld.cueEvent

theorem Keeps.darkWake (h : Keeps s₀ s) : Keeps s₀ s.darkWake := by
  unfold State.darkWake
  split
  · exact h
  · split
    · exact h
    · extract_lets _ _ _ s4 _ _ s7
      have h4 : Keeps s₀ s4 := h.modClk.setSref.upd.upd.foldl fun _ _ h => h.recalDone
      have h7 : Keeps s₀ s7 := .ite h4.setFld.bump.cueEvent.pllLose h4.setFld.bump.cueEvent
      exact h7.retryHeld

theorem Keeps.touchAll (h : Keeps s₀ s) : Keeps s₀ s.touchAll := h.setThr.foldl fun _ _ h => h.tpllTouch

theorem Keeps.execPowerEstimate {watts} (h : Keeps s₀ s) : AnsKeeps s₀ (Machine.execPowerEstimate watts s) := by
  unfold Machine.execPowerEstimate
  extract_lets
  split
  · exact h
  · split
    · exact .ite h.setFld.alert.modClk.touchAll h.setFld.alert.modClk.touchAll
    · exact .ite (.ite h.setFld.modClk.touchAll h.setFld.modClk.touchAll) h.setFld

theorem Keeps.execThermalThrottle {tile temp} (h : Keeps s₀ s) : AnsKeeps s₀ (Machine.execThermalThrottle tile temp s) := by
  unfold Machine.execThermalThrottle
  extract_lets _ _ _ _ _ s6
  have h6 : Keeps s₀ s6 := .ite h.setReg.alert h.setReg
  exact .ite h (.ite h.setFld h6.modClk.tpllTouch)

theorem Keeps.timeAdj {op amount} (h : Keeps s₀ s) : Keeps s₀ (s.timeAdj op amount) := by
  unfold State.timeAdj
  split
  · exact h.stepTime
  · exact h.slewBy
  · exact h

theorem Keeps.execTsyncOutPulse (h : Keeps s₀ s) : AnsKeeps s₀ (Machine.execTsyncOutPulse s) := by
  unfold Machine.execTsyncOutPulse
  split
  · exact h
  · exact .ite h.modClk.upd h

/-! ### Machine/Modes -/

theorem Keeps.devModeWrite {v} (h : Keeps s₀ s) : Keeps s₀ (s.devModeWrite v) := h.upd

theorem Keeps.cluModeWrite {cl v} (h : Keeps s₀ s) : Keeps s₀ (s.cluModeWrite cl v) := by
  unfold State.cluModeWrite
  extract_lets _ _ _ s4
  have h4 : Keeps s₀ s4 := .ite h.setFld h
  exact h4.upd

theorem Keeps.withMode {r} (h : Keeps s₀ s) : Keeps s₀ (s.withMode r) := by
  unfold State.withMode
  split
  · exact h.setReg
  · exact h.setReg
  · exact h.setReg

theorem Keeps.emptyFrames {c} (h : Keeps s₀ s) : Keeps s₀ (s.emptyFrames c) := h.cleanAll.modCore.foldl fun _ _ h => h.reportEvict

theorem Keeps.pairEnter {p} (h : Keeps s₀ s) : Keeps s₀ (s.pairEnter p) := h.emptyFrames.emptyFrames.modCore.modCore

theorem Keeps.pairLeave {p} (h : Keeps s₀ s) : Keeps s₀ (s.pairLeave p) := h.modCore.warmEntry

theorem Keeps.modeEnd {r code} (h : Keeps s₀ s) : Keeps s₀ (s.modeEnd r code) := by
  unfold State.modeEnd
  extract_lets
  split
  · exact h.setReg.upd
  · exact h.setReg

theorem Keeps.modeDone (h : Keeps s₀ s) : Keeps s₀ s.modeDone := .ite h.setReg.cueEvent.upd h.setReg.cueEvent

theorem Keeps.economy (h : Keeps s₀ t) : Keeps s₀ (s.economy t) :=
  .ite h (h.touchAll.foldl fun _ _ h => .ite h.retrain h)

theorem Keeps.modeEnter {aff} (h : Keeps s₀ t) : Keeps s₀ (s.modeEnter t aff) := by
  unfold State.modeEnter
  extract_lets _ _ _ _ s6 s7 s8 _ s10 s11 s12 s13 s14
  have h6 : Keeps s₀ s6 := h.foldl fun _ _ h => h.abortCluster
  have h7 : Keeps s₀ s7 := h6.foldl fun _ _ h => h.pairEnter
  have h8 : Keeps s₀ s8 := h7.foldl fun _ _ h => h.pairLeave
  have h10 : Keeps s₀ s10 := h8.foldl fun _ _ h => h.modCore
  have h11 : Keeps s₀ s11 := .ite h10.replayLeave h10
  have h12 : Keeps s₀ s12 := .ite h11.replayBegin h11
  have h13 : Keeps s₀ s13 := .ite h12.sessionBegin h12
  have h14 : Keeps s₀ s14 := .ite h13.leaveEval h13
  exact h14.economy

theorem Keeps.modeChange (h : Keeps s₀ s) : Keeps s₀ s.modeChange := by
  unfold State.modeChange
  split
  · exact h
  · split
    · exact h
    · extract_lets _ _ _ s4
      have h4 : OptAll (Keeps s₀) s4 := by
        unfold s4
        split
        · exact h.upd.sessionEnd
        · exact h.upd
      clear_value s4
      split
      · exact h.upd.modeEnd
      · split
        · exact h
        · split
          · exact h
          · have h5 : Keeps s₀ _ := h4
            extract_lets s6 _ _ _ s10
            have h6 : Keeps s₀ s6 := h5.withMode.modeEnter
            have h10 : Keeps s₀ s10 := by
              unfold s10
              split
              · exact h6.logBb.traceE.upd
              · exact h6.logBb.traceE
            exact .ite h10.setReg h10.modeDone

theorem Keeps.divergeCore {c} (h : Keeps s₀ s) : Keeps s₀ (s.divergeCore c) := h.modCore.setReg.traceE

theorem Keeps.diverge {p} (h : Keeps s₀ s) : Keeps s₀ (s.diverge p) := by
  unfold State.diverge
  extract_lets _ _ _ _ _ _ s7
  have h7 : Keeps s₀ s7 := h.divergeCore.divergeCore.setReg.setReg.bump.logBb.wakeLines
  split
  · split
    next e => exact (h7.fresh.snd e).stopAll.upd
  · split
    · exact h7.raiseMc
    · split
      · exact h7.raiseMc
      · exact h7.upd

theorem Keeps.stres {pend code unit} (h : Keeps s₀ s) : Keeps s₀ (s.stres pend code unit) := h.setReg

theorem Keeps.testFail {cls i} (h : Keeps s₀ s) : Keeps s₀ (s.testFail cls i) := by
  unfold State.testFail
  extract_lets s1
  have h1 : Keeps s₀ s1 := by
    unfold s1
    split
    · exact h.modCore
    · split
      · exact h.setFld
      · exact h
    · exact h
  exact h1.platform

theorem Keeps.backFail {cls i} (h : Keeps s₀ s) : Keeps s₀ (s.backFail cls i) := .ite h.testFail h.testFail.stres

theorem Keeps.rotate {cl} (h : Keeps s₀ s) : Keeps s₀ (s.rotate cl) := h.ccClean.modCluster

theorem Keeps.execSelftestWayRotation {cl fail} (h : Keeps s₀ s) : AnsKeeps s₀ (Machine.execSelftestWayRotation cl fail s) := by
  unfold Machine.execSelftestWayRotation
  split
  · extract_lets s1
    have h1 : Keeps s₀ s1 := .ite h.backFail h
    exact h1.rotate
  · exact h

theorem Keeps.testRequest {cls i} (h : Keeps s₀ s) : Keeps s₀ (s.testRequest cls i) :=
  .ite h.setFld (.ite h.setFld (.ite h.stres h.upd.stres))

theorem Keeps.execSelftestStart (h : Keeps s₀ s) : AnsKeeps s₀ (Machine.execSelftestStart s) := by
  unfold Machine.execSelftestStart
  split
  · exact h
  · exact .ite h (.ite h.upd.rotate h.upd)

theorem Keeps.execSelftestDeadline (h : Keeps s₀ s) : AnsKeeps s₀ (Machine.execSelftestDeadline s) := by
  unfold Machine.execSelftestDeadline
  split
  · exact h
  · exact .ite h.upd.stres.bump h

theorem Keeps.execSelftestResult {pass} (h : Keeps s₀ s) : AnsKeeps s₀ (Machine.execSelftestResult pass s) := by
  unfold Machine.execSelftestResult
  split
  · exact h
  · split
    · exact h
    · split
      · exact h.upd
      · extract_lets s1 s2
        have h1 : Keeps s₀ s1 := .ite h h.testFail
        have h2 : Keeps s₀ s2 := .ite h1.modCluster h1
        exact h2.upd.stres

theorem Keeps.testAbort (h : Keeps s₀ s) : Keeps s₀ s.testAbort := by
  unfold State.testAbort
  split
  · extract_lets s1
    have h1 : Keeps s₀ s1 := .ite h.modCluster h
    exact h1.upd.stres
  · exact h.setFld

/-! ### Machine/Upset -/

theorem Keeps.poisonCached {pa} (h : Keeps s₀ s) : Keeps s₀ (s.poisonCached pa) := h.storeWord

theorem Keeps.poisonLine {cl line} (h : Keeps s₀ s) : Keeps s₀ (s.poisonLine cl line) := h.dropLine.foldl fun _ _ h => h.storeWord

theorem Keeps.noteTagErr {c idx isI dirty} (h : Keeps s₀ s) : Keeps s₀ (s.noteTagErr c idx isI dirty) :=
  .ite h.bump.setFld.setFld.setFld h.bump.setFld.setFld

theorem Keeps.frameTagErr {c base} (h : Keeps s₀ s) : Keeps s₀ (s.frameTagErr c base) := by
  unfold State.frameTagErr
  extract_lets
  split
  · exact .ite h.noteTagErr.modCore (h.noteTagErr.modCore.foldl fun _ _ h => h.poisonLine).backstageMc
  · split
    · exact h.noteTagErr.modCore
    · exact h

theorem Keeps.storeUpset {c kind addr b} (h : Keeps s₀ s) : Keeps s₀ (s.storeUpset c kind addr b) := h.modCluster

theorem Keeps.frameUpset {c u} (h : Keeps s₀ s) : Keeps s₀ (s.frameUpset c u) := by
  unfold State.frameUpset
  extract_lets
  split
  · exact h.frameTagErr
  · exact .ite h.bump h
  · exact .ite h.modCore (.ite h.poisonCached h)
  · exact .ite h.bump h
  · exact .ite h.modCore h
  · exact h.modCore
  · exact h.modCore
  · exact h.storeUpset
  · exact h

theorem Keeps.mcErrlog {pa scrub recov shadow} (h : Keeps s₀ s) : Keeps s₀ (s.mcErrlog pa scrub recov shadow) := h.setReg.cueEvent

theorem Keeps.mcCorrect {pa} (h : Keeps s₀ s) : Keeps s₀ (s.mcCorrect pa) := .ite h.bump.cueEvent h.bump

theorem Keeps.mcUncorrectable {pa} (h : Keeps s₀ s) : Keeps s₀ (s.mcUncorrectable pa) := h.storeWord.bump.mcErrlog

theorem Keeps.usherUpset {cl u} (h : Keeps s₀ s) : Keeps s₀ (s.usherUpset cl u) := by
  unfold State.usherUpset
  extract_lets
  split
  · exact .ite h.bump h
  · exact .ite h.bump h
  · exact .ite h.poisonCached h
  · extract_lets
    split
    · exact h
    · exact .ite h.setReg.modCluster.modCluster h.setReg.modCluster
  · exact .ite h.mcCorrect h
  · exact .ite h.mcUncorrectable h
  · exact .ite h.bump h
  · exact h

/-! ### Machine/LoadIn -/

theorem Keeps.countSig {cause} (h : Keeps s₀ s) : Keeps s₀ (s.countSig cause) := .ite h.bump h

theorem Keeps.applyEntry {t' e'} (h : Keeps s₀ s) : OptAll (Keeps s₀) (s.applyEntry t' e') := by
  unfold State.applyEntry
  split
  · exact trivial
  · extract_lets
    split
    · exact trivial
    · split
      · exact h
      · split
        · exact trivial
        · split
          · exact h.setReg.setReg
          · exact .ite h.setReg h.setReg.portEnable
          · exact .ite h.setReg.setFld h.setReg
          · exact h.setReg

theorem Keeps.applyList {t' l'} (h : Keeps s₀ s) : SumAll (fun _ => True) (Keeps s₀) (s.applyList t' l') := by
  unfold State.applyList
  split
  · exact trivial
  · have hl := foldl_all (l := listEntries l') (P := OptAll (Keeps s₀)) (f := fun o e => o.bind fun u => u.applyEntry t' e)
      (show OptAll (Keeps s₀) (some s) from h) fun o _ ho => ho.bind fun _ hu => hu.applyEntry
    split
    · exact trivial
    next e => exact hl.some e

theorem Keeps.defaults (h : Keeps s₀ s) : Keeps s₀ s.defaults := by
  unfold State.defaults
  extract_lets s1
  have h1 : Keeps s₀ s1 := h.foldl fun _ _ h => h.setFld.setFld
  exact h1.setFld.foldl fun _ _ h => h.setFld

theorem Keeps.loadDefaults (h : Keeps s₀ s) : Keeps s₀ s.loadDefaults := by
  unfold State.loadDefaults
  exact h.upd.setFld.defaults

theorem Keeps.fillRoutes (h : Keeps s₀ s) : Keeps s₀ s.fillRoutes := h.upd

theorem Keeps.applyLinks {l'} (h : Keeps s₀ s) : SumAll (fun _ => True) (Keeps s₀) (s.applyLinks l') := by
  unfold State.applyLinks
  extract_lets
  split
  · exact trivial
  next e => exact (h.applyList.inr e).fillRoutes.foldl fun _ _ h => h.applyEntry.getD h

theorem Keeps.stage {n} (h : Keeps s₀ s) : Keeps s₀ (s.stage n) := h.setFld

theorem Keeps.stageSec {t' l'} (h : Keeps s₀ s) : Keeps s₀ (s.stageSec t' l') := h.upd

theorem Keeps.identity {b pub} (h : Keeps s₀ s) : Keeps s₀ (s.identity b pub) := by
  unfold State.identity
  extract_lets _ _ _ _ s5
  have h5 : Keeps s₀ s5 := .ite h h.bump
  exact .ite h5.upd.setFld.setReg.setReg.setReg h5.upd.setFld.setFld.setReg.setReg.setReg

theorem Keeps.applySection {p t'} (h : Keeps s₀ s) : SumAll (fun _ => True) (Keeps s₀) (s.applySection p t') := by
  unfold State.applySection
  split
  · exact trivial
  · extract_lets
    split
    · exact h.stageSec.applyLinks
    · exact h.stageSec.applyList

theorem Keeps.applySections {p l} (h : Keeps s₀ s) : SumAll (fun _ => True) (Keeps s₀) (s.applySections p l) := by
  induction l generalizing s p with
  | nil => exact h
  | cons w l ih =>
    rw [State.applySections]
    split
    · exact trivial
    next e => exact ih (h.applySection.inr e)

theorem Keeps.configStage {p} (h : Keeps s₀ s) : SumAll (fun _ => True) (Keeps s₀) (s.configStage p) := by
  unfold State.configStage
  split
  · exact trivial
  · split
    · exact trivial
    · extract_lets
      split
      · exact trivial
      next e =>
        have h2 := h.setReg.applySections.inr e
        split
        · exact trivial
        · split
          · exact trivial
          · split
            · exact trivial
            · exact h2.stageSec

theorem Keeps.lockPlls (h : Keeps s₀ s) : Keeps s₀ s.lockPlls := h.setThr.foldl fun _ _ h => h.setFld.setMv

theorem Keeps.loadStop {cause} (h : Keeps s₀ s) : Keeps s₀ (s.loadStop cause) := h.setFld.logBb.upd

theorem Keeps.selfCheck {bad sysBad} (h : Keeps s₀ s) : SumAll (Keeps s₀) (Keeps s₀) (s.selfCheck bad sysBad) := by
  unfold State.selfCheck
  extract_lets
  split
  · exact h.loadStop
  · exact h.upd.setReg.setReg

theorem Keeps.loadImage {l'} (h : Keeps s₀ s) : SumAll (fun _ => True) (Keeps s₀) (s.loadImage l') := by
  unfold State.loadImage
  extract_lets
  split
  · exact trivial
  · split
    · exact trivial
    · split
      · exact trivial
      · split
        · exact trivial
        next e =>
          have h2 := h.imageVerify.snd e
          extract_lets _ _ _ s6
          have h6 : Keeps s₀ s6 := .ite h2.upd.stageImage.setFld h2.upd.stageImage
          exact h6.foldl fun _ _ h => .ite h.putVendor h.putCust

theorem Keeps.microStage {p} (h : Keeps s₀ s) : SumAll (fun _ => True) (Keeps s₀) (s.microStage p) := by
  unfold State.microStage
  split
  · exact trivial
  · split
    · exact trivial
    · refine foldl_all (P := SumAll (fun _ => True) (Keeps s₀)) h fun o _ ho => ?_
      cases o with
      | inl c => trivial
      | inr u => exact Keeps.loadImage ho

theorem Keeps.hostStep {p} (h : Keeps s₀ s) : SumAll (fun _ => True) (Keeps s₀) (s.hostStep p) := by
  unfold State.hostStep
  split
  · exact trivial
  next e =>
    have h1 := h.applySection.inr e
    split
    · exact trivial
    · exact h1

theorem Keeps.openingStage {p} (h : Keeps s₀ s) : SumAll (fun _ => True) (Keeps s₀) (s.openingStage p) := by
  unfold State.openingStage
  split
  · exact trivial
  · split
    · exact trivial
    · extract_lets _ _ s3
      have h3 : Keeps s₀ s3 := h.foldl fun _ _ h => h.foldl fun _ _ h => h.wr
      split
      · exact trivial
      · exact h3.upd

theorem Keeps.commitLoad (h : Keeps s₀ s) : Keeps s₀ s.commitLoad :=
  .ite h.startCore.bump.upd.setFld.sessionBegin h.startCore.bump.upd.setFld

theorem Keeps.unitsCold (h : Keeps s₀ s) : Keeps s₀ s.unitsCold := h.upd.setFld

/-- The value has a name of its own: where the statement holds the call, elaboration evaluates it. -/
theorem Keeps.lateStages {r} (h : Keeps s₀ s) (e : s.lateStages = r) : SumAll (fun p => Keeps s₀ p.2) (Keeps s₀) r := by
  unfold State.lateStages at e
  subst e
  extract_lets
  split
  · exact h.upd
  · split
    · exact h.upd.stage
    next e =>
      have h4 := h.upd.stage.microStage.inr e
      extract_lets
      split
      · exact h4.stage
      next e =>
        have h6 := h4.stage.hostStep.inr e
        extract_lets
        split
        · exact h6.stage
        next e => exact (h6.stage.openingStage.inr e).stage.commitLoad

theorem Keeps.memWait (h : Keeps s₀ s) : SumAll (fun p => Keeps s₀ p.2) (Keeps s₀) s.memWait := by
  unfold State.memWait
  extract_lets u
  have hu : Keeps s₀ u := h.stage
  clear_value u
  split
  · exact hu.loadStop
  · generalize hr : u.lateStages = r
    split
    · exact hu.lateStages hr
    · exact hu.upd

theorem Keeps.earlyStages {b copy} (h : Keeps s₀ s) : SumAll (fun p => Keeps s₀ p.2) (Keeps s₀) (s.earlyStages b copy) := by
  unfold State.earlyStages
  extract_lets
  split
  · exact h.stage.upd
  · split
    · exact h.stage.upd.countSig
    · extract_lets
      split
      · exact h.stage.upd.loadDefaults.identity.upd.stage
      next e =>
        have h8 := h.stage.upd.loadDefaults.identity.upd.stage.applySection.inr e
        split
        · exact h8.loadStop
        · extract_lets
          split
          · exact h8.lockPlls.stage
          next e =>
            have h10 := h8.lockPlls.stage.configStage.inr e
            split
            next e => exact h10.stage.selfCheck.inl e
            next e => exact (h10.stage.selfCheck.inr e).memWait

theorem Keeps.enterRecovery {cause} (h : Keeps s₀ s) : Keeps s₀ (s.enterRecovery cause) := h.setFld.logBb.unitsCold.upd

theorem Keeps.copyB {b cause} (h : Keeps s₀ s) : Keeps s₀ (s.copyB b cause) := by
  unfold State.copyB
  extract_lets
  split
  next e => exact (h.setFld.setFld.bump.logBb.unitsCold.earlyStages.inl e).enterRecovery
  next e => exact h.setFld.setFld.bump.logBb.unitsCold.earlyStages.inr e

theorem Keeps.copyFailed {b cause} (h : Keeps s₀ s) : Keeps s₀ (s.copyFailed b cause) := .ite h.enterRecovery h.copyB

theorem Keeps.select (h : Keeps s₀ s) : Keeps s₀ s.select := by
  unfold State.select
  extract_lets _ _ _ s4
  have h4 : Keeps s₀ s4 := .ite h.setFld h
  exact h4.setReg

theorem Keeps.execLoadIn {pllOk bistBad sysBist} (h : Keeps s₀ s) : AnsKeeps s₀ (Machine.execLoadIn pllOk bistBad sysBist s) := by
  unfold Machine.execLoadIn
  extract_lets
  split
  · split
    next e => exact (h.select.upd.earlyStages.inl e).copyFailed
    next e => exact h.select.upd.earlyStages.inr e
  · exact h

theorem Keeps.afterMemory (h : Keeps s₀ s) : Keeps s₀ s.afterMemory := by
  unfold State.afterMemory
  split
  next e => exact (h.memWait.inl e).copyFailed
  next e => exact h.memWait.inr e

theorem Keeps.execMemoryClearingDone (h : Keeps s₀ s) : AnsKeeps s₀ (Machine.execMemoryClearingDone s) := by
  unfold Machine.execMemoryClearingDone
  split
  · extract_lets _ u
    have hu : Keeps s₀ u := by
      refine ⟨h.pending, fun h0 => filter_wf s.emptied _ _ s.mem 0 (h.wf h0) fun x _ hp _ => ?_⟩
      simp only [Bool.and_eq_true, bne_iff_ne] at hp
      exact hp.2
    exact .ite hu.afterMemory hu
  · exact h

theorem Keeps.abortLoad (h : Keeps s₀ s) : Keeps s₀ s.abortLoad.2 := by
  unfold State.abortLoad
  split
  · exact h.unitsCold.setFld.setFld.upd
  · exact h.setFld

theorem Keeps.selectNext {v sticky prof} (h : Keeps s₀ s) : Keeps s₀ (s.selectNext v sticky prof) := h.setReg

theorem Keeps.loadinStart {c sa} (h : Keeps s₀ s) : Keeps s₀ (s.loadinStart c sa) := .ite h.startCore h.setFld

/-! ### Machine/Reset -/

theorem Keeps.coldReset (h : Keeps s₀ s) : Keeps s₀ s.coldReset := h.upd.setFld.setFld

theorem Keeps.warmSession (h : Keeps s₀ s) : Keeps s₀ s.warmSession := by
  unfold State.warmSession
  split
  next e => exact h.sessionEnd.some e
  · exact h.dropChunks.putRecord.setFld.setFld

theorem Keeps.dropModes (h : Keeps s₀ s) : Keeps s₀ s.dropModes := .ite h.upd.upd h.upd

theorem Keeps.reapply {t'} (h : Keeps s₀ s) : Keeps s₀ (s.reapply t') := by
  unfold State.reapply
  extract_lets
  split
  · exact h
  next e =>
    split at e
    · exact h.applyLinks.inr e
    · exact h.applyList.inr e

theorem Keeps.warmUnits (h : Keeps s₀ s) : Keeps s₀ s.warmUnits := h.upd

theorem Keeps.warmReset {who} (h : Keeps s₀ s) : Keeps s₀ (s.warmReset who) := by
  unfold State.warmReset
  extract_lets _ _ s3 _ s5 _ _ s8 _ _ _ s12
  have h3 : Keeps s₀ s3 := .ite h.setSref.warmSession.replayStop.replayLeave h.setSref.warmSession
  have h5 : Keeps s₀ s5 := h3.dropModes.foldl fun _ _ h => h.ungateCluster.warmCluster.setHold
  have h8 : Keeps s₀ s8 := h5.warmUnits.setFld.setFld.upd.defaults.foldl fun _ _ h => h.reapply
  have h12 : Keeps s₀ s12 := .ite h8.lockPlls.bump.logBb.upd.sessionBegin h8.lockPlls.bump.logBb.upd
  exact h12.warmEntry

theorem Keeps.wantWarm {who} (h : Keeps s₀ s) : Keeps s₀ (s.wantWarm who) := .ite h.upd h

theorem Keeps.execWarmReset (h : Keeps s₀ s) : AnsKeeps s₀ (Machine.execWarmReset s) := by
  unfold Machine.execWarmReset
  split
  · exact h.warmReset
  · exact h

theorem Keeps.clusterReset {cl who} (h : Keeps s₀ s) : Keeps s₀ (s.clusterReset cl who) := by
  unfold State.clusterReset
  extract_lets _ _ _ s4 _ _ s7
  have h4 : Keeps s₀ s4 := .ite h.abortCluster.ungateCluster.warmCluster.setHold.setReg h.abortCluster.ungateCluster.warmCluster.setHold
  have h7 : Keeps s₀ s7 := h4.foldl fun _ _ h => h.applyEntry.getD h
  exact h7.reload.wakeLines.logBb

theorem Keeps.wantCluster {cl who} (h : Keeps s₀ s) : Keeps s₀ (s.wantCluster cl who) := .ite h.upd h

theorem Keeps.execClusterReset {cl} (h : Keeps s₀ s) : AnsKeeps s₀ (Machine.execClusterReset cl s) := by
  unfold Machine.execClusterReset
  split
  · exact h.upd.clusterReset
  · exact h

theorem Keeps.cxlReset (h : Keeps s₀ s) : Keeps s₀ s.cxlReset := h.flushHost.setFld.modHost.wantWarm

/-! ### Machine/Mailbox -/

theorem Keeps.bbClear (h : Keeps s₀ s) : Keeps s₀ s.bbClear := h.upd

theorem Keeps.flashWrite {off data} (h : Keeps s₀ s) : Keeps s₀ (s.flashWrite off data) := h.upd

theorem Keeps.mbEnd {op status data} (h : Keeps s₀ s) : Keeps s₀ (s.mbEnd op status data) := h.modHost.msix

/-! ### Machine/Mc -/

theorem Keeps.scrubBad {pa shadow} (h : Keeps s₀ s) : Keeps s₀ (s.scrubBad pa shadow) :=
  .ite h.cleanLine.bump.mcErrlog (.ite h.storeWord.bump.mcErrlog.raiseMc h.storeWord.bump.mcErrlog)

theorem Keeps.execPatrolScrub {pa err shadow late} (h : Keeps s₀ s) : AnsKeeps s₀ (Machine.execPatrolScrub pa err shadow late s) := by
  unfold Machine.execPatrolScrub
  extract_lets _ _ s3
  have h3 : Keeps s₀ s3 := .ite h.setFld h
  split
  · exact h
  · split
    · exact h3
    · exact h3.mcCorrect
    · exact h3.scrubBad

theorem Keeps.calRequest {m chan} (h : Keeps s₀ s) : Keeps s₀ (s.calRequest m chan) := .ite h h.upd.setFld

theorem Keeps.execForcedRecalComplete {m chan} (h : Keeps s₀ s) : AnsKeeps s₀ (Machine.execForcedRecalComplete m chan s) := by
  unfold Machine.execForcedRecalComplete
  split
  · exact h
  · exact .ite h.upd.recalDone.setFld h.upd.recalDone

/-! ### Machine/Ksu -/

theorem Keeps.ksuEnd {code} (h : Keeps s₀ s) : Keeps s₀ (s.ksuEnd code) := h.setReg

theorem Keeps.ksuFuse {k back} (h : Keeps s₀ s) : Keeps s₀ (s.ksuFuse k back) :=
  .ite h.ksuEnd (.ite h.ksuEnd (.ite h.ksuEnd h.setFld.upd.ksuEnd))

theorem Keeps.ksuRevoke {k back} (h : Keeps s₀ s) : Keeps s₀ (s.ksuRevoke k back) :=
  .ite h.ksuEnd (.ite h.ksuEnd (.ite h.ksuEnd (.ite h.ksuEnd h.setFld.ksuEnd)))

theorem Keeps.ksuProvlock {k back} (h : Keeps s₀ s) : Keeps s₀ (s.ksuProvlock k back) := .ite h.ksuEnd (.ite h.ksuEnd h.setFld.ksuEnd)

theorem Keeps.ksuReseed {ok} (h : Keeps s₀ s) : Keeps s₀ (s.ksuReseed ok) := by
  unfold State.ksuReseed
  split
  · exact h.upd.setFld.ksuEnd
  · split
    next e => exact (h.fresh.snd e).setFld.ksuEnd

theorem Keeps.zeroize (h : Keeps s₀ s) : Keeps s₀ s.zeroize := by
  unfold State.zeroize
  extract_lets _ s2
  have h2 : Keeps s₀ s2 := h.upd.foldl fun _ _ h => .ite h.setFld h.setFld.portDown
  exact h2.modHost.upd.setFld.setFld.setReg.setFld.setFld.bbClear.logBb

theorem Keeps.sign {l'} (h : Keeps s₀ s) : Keeps s₀ (s.sign l').2 := h.upd

theorem Keeps.drawBytes {x} (h : Keeps s₀ s) : Keeps s₀ (s.drawBytes x).2 := by
  induction x generalizing s with
  | zero => exact h
  | succ fuel ih =>
    rw [State.drawBytes]
    split
    next e =>
      have h1 := h.drawDrbg.snd e
      split
      next e => exact (ih h1).snd e

theorem Keeps.spdmAnswer {code data} (h : Keeps s₀ s) : Keeps s₀ (s.spdmAnswer code data) := h.upd

theorem Keeps.spdmError {e'} (h : Keeps s₀ s) : Keeps s₀ (s.spdmError e') := h.spdmAnswer

theorem Keeps.modSpdm {f} (h : Keeps s₀ s) : Keeps s₀ (s.modSpdm f) := h.modHost

theorem Keeps.spdmAt {n} {f : State → State} (h : Keeps s₀ s) (hf : ∀ u, Keeps s₀ u → Keeps s₀ (f u)) : Keeps s₀ (s.spdmAt n f) :=
  .ite h (.ite h.spdmError (hf s h))

theorem Keeps.execGetCapabilities (h : Keeps s₀ s) : AnsKeeps s₀ (Machine.execGetCapabilities s) := by
  unfold Machine.execGetCapabilities
  refine h.spdmAt ?_
  intro _ h
  split
  next e => exact (h.fresh.snd e).modSpdm.spdmAnswer

theorem Keeps.execNegotiateAlgorithms {ok} (h : Keeps s₀ s) : AnsKeeps s₀ (Machine.execNegotiateAlgorithms ok s) := by
  unfold Machine.execNegotiateAlgorithms
  refine h.spdmAt ?_
  intro _ h
  split
  · split
    next e => exact (h.fresh.snd e).modSpdm.spdmAnswer
  · exact h.spdmError

theorem Keeps.execChallenge {slot nonce} (h : Keeps s₀ s) : AnsKeeps s₀ (Machine.execChallenge slot nonce s) := by
  unfold Machine.execChallenge
  refine h.spdmAt ?_
  intro _ h
  split
  · split
    next e =>
      have h1 := h.drawBytes.snd e
      extract_lets
      split
      next e => exact (h1.sign.snd e).spdmAnswer
  · exact h.spdmError

theorem Keeps.execGetMeasurements {blk nonce} (h : Keeps s₀ s) : AnsKeeps s₀ (Machine.execGetMeasurements blk nonce s) := by
  unfold Machine.execGetMeasurements
  refine h.spdmAt ?_
  intro _ h
  split
  · split
    next e =>
      have h1 := h.drawBytes.snd e
      extract_lets
      split
      next e => exact (h1.sign.snd e).spdmAnswer
  · exact h.spdmError

theorem Keeps.execKeyExchange {share wantMutual} (h : Keeps s₀ s) : AnsKeeps s₀ (Machine.execKeyExchange share wantMutual s) := by
  unfold Machine.execKeyExchange
  refine h.spdmAt ?_
  intro _ h
  split
  · exact h.spdmError
  · split
    · exact h.spdmError
    · split
      next e =>
        have h1 := h.drawBytes.snd e
        split
        next e => exact (h1.sign.snd e).modSpdm.spdmAnswer

theorem Keeps.modIde {cm f} (h : Keeps s₀ s) : Keeps s₀ (s.modIde cm f) := h.modHost

/-! ### Machine/Prompter -/

theorem Keeps.modPm {f} (h : Keeps s₀ s) : Keeps s₀ (s.modPm f) := h.upd

theorem Keeps.pmEnd {rst data} (h : Keeps s₀ s) : Keeps s₀ (s.pmEnd rst data) := h.modPm

theorem Keeps.pmSettle (h : Keeps s₀ s) : Keeps s₀ s.pmSettle := by
  unfold State.pmSettle
  extract_lets s1 s2
  have h1 : Keeps s₀ s1 := .ite h.setFld h
  have h2 : Keeps s₀ s2 := .ite h1.setFld h1
  exact .ite h2 (.ite (.ite h2 h2.pmEnd) (.ite (.ite h2 h2.pmEnd) h2))

theorem Keeps.pmAccept {opc} (h : Keeps s₀ s) : Keeps s₀ (s.pmAccept opc) := h.bump.modPm

theorem Keeps.request {opc args} {f : State → State} (h : Keeps s₀ s) (hf : ∀ u, Keeps s₀ u → Keeps s₀ (f u)) :
    Keeps s₀ (s.request opc args f) := by
  unfold State.request
  split
  · exact h
  · extract_lets
    have hs := h.pmSettle
    have ha := hs.pmAccept (opc := opc)
    split
    · exact hs.bump
    · split
      · exact ha.pmEnd
      · split
        · exact ha.pmEnd
        · split
          · exact hf _ ha
          · exact ha.pmEnd
          · exact ha.pmEnd
          · exact ha.modPm.wakeEvent

theorem Keeps.execPrompterRejectedRequest {kind opc} (h : Keeps s₀ s) : AnsKeeps s₀ (Machine.execPrompterRejectedRequest kind opc s) := by
  unfold Machine.execPrompterRejectedRequest
  split
  · exact h
  · extract_lets
    split
    · exact h.pmSettle.bump
    · split
      · exact h.pmSettle.modPm.bump.pmEnd
      · exact h.pmSettle.modPm.bump.pmEnd
      · exact h.pmSettle.modPm.pmEnd

theorem Keeps.pmMode {v} (h : Keeps s₀ s) : Keeps s₀ (s.pmMode v) := h.upd

theorem Keeps.pmReset {kind cl} (h : Keeps s₀ s) : Keeps s₀ (s.pmReset kind cl) := by
  unfold State.pmReset
  split
  · exact h.modPm.pmEnd
  · exact h.wakeEvent.wantWarm.pmEnd
  · exact .ite h.wakeEvent.wantCluster.pmEnd h.pmEnd
  · split
    next e => exact (h.abortLoad.snd e).pmEnd

theorem Keeps.execPrompterReset {kind cl} (h : Keeps s₀ s) : AnsKeeps s₀ (Machine.execPrompterReset kind cl s) :=
  .ite (h.request (fun _ h => h.pmEnd)) (.ite (h.request (fun _ h => h.pmReset)).setFld (h.request (fun _ h => h.pmReset)))

theorem Keeps.pmDark (h : Keeps s₀ s) : Keeps s₀ s.pmDark := .ite h.darkRequest h.darkRequest.pmEnd

theorem Keeps.mbWrite {msg} (h : Keeps s₀ s) : Keeps s₀ (s.mbWrite msg) := by
  unfold State.mbWrite
  split
  · split
    next e => exact (h.fresh.snd e).pmEnd
  · extract_lets s1
    have h1 : Keeps s₀ s1 := h.foldl fun _ _ h => h.setReg
    exact h1.setFld.setFld.cueEvent.pmEnd

theorem Keeps.execPrompterMbctlWrite {clearIn setOut len} (h : Keeps s₀ s) :
    AnsKeeps s₀ (Machine.execPrompterMbctlWrite clearIn setOut len s) := by
  unfold Machine.execPrompterMbctlWrite
  extract_lets _ s2 s3
  have h2 : Keeps s₀ s2 := .ite h.setFld h
  have h3 : Keeps s₀ s3 := .ite h2.setFld h2
  exact .ite h.bump (.ite h3.setFld h3.setFld)

theorem Keeps.serveWait (h : Keeps s₀ s) : Keeps s₀ s.serveWait := by
  unfold State.serveWait
  split
  · exact h
  · extract_lets
    split
    · exact h.modPm.pmMode
    · exact h.modPm.pmReset
    · exact h.modPm.pmDark
    · exact h.modPm.mbWrite
    · exact h.modPm.pmEnd

theorem Keeps.takeNonce (h : Keeps s₀ s) : Keeps s₀ s.takeNonce.2 := h.upd

theorem Keeps.execChal (h : Keeps s₀ s) : AnsKeeps s₀ (Machine.execChal s) := by
  unfold Machine.execChal
  refine h.request ?_
  intro _ h
  split
  · exact h.pmEnd
  · split
    · split
      next e => exact (h.fresh.snd e).pmEnd
    · split
      next e => exact (h.drawBytes.snd e).modPm.pmEnd

theorem Keeps.checkNonce {k tail sig} (h : Keeps s₀ s) : Keeps s₀ (s.checkNonce k tail sig).2 := by
  unfold State.checkNonce
  split
  next e =>
    have h1 := h.takeNonce.snd e
    split
    · exact h1.bump
    · split
      · exact h1
      · exact h1.bump

theorem Keeps.authFail (h : Keeps s₀ s) : Keeps s₀ s.authFail := .ite h.bump.pmEnd.modPm h.bump.pmEnd.modPm.setFld

theorem Keeps.execPauth {sig} (h : Keeps s₀ s) : AnsKeeps s₀ (Machine.execPauth sig s) := by
  unfold Machine.execPauth
  refine h.request ?_
  intro _ h
  split
  · exact h.pmEnd
  · split
    · exact h.pmEnd
    · split
      next e => exact (h.checkNonce.snd e).setFld.modPm.pmEnd
      next e => exact (h.checkNonce.snd e).authFail

theorem Keeps.setScope {scope} (h : Keeps s₀ s) : Keeps s₀ (s.setScope scope) := .ite h.upd.upd h.upd.leaveEval.logBb

theorem Keeps.execDbgunlock {scope sig} (h : Keeps s₀ s) : AnsKeeps s₀ (Machine.execDbgunlock scope sig s) := by
  unfold Machine.execDbgunlock
  extract_lets
  refine h.request ?_
  intro _ h
  split
  · exact h.pmEnd
  · split
    · exact h.pmEnd
    · split
      · split
        next e => exact (h.fresh.snd e).pmEnd
      · split
        next e => exact (h.checkNonce.snd e).setScope.modPm.pmEnd
        next e => exact (h.checkNonce.snd e).authFail

theorem Keeps.execAttest {nonce blk} (h : Keeps s₀ s) : AnsKeeps s₀ (Machine.execAttest nonce blk s) := by
  unfold Machine.execAttest
  refine h.request ?_
  intro _ h
  split
  · exact h.pmEnd
  · extract_lets
    split
    next e => exact (h.sign.snd e).pmEnd

theorem Keeps.coldDue (h : Keeps s₀ s) : Keeps s₀ s.coldDue := by
  unfold State.coldDue
  split
  · exact .ite h.logBb.coldReset h
  · exact h

/-! ### Machine/Side -/

theorem Keeps.hostCtlWrite {old v} (h : Keeps s₀ s) : Keeps s₀ (s.hostCtlWrite old v) := by
  unfold State.hostCtlWrite
  extract_lets s1
  have h1 : Keeps s₀ s1 := .ite h.setReg (.ite h.leaveEval h)
  exact .ite h1.viral h1

theorem Keeps.ksuCommand {op k} (h : Keeps s₀ s) : Keeps s₀ (s.ksuCommand op k) := by
  unfold State.ksuCommand
  split
  · exact h.ksuFuse
  · exact h.ksuRevoke
  · exact h.ksuProvlock
  · exact h.zeroize.modPm
  · exact h.ksuReseed
  · exact h.setFld

theorem Keeps.loadinCmd {op cl} (h : Keeps s₀ s) : Keeps s₀ (s.loadinCmd op cl) := by
  unfold State.loadinCmd
  split
  · exact h.wantWarm
  · exact h.wantCluster
  · exact h.setFld

theorem Keeps.rpctl {v} (h : Keeps s₀ s) : Keeps s₀ (s.rpctl v) := by
  unfold State.rpctl
  extract_lets s1 s2
  have h1 : Keeps s₀ s1 := .ite h.replayAbort h
  have h2 : Keeps s₀ s2 := .ite h1.replayResume h1
  exact .ite h2.prepStart h2

theorem Keeps.pctlWrite {p old v} (h : Keeps s₀ s) : Keeps s₀ (s.pctlWrite p old v) := by
  unfold State.pctlWrite
  extract_lets s1
  have h1 : Keeps s₀ s1 := .ite h h.portEnable
  exact .ite h1.retrain h1

theorem Keeps.coreWritten {back r i old v} (h : Keeps s₀ s) : Keeps s₀ (s.coreWritten back r i old v) := by
  unfold State.coreWritten
  split
  · exact h.clearPend
  · exact h.cueLctlWrite
  · exact .ite h.setReg h
  · extract_lets s1
    have h1 : Keeps s₀ s1 := .ite h h.ccWaydis
    exact .ite h1.ccFlush h1
  · exact h.setReg.cluModeWrite
  · exact .ite h.rfNow h
  · exact .ite h.engineResume h
  · exact h.setReg.colHeapbase
  · exact h.colRset
  · exact h.colRootq
  · exact h.colCommand
  · exact h

theorem Keeps.linkWritten {c r i old v} (h : Keeps s₀ s) : Keeps s₀ (s.linkWritten c r i old v) := by
  unfold State.linkWritten
  split
  · exact h.pctlWrite
  · exact h.scres
  · exact h.inqhWrite
  · exact h.hostCtlWrite
  · exact h.setReg.cqTail
  · exact .ite h.setReg.biasAbort h.biasStart
  · exact .ite h.sessionAbort h
  · exact h.rheadWrite
  · split
    · exact h.mark
    · exact h
  · exact h.rpctl
  · exact .ite h.frozenClear h
  · exact h

theorem Keeps.devWritten {back r i old v} (h : Keeps s₀ s) : Keeps s₀ (s.devWritten back r i old v) := by
  unfold State.devWritten
  split
  · exact h.cueSrcWrite
  · exact h.cueIpi
  · exact h.cueNmi
  · exact h.setReg.tpllWrite
  · exact .ite h h.setReg.setFld
  · exact .ite h.gateRequest h.ungateRequest
  · extract_lets s1
    have h1 : Keeps s₀ s1 := .ite h.darkRequest h.setFld
    exact .ite h1.darkAbort h1
  · exact .ite h.timeAdj h.setFld
  · exact h.loadinCmd
  · exact h.loadinStart
  · exact h.setReg.devModeWrite
  · exact .ite h.testAbort h.testRequest
  · exact h.calRequest
  · exact h.ksuCommand
  · exact .ite h.setReg h
  · exact h

theorem Keeps.ioWritten {c back row i old v} (h : Keeps s₀ s) : Keeps s₀ (s.ioWritten c back row i old v) := by
  unfold State.ioWritten
  split
  · exact h.coreWritten
  · exact h.coreWritten
  · exact h.coreWritten
  · exact h.linkWritten
  · exact h.devWritten
  · exact .ite h.linkWritten h.devWritten

end Sys2Proof.Machine
end

section
/-! PROOFS. Every step keeps canonical memory (O59): IO, special registers, microcode; the arithmetic, object and control instructions. -/

namespace Sys2Proof.Machine

open Sys2Proof

variable {s₀ s t : State} {α β ρ ε : Type}

/-! ### Machine/Io -/

theorem Keeps.ioWrite {c back row i v} (h : Keeps s₀ s) : Keeps s₀ (s.ioWrite c back row i v) := by
  unfold State.ioWrite
  extract_lets _ _ _ s4
  have h4 : Keeps s₀ s4 := .ite h.setReg.setFld h.setReg
  exact h4.ioWritten

theorem Keeping.ioCheckAt {a write} : Keeping (Machine.ioCheckAt a write) := by
  unfold Machine.ioCheckAt
  split
  · exact .raise
  · refine .bind .getCore fun _ => ?_
    extract_lets
    refine .bind .askS fun _ => ?_
    split
    · exact .raise
    · exact .pure

theorem Keeping.ioRead {a} : Keeping (Machine.ioRead a) := by
  refine .bind .ioCheckAt fun _ => ?_
  split
  · exact .bind .meetFence fun _ => .bind .getCore fun _ => .askS

theorem Keeping.ioWriteAt {a v} : Keeping (Machine.ioWriteAt a v) := by
  refine .bind .ioCheckAt fun _ => ?_
  split
  · exact .bind .meetFence fun _ => .bind .getCore fun _ => .bind .drainThose fun _ => .updS fun _ _ _ h => .ite h.bump h.ioWrite

/-! ### Machine/Sr -/

theorem Keeping.srNote {i reserved} : Keeping (Machine.srNote i reserved) := .updS fun _ _ _ h => .ite h.setFld.setFld h.setFld

theorem Keeping.srRead {idx k} : Keeping (Machine.srRead idx k) := .ite (.bind .srNote fun _ => .pure) (.ite .raise .askS)

theorem Keeping.srPrepare {idx v pos} : Keeping (Machine.srPrepare idx v pos) := by
  refine .bind .getCore fun _ => ?_
  split
  · exact .bind .srNote fun _ => .pure
  · split
    · exact .bind .srNote fun _ => .pure
    · extract_lets
      split
      · exact .raise
      · split
        · exact .pure
        · refine .bind .check fun _ => ?_
          split
          · exact .raise
          · exact .ite (.bind (.updS fun _ _ _ h => h.setFld) fun _ => .pure) .pure

/-! ### Machine/Xlat -/

theorem Keeps.walkAnswer {c fix1 kind probe killed} (h : Keeps s₀ s) : Keeps s₀ (s.walkAnswer c fix1 kind probe killed).1 := by
  unfold State.walkAnswer
  extract_lets
  split
  next e => exact (h.walk.fst e).modCore
  next e =>
    have h6 := h.walk.fst e
    split
    · exact h6
    · exact h6

theorem Keeping.tlbwEntry {f t'} : Keeping (Machine.tlbwEntry f t') := by
  refine .bind .getCore fun _ => ?_
  extract_lets _ _ _ _ _ _ _ _ _ f10
  have hf10 : ∀ x, Keeping (f10 x) := by
    intro x
    unfold f10
    refine .bind ?_ fun _ => ?_
    · split
      · split
        · exact .typeFault
        · split
          · split
            · exact .bind (.updS fun _ _ _ h => h.bump) fun _ => .pure
            · exact .ite (.bind .askS fun _ => .bind (.updS fun _ _ _ h => h.upd) fun _ => .pure) .pure
          · exact .ite (.bind .askS fun _ => .bind (.updS fun _ _ _ h => h.upd) fun _ => .pure) .pure
      · split
        · exact .ite (.ite (.bind .askS fun _ => .bind (.updS fun _ _ _ h => h.upd) fun _ => .pure) .pure) .raise
        · exact .ite (.bind (.updS fun _ _ _ h => h.bump) fun _ => .pure) .raise
        · exact .raise
    · exact .bind .modMe fun _ => .pure
  exact .ite (.bind .typeFault fun _ => hf10 ()) (hf10 ())

theorem Keeping.tlbrWords {f} : Keeping (Machine.tlbrWords f) := by
  refine .bind .getCore fun _ => ?_
  extract_lets _ _ f3
  have hf3 : ∀ x, Keeping (f3 x) := by
    intro x
    unfold f3
    split
    · exact .pure
    · exact .ite .pure .pure
  exact .ite (.bind .typeFault fun _ => hf3 ()) (hf3 ())

theorem Keeps.tlbi {c scope p} (h : Keeps s₀ s) : Keeps s₀ (s.tlbi c scope p) := by
  unfold State.tlbi
  extract_lets s1
  have h1 : Keeps s₀ s1 := h.foldl fun _ _ h => h.modCore
  exact h1.foldl fun _ _ h => h.modCluster.bump.bump.foldl fun _ _ h => h.modCore

/-! ### Machine/Micro -/

theorem Keeping.microFault {cause} : Keeping ((Machine.microFault cause) : M α) :=
  .bind (.updS fun _ _ _ h => h.setFld.setFld.setFld.bump) fun _ => .raise

theorem Keeps.noteWdog {c} (h : Keeps s₀ s) : Keeps s₀ (s.noteWdog c) := h.setFld.setFld.bump

theorem Keeping.modMicro {f} : Keeping (Machine.modMicro f) := .modMe

theorem Keeping.getMicro : Keeping Machine.getMicro := .bind .getCore fun _ => .pure

theorem Keeping.microSrc {n code} : Keeping (Machine.microSrc n code) := by
  refine .bind .getCore fun _ => .bind .getMicro fun _ => ?_
  split
  · split
    · exact .pure
    · exact .bind .askS fun _ => .bind (.updS fun _ _ _ h => h.fresh) fun _ => .pure
  · split
    · exact .pure
    · exact .pure
    · exact .pure
    · exact .pure
    · exact .pure
    · exact .pure
    · exact .pure
    · exact .pure
    · exact .pure

theorem Keeping.microDst {code w} : Keeping (Machine.microDst code w) := by
  refine .bind .getCore fun _ => ?_
  split
  · exact .pure
  · split
    · exact .ite .modMe .microFault
    · split
      · exact .ite .modMe .microFault
      · exact .modMicro
      · exact .modMicro
      · exact .modMicro
      · exact .modMe
      · exact .modMe
      · exact .modMe
      · exact .modMicro
      · exact .modMicro

theorem Keeping.microPush {sadj cadj} : Keeping (Machine.microPush sadj cadj) := by
  refine .bind .getCore fun _ => ?_
  extract_lets
  split
  · split
    · exact .bind .microFault fun _ => .ite (.ite .microFault .modMe) .pure
    · exact .bind .modMe fun _ => .ite (.ite .microFault .modMe) .pure
  · exact .ite (.ite .microFault .modMe) .pure

theorem Keeping.microPop {sadj cadj} : Keeping (Machine.microPop sadj cadj) := by
  refine .bind .getCore fun _ => ?_
  extract_lets
  split
  · split
    · exact .bind .microFault fun _ => .ite (.ite .microFault .cDrop) .pure
    · exact .bind .modMe fun _ => .ite (.ite .microFault .cDrop) .pure
  · exact .ite (.ite .microFault .cDrop) .pure

theorem Keeping.microAddr {memq cn write pair} : Keeping (Machine.microAddr memq cn write pair) :=
  .bind .getMicro fun _ => .bind .askS fun _ => .bind .check fun _ => .bind .resolve fun _ => .pure

theorem Keeping.microHold {a on} : Keeping (Machine.microHold a on) := .bind .xlate fun _ => .modMe

theorem Keeping.microVal {pair} : Keeping (Machine.microVal pair) := .bind .getMicro fun _ => .bind .check fun _ => .pure

theorem Keeping.microIo : Keeping Machine.microIo :=
  .bind .getCore fun _ => .bind .getMicro fun _ => .ite .throw (.bind .check fun _ => .pure)

theorem Keeping.microMem {mem memq cn} : Keeping (Machine.microMem mem memq cn) := by
  unfold Machine.microMem
  extract_lets
  split
  · exact .bind .microAddr fun _ => .bind .load fun _ => .modMicro
  · exact .bind .microAddr fun _ => .bind .microVal fun _ => .store
  · exact .bind .microAddr fun _ => .bind .load fun _ => .bind .load fun _ => .modMicro
  · exact .bind .microAddr fun _ => .bind .microVal fun _ => .storePair
  · exact .bind .microAddr fun _ => .bind .atomicWord fun _ => .bind .modMicro fun _ => .microHold
  · exact .bind .microAddr fun _ => .bind .microVal fun _ => .bind .atomicWrite fun _ => .microHold
  · exact .bind .microIo fun _ => .bind .ioRead fun _ => .modMicro
  · exact .bind .microIo fun _ => .bind .getMicro fun _ => .ioWriteAt
  · exact .bind .microAddr fun _ => .bind .peek fun _ => .modMicro
  · exact .bind .microAddr fun _ => .bind .microVal fun _ => .initStore
  · exact .pure

theorem Keeping.microSr {n} : Keeping (Machine.microSr n) := by
  unfold Machine.microSr
  extract_lets
  refine .bind .getMicro fun _ => .bind .getCore fun _ => ?_
  split
  · exact .bind (.ite .askS .srRead) fun _ => .modMicro
  · split
    · exact .throw
    · split
      · split
        · exact .modMe
        · split
          · exact .modMe
          · exact .pure
      · refine .bind .srPrepare fun _ => ?_
        split
        · exact .modMe
        · exact .pure
  · exact .pure

theorem Keeping.microXlat {op} : Keeping (Machine.microXlat op) := by
  refine .bind .getMicro fun _ => ?_
  extract_lets
  split
  · refine .bind .tlbwEntry fun _ => ?_
    split
    · exact .modMe
    · exact .pure
  · exact .bind .tlbrWords fun _ => .modMicro
  · refine .bind .me fun _ => ?_
    refine .get fun s₀ s c h => ?_
    extract_lets
    refine KeepsAt.set h.walkAnswer ?_
    split
    · exact .raise
    · exact .modMicro
  · exact .bind .getCore fun _ => .updS fun _ _ _ h => h.tlbi
  · exact .pure

theorem Keeping.microService {a} : Keeping (Machine.microService a) := by
  refine .bind .getMicro fun _ => ?_
  extract_lets
  split
  · exact .bind .check fun _ => .bind .allocate fun _ => .modMicro
  · exact .bind .check fun _ => .bind .allocPair fun _ => .modMicro
  · exact .raise
  · refine .bind .askS fun _ => .bind .check fun _ => .bind .resolve fun _ => .bind .hdrOf fun _ => ?_
    split
    · exact .modMicro

theorem Keeping.goTo {a} : Keeping (Machine.goTo a) := .bind .modMicro fun _ => .pure

theorem Keeping.microRet : Keeping Machine.microRet := by
  refine .bind .getMicro fun _ => ?_
  split
  · exact .microFault
  · exact .bind .modMicro fun _ => .goTo

theorem Keeping.bankWord {f} : Keeping (Machine.bankWord f) :=
  .bind .askS fun _ => .bind .askS fun _ => .ite (.bind (.updS fun _ _ _ h => h.diverge) fun _ => .throw) .pure

theorem Keeping.microSeq {w n cond syl} : Keeping (Machine.microSeq w n cond syl) := by
  refine .bind .getMicro fun _ => ?_
  extract_lets
  split
  · exact .goTo
  · exact .goTo
  · exact .ite .microFault (.bind .modMicro fun _ => .goTo)
  · exact .microRet
  · exact .goTo
  · refine .bind .microSrc fun _ => ?_
    split
    · exact .bind .bankWord fun _ => .ite .microFault .goTo
  · exact .ite .microFault (.bind .getCore fun _ => .bind .bankWord fun _ => .ite .typeFault .goTo)
  · exact .ite .microFault (.bind .bankWord fun _ => .ite .microFault .goTo)
  · exact .bind .getCore fun _ => .ite .throw (.bind .modMe fun _ => .bind .modMicro fun _ => .pure)
  · exact .pure
  · exact .ite .microFault (.bind .modMicro fun _ => .goTo)
  · exact .ite (.bind .modMicro fun _ => .goTo) .goTo
  · exact .microFault

theorem Keeping.microExec {syl w n} : Keeping (Machine.microExec syl w n) := by
  refine .bind .getMicro fun _ => ?_
  split
  · exact .microFault
  · split
    · exact .raise
    · extract_lets _ x2
      clear_value x2
      refine .bind .microSrc fun _ => ?_
      split
      · refine .bind .microSrc fun _ => ?_
        split
        · extract_lets _ _ f12
          have hf12 : ∀ x1, Keeping (f12 x1) := by
            intro x1
            unfold f12
            split
            · extract_lets
              refine .bind .askS fun _ => .bind .microMem fun _ => .bind .microSr fun _ => ?_
              refine .bind .microXlat fun _ => .bind .modMe fun _ => .bind .microPush fun _ => .bind .microDst fun _ => ?_
              exact .bind .microPop fun _ => .bind .modMicro fun _ => .bind .getCore fun _ => .bind .getMicro fun _ => .microSeq
          exact .ite (hf12 ()) (.bind .check fun _ => hf12 ())

theorem Keeping.microWord {syl} : Keeping (Machine.microWord syl) := by
  refine .bind .getMicro fun _ => ?_
  split
  · exact .bind .drainMine fun _ => .bind .modMicro fun _ => .pure
  · refine .bind .askS fun _ => .bind .modMicro fun _ => ?_
    split
    · exact .bind .microService fun _ => .bind .modMicro fun _ => .microRet
    · exact .bind .bankWord fun _ => .bind .bankWord fun _ => .microExec

theorem Keeping.microRun {syl fuel} : Keeping (Machine.microRun syl fuel) := by
  induction fuel generalizing syl with
  | zero => exact .bind (.updS fun _ _ _ h => h.noteWdog) fun _ => .raise
  | succ fuel ih =>
    rw [Machine.microRun]
    refine .bind .microWord fun _ => ?_
    split
    · exact .pure
    · exact ih

theorem Keeping.microEnter {entry syl} : Keeping (Machine.microEnter entry syl) := by
  refine .bind .getCore fun _ => ?_
  split
  · exact .microRun
  · exact .bind .askS fun _ => .bind (.updS fun _ _ _ h => h.fresh) fun _ => .bind .modMe fun _ => .microRun

/-! ### Machine/Generic -/

theorem Keeping.readLimbs {n a} : Keeping (Machine.readLimbs n a) := by
  induction n generalizing a with
  | zero => exact .pure
  | succ fuel ih => exact .bind .load fun _ => .bind .checkMem fun _ => .bind ih fun _ => .pure

theorem Keeping.numHdr {w} : Keeping (Machine.numHdr w) := .objHdr

theorem Keeping.readInt {w} : Keeping (Machine.readInt w) := by
  unfold Machine.readInt
  split
  · refine .bind .numHdr fun _ => ?_
    split
    · exact .bind .readLimbs fun _ => .pure
  · exact .pure

theorem Keeping.readPart {a} : Keeping (Machine.readPart a) := .bind .load fun _ => .bind .check fun _ => .readInt

theorem Keeping.readReal {w} : Keeping (Machine.readReal w) := by
  unfold Machine.readReal
  split
  · exact .pure
  · split
    · refine .bind .numHdr fun _ => ?_
      split
      · exact .bind .readPart fun _ => .bind .readPart fun _ => .ite (.bind .load fun _ => .memFault) .pure
    · exact .bind .readInt fun _ => .pure

theorem Keeping.readCpxPart {a} : Keeping (Machine.readCpxPart a) := .bind .load fun _ => .bind .check fun _ => .readReal

theorem Keeping.readNum {w} : Keeping (Machine.readNum w) := by
  unfold Machine.readNum
  split
  · refine .bind .numHdr fun _ => ?_
    split
    · exact .bind .readCpxPart fun _ => .bind .readCpxPart fun _ => .pure
  · exact .bind .readReal fun _ => .pure

theorem Keeping.writeInt {n} : Keeping (Machine.writeInt n) := .ite .pure .allocObj

theorem Keeping.writeReal {x} : Keeping (Machine.writeReal x) := by
  unfold Machine.writeReal
  split
  · exact .pure
  · exact .ite .writeInt (.bind .writeInt fun _ => .bind .writeInt fun _ => .allocObj)

theorem Keeping.writeNum {x} : Keeping (Machine.writeNum x) := by
  unfold Machine.writeNum
  split
  · exact .writeReal
  · exact .bind .writeReal fun _ => .bind .writeReal fun _ => .allocObj

theorem Keeping.genericIns {g syl n d accs fast slow l} (hslow : ∀ l, Keeping (slow l)) :
    Keeping ((Machine.genericIns g syl n d accs fast slow).body l) := by
  refine .bind .getCore fun _ => ?_
  split
  · exact .microEnter
  · extract_lets
    split
    · exact .pure
    · refine .bind .microPrep fun _ => .bind .check fun _ => .bind .bankWord fun _ => ?_
      exact .bind .askS fun _ => .ite .microEnter (.bind .check fun _ => .bind (hslow l) fun _ => .pure)

theorem Keeping.readTwo {l'} : Keeping (Machine.readTwo l') := .bind .readNum fun _ => .bind .readNum fun _ => .pure

theorem Keeping.zeroDiv {l'} : Keeping ((Machine.zeroDiv l') : M α) := .typeFault

/-! ### Machine/Arith -/

theorem Keeping.slowNum {f l'} : Keeping (Machine.slowNum f l') := by
  refine .bind .readTwo fun _ => ?_
  split
  · exact .writeNum

theorem Keeping.iAdd {l} : Keeping (Machine.iAdd.body l) := .genericIns fun _ => .slowNum

theorem Keeping.iSub {l} : Keeping (Machine.iSub.body l) := .genericIns fun _ => .slowNum

theorem Keeping.iMul {l} : Keeping (Machine.iMul.body l) := .genericIns fun _ => .slowNum

theorem Keeping.slowDiv {l'} : Keeping (Machine.slowDiv l') := by
  refine .bind .readTwo fun _ => ?_
  split
  · exact .ite .zeroDiv .writeNum

theorem Keeping.iDiv {l} : Keeping (Machine.iDiv.body l) := .genericIns fun _ => .slowDiv

theorem Keeping.slowIntDiv {fi ff l'} : Keeping (Machine.slowIntDiv fi ff l') := by
  refine .bind .readReal fun _ => .bind .readReal fun _ => ?_
  split
  · exact .ite .zeroDiv .writeInt
  · exact .pure

theorem Keeping.iQuo {l} : Keeping (Machine.iQuo.body l) := .genericIns fun _ => .slowIntDiv

theorem Keeping.iMod {l} : Keeping (Machine.iMod.body l) := .genericIns fun _ => .slowIntDiv

theorem Keeping.iRem {l} : Keeping (Machine.iRem.body l) := .genericIns fun _ => .slowIntDiv

theorem Keeping.slowOne {f l'} : Keeping (Machine.slowOne f l') := .bind .readNum fun _ => .writeNum

theorem Keeping.iNeg {l} : Keeping (Machine.iNeg.body l) := .genericIns fun _ => .slowOne

theorem Keeping.iAbs {l} : Keeping (Machine.iAbs.body l) := .genericIns fun _ => .slowOne

theorem Keeping.iInc {l} : Keeping (Machine.iInc.body l) := .genericIns fun _ => .slowOne

theorem Keeping.iDec {l} : Keeping (Machine.iDec.body l) := .genericIns fun _ => .slowOne

theorem Keeping.slowBits {f l'} : Keeping (Machine.slowBits f l') := .bind .readInt fun _ => .bind .readInt fun _ => .writeInt

theorem Keeping.iAnd {l} : Keeping (Machine.iAnd.body l) := .genericIns fun _ => .slowBits

theorem Keeping.iOr {l} : Keeping (Machine.iOr.body l) := .genericIns fun _ => .slowBits

theorem Keeping.iXor {l} : Keeping (Machine.iXor.body l) := .genericIns fun _ => .slowBits

theorem Keeping.iNot {l} : Keeping (Machine.iNot.body l) := .genericIns fun _ => .bind .readInt fun _ => .writeInt

theorem Keeping.iAsh {l} : Keeping (Machine.iAsh.body l) :=
  .genericIns fun _ => .bind .readInt fun _ => .ite .typeFault .writeInt

theorem Keeping.iLsh {l} : Keeping (Machine.iLsh.body l) := .bind .check fun _ => .pure

theorem Keeping.pickMax {want l'} : Keeping (Machine.pickMax want l') := by
  refine .bind (.ite .resolve .pure) fun _ => .bind (.ite .resolve .pure) fun _ => ?_
  exact .bind .readReal fun _ => .bind .readReal fun _ => .ite .pure (.ite .pure (.ite .pure .pure))

theorem Keeping.iMax {l} : Keeping (Machine.iMax.body l) := .genericIns fun _ => .pickMax

theorem Keeping.iMin {l} : Keeping (Machine.iMin.body l) := .genericIns fun _ => .pickMax

theorem Keeping.typedIns {syl n d t' micro f l} : Keeping ((Machine.typedIns syl n d t' micro f).body l) := .bind .check fun _ => .pure

theorem Keeping.iFixAdd {l} : Keeping (Machine.iFixAdd.body l) := .typedIns

theorem Keeping.iFixSub {l} : Keeping (Machine.iFixSub.body l) := .typedIns

theorem Keeping.iFixMul {l} : Keeping (Machine.iFixMul.body l) := .typedIns

theorem Keeping.fixDivIns {syl f l} : Keeping ((Machine.fixDivIns syl f).body l) := .bind .check fun _ => .ite .zeroDiv .pure

theorem Keeping.iFixQuo {l} : Keeping (Machine.iFixQuo.body l) := .fixDivIns

theorem Keeping.iFixRem {l} : Keeping (Machine.iFixRem.body l) := .fixDivIns

theorem Keeping.iFixAnd {l} : Keeping (Machine.iFixAnd.body l) := .typedIns

theorem Keeping.iFixOr {l} : Keeping (Machine.iFixOr.body l) := .typedIns

theorem Keeping.iFixXor {l} : Keeping (Machine.iFixXor.body l) := .typedIns

theorem Keeping.iFixShl {l} : Keeping (Machine.iFixShl.body l) := .typedIns

theorem Keeping.iFixShr {l} : Keeping (Machine.iFixShr.body l) := .typedIns

theorem Keeping.iFloAdd {l} : Keeping (Machine.iFloAdd.body l) := .typedIns

theorem Keeping.iFloSub {l} : Keeping (Machine.iFloSub.body l) := .typedIns

theorem Keeping.iFloMul {l} : Keeping (Machine.iFloMul.body l) := .typedIns

theorem Keeping.iFloDiv {l} : Keeping (Machine.iFloDiv.body l) := .typedIns

theorem Keeping.iFloSqrt {l} : Keeping (Machine.iFloSqrt.body l) := .typedIns

theorem Keeping.iFloFma {l} : Keeping (Machine.iFloFma.body l) := .typedIns

theorem Keeping.iFloCvt {l} : Keeping (Machine.iFloCvt.body l) := .typedIns

theorem Keeping.iFloTrunc {l} : Keeping (Machine.iFloTrunc.body l) := .typedIns

/-! ### Machine/Bar -/

theorem Keeps.pwinRefuse (h : Keeps s₀ s) : Keeps s₀ s.pwinRefuse := h.bump.answerHost

theorem Keeps.execBar2Access {off wr v} (h : Keeps s₀ s) : AnsKeeps s₀ (Machine.execBar2Access off wr v s) := by
  unfold Machine.execBar2Access
  split
  · exact h
  · split
    · exact h.pwinRefuse
    · split
      · exact h.pwinRefuse
      · split
        · exact h.pwinRefuse
        · exact .ite h.ioWrite.answerHost h.answerHost

/-! ### Machine/Compare -/

theorem Keeping.iEq {l} : Keeping (Machine.iEq.body l) := .bind .check fun _ => .pure

theorem Keeping.sameBig {x y} : Keeping (Machine.sameBig x y) := by
  refine .bind .numHdr fun _ => ?_
  split
  · refine .bind .numHdr fun _ => ?_
    split
    · exact .ite .pure (.bind .readLimbs fun _ => .bind .readLimbs fun _ => .pure)

theorem Keeping.eqlFlat {x y} : Keeping (Machine.eqlFlat x y) := .ite .pure (.ite .sameBig .pure)

theorem Keeping.eqlParts {f x y} (hf : ∀ x y, Keeping (f x y)) : Keeping (Machine.eqlParts f x y) := by
  refine .bind .numHdr fun _ => ?_
  split
  · refine .bind .numHdr fun _ => ?_
    split
    · refine .bind .load fun _ => .bind .load fun _ => .bind .check fun _ => .bind (hf _ _) fun _ => ?_
      exact .ite .pure (.bind .load fun _ => .bind .load fun _ => .bind .check fun _ => hf _ _)

theorem Keeping.eqlRat {x y} : Keeping (Machine.eqlRat x y) := .ite .pure (.ite (.eqlParts (fun _ _ => .eqlFlat)) .eqlFlat)

theorem Keeping.eql {x y} : Keeping (Machine.eql x y) := .ite .pure (.ite (.eqlParts (fun _ _ => .eqlRat)) .eqlRat)

theorem Keeping.iEql {l} : Keeping (Machine.iEql.body l) := .genericIns fun _ => .bind .eql fun _ => .pure

theorem Keeping.slowCmp {f l'} : Keeping (Machine.slowCmp f l') := by
  refine .bind .readTwo fun _ => ?_
  split
  · exact .pure

theorem Keeping.cmpIns {g syl fast p l} : Keeping ((Machine.cmpIns g syl fast p).body l) := by
  refine .bind .getCore fun _ => ?_
  split
  · exact .microEnter
  · extract_lets
    split
    · exact .pure
    · refine .bind .microPrep fun _ => .bind .check fun _ => ?_
      exact .bind .bankWord fun _ => .bind .askS fun _ => .ite .microEnter (.bind .check fun _ => .bind .slowCmp fun _ => .pure)

theorem Keeping.iNumEqual {l} : Keeping (Machine.iNumEqual.body l) := .genericIns fun _ => .slowCmp

theorem Keeping.iNumLess {l} : Keeping (Machine.iNumLess.body l) := .cmpIns

theorem Keeping.iNumGreater {l} : Keeping (Machine.iNumGreater.body l) := .cmpIns

theorem Keeping.iNumLessEqual {l} : Keeping (Machine.iNumLessEqual.body l) := .cmpIns

theorem Keeping.iNumGreaterEqual {l} : Keeping (Machine.iNumGreaterEqual.body l) := .cmpIns

theorem Keeping.iZerop {l} : Keeping (Machine.iZerop.body l) := .genericIns fun _ => .bind .readNum fun _ => .pure

theorem Keeping.iTypep {t' l} : Keeping ((Machine.iTypep t').body l) := .bind .check fun _ => .pure

theorem Keeping.iCheck {t' l} : Keeping ((Machine.iCheck t').body l) := .bind .check fun _ => .pure

theorem Keeping.iClassp {n l} : Keeping ((Machine.iClassp n).body l) := .bind .check fun _ => .pure

/-! ### Machine/Objects -/

theorem Keeping.pairIns {syl off l} : Keeping ((Machine.pairIns syl off).body l) :=
  .bind .check fun _ => .ite .pure (.bind .resolve fun _ => .bind .load fun _ => .pure)

theorem Keeping.iCar {l} : Keeping (Machine.iCar.body l) := .pairIns

theorem Keeping.iCdr {l} : Keeping (Machine.iCdr.body l) := .pairIns

theorem Keeping.iCons {l} : Keeping (Machine.iCons.body l) := .bind .check fun _ => .bind .allocPair fun _ => .pure

theorem Keeping.rplacIns {syl off l} : Keeping ((Machine.rplacIns syl off).body l) :=
  .bind .check fun _ => .bind .resolve fun _ => .bind .store fun _ => .pure

theorem Keeping.iRplaca {l} : Keeping (Machine.iRplaca.body l) := .rplacIns

theorem Keeping.iRplacd {l} : Keeping (Machine.iRplacd.body l) := .rplacIns

theorem Keeping.iAlloc {l} : Keeping (Machine.iAlloc.body l) := .bind .check fun _ => .bind .allocate fun _ => .pure

theorem Keeping.indexIn {w pos h'} : Keeping (Machine.indexIn w pos h') := .ite .pure .typeFault

theorem Keeping.iVref {l} : Keeping (Machine.iVref.body l) := by
  refine .bind .askS fun _ => .bind .check fun _ => .bind .objHdr fun _ => ?_
  split
  · exact .bind .indexIn fun _ => .bind .load fun _ => .pure

theorem Keeping.iVset {l} : Keeping (Machine.iVset.body l) := by
  refine .bind .askS fun _ => ?_
  extract_lets
  refine .bind .check fun _ => .bind .objHdr fun _ => ?_
  split
  · exact .bind .indexIn fun _ => .bind .store fun _ => .pure

theorem Keeping.iVlen {l} : Keeping (Machine.iVlen.body l) := by
  refine .bind .askS fun _ => .bind .check fun _ => .bind .objHdr fun _ => ?_
  split
  · exact .pure

theorem Keeping.symIns {syl off l} : Keeping ((Machine.symIns syl off).body l) := by
  refine .bind .check fun _ => .bind .objHdr fun _ => ?_
  split
  · exact .bind .load fun _ => .pure

theorem Keeping.iSymval {l} : Keeping (Machine.iSymval.body l) := .symIns

theorem Keeping.iSymfn {l} : Keeping (Machine.iSymfn.body l) := .symIns

theorem Keeping.iSymset {l} : Keeping (Machine.iSymset.body l) := by
  refine .bind .check fun _ => .bind .objHdr fun _ => ?_
  split
  · exact .bind .store fun _ => .pure

/-! ### Machine/Control -/

theorem Keeping.iBr {off l} : Keeping ((Machine.iBr off).body l) := .bind .getCore fun _ => .pure

theorem Keeping.condIns {cond off ok p l} : Keeping ((Machine.condIns cond off ok p).body l) :=
  .bind .check fun _ => .bind .getCore fun _ => .pure

theorem Keeping.iBrnil {off l} : Keeping ((Machine.iBrnil off).body l) := .condIns

theorem Keeping.iBrt {off l} : Keeping ((Machine.iBrt off).body l) := .condIns

theorem Keeping.iBrz {off l} : Keeping ((Machine.iBrz off).body l) := .condIns

theorem Keeping.iBrnz {off l} : Keeping ((Machine.iBrnz off).body l) := .condIns

theorem Keeping.dropOps {n} : Keeping (Machine.dropOps n) := .modMe

theorem Keeping.callTarget {t'} : Keeping (Machine.callTarget t') := by
  refine .bind .check fun _ => ?_
  split
  · exact .pure
  · refine .bind ?_ fun _ => ?_
    · refine .bind .resolve fun _ => .bind .hdrOf fun _ => ?_
      split
      · exact .ite .pure .memFault
    · split
      · exact .bind .load fun _ => .bind .check fun _ => .pure

theorem Keeping.callCount {f max} : Keeping (Machine.callCount f max) := .ite .pure .typeFault

theorem Keeping.pushLoop : Keeping Machine.pushLoop :=
  .bind .getCore fun _ => .ite (.bind .cPush fun _ => .bind .cPush fun _ => .cPush) .pure

theorem Keeping.iCall {l} : Keeping (Machine.iCall.body l) := by
  refine .bind .check fun _ => .bind .check fun _ => .bind .callCount fun _ => .bind .callTarget fun _ => ?_
  split
  · refine .bind .underflow fun _ => .bind .dropOps fun _ => .bind ?_ fun _ => ?_
    · split
      · exact .modMe
      · exact .pure
    · refine .bind .spillAll fun _ => ?_
      exact .bind .getCore fun _ => .bind .pushLoop fun _ => .bind .cPush fun _ => .bind .cPush fun _ => .bind .modMe fun _ => .pure

theorem Keeping.operandsFrom {p n} : Keeping (Machine.operandsFrom p n) := by
  induction n generalizing p with
  | zero => exact .pure
  | succ fuel ih => exact .bind .operandAt fun _ => .bind ih fun _ => .pure

theorem Keeping.mayWrite {a n} : Keeping (Machine.mayWrite a n) := by
  induction n generalizing a with
  | zero => exact .pure
  | succ fuel ih => exact .bind .xlate fun _ => .bind .sceneSafe fun _ => .bind .target fun _ => ih

theorem Keeping.storeDown {a l} : Keeping (Machine.storeDown a l) := by
  induction l generalizing a with
  | nil => exact .pure
  | cons w l ih => exact .bind .store fun _ => ih

theorem Keeping.iTcall {l} : Keeping (Machine.iTcall.body l) := by
  refine .bind .check fun _ => .bind .check fun _ => .bind .callCount fun _ => .bind .callTarget fun _ => ?_
  split
  · refine .bind .underflow fun _ => ?_
    refine .bind .cFrame fun _ => .bind .landEarly fun _ => .bind .operandsFrom fun _ => .bind .getCore fun _ => ?_
    exact .bind .mayWrite fun _ => .bind .storeDown fun _ => .bind .cDrop fun _ => .bind .cPush fun _ => .bind .modMe fun _ => .pure

theorem Keeping.iRet {l} : Keeping (Machine.iRet.body l) := by
  refine .bind .getCore fun _ => .bind .cFrame fun _ => ?_
  extract_lets
  refine .bind .cFrame fun _ => ?_
  extract_lets
  split
  · refine .bind .cFrame fun _ => .bind .cFrame fun _ => ?_
    exact .bind .cRead fun _ => .bind .check fun _ => .bind .cDrop fun _ => .bind .modMe fun _ => .bind .modMe fun _ => .pure
  · exact .bind .cDrop fun _ => .bind .modMe fun _ => .pure

theorem Keeping.iEnter {n l} : Keeping ((Machine.iEnter n).body l) := by
  refine .bind .getCore fun _ => ?_
  exact .bind .cFrame fun _ => .ite .memFault (.bind .cDrop fun _ => .bind .cPushEmpty fun _ => .bind .cPush fun _ => .pure)

theorem Keeping.iLocal {n l} : Keeping ((Machine.iLocal n).body l) := .bind .cReadAs fun _ => .pure

theorem Keeping.iSetlocal {n l} : Keeping ((Machine.iSetlocal n).body l) := .bind .cWrite fun _ => .pure

theorem Keeping.iArg {n l} : Keeping ((Machine.iArg n).body l) := .bind .getCore fun _ => .bind .load fun _ => .pure

theorem Keeping.iLoop {n l} : Keeping ((Machine.iLoop n).body l) :=
  .bind .check fun _ => .bind .getCore fun _ => .bind .modMe fun _ => .ite (.bind .modMe fun _ => .pure) .pure

theorem Keeping.iLeave {l} : Keeping (Machine.iLeave.body l) := .bind .getCore fun _ => .ite (.bind .modMe fun _ => .pure) .pure

theorem Keeping.iLcget {l} : Keeping (Machine.iLcget.body l) := .bind .getCore fun _ => .pure

theorem Keeping.iLcset {l} : Keeping (Machine.iLcset.body l) := .bind .check fun _ => .pure

end Sys2Proof.Machine
end

section
/-! PROOFS. Every step keeps canonical memory (O59): the memory, system, translation, Scene, remote and stepped instructions. -/

namespace Sys2Proof.Machine

open Sys2Proof

variable {s₀ s t : State} {α β ρ ε : Type}

/-! ### Machine/MemIns -/

theorem Keeping.fetchIns {syl alloc l} : Keeping ((Machine.fetchIns syl alloc).body l) := by
  refine .bind .check fun _ => ?_
  exact .bind .resolve fun _ => .bind .getCore fun _ => .bind .xlate fun _ => .bind .readWord fun _ => .bind .barrier fun _ => .pure

theorem Keeping.iFetch {l} : Keeping (Machine.iFetch.body l) := .fetchIns

theorem Keeps.meets {c u} (h : Keeps s₀ s) : Keeps s₀ (s.meets c u) := .ite h.frameUpset h

theorem Keeping.iPfetch {l} : Keeping (Machine.iPfetch.body l) := .fetchIns

theorem Keeping.storeIns {syl alloc l} : Keeping ((Machine.storeIns syl alloc).body l) :=
  .bind .check fun _ => .bind .resolve fun _ => .bind .getCore fun _ => .bind .store fun _ => .pure

theorem Keeping.iStore {l} : Keeping (Machine.iStore.body l) := .storeIns

theorem Keeping.iPstore {l} : Keeping (Machine.iPstore.body l) := .storeIns

theorem Keeping.iFetch2 {l} : Keeping (Machine.iFetch2.body l) :=
  .bind .check fun _ => .bind .resolve fun _ => .bind .load fun _ => .bind .load fun _ => .pure

theorem Keeping.iStore2 {l} : Keeping (Machine.iStore2.body l) :=
  .bind .check fun _ => .bind .resolve fun _ => .bind .storePair fun _ => .pure

theorem Keeping.iLoc {l} : Keeping (Machine.iLoc.body l) := by
  refine .bind .askS fun _ => ?_
  extract_lets
  refine .bind .check fun _ => .bind .resolve fun _ => ?_
  extract_lets
  split
  · refine .bind .objHdr fun _ => ?_
    split
    · exact .bind .indexIn fun _ => .pure
  · exact .ite .pure .typeFault

theorem Keeping.iCas {l} : Keeping (Machine.iCas.body l) := by
  refine .bind .check fun _ => ?_
  exact .bind .resolve fun _ => .bind .atomicRead fun _ => .bind .checkMem fun _ => .ite (.bind .atomicWrite fun _ => .pure) .pure

theorem Keeping.iXchg {l} : Keeping (Machine.iXchg.body l) :=
  .bind .check fun _ => .bind .resolve fun _ => .bind .atomicRead fun _ => .bind .atomicWrite fun _ => .pure

theorem Keeping.iFadd {l} : Keeping (Machine.iFadd.body l) := by
  refine .bind .check fun _ => ?_
  exact .bind .resolve fun _ => .bind .atomicRead fun _ => .bind .check fun _ => .bind .atomicWrite fun _ => .pure

theorem Keeping.iFenceAcq {l} : Keeping (Machine.iFenceAcq.body l) := .pureIns

theorem Keeping.iFenceRel {l} : Keeping (Machine.iFenceRel.body l) := .bind .modMe fun _ => .pure

theorem Keeping.iFenceFull {l} : Keeping (Machine.iFenceFull.body l) := .bind .modMe fun _ => .pure

theorem Keeping.iGettag {l} : Keeping (Machine.iGettag.body l) := .bind .check fun _ => .pure

theorem Keeping.iSettag {l} : Keeping (Machine.iSettag.body l) := by
  refine .bind .check fun _ => .bind .askS fun _ => ?_
  split
  · exact .raise
  · exact .ite .raise (.bind .check fun _ => .bind .getCore fun _ => .ite .raise (.ite .typeFault .pure))

/-! ### Machine/System -/

theorem Keeping.iIn {l} : Keeping (Machine.iIn.body l) := by
  refine .bind .check fun _ => .bind .ioRead fun _ => .bind .markUnsafe fun _ => .bind .ndval fun _ => ?_
  split
  · exact .pure

theorem Keeping.iOut {l} : Keeping (Machine.iOut.body l) :=
  .bind .check fun _ => .bind .ioWriteAt fun _ => .bind .markUnsafe fun _ => .pure

theorem Keeping.iInb {n l} : Keeping ((Machine.iInb n).body l) := by
  refine .bind .getCore fun _ => .bind .ioRead fun _ => .bind .markUnsafe fun _ => .bind .ndval fun _ => ?_
  split
  · exact .pure

theorem Keeping.iOutb {n l} : Keeping ((Machine.iOutb n).body l) :=
  .bind .check fun _ => .bind .getCore fun _ => .bind .ioWriteAt fun _ => .bind .markUnsafe fun _ => .pure

theorem Keeps.execRegisterWrite {c w addr v} (h : Keeps s₀ s) : AnsKeeps s₀ (Machine.execRegisterWrite c w addr v s) := by
  unfold Machine.execRegisterWrite
  split
  · exact h
  · exact h.ioWrite

theorem Keeping.iTrap {n l} : Keeping ((Machine.iTrap n).body l) := .pure

theorem Keeping.iHalt {l} : Keeping (Machine.iHalt.body l) :=
  .bind .askS fun _ => .ite .pure (.bind (.updS fun _ _ _ h => h.modCore.bump) fun _ => .pure)

theorem Keeping.shadowTrap {dep} : Keeping (Machine.shadowTrap dep) := by
  refine .bind .getCore fun _ => .bind .askS fun _ => ?_
  split
  · exact .ite .raise .pure
  · exact .pure

theorem Keeping.iMfsr {l} : Keeping (Machine.iMfsr.body l) :=
  .bind .shadowTrap fun _ => .bind .check fun _ => .bind .getCore fun _ => .bind .srRead fun _ => .pure

theorem Keeping.iMtsr {l} : Keeping (Machine.iMtsr.body l) := by
  refine .bind .check fun _ => .bind .srPrepare fun _ => .bind ?_ fun _ => ?_
  · split
    · exact .spillAll
    · exact .cSpillFor
    · exact .ite .modMe .pure
    · exact .pure
  · exact .pure

theorem Keeping.iSetipl {l} : Keeping (Machine.iSetipl.body l) := .bind .check fun _ => .bind .getCore fun _ => .pure

theorem Keeping.iBrk {l} : Keeping (Machine.iBrk.body l) := .bind .getCore fun _ => .ite .throw .raise

theorem Keeping.iSync {l} : Keeping (Machine.iSync.body l) :=
  .bind .landEarly fun _ => .bind .drainMine fun _ => .bind .modMe fun _ => .pure

theorem Keeping.iTime {l} : Keeping (Machine.iTime.body l) := by
  refine .bind .askS fun _ => .bind .ndval fun _ => ?_
  split
  · exact .pure

theorem Keeping.iRand {l} : Keeping (Machine.iRand.body l) := by
  refine .bind .askS fun _ => ?_
  split
  · exact .raise
  · refine .get fun s₀ s c h => ?_
    split
    next e =>
      have h1 := h.drawDrbg.snd e
      refine KeepsAt.set h1 ?_
      refine .bind .ndval fun _ => ?_
      split
      · exact .pure

/-! ### Machine/Exc -/

theorem Keeping.tsbPlace {base} : Keeping (Machine.tsbPlace base) := by
  refine .bind .getCore fun _ => .bind .me fun _ => ?_
  refine .get fun s₀ s c h => ?_
  split
  next e => exact KeepsAt.set (h.xbase.fst e) (.raise)
  next e => exact KeepsAt.set (h.xbase.fst e) (.pure)

theorem Keeping.tsbRead {pa} : Keeping (Machine.tsbRead pa) := by
  refine .bind .getCore fun _ => .bind .askS fun _ => ?_
  split
  · exact .pure
  · exact .raise

theorem Keeping.tsbReads {pa n} : Keeping (Machine.tsbReads pa n) := by
  induction n generalizing pa with
  | zero => exact .pure
  | succ fuel ih => exact .bind .tsbRead fun _ => .bind ih fun _ => .pure

theorem Keeping.tsbPrev {base} : Keeping (Machine.tsbPrev base) := by
  refine .bind .getCore fun _ => .bind .me fun _ => ?_
  refine .get fun s₀ s c h => ?_
  split
  next e => exact KeepsAt.set (h.tsbLink.fst e) (.raise)
  next e => exact KeepsAt.set (h.tsbLink.fst e) (.pure)

theorem Keeping.tsbTags {pa ws} : Keeping (Machine.tsbTags pa ws) := by
  unfold Machine.tsbTags
  extract_lets
  split
  · exact .memFault
  · exact .pure

theorem Keeping.iRte {l} : Keeping (Machine.iRte.body l) := by
  refine .bind .getCore fun _ => ?_
  refine .bind .askS fun _ => .bind (.ite .pure .tsbPrev) fun _ => .bind .tsbPlace fun _ => .bind .tsbReads fun _ => ?_
  extract_lets _ f2
  have hf2 : ∀ x, Keeping (f2 x) := by
    intro x
    unfold f2
    refine .bind ?_ fun _ => ?_
    · split
      · exact .bind .tsbPrev fun _ => .bind .tsbPlace fun _ => .bind .tsbReads fun _ => .bind .tsbTags fun _ => .ite .pure .raise
      · exact .pure
    · split
      · refine .bind .modMe fun _ => .bind ?_ fun _ => ?_
        · refine .updS fun s₀ _ _ h => ?_
          extract_lets s13
          have h13 : Keeps s₀ s13 := .ite h.setFld h
          exact .ite h13.setFld h13
        · exact .pure
  refine .bind .tsbTags fun _ => ?_
  split
  · exact .bind .memFault fun _ => .ite (.bind .raise fun _ => hf2 ()) (hf2 ())
  · exact .ite (.bind .raise fun _ => hf2 ()) (hf2 ())

theorem Keeping.iRtq {l} : Keeping (Machine.iRtq.body l) := .bind .getCore fun _ => .ite .raise (.bind .modMe fun _ => .pure)

theorem Keeping.foreignXlate {w l' pkr a kind} : Keeping (Machine.foreignXlate w l' pkr a kind) := by
  refine .bind .getCore fun _ => ?_
  extract_lets
  split
  · split
    · exact .pure
    · exact .pure
  · refine .bind .me fun _ => ?_
    refine .get fun s₀ s c h => ?_
    split
    next e => exact KeepsAt.set (h.walk.fst e) (.pure)
    next e =>
      have h6 := h.walk.fst e
      refine KeepsAt.set h6 ?_
      extract_lets
      split
      · exact .pure
      · exact .pure

theorem Keeping.gateWord {b a} : Keeping (Machine.gateWord b a) := by
  refine .bind .noteData fun _ => .bind .getCore fun _ => ?_
  split
  · refine .bind .foreignXlate fun _ => ?_
    split
    · exact .raise
    · split
      · exact .raise
      · split
        · exact .raise
        · refine .bind .askS fun _ => ?_
          split
          · exact .pure
          · exact .raise
  · split
    · exact .raise
    · split
      · exact .raise
      · exact .ite .raise .readWord

theorem Keeping.gateRecord {b a} : Keeping (Machine.gateRecord b a) := by
  refine .bind .getCore fun _ => .bind .gateWord fun _ => ?_
  extract_lets f1
  have hf1 : ∀ x, Keeping (f1 x) := by
    intro x
    unfold f1
    refine .bind .gateWord fun _ => ?_
    extract_lets _ f13
    have hf13 : ∀ x, Keeping (f13 x) := by
      intro x
      unfold f13
      refine .bind .gateWord fun _ => ?_
      extract_lets f24
      have hf24 : ∀ x, Keeping (f24 x) := fun _ => .bind .gateWord fun _ => .ite .pure (.bind .raise fun _ => .pure)
      exact .ite (hf24 ()) (.bind .raise fun _ => hf24 ())
    exact .ite (hf13 ()) (.bind .raise fun _ => hf13 ())
  exact .ite (.bind .check fun _ => hf1 ()) (.bind .raise fun _ => hf1 ())

theorem Keeping.gateClasses {mask p i l} : Keeping (Machine.gateClasses mask p i l) := by
  induction l generalizing mask p i with
  | nil => exact .pure
  | cons w l ih => exact .ite ih .raise

theorem Keeping.gateSlots {w l' pkr a n} : Keeping (Machine.gateSlots w l' pkr a n) := by
  induction n generalizing w l' pkr a with
  | zero => exact .pure
  | succ fuel ih =>
    rw [Machine.gateSlots]
    refine .bind .foreignXlate fun _ => ?_
    split
    · exact .raise
    · exact .bind ih fun _ => .pure

theorem Keeping.gateStores {a l} : Keeping (Machine.gateStores a l) := by
  induction l generalizing a with
  | nil => exact .pure
  | cons x l ih => exact .bind .overwritten fun _ => .bind .writeBarrier fun _ => .bind .writeWord fun _ => ih

theorem Keeping.iGate {l} : Keeping (Machine.iGate.body l) := by
  dsimp -zeta only [Machine.iGate]
  extract_lets cap record
  have hrecord : ∀ x, Keeping (record x) := by
    intro x
    unfold record
    refine .bind .gateRecord fun _ => .bind .getCore fun _ => ?_
    extract_lets _ _ _ go
    have hgo : ∀ x, Keeping (go x) := by
      intro x
      unfold go
      refine .bind .underflow fun _ => .bind .strictArgs fun _ => .bind .operandsFrom fun _ => .bind .check fun _ => ?_
      refine .bind .gateClasses fun _ => .bind .askS fun _ => ?_
      refine .bind (.ite .pure (.bind .gateSlots fun _ => .bind .gateSlots fun _ => .pure)) fun _ => ?_
      refine .bind .dropOps fun _ => .bind .spillAll fun _ => .bind .getCore fun _ => .ite ?_ ?_
      · refine .bind .cPush fun _ => .bind .cPush fun _ => .bind .cPush fun _ => .bind .cPush fun _ => ?_
        exact .bind .cPush fun _ => .bind .cPush fun _ => .bind .cPush fun _ => .bind .cPush fun _ => .bind .modMe fun _ => .pure
      · exact .bind .cSpillFor fun _ => .bind .gateStores fun _ => .bind .gateStores fun _ => .bind .modMe fun _ => .pure
    exact .ite (.bind .raise fun _ => hgo ()) (hgo ())
  exact .bind .check fun _ => .ite (hrecord ()) (.bind .raise fun _ => hrecord ())

theorem Keeping.cFixes {p n} : Keeping (Machine.cFixes p n) := by
  induction n generalizing p with
  | zero => exact .pure
  | succ fuel ih =>
    rw [Machine.cFixes]
    exact .bind .getCore fun _ => .bind .cRead fun _ => .bind .checkMem fun _ => .ite (.bind ih fun _ => .pure) .memFault

theorem Keeping.iGret {l} : Keeping (Machine.iGret.body l) := by
  refine .bind .check fun _ => .bind .getCore fun _ => .bind .cRead fun _ => .bind .checkMem fun _ => ?_
  extract_lets _ _ f4
  have hf4 : ∀ x, Keeping (f4 x) := by
    intro x
    unfold f4
    refine .bind .cFixes fun _ => ?_
    extract_lets _ _ _ f18 f19
    have hf18 : ∀ x, Keeping (f18 x) := by
      intro x
      unfold f18
      refine .bind .callCount fun _ => .bind .underflow fun _ => .bind .strictArgs fun _ => .bind .operandsFrom fun _ => ?_
      split
      · exact .bind .modMe fun _ => .bind .modMe fun _ => .pure
      · exact .bind .dropOps fun _ => .bind .cDrop fun _ => .bind .modMe fun _ => .bind .modMe fun _ => .pure
    have hf19 : ∀ x, Keeping (f19 x) := fun _ => .ite (hf18 ()) (.bind .raise fun _ => hf18 ())
    exact .ite (.bind .raise fun _ => hf19 ()) (hf19 ())
  exact .ite (hf4 ()) (.bind .memFault fun _ => hf4 ())

theorem Keeps.leaveHalt {c} (h : Keeps s₀ s) : Keeps s₀ (s.leaveHalt c) := .ite h.ungateCore.bump.modCore h

theorem Keeps.takeEvent {c t' w d sub} (h : Keeps s₀ s) : Keeps s₀ (s.takeEvent c t' w d sub) := by
  unfold State.takeEvent
  extract_lets _ s2
  have h2 : Keeps s₀ s2 := .ite h.leaveHalt.abortScene h.leaveHalt
  exact h2.endChunk.enterTrap

theorem Keeps.takeInterrupt {c} (h : Keeps s₀ s) : Keeps s₀ (Machine.takeInterrupt c s) := by
  unfold Machine.takeInterrupt
  extract_lets
  split
  · exact h
  · split
    · exact h
    · exact h.modCore.takeEvent

theorem Keeps.takeNmi {c} (h : Keeps s₀ s) : Keeps s₀ (Machine.takeNmi c s) :=
  .ite h (.ite (.ite h.leaveHalt h) h.modCore.takeEvent.setFld.modCore)

theorem Keeps.takeMc {c} (h : Keeps s₀ s) : Keeps s₀ (Machine.takeMc c s) := by
  unfold Machine.takeMc
  split
  · exact h
  · exact .ite h.modCore.takeEvent h

theorem Keeps.takeStep {c} (h : Keeps s₀ s) : Keeps s₀ (Machine.takeStep c s) := .ite h (.ite h.modCore.abortScene h.modCore.enterTrap)

/-! ### Machine/Tlb -/

theorem Keeping.iWalk {l} : Keeping (Machine.iWalk.body l) := by
  refine .bind .shadowTrap fun _ => .bind .check fun _ => .bind .getCore fun _ => .bind .askS fun _ => ?_
  split
  · refine .bind .me fun _ => ?_
    refine .get fun s₀ s c h => ?_
    split
    next e => exact KeepsAt.set (h.walkAnswer.fst e) (.raise)
    next e => exact KeepsAt.set (h.walkAnswer.fst e) (.pure)
  · exact .throw

theorem Keeps.execWalkResult {c} (h : Keeps s₀ s) : AnsKeeps s₀ (Machine.execWalkResult c s) := by
  unfold Machine.execWalkResult
  split
  · split
    next e => exact (h.walkAnswer.fst e).failWait
    next e => exact (h.walkAnswer.fst e).complete
  · exact h

theorem Keeping.iTlbw {l} : Keeping (Machine.iTlbw.body l) := .bind .check fun _ => .bind .tlbwEntry fun _ => .pure

theorem Keeping.iTlbr {l} : Keeping (Machine.iTlbr.body l) := .bind .check fun _ => .bind .tlbrWords fun _ => .pure

theorem Keeping.tlbiIns {syl n priv p l} : Keeping ((Machine.tlbiIns syl n priv p).body l) := by
  dsimp -zeta only [Machine.tlbiIns]
  extract_lets _ _ f3
  have hf3 : ∀ x, Keeping (f3 x) := by
    intro x
    unfold f3
    refine .bind .check fun _ => ?_
    exact .bind .getCore fun _ => .bind .drainMine fun _ => .bind (.updS fun _ _ _ h => h.tlbi) fun _ => .ite .pure .throw
  exact .bind .check fun _ => .ite (hf3 ()) (.bind .raise fun _ => hf3 ())

theorem Keeping.iTlbiVa {l} : Keeping (Machine.iTlbiVa.body l) := .tlbiIns

theorem Keeping.iTlbiVaw {l} : Keeping (Machine.iTlbiVaw.body l) := .tlbiIns

theorem Keeping.iTlbiAsid {l} : Keeping (Machine.iTlbiAsid.body l) := .tlbiIns

theorem Keeping.iTlbiVmid {l} : Keeping (Machine.iTlbiVmid.body l) := .tlbiIns

theorem Keeping.iTlbiAll {l} : Keeping (Machine.iTlbiAll.body l) := .tlbiIns

theorem Keeps.execTlbiComplete {c} (h : Keeps s₀ s) : AnsKeeps s₀ (Machine.execTlbiComplete c s) := by
  unfold Machine.execTlbiComplete
  split
  · extract_lets _ s2
    have h2 : Keeps s₀ s2 := h.foldl fun _ _ h => h.drainAll
    split
    · exact h2.complete
    · exact h2
  · exact h

/-! ### Machine/Maint -/

theorem Keeping.maintIns {syl priv kind act l} (hact : ∀ ⦃s₀ s c line⦄, Keeps s₀ s → Keeps s₀ (act s c line)) :
    Keeping ((Machine.maintIns syl priv kind act).body l) := by
  refine .bind .check fun _ => .bind .xlate fun _ => ?_
  exact .ite .pure (.bind .drainMine fun _ => .bind (.updS fun _ _ _ h => hact h) fun _ => .pure)

theorem Keeping.iClean {l} : Keeping (Machine.iClean.body l) := .maintIns fun _ _ _ _ h => h.cleanLine

theorem Keeping.iFlush {l} : Keeping (Machine.iFlush.body l) := .maintIns fun _ _ _ _ h => h.flushLine

theorem Keeping.iInval {l} : Keeping (Machine.iInval.body l) := .maintIns fun _ _ _ _ h => h.dropLine

theorem Keeping.iIinval {l} : Keeping (Machine.iIinval.body l) :=
  .bind .check fun _ => .bind .xlate fun _ => .bind .drainMine fun _ => .bind (.updS fun _ _ _ h => h.upd) fun _ => .pure

theorem Keeps.takeFrame {c} (h : Keeps s₀ s) : Keeps s₀ (s.takeFrame c).1 := by
  unfold State.takeFrame
  extract_lets
  split
  · exact h
  · split
    · exact h.upd.evictFrame
    · exact h

theorem Keeping.iLock {l} : Keeping (Machine.iLock.body l) := by
  refine .bind .check fun _ => .bind .getCore fun _ => ?_
  split
  · exact .ite .pure .raise
  · refine .bind ?_ fun _ => ?_
    · refine .updS fun s₀ _ _ h => ?_
      split
      next e => exact (h.takeFrame.fst e).modCore
    · exact .pure

theorem Keeping.iUnlock {l} : Keeping (Machine.iUnlock.body l) := by
  refine .bind .check fun _ => .bind .getCore fun _ => ?_
  split
  · exact .ite (.bind .modMe fun _ => .pure) .raise
  · exact .pure

theorem Keeping.allIns {syl act l} (hact : ∀ ⦃s₀ s c⦄, Keeps s₀ s → Keeps s₀ (act s c)) : Keeping ((Machine.allIns syl act).body l) :=
  .bind .drainMine fun _ => .bind (.updS hact) fun _ => .pure

theorem Keeping.iCleanAll {l} : Keeping (Machine.iCleanAll.body l) := .allIns fun _ _ _ h => h.cleanAll

theorem Keeping.iFlushAll {l} : Keeping (Machine.iFlushAll.body l) := .allIns fun _ _ _ h => h.cleanAll.modCore

theorem Keeping.iIinvalAll {l} : Keeping (Machine.iIinvalAll.body l) := .allIns fun _ _ _ h => h.modCore

/-! ### Machine/Scenes -/

theorem Keeping.beginScene {handler keep short} : Keeping (Machine.beginScene handler keep short) := by
  refine .bind .landEarly fun _ => .bind .drainMine fun _ => .bind .dropOps fun _ => ?_
  exact .bind .getCore fun _ => .bind .askS fun _ => .ite .modMe (.bind (.updS fun _ _ _ h => h.setReg) fun _ => .modMe)

theorem Keeping.sceneIns {syl short l} : Keeping ((Machine.sceneIns syl short).body l) := by
  refine .bind .check fun _ => .bind .getCore fun _ => ?_
  exact .ite (.bind .beginScene fun _ => .pure) (.ite .throw (.bind .dropOps fun _ => .bind .modMe fun _ => .pure))

theorem Keeping.iScene {l} : Keeping (Machine.iScene.body l) := .sceneIns

theorem Keeping.iSceneS {l} : Keeping (Machine.iSceneS.body l) := .sceneIns

theorem Keeping.replayCommit : Keeping Machine.replayCommit := by
  refine .bind .askS fun _ => ?_
  split
  · exact .pure
  · refine .bind .getCore fun _ => ?_
    split
    · exact .ite (.updS fun _ _ _ h => h.modChunk) .throw
    · exact .throw

theorem Keeping.iCurtain {l} : Keeping (Machine.iCurtain.body l) := by
  refine .bind .getCore fun _ => ?_
  split
  · exact .pure
  · split
    · exact .bind .modMe fun _ => .pure
    · refine .bind .drainMine fun _ => .bind .askS fun _ => ?_
      split
      · exact .bind .replayCommit fun _ => .bind (.updS fun _ _ _ h => h.commitScene) fun _ => .pure
      · exact .bind (.updS fun _ _ _ h => h.prepare) fun _ => .throw

theorem Keeping.iCut {l} : Keeping (Machine.iCut.body l) := .bind .check fun _ => .bind .getCore fun _ => .ite .throw .pure

theorem Keeping.iScstat {l} : Keeping (Machine.iScstat.body l) := .bind .getCore fun _ => .pure

/-! ### Machine/Remote -/

theorem Keeping.undone {m : M α} (hm : Keeping m) : Keeping (Machine.undone m) := by
  intro s₀ s c h
  have hs := hm (c := c) h
  unfold Machine.undone
  split
  · exact h
  · exact h
  · exact hs

theorem Keeping.remoteRef {w} : Keeping (Machine.remoteRef w) := by
  unfold Machine.remoteRef
  split
  · exact .pure
  · refine .bind .resolve fun _ => .bind .hdrOf fun _ => ?_
    split
    · exact .ite (.bind .load fun _ => .bind .check fun _ => .pure) .memFault

theorem Keeping.reqRoom : Keeping Machine.reqRoom := .bind .askS fun _ => .ite .throw .pure

theorem Keeping.peerRoom {node} : Keeping (Machine.peerRoom node) := .bind .askS fun _ => .ite .pure .throw

theorem Keeping.joinNode {node} : Keeping (Machine.joinNode node) := .bind .getCore fun _ => .ite .pure (.ite .throw .modMe)

theorem Keeping.sendReq {type kind r addr idx val} : Keeping (Machine.sendReq type kind r addr idx val) := by
  refine .bind .getCore fun _ => .bind .me fun _ => ?_
  refine .get fun s₀ s c h => ?_
  split
  next e => exact KeepsAt.set (h.newTag.snd e).upd.sendMsg (.pure)

theorem Keeping.loggedReply : Keeping Machine.loggedReply := by
  refine .bind .getCore fun _ => ?_
  split
  · exact .ite (.bind (.updS fun _ _ _ h => h.modChunk) fun _ => .pure) .throw
  · exact .throw

theorem Keeping.replyFault {st node addr} : Keeping (Machine.replyFault st node addr) :=
  .bind .getCore fun _ => .ite .pure (.ite .throw .raise)

theorem Keeping.exportNew {va weight} : Keeping (Machine.exportNew va weight) := by
  refine .bind .askS fun _ => ?_
  split
  · exact .raise
  · exact .bind (.updS fun _ _ _ h => h.expOpen) fun _ => .pure

theorem Keeping.newFuture {weight} : Keeping (Machine.newFuture weight) :=
  .bind .allocObj fun _ => .bind .exportNew fun _ => .bind .askS fun _ => .bind .initStore fun _ => .pure

theorem Keeping.iRfetch {l} : Keeping (Machine.iRfetch.body l) := by
  unfold Machine.iRfetch
  refine .undone ?_
  extract_lets
  refine .bind .check fun _ => .bind .remoteRef fun _ => ?_
  split
  · refine .bind .getCore fun _ => .bind .askS fun _ => ?_
    split
    · extract_lets f3
      have hf3 : ∀ x, Keeping (f3 x) := by
        intro x
        unfold f3
        refine .bind .newFuture fun _ => ?_
        split
        · exact .bind .drainMine fun _ => .bind .sendReq fun _ => .pure
      exact .ite (hf3 ()) (.bind .reqRoom fun _ => hf3 ())
    · split
      · refine .bind .loggedReply fun _ => ?_
        split
        · exact .bind .replyFault fun _ => .bind .joinNode fun _ => .pure
      · exact .bind .joinNode fun _ => .bind .reqRoom fun _ => .bind .sendReq fun _ => .throw

theorem Keeping.iRstore {l} : Keeping (Machine.iRstore.body l) := by
  unfold Machine.iRstore
  refine .undone ?_
  extract_lets
  refine .bind .check fun _ => .bind .remoteRef fun _ => ?_
  split
  · refine .bind .askS fun _ => ?_
    split
    · refine .bind .loggedReply fun _ => ?_
      split
      · exact .bind .replyFault fun _ => .bind .joinNode fun _ => .pure
    · exact .bind .joinNode fun _ => .bind .reqRoom fun _ => .bind .sendReq fun _ => .throw

theorem Keeping.sendOpd {w pos} : Keeping (Machine.sendOpd w pos) := .bind .askS fun _ => .pure

theorem Keeping.sendOpds {p l} : Keeping (Machine.sendOpds p l) := by
  induction l generalizing p with
  | nil => exact .pure
  | cons w l ih => exact .bind .sendOpd fun _ => .bind ih fun _ => .pure

theorem Keeping.sendWord {w pos} : Keeping (Machine.sendWord w pos) := by
  unfold Machine.sendWord
  split
  · exact .pure
  · split
    · refine .bind .resolve fun _ => .bind .hdrOf fun _ => ?_
      split
      · split
        · exact .memFault
        · refine .bind .load fun _ => .bind .load fun _ => .bind .check fun _ => ?_
          split
          · exact .bind .xlate fun _ => .bind .writeNow fun _ => .pure
          · refine .get fun s₀ s c h => ?_
            split
            · exact h
            next e => exact KeepsAt.set (h.exportPtr.inr e) (.pure)
    · refine .bind .resolve fun _ => ?_
      refine .get fun s₀ s c h => ?_
      split
      · exact h
      next e => exact KeepsAt.set (h.exportPtr.inr e) (.pure)

theorem Keeping.sendWords {p l} : Keeping (Machine.sendWords p l) := by
  induction l generalizing p with
  | nil => exact .pure
  | cons w l ih => exact .bind .sendWord fun _ => .bind ih fun _ => .pure

theorem Keeping.iRinvoke {l} : Keeping (Machine.iRinvoke.body l) := by
  unfold Machine.iRinvoke
  refine .undone ?_
  extract_lets
  refine .bind .underflow fun _ => .bind .strictArgs fun _ => ?_
  refine .bind .operandsFrom fun _ => .bind .sendOpds fun _ => .bind .check fun _ => .bind .remoteRef fun _ => ?_
  split
  · refine .bind .peerRoom fun _ => .bind .sendWords fun _ => .bind .askS fun _ => .bind .newFuture fun _ => ?_
    split
    · refine .bind .drainMine fun _ => .bind .askS fun _ => ?_
      exact .bind .getCore fun _ => .bind (.updS fun _ _ _ h => h.sendReliable) fun _ => .bind .dropOps fun _ => .pure

theorem Keeping.iRsend {l} : Keeping (Machine.iRsend.body l) := by
  unfold Machine.iRsend
  refine .undone ?_
  extract_lets
  refine .bind .sendOpd fun _ => .bind .check fun _ => .bind .remoteRef fun _ => ?_
  split
  · refine .bind .peerRoom fun _ => .bind .sendWord fun _ => ?_
    exact .bind .drainMine fun _ => .bind .getCore fun _ => .bind (.updS fun _ _ _ h => h.sendReliable) fun _ => .pure

theorem Keeping.scanWords {n va} : Keeping (Machine.scanWords n va) := by
  induction n generalizing va with
  | zero => exact .pure
  | succ fuel ih =>
    rw [Machine.scanWords]
    refine .bind .xlate fun _ => .bind .readWord fun _ => .bind .askS fun _ => ?_
    split
    · exact ih
    · refine .bind .isStale fun _ => .bind (.ite .heal .pure) fun _ => ?_
      extract_lets _ f2
      have hf2 : ∀ x, Keeping (f2 x) := by
        intro x
        unfold f2
        refine .bind .askS fun _ => ?_
        split
        · exact .bind .ptrBase fun _ => .bind (.updS fun _ _ _ h => h.colRootq) fun _ => .bind ih fun _ => .pure
        · exact .bind ih fun _ => .pure
      exact .ite (.bind .writeNow fun _ => hf2 ()) (hf2 ())

theorem Keeping.iScanstack {l} : Keeping (Machine.iScanstack.body l) :=
  .bind .check fun _ => .bind .resolve fun _ => .bind .scanWords fun _ => .pure

theorem Keeping.iBarrier {l} : Keeping (Machine.iBarrier.body l) := .bind .check fun _ => .bind .resolve fun _ => .pure

theorem Keeping.iCard {l} : Keeping (Machine.iCard.body l) := by
  refine .bind .check fun _ => .bind .resolve fun _ => .bind .noteData fun _ => .bind .getCore fun _ => ?_
  split
  · exact .raise
  · exact .bind .askS fun _ => .ite (.bind .markMine fun _ => .pure) .pure

theorem Keeping.iPace {l} : Keeping (Machine.iPace.body l) := by
  refine .bind .askS fun _ => .bind .ndval fun _ => ?_
  split
  · exact .pure

/-! ### Machine/Stepped -/

theorem Keeping.setPg {a b c d} : Keeping (Machine.setPg a b c d) := .modMe

theorem Keeping.startStep {a b c d} : Keeping (Machine.startStep a b c d) := .bind .setPg fun _ => .modMe

theorem Keeping.runSteps {fuel elem} (helem : Keeping elem) : Keeping (Machine.runSteps fuel elem) := by
  induction fuel generalizing elem with
  | zero => exact .pure
  | succ fuel ih =>
    rw [Machine.runSteps]
    refine .bind helem fun _ => ?_
    split
    · exact .pure
    · exact ih helem

theorem Keeping.steppedIns {syl n out steps init elem l} (hi : ∀ l, Keeping (init l)) (he : ∀ l, Keeping (elem l)) :
    Keeping ((Machine.steppedIns syl n out steps init elem).body l) :=
  .bind .getCore fun _ => .ite (.runSteps (he l)) (.bind (hi l) fun _ => .runSteps (he l))

theorem Keeping.storeByte {a i b} : Keeping (Machine.storeByte a i b) := .bind .load fun _ => .bind .checkMem fun _ => .store

theorem Keeping.copyInit {l'} : Keeping (Machine.copyInit l') := by
  refine .bind .askS fun _ => ?_
  extract_lets _ _ _ f4
  have hf4 : ∀ x, Keeping (f4 x) := by
    intro x
    unfold f4
    refine .bind .objHdr fun _ => ?_
    split
    · refine .bind .objHdr fun _ => ?_
      split
      · exact .ite .typeFault (.ite .typeFault .startStep)
  exact .bind .check fun _ => .ite (.bind .typeFault fun _ => hf4 ()) (hf4 ())

theorem Keeping.copyElem {l'} : Keeping (Machine.copyElem l') := by
  refine .bind .getCore fun _ => ?_
  extract_lets
  split
  · exact .pure
  · refine .bind .resolve fun _ => .bind .resolve fun _ => .bind .hdrOf fun _ => ?_
    split
    · refine .bind .hdrOf fun _ => ?_
      split
      · split
        · exact .bind .load fun _ => .bind .checkMem fun _ => .bind .storeByte fun _ => .bind .modMe fun _ => .pure
        · refine .bind .load fun _ => ?_
          extract_lets f7
          have hf7 : ∀ x, Keeping (f7 x) := fun _ => .bind .store fun _ => .bind .modMe fun _ => .pure
          exact .ite (.bind .memFault fun _ => hf7 ()) (hf7 ())

theorem Keeping.iCopyvec {steps l} : Keeping ((Machine.iCopyvec steps).body l) := .steppedIns (fun _ => .copyInit) fun _ => .copyElem

theorem Keeping.fillInit {l'} : Keeping (Machine.fillInit l') := by
  refine .bind .askS fun _ => ?_
  extract_lets _ _ _ f4
  have hf4 : ∀ x, Keeping (f4 x) := by
    intro x
    unfold f4
    refine .bind .objHdr fun _ => ?_
    split
    · exact .ite .typeFault .startStep
  exact .bind .check fun _ => .ite (.bind .typeFault fun _ => hf4 ()) (hf4 ())

theorem Keeping.fillElem {l'} : Keeping (Machine.fillElem l') := by
  refine .bind .getCore fun _ => ?_
  extract_lets
  split
  · exact .pure
  · refine .bind .resolve fun _ => .bind .hdrOf fun _ => ?_
    split
    · split
      · exact .bind .storeByte fun _ => .bind .modMe fun _ => .pure
      · exact .bind .store fun _ => .bind .modMe fun _ => .pure

theorem Keeping.iFillvec {steps l} : Keeping ((Machine.iFillvec steps).body l) := .steppedIns (fun _ => .fillInit) fun _ => .fillElem

theorem Keeping.equalPop : Keeping Machine.equalPop := by
  refine .bind .getCore fun _ => ?_
  extract_lets
  split
  · exact .pure
  · exact .bind .operandAt fun _ => .bind .operandAt fun _ => .bind .modMe fun _ => .bind .setPg fun _ => .pure

theorem Keeping.equalFail : Keeping Machine.equalFail := .bind .getCore fun _ => .bind .modMe fun _ => .pure

theorem Keeping.equalElem {x} : Keeping (Machine.equalElem x) := by
  refine .bind .getCore fun _ => ?_
  extract_lets
  refine .bind .check fun _ => ?_
  split
  · exact .equalPop
  · split
    · refine .bind .resolve fun _ => .bind .resolve fun _ => .bind .load fun _ => ?_
      refine .bind .load fun _ => .bind .check fun _ => .bind .load fun _ => .bind .load fun _ => .bind .check fun _ => ?_
      split
      · exact .bind .spillFor fun _ => .bind .modMe fun _ => .bind .setPg fun _ => .pure
      · exact .bind .eql fun _ => .ite (.bind .setPg fun _ => .pure) .equalFail
    · split
      · refine .bind .objHdr fun _ => ?_
        split
        · refine .bind .objHdr fun _ => ?_
          split
          · split
            · exact .equalFail
            · split
              · exact .equalPop
              · refine .bind .load fun _ => ?_
                exact .bind .load fun _ => .bind .checkMem fun _ => .bind .checkMem fun _ => .ite (.bind .setPg fun _ => .pure) .equalFail
      · exact .bind .eql fun _ => .ite .equalPop .equalFail

theorem Keeping.iEqual {steps l} : Keeping ((Machine.iEqual steps).body l) := .steppedIns (fun _ => (.bind .check fun _ =>
    .startStep)) fun _ => .equalElem

theorem Keeping.nextTail {p} : Keeping (Machine.nextTail p) := .bind .load fun _ => .bind .check fun _ => .pure

theorem Keeping.assqElem {l'} : Keeping (Machine.assqElem l') := by
  refine .bind .getCore fun _ => ?_
  extract_lets
  refine .bind .check fun _ => ?_
  split
  · exact .pure
  · refine .bind .resolve fun _ => .bind .load fun _ => ?_
    refine .bind .check fun _ => .bind (.ite .pure (.bind .load fun _ => .bind .checkMem fun _ => .pure)) fun _ => ?_
    exact .ite .pure (.bind .nextTail fun _ => .bind .setPg fun _ => .pure)

theorem Keeping.iAssq {steps l} : Keeping ((Machine.iAssq steps).body l) := .steppedIns (fun _ => (.bind .check fun _ =>
    .startStep)) fun _ => .assqElem

theorem Keeping.memqElem {l'} : Keeping (Machine.memqElem l') := by
  refine .bind .getCore fun _ => ?_
  extract_lets
  refine .bind .check fun _ => ?_
  split
  · exact .pure
  · refine .bind .resolve fun _ => ?_
    exact .bind .load fun _ => .bind .checkMem fun _ => .ite .pure (.bind .nextTail fun _ => .bind .setPg fun _ => .pure)

theorem Keeping.iMemq {steps l} : Keeping ((Machine.iMemq steps).body l) := .steppedIns (fun _ => (.bind .check fun _ =>
    .startStep)) fun _ => .memqElem

theorem Keeping.nreverseElem {x} : Keeping (Machine.nreverseElem x) := by
  refine .bind .getCore fun _ => ?_
  extract_lets
  refine .bind .check fun _ => ?_
  split
  · exact .pure
  · exact .bind .resolve fun _ => .bind .nextTail fun _ => .bind .store fun _ => .bind .setPg fun _ => .pure

theorem Keeping.iNreverse {steps l} : Keeping ((Machine.iNreverse steps).body l) := .steppedIns (fun _ => (.bind .check fun _ =>
    .startStep)) fun _ => .nreverseElem

/-! ### Machine/Coproc -/

theorem Keeping.countReq {port} : Keeping (Machine.countReq port) := .updS fun _ _ _ h => h.bump

theorem Keeping.coprocIns {port op n out susp init l} (hi : ∀ l, Keeping (init l)) :
    Keeping ((Machine.coprocIns port op n out susp init).body l) := by
  refine .bind .getCore fun _ => ?_
  extract_lets _ ask
  have hask : ∀ x, Keeping (ask x) := fun _ => .bind .drainMine fun _ => .ite .throw (.bind .countReq fun _ => .throw)
  exact .ite (hask ()) (.bind (hi l) fun _ => hask ())

theorem Keeping.unifyInit {l'} : Keeping (Machine.unifyInit l') := .check

theorem Keeping.iUnify {l} : Keeping (Machine.iUnify.body l) := .coprocIns fun _ => .unifyInit

theorem Keeping.iMatch {l} : Keeping (Machine.iMatch.body l) := .coprocIns fun _ => .unifyInit

theorem Keeping.iTrailmark {l} : Keeping (Machine.iTrailmark.body l) := .coprocIns fun _ => .pure

theorem Keeping.iUntrail {l} : Keeping (Machine.iUntrail.body l) := .coprocIns fun _ => .bind .getCore fun _ => .check

theorem Keeping.iBind {l} : Keeping (Machine.iBind.body l) := .coprocIns fun _ => .check

theorem Keeping.iDeref {l} : Keeping (Machine.iDeref.body l) := .coprocIns fun _ => .check

theorem Keeping.tableOpds {l' vp kp st} : Keeping (Machine.tableOpds l' vp kp st) := .bind .askS fun _ => .check

theorem Keeping.iLprobe {l} : Keeping (Machine.iLprobe.body l) := .coprocIns fun _ => .tableOpds

theorem Keeping.iLinsert {l} : Keeping (Machine.iLinsert.body l) := .coprocIns fun _ => .tableOpds

theorem Keeping.iLdelete {l} : Keeping (Machine.iLdelete.body l) := .coprocIns fun _ => .tableOpds

theorem Keeping.stepDone {port} : Keeping (Machine.stepDone port) := .bind .modMe fun _ => .updS fun _ _ _ h => h.bump

theorem Keeping.derefOne {w} : Keeping (Machine.derefOne w) := by
  unfold Machine.derefOne
  split
  · exact .pure
  · exact .bind .check fun _ => .bind .resolve fun _ => .bind .load fun _ => .bind .check fun _ => .ite .pure .pure

theorem Keeping.setTerms {x y pairs words occ} : Keeping (Machine.setTerms x y pairs words occ) := .modMe

theorem Keeping.pushWork {w} : Keeping (Machine.pushWork w) := .bind .spillFor fun _ => .modMe

theorem Keeping.popWork : Keeping Machine.popWork := .bind .operandAt fun _ => .bind .modMe fun _ => .pure

theorem Keeping.dropWork {n} : Keeping (Machine.dropWork n) := .modMe

theorem Keeping.unifyFail : Keeping Machine.unifyFail := .bind .getCore fun _ => .bind .dropWork fun _ => .pure

theorem Keeping.unifyNext : Keeping Machine.unifyNext := by
  refine .bind .getCore fun _ => ?_
  split
  · exact .pure
  · exact .bind .popWork fun _ => .bind .popWork fun _ => .bind .setTerms fun _ => .pure

theorem Keeping.bindVar {v t' pos} : Keeping (Machine.bindVar v t' pos) := by
  refine .bind .check fun _ => .bind .getCore fun _ => ?_
  extract_lets
  split
  · exact .raise
  · split
    · exact .raise
    · refine .bind .resolve fun _ => ?_
      exact .bind .xlate fun _ => .bind .target fun _ => .bind .store fun _ => .bind .store fun _ => .bind .modMe fun _ => .store

theorem Keeping.pushFields {n a b} : Keeping (Machine.pushFields n a b) := by
  induction n generalizing a b with
  | zero => exact .pure
  | succ fuel ih =>
    rw [Machine.pushFields]
    split
    · exact .pure
    · exact .bind .load fun _ => .bind .load fun _ => .bind .pushWork fun _ => .bind .pushWork fun _ => .bind .modMe fun _ => ih

theorem Keeping.sameWords {n a b} : Keeping (Machine.sameWords n a b) := by
  induction n generalizing a b with
  | zero => exact .pure
  | succ fuel ih => exact .bind .load fun _ => .bind .load fun _ => .bind .checkMem fun _ => .bind .checkMem fun _ => .ite ih .pure

theorem Keeping.pairTerms {x y} : Keeping (Machine.pairTerms x y) := by
  refine .bind .getCore fun _ => ?_
  split
  · exact .unifyFail
  · split
    · refine .bind .resolve fun _ => .bind .resolve fun _ => .bind .load fun _ => .bind .load fun _ => ?_
      exact .bind .load fun _ => .bind .load fun _ => .bind .pushWork fun _ => .bind .pushWork fun _ => .bind .setTerms fun _ => .pure
    · refine .bind .objHdr fun _ => ?_
      split
      · refine .bind .objHdr fun _ => ?_
        split
        · split
          · exact .unifyFail
          · split
            · exact .unifyNext
            · exact .bind .pushFields fun _ => .bind .load fun _ => .bind .load fun _ => .bind .getCore fun _ => .bind .setTerms fun _ =>
              .pure
    · refine .bind .objHdr fun _ => ?_
      split
      · refine .bind .objHdr fun _ => ?_
        split
        · exact .ite .unifyFail (.bind .sameWords fun _ => .ite .unifyNext .unifyFail)
    · exact .bind .eql fun _ => .ite .unifyNext .unifyFail

theorem Keeping.bindTerm {ochk v t'} : Keeping (Machine.bindTerm ochk v t') := by
  unfold Machine.bindTerm
  split
  · exact .bind .getCore fun _ => .bind .check fun _ => .bind .pushWork fun _ => .bind .setTerms fun _ => .pure
  · exact .bind .bindVar fun _ => .unifyNext

theorem Keeping.unifyPair {isMatch ochk} : Keeping (Machine.unifyPair isMatch ochk) := by
  refine .bind .getCore fun _ => ?_
  extract_lets
  refine .bind .check fun _ => .bind .derefOne fun _ => ?_
  split
  · exact .bind .setTerms fun _ => .pure
  · refine .bind .derefOne fun _ => ?_
    split
    · exact .bind .setTerms fun _ => .pure
    · split
      · split
        · exact .unifyNext
        · split
          · exact .bind .bindVar fun _ => .unifyNext
          · exact .ite (.bind .bindVar fun _ => .unifyNext) (.bind .bindVar fun _ => .unifyNext)
      · exact .ite .bindTerm (.ite (.ite .unifyFail .bindTerm) .pairTerms)

theorem Keeping.pushSubterms {n a} : Keeping (Machine.pushSubterms n a) := by
  induction n generalizing a with
  | zero => exact .pure
  | succ fuel ih => exact .bind .load fun _ => .bind .pushWork fun _ => .bind .modMe fun _ => ih

theorem Keeping.occursNext : Keeping Machine.occursNext := by
  refine .bind .getCore fun _ => ?_
  exact .bind .popWork fun _ => .ite (.bind .bindVar fun _ => .bind .setTerms fun _ => .unifyNext) (.bind .setTerms fun _ => .pure)

theorem Keeping.occursStep : Keeping Machine.occursStep := by
  refine .bind .getCore fun _ => ?_
  extract_lets
  refine .bind .check fun _ => .bind .derefOne fun _ => ?_
  split
  · exact .bind .setTerms fun _ => .pure
  · split
    · exact .ite .unifyFail .occursNext
    · split
      · exact .bind .resolve fun _ => .bind .pushSubterms fun _ => .occursNext
      · refine .bind .objHdr fun _ => ?_
        split
        · exact .bind .pushSubterms fun _ => .occursNext
      · exact .occursNext

theorem Keeping.untrailStep {mark} : Keeping (Machine.untrailStep mark) := by
  refine .bind .getCore fun _ => ?_
  extract_lets
  split
  · exact .pure
  · refine .bind .load fun _ => .bind .checkMem fun _ => ?_
    split
    · exact .memFault
    · exact .bind .load fun _ => .bind .check fun _ => .bind .store fun _ => .bind .modMe fun _ => .pure

theorem Keeping.derefAll {fuel w} : Keeping (Machine.derefAll fuel w) := by
  induction fuel generalizing w with
  | zero => exact .pure
  | succ fuel ih =>
    rw [Machine.derefAll]
    refine .bind .derefOne fun _ => ?_
    split
    · exact .bind .stepDone fun _ => ih
    · exact .pure

theorem Keeping.keyHash {w} : Keeping (Machine.keyHash w) := by
  refine .bind .askS fun _ => ?_
  split
  · refine .bind .resolve fun _ => .bind .hdrOf fun _ => ?_
    split
    · split
      · exact .pure
      · exact .bind .xlate fun _ => .bind .writeNow fun _ => .bind (.updS fun _ _ _ h => h.bump) fun _ => .pure
  · exact .pure

theorem Keeping.tableOf {v pos} : Keeping (Machine.tableOf v pos) := by
  refine .bind .objHdr fun _ => ?_
  split
  · split
    · exact .pure
    · exact .typeFault

theorem Keeping.probe {a k key} : Keeping (Machine.probe a k key) := by
  refine .bind .getCore fun _ => ?_
  extract_lets
  split
  · exact .pure
  · exact .bind .load fun _ => .bind .checkMem fun _ => .bind .stepDone fun _ => .ite .pure (.ite .pure (.bind .modMe fun _ => .pure))

theorem Keeping.startProbe {k key} : Keeping (Machine.startProbe k key) := .bind .keyHash fun _ => .startStep

theorem Keeping.lookStep {op l'} : Keeping (Machine.lookStep op l') := by
  unfold Machine.lookStep
  extract_lets
  refine .bind .resolve fun _ => .bind .tableOf fun _ => ?_
  split
  · refine .bind .getCore fun _ => ?_
    extract_lets f2
    have hf2 : ∀ x, Keeping (f2 x) := by
      intro x
      unfold f2
      refine .bind .probe fun _ => ?_
      split
      · exact .pure
      · exact .bind .load fun _ => .pure
      · exact .pure
      · exact .bind .store fun _ => .pure
      · exact .typeFault
      · exact .bind .store fun _ => .bind .store fun _ => .pure
      · exact .bind .store fun _ => .bind .store fun _ => .pure
      · exact .pure
    exact .ite (hf2 ()) (.bind .startProbe fun _ => hf2 ())

theorem Keeping.matchStep {op l'} : Keeping (Machine.matchStep op l') := by
  refine .bind .getCore fun _ => ?_
  split
  · extract_lets f1
    have hf1 : ∀ x, Keeping (f1 x) := fun _ => .bind .untrailStep fun _ => .ite (.bind .stepDone fun _ => .pure) .pure
    exact .ite (hf1 ()) (.bind .startStep fun _ => hf1 ())
  · extract_lets f1
    have hf1 : ∀ x, Keeping (f1 x) := by
      intro x
      unfold f1
      refine .bind .getCore fun _ => .bind .derefOne fun _ => ?_
      split
      · exact .bind .modMe fun _ => .bind .stepDone fun _ => .pure
      · exact .pure
    exact .ite (hf1 ()) (.bind .startStep fun _ => hf1 ())
  · extract_lets f1
    have hf1 : ∀ x, Keeping (f1 x) := fun _ =>
      .bind .getCore fun _ => .bind (.ite .occursStep .unifyPair) fun _ => .bind .stepDone fun _ => .pure
    exact .ite (hf1 ()) (.bind .startStep fun _ => hf1 ())

theorem Keeping.wholeStep {op l'} : Keeping (Machine.wholeStep op l') :=
  .bind .getCore fun _ => .ite .pure (.bind .derefAll fun _ => .ite .typeFault (.bind .bindVar fun _ => .pure))

theorem Keeping.requestOpds {port op n} : Keeping (Machine.requestOpds port op n) := .bind .getCore fun _ => .operandsFrom

theorem Keeping.turnSteps {fuel port op n} : Keeping (Machine.turnSteps fuel port op n) := by
  induction fuel generalizing port op n with
  | zero => exact .pure
  | succ fuel ih =>
    rw [Machine.turnSteps]
    refine .bind .requestOpds fun _ => .bind (.ite .lookStep (.ite .wholeStep .matchStep)) fun _ => ?_
    split
    · exact .pure
    · exact ih

theorem Keeps.turnFor {c port op} (h : Keeps s₀ s) : Keeps s₀ (s.turnFor c port op) := by
  unfold State.turnFor
  extract_lets first
  have hs : SumAll (Keeps s₀) (Keeps s₀) (if first then .inl s else s.shortCount c) := by
    split
    · exact h
    · exact h.shortCount
  split
  next e => exact hs.inr e
  next u e =>
    have hu := (hs.inl e).modCore (c := c) (f := fun k => { k with unit := true })
    split
    next e => exact ((Keeping.turnSteps hu).ok e).modCore.modChunk
    next e => exact ((Keeping.turnSteps hu).ok e).modCore.modCore
    next e => exact ((Keeping.turnSteps hu).error e).modCore.failWait
    next e => exact ((Keeping.turnSteps hu).error e).modCore.abortScene
    next e => exact ((Keeping.turnSteps hu).error e).modCore
    next e =>
      have ht := (Keeping.turnSteps hu).error e
      exact .ite ht.modCore.modCore ht.modCore

theorem Keeps.execCoprocessorTurn {cl look} (h : Keeps s₀ s) : AnsKeeps s₀ (Machine.execCoprocessorTurn cl look s) := by
  unfold Machine.execCoprocessorTurn
  extract_lets
  split
  · exact h
  · exact h.modCluster.turnFor

theorem Keeps.execCoprocessorResponse {c} (h : Keeps s₀ s) : AnsKeeps s₀ (Machine.execCoprocessorResponse c s) := by
  unfold Machine.execCoprocessorResponse
  split
  · split
    · exact h.complete
  · exact h

/-! ### Machine/Stack -/

theorem Keeping.iNop {l} : Keeping (Machine.iNop.body l) := .pureIns

theorem Keeping.iDup {l} : Keeping (Machine.iDup.body l) := .pureIns

theorem Keeping.iDrop {l} : Keeping (Machine.iDrop.body l) := .pureIns

theorem Keeping.iSwap {l} : Keeping (Machine.iSwap.body l) := .pureIns

theorem Keeping.iOver {l} : Keeping (Machine.iOver.body l) := .pureIns

theorem Keeping.iRot {l} : Keeping (Machine.iRot.body l) := .pureIns

theorem Keeping.iNip {l} : Keeping (Machine.iNip.body l) := .pureIns

theorem Keeping.iTuck {l} : Keeping (Machine.iTuck.body l) := .pureIns

theorem Keeping.iTwoDup {l} : Keeping (Machine.iTwoDup.body l) := .pureIns

theorem Keeping.iTwoDrop {l} : Keeping (Machine.iTwoDrop.body l) := .pureIns

theorem Keeping.iPick {n l} : Keeping ((Machine.iPick n).body l) := .pureIns

theorem Keeping.iPut {n l} : Keeping ((Machine.iPut n).body l) := by
  refine .bind .getCore fun _ => ?_
  exact .ite (.bind .modMe fun _ => .pure) (.bind .store fun _ => .bind (.updS fun _ _ _ h => h.bump) fun _ => .pure)

theorem Keeping.iToControl {l} : Keeping (Machine.iToControl.body l) := .bind .cPush fun _ => .pure

theorem Keeping.iFromControl {l} : Keeping (Machine.iFromControl.body l) := .bind .cRead fun _ => .bind .cDrop fun _ => .pure

theorem Keeping.iCopyControl {l} : Keeping (Machine.iCopyControl.body l) := .bind .cRead fun _ => .pure

theorem Keeping.iLit {imm l} : Keeping ((Machine.iLit imm).body l) := .pureIns

theorem Keeping.iLitx {imm l} : Keeping ((Machine.iLitx imm).body l) := .bind .check fun _ => .pure

/-! ### Machine/Rep -/

theorem Keeping.iMcload {l} : Keeping (Machine.iMcload.body l) :=
  .bind .check fun _ => .bind .drainMine fun _ => .bind .askS fun _ => .bind (.updS fun _ _ _ h => h.mcload) fun _ => .pure

theorem Keeping.custIns {c u l} : Keeping ((s.custIns c u).body l) := .bind .bankWord fun _ => .ite .microEnter .raise

/-- The body of an instruction keeps the queue and canonical memory, whatever its operands. -/
def BodyKeeps (i : Ins) : Prop := ∀ l, Keeping (i.body l)

theorem fixedStack_keeps : ∀ x ∈ fixedStack, BodyKeeps x.2 := by
  simp only [fixedStack, List.forall_mem_cons]
  exact ⟨fun _ => .iNop, fun _ => .iDup, fun _ => .iDrop, fun _ => .iSwap, fun _ => .iOver, fun _ => .iRot, fun _ => .iNip,
    fun _ => .iTuck, fun _ => .iTwoDup, fun _ => .iTwoDrop, fun _ => .iToControl, fun _ => .iFromControl,
    fun _ => .iCopyControl, List.forall_mem_nil _⟩

theorem fixedGeneric_keeps : ∀ x ∈ fixedGeneric, BodyKeeps x.2 := by
  simp only [fixedGeneric, List.forall_mem_cons]
  exact ⟨fun _ => .iAdd, fun _ => .iSub, fun _ => .iMul, fun _ => .iDiv, fun _ => .iQuo, fun _ => .iMod, fun _ => .iRem,
    fun _ => .iNeg, fun _ => .iAbs, fun _ => .iInc, fun _ => .iDec, fun _ => .iAnd, fun _ => .iOr, fun _ => .iXor,
    fun _ => .iNot, fun _ => .iAsh, fun _ => .iLsh, fun _ => .iMax, fun _ => .iMin, List.forall_mem_nil _⟩

theorem fixedArith_keeps : ∀ x ∈ fixedArith, BodyKeeps x.2 := by
  simp only [fixedArith, List.forall_mem_cons]
  exact ⟨fun _ => .iFixAdd, fun _ => .iFixSub, fun _ => .iFixMul, fun _ => .iFixQuo, fun _ => .iFixRem, fun _ => .iFixAnd,
    fun _ => .iFixOr, fun _ => .iFixXor, fun _ => .iFixShl, fun _ => .iFixShr, fun _ => .iFloAdd, fun _ => .iFloSub,
    fun _ => .iFloMul, fun _ => .iFloDiv, fun _ => .iFloSqrt, fun _ => .iFloFma, fun _ => .iFloCvt,
    fun _ => .iFloTrunc, List.forall_mem_nil _⟩

theorem fixedCompare_keeps : ∀ x ∈ fixedCompare, BodyKeeps x.2 := by
  simp only [fixedCompare, List.forall_mem_cons]
  exact ⟨fun _ => .iEq, fun _ => .iEql, fun _ => .iNumEqual, fun _ => .iNumLess, fun _ => .iNumGreater,
    fun _ => .iNumLessEqual, fun _ => .iNumGreaterEqual, fun _ => .iZerop, List.forall_mem_nil _⟩

theorem fixedObject_keeps : ∀ x ∈ fixedObject, BodyKeeps x.2 := by
  simp only [fixedObject, List.forall_mem_cons]
  exact ⟨fun _ => .iCar, fun _ => .iCdr, fun _ => .iCons, fun _ => .iRplaca, fun _ => .iRplacd, fun _ => .iAlloc,
    fun _ => .iVref, fun _ => .iVset, fun _ => .iVlen, fun _ => .iSymval, fun _ => .iSymset,
    fun _ => .iSymfn, List.forall_mem_nil _⟩

theorem fixedMemory_keeps : ∀ x ∈ fixedMemory, BodyKeeps x.2 := by
  simp only [fixedMemory, List.forall_mem_cons]
  exact ⟨fun _ => .iFetch, fun _ => .iStore, fun _ => .iFetch2, fun _ => .iStore2, fun _ => .iLoc, fun _ => .iCas,
    fun _ => .iXchg, fun _ => .iFadd, fun _ => .iFenceAcq, fun _ => .iFenceRel, fun _ => .iFenceFull, fun _ => .iPfetch,
    fun _ => .iPstore, fun _ => .iGettag, fun _ => .iSettag, fun _ => .iClean, fun _ => .iFlush, fun _ => .iInval,
    fun _ => .iIinval, fun _ => .iLock, fun _ => .iUnlock, fun _ => .iCleanAll, fun _ => .iFlushAll, fun _ => .iIinvalAll,
    fun _ => .iTlbiVa, fun _ => .iTlbiVaw, fun _ => .iTlbiAsid, fun _ => .iTlbiVmid, fun _ => .iTlbiAll, fun _ => .iTlbw,
    fun _ => .iTlbr, fun _ => .iWalk, List.forall_mem_nil _⟩

theorem fixedControl_keeps : ∀ x ∈ fixedControl, BodyKeeps x.2 := by
  simp only [fixedControl, List.forall_mem_cons]
  exact ⟨fun _ => .iCall, fun _ => .iTcall, fun _ => .iRet, fun _ => .iGate, fun _ => .iGret, fun _ => .iLeave,
    fun _ => .iLcget, fun _ => .iLcset, fun _ => .iIn, fun _ => .iOut, fun _ => .iRte, fun _ => .iHalt, fun _ => .iMfsr,
    fun _ => .iMtsr, fun _ => .iSetipl, fun _ => .iBrk, fun _ => .iSync, fun _ => .iTime, fun _ => .iRand, fun _ => .iMcload,
    fun _ => .iRtq, List.forall_mem_nil _⟩

theorem fixedRest_keeps : ∀ x ∈ fixedRest, BodyKeeps x.2 := by
  simp only [fixedRest, List.forall_mem_cons]
  exact ⟨fun _ => .iScene, fun _ => .iCurtain, fun _ => .iCut, fun _ => .iScstat, fun _ => .iSceneS, fun _ => .iRfetch,
    fun _ => .iRstore, fun _ => .iRinvoke, fun _ => .iRsend, fun _ => .iScanstack, fun _ => .iBarrier, fun _ => .iCard,
    fun _ => .iPace, fun _ => .iUnify, fun _ => .iMatch, fun _ => .iTrailmark, fun _ => .iUntrail, fun _ => .iBind,
    fun _ => .iDeref, fun _ => .iLprobe, fun _ => .iLinsert, fun _ => .iLdelete, List.forall_mem_nil _⟩

theorem Keeps.pickIns {n l} (hl : ∀ x ∈ l, BodyKeeps x.2) : OptAll BodyKeeps (Machine.pickIns n l) := by
  induction l with
  | nil => trivial
  | cons x l ih =>
    obtain ⟨hx, hl⟩ := List.forall_mem_cons.1 hl
    rw [Machine.pickIns]
    split
    · exact hx
    · exact ih hl

theorem Keeps.fixedIns {n} : OptAll BodyKeeps (Machine.fixedIns n) := by
  unfold Machine.fixedIns
  split
  · exact Keeps.pickIns fixedStack_keeps
  · split
    · exact Keeps.pickIns fixedGeneric_keeps
    · exact Keeps.pickIns fixedArith_keeps
  · exact Keeps.pickIns fixedCompare_keeps
  · exact Keeps.pickIns fixedObject_keeps
  · exact Keeps.pickIns fixedMemory_keeps
  · exact Keeps.pickIns fixedRest_keeps
  · exact Keeps.pickIns fixedRest_keeps
  · exact Keeps.pickIns fixedControl_keeps

theorem Keeps.fieldIns {n steps} : OptAll BodyKeeps (Machine.fieldIns n steps) := by
  unfold Machine.fieldIns
  split
  · split
    · exact fun _ => .iPick
    · split
      · exact fun _ => .iPut
      · exact trivial
  · split
    · exact fun _ => .iTypep
    · split
      · exact fun _ => .iCheck
      · split
        · exact fun _ => .iClassp
        · exact trivial
  · split
    · exact fun _ => .iCopyvec
    · exact fun _ => .iFillvec
    · exact fun _ => .iEqual
    · exact fun _ => .iAssq
    · exact fun _ => .iMemq
    · exact fun _ => .iNreverse
    · exact trivial
  · exact fun _ => .iLit
  · exact fun _ => .iLitx
  · exact fun _ => .iBr
  · split
    · exact fun _ => .iBrnil
    · exact fun _ => .iBrt
    · exact fun _ => .iBrz
    · exact fun _ => .iBrnz
  · split
    · exact fun _ => .iEnter
    · exact fun _ => .iLocal
    · exact fun _ => .iSetlocal
    · exact fun _ => .iArg
    · exact trivial
  · split
    · exact fun _ => .iLoop
    · exact trivial
  · split
    · exact fun _ => .iInb
    · split
      · exact fun _ => .iOutb
      · exact trivial
  · split
    · exact fun _ => .iTrap
    · exact trivial
  · exact trivial

theorem Keeping.badIns {syl t' l} : Keeping ((Machine.badIns syl t').body l) := .pure

theorem Keeping.insOf {c n steps l} : Keeping ((s.insOf c n steps).body l) := by
  unfold State.insOf
  split
  next e => exact Keeps.fixedIns.some e l
  · split
    next e => exact Keeps.fieldIns.some e l
    · split
      · exact .custIns
      · split
        · exact .pure
        · split
          · exact .pure
          · exact .badIns

theorem Keeping.iRep {i l} : Keeping ((Machine.iRep i).body l) :=
  .bind .check fun _ => .bind .getCore fun _ => .bind .modMe fun _ => .ite .pure (.bind .modMe fun _ => .pure)

theorem Keeping.iIteration {i l} (hi : ∀ l, Keeping (i.body l)) : Keeping ((Machine.iIteration i).body l) :=
  .bind (hi _) fun _ => .bind .getCore fun _ => .bind .modMe fun _ => .pure

theorem Keeps.repStep {c n steps} (h : Keeps s₀ s) : Keeps s₀ (s.repStep c n steps) :=
  .ite ((h.modCore.ite h).issue fun _ => .iIteration fun _ => .insOf) (h.issue fun _ => .iRep)

theorem Keeps.execUndefinedOpcode {c w} (h : Keeps s₀ s) : AnsKeeps s₀ (Machine.execUndefinedOpcode c w s) := by
  unfold Machine.execUndefinedOpcode
  have hb : ∀ {n t}, Keeps s₀ (Machine.issue c (Machine.badIns n t) s) := h.issue fun _ => .badIns
  exact .ite hb (.ite hb (.ite h.repStep (h.issue fun _ => .insOf)))

/-! ### Machine/Snap -/

theorem Keeps.restoreMem {image} (h : Keeps s₀ s) : Keeps s₀ (s.restoreMem image) := by
  unfold State.restoreMem
  extract_lets u keep inside new
  have hu : Keeps s₀ u := h.foldl fun _ _ h => h.emptyCluster
  refine Keeps.foldl ?_ fun _ _ h => h.wr
  exact ⟨hu.pending, fun _ => rfl⟩

theorem Keeps.execReplayPrep {log image ctxs} (h : Keeps s₀ s) : AnsKeeps s₀ (Machine.execReplayPrep log image ctxs s) := by
  unfold Machine.execReplayPrep
  split
  · exact h
  · split
    next e =>
      have h1 := h.prepStart.prepCheck.snd e
      exact .ite h1 (h1.restoreMem.foldl fun _ _ h => .ite h.modCore h)

theorem Keeps.replayIntr {c r} (h : Keeps s₀ s) : Keeps s₀ (s.replayIntr c r) := by
  unfold State.replayIntr
  extract_lets
  split
  · exact h.modCore.modCore.takeNmi.modCore
  · exact h.modCore.takeEvent
  · exact h.modCore.takeEvent

theorem Keeps.closeChunk {a} (h : Keeps s₀ s) : Keeps s₀ (s.closeChunk a) := by
  unfold State.closeChunk
  extract_lets s1
  have h1 : Keeps s₀ s1 := by
    unfold s1
    split
    · exact h.consume.replayIntr
    · exact .ite h.endChunk h
  split
  · split
    next e =>
      have h3 := h1.commitAll.fresh.snd e
      exact .ite h3.consume h3.consume.replayStop
  · exact h1.commitAll

theorem Keeps.execReplayChunk (h : Keeps s₀ s) : AnsKeeps s₀ (Machine.execReplayChunk s) := by
  unfold Machine.execReplayChunk
  split
  · exact h
  · split
    · exact h.replayNext
    · exact .ite h (.ite h.replayStop (.ite h.closeChunk.upd.replayNext h.closeChunk.upd))

end Sys2Proof.Machine
end

section
/-! PROOFS. Every step keeps canonical memory (O59): every command and every step. -/

namespace Sys2Proof.Machine

open Sys2Proof

variable {s₀ s t : State} {α β ρ ε : Type}

/-! ### Machine/Dispatch -/

/-- Every command keeps the queue and canonical memory. -/
theorem Keeps.exec (h : Keeps s₀ s) : ∀ i, AnsKeeps s₀ (Machine.exec i s)
  | .nop _ => h.issue fun _ => .iNop
  | .dup _ => h.issue fun _ => .iDup
  | .drop _ => h.issue fun _ => .iDrop
  | .swap _ => h.issue fun _ => .iSwap
  | .over _ => h.issue fun _ => .iOver
  | .rot _ => h.issue fun _ => .iRot
  | .nip _ => h.issue fun _ => .iNip
  | .tuck _ => h.issue fun _ => .iTuck
  | .twoDup _ => h.issue fun _ => .iTwoDup
  | .twoDrop _ => h.issue fun _ => .iTwoDrop
  | .pick _ _ => h.issue fun _ => .iPick
  | .put _ _ => h.issue fun _ => .iPut
  | .toControl _ => h.issue fun _ => .iToControl
  | .fromControl _ => h.issue fun _ => .iFromControl
  | .copyControl _ => h.issue fun _ => .iCopyControl
  | .lit _ _ => h.issue fun _ => .iLit
  | .litx _ _ => h.issue fun _ => .iLitx
  | .add _ => h.issue fun _ => .iAdd
  | .sub _ => h.issue fun _ => .iSub
  | .mul _ => h.issue fun _ => .iMul
  | .div _ => h.issue fun _ => .iDiv
  | .quo _ => h.issue fun _ => .iQuo
  | .mod _ => h.issue fun _ => .iMod
  | .rem _ => h.issue fun _ => .iRem
  | .neg _ => h.issue fun _ => .iNeg
  | .abs _ => h.issue fun _ => .iAbs
  | .inc _ => h.issue fun _ => .iInc
  | .dec _ => h.issue fun _ => .iDec
  | .and _ => h.issue fun _ => .iAnd
  | .or _ => h.issue fun _ => .iOr
  | .xor _ => h.issue fun _ => .iXor
  | .not _ => h.issue fun _ => .iNot
  | .ash _ => h.issue fun _ => .iAsh
  | .lsh _ => h.issue fun _ => .iLsh
  | .max _ => h.issue fun _ => .iMax
  | .min _ => h.issue fun _ => .iMin
  | .fixAdd _ => h.issue fun _ => .iFixAdd
  | .fixSub _ => h.issue fun _ => .iFixSub
  | .fixMul _ => h.issue fun _ => .iFixMul
  | .fixQuo _ => h.issue fun _ => .iFixQuo
  | .fixRem _ => h.issue fun _ => .iFixRem
  | .fixAnd _ => h.issue fun _ => .iFixAnd
  | .fixOr _ => h.issue fun _ => .iFixOr
  | .fixXor _ => h.issue fun _ => .iFixXor
  | .fixShl _ => h.issue fun _ => .iFixShl
  | .fixShr _ => h.issue fun _ => .iFixShr
  | .floAdd _ => h.issue fun _ => .iFloAdd
  | .floSub _ => h.issue fun _ => .iFloSub
  | .floMul _ => h.issue fun _ => .iFloMul
  | .floDiv _ => h.issue fun _ => .iFloDiv
  | .floSqrt _ => h.issue fun _ => .iFloSqrt
  | .floFma _ => h.issue fun _ => .iFloFma
  | .floCvt _ => h.issue fun _ => .iFloCvt
  | .floTrunc _ => h.issue fun _ => .iFloTrunc
  | .eq _ => h.issue fun _ => .iEq
  | .eql _ => h.issue fun _ => .iEql
  | .numEqual _ => h.issue fun _ => .iNumEqual
  | .numLess _ => h.issue fun _ => .iNumLess
  | .numGreater _ => h.issue fun _ => .iNumGreater
  | .numLessEqual _ => h.issue fun _ => .iNumLessEqual
  | .numGreaterEqual _ => h.issue fun _ => .iNumGreaterEqual
  | .zerop _ => h.issue fun _ => .iZerop
  | .typep _ _ => h.issue fun _ => .iTypep
  | .check _ _ => h.issue fun _ => .iCheck
  | .classp _ _ => h.issue fun _ => .iClassp
  | .car _ => h.issue fun _ => .iCar
  | .cdr _ => h.issue fun _ => .iCdr
  | .cons _ => h.issue fun _ => .iCons
  | .rplaca _ => h.issue fun _ => .iRplaca
  | .rplacd _ => h.issue fun _ => .iRplacd
  | .alloc _ => h.issue fun _ => .iAlloc
  | .vref _ => h.issue fun _ => .iVref
  | .vset _ => h.issue fun _ => .iVset
  | .vlen _ => h.issue fun _ => .iVlen
  | .copyvec _ _ => h.issue fun _ => .iCopyvec
  | .fillvec _ _ => h.issue fun _ => .iFillvec
  | .equal _ _ => h.issue fun _ => .iEqual
  | .assq _ _ => h.issue fun _ => .iAssq
  | .memq _ _ => h.issue fun _ => .iMemq
  | .nreverse _ _ => h.issue fun _ => .iNreverse
  | .symval _ => h.issue fun _ => .iSymval
  | .symset _ => h.issue fun _ => .iSymset
  | .symfn _ => h.issue fun _ => .iSymfn
  | .fetch _ _ => h.meets.issue (fun _ => Keeping.iFetch)
  | .store _ _ => h.meets.issue (fun _ => Keeping.iStore)
  | .fetch2 _ => h.issue fun _ => .iFetch2
  | .store2 _ => h.issue fun _ => .iStore2
  | .loc _ => h.issue fun _ => .iLoc
  | .cas _ => h.issue fun _ => .iCas
  | .xchg _ => h.issue fun _ => .iXchg
  | .fadd _ => h.issue fun _ => .iFadd
  | .fenceAcq _ => h.issue fun _ => .iFenceAcq
  | .fenceRel _ => h.issue fun _ => .iFenceRel
  | .fenceFull _ => h.issue fun _ => .iFenceFull
  | .pfetch _ => h.issue fun _ => .iPfetch
  | .pstore _ => h.issue fun _ => .iPstore
  | .gettag _ => h.issue fun _ => .iGettag
  | .settag _ => h.issue fun _ => .iSettag
  | .satbBufferFlush _ => .ite h.flushSatb.modCore h.flushSatb
  | .clean _ => h.issue fun _ => .iClean
  | .flush _ => h.issue fun _ => .iFlush
  | .inval _ => h.issue fun _ => .iInval
  | .iinval _ => h.issue fun _ => .iIinval
  | .lock _ => h.issue fun _ => .iLock
  | .unlock _ => h.issue fun _ => .iUnlock
  | .cleanAll _ => h.issue fun _ => .iCleanAll
  | .flushAll _ => h.issue fun _ => .iFlushAll
  | .iinvalAll _ => h.issue fun _ => .iIinvalAll
  | .tlbiVa _ => h.issue fun _ => .iTlbiVa
  | .tlbiVaw _ => h.issue fun _ => .iTlbiVaw
  | .tlbiAsid _ => h.issue fun _ => .iTlbiAsid
  | .tlbiVmid _ => h.issue fun _ => .iTlbiVmid
  | .tlbiAll _ => h.issue fun _ => .iTlbiAll
  | .tlbiComplete _ => h.execTlbiComplete
  | .tlbw _ => h.issue fun _ => .iTlbw
  | .tlbr _ => h.issue fun _ => .iTlbr
  | .walk _ => h.issue fun _ => .iWalk
  | .walkResult _ => h.execWalkResult
  | .br _ _ => h.issue fun _ => .iBr
  | .brnil _ _ => h.issue fun _ => .iBrnil
  | .brt _ _ => h.issue fun _ => .iBrt
  | .brz _ _ => h.issue fun _ => .iBrz
  | .brnz _ _ => h.issue fun _ => .iBrnz
  | .call _ => h.issue fun _ => .iCall
  | .tcall _ => h.issue fun _ => .iTcall
  | .ret _ => h.issue fun _ => .iRet
  | .enter _ _ => h.issue fun _ => .iEnter
  | .localI _ _ => h.issue fun _ => .iLocal
  | .setlocal _ _ => h.issue fun _ => .iSetlocal
  | .arg _ _ => h.issue fun _ => .iArg
  | .gate _ => h.issue fun _ => .iGate
  | .gret _ => h.issue fun _ => .iGret
  | .rep _ _ _ => h.repStep
  | .loop _ _ => h.issue fun _ => .iLoop
  | .leave _ => h.issue fun _ => .iLeave
  | .lcget _ => h.issue fun _ => .iLcget
  | .lcset _ => h.issue fun _ => .iLcset
  | .in _ => h.issue fun _ => .iIn
  | .out _ => h.issue fun _ => .iOut
  | .inb _ _ => h.issue fun _ => .iInb
  | .outb _ _ => h.issue fun _ => .iOutb
  | .registerWrite _ _ _ _ => h.execRegisterWrite
  | .trap _ _ => h.issue fun _ => .iTrap
  | .rte _ => h.issue fun _ => .iRte
  | .rtq _ => h.issue fun _ => .iRtq
  | .halt _ => h.issue fun _ => .iHalt
  | .mfsr _ => h.issue fun _ => .iMfsr
  | .mtsr _ => h.issue fun _ => .iMtsr
  | .setipl _ => h.issue fun _ => .iSetipl
  | .brk _ => h.issue fun _ => .iBrk
  | .sync _ => h.issue fun _ => .iSync
  | .time _ => h.issue fun _ => .iTime
  | .rand _ => h.issue fun _ => .iRand
  | .mcload _ => h.issue fun _ => .iMcload
  | .undefinedOpcode _ _ => h.execUndefinedOpcode
  | .customerOpcode _ _ => h.issue fun _ => .custIns
  | .microTimeout _ => .ite h.noteWdog.takeTrap h
  | .scene _ => h.issue fun _ => .iScene
  | .sceneS _ => h.issue fun _ => .iSceneS
  | .curtain _ => (h.issue (fun _ => Keeping.iCurtain)).settle
  | .cut _ => h.issue fun _ => .iCut
  | .scstat _ => h.issue fun _ => .iScstat
  | .rfetch _ => (h.issue (fun _ => Keeping.iRfetch)).settle
  | .rstore _ => (h.issue (fun _ => Keeping.iRstore)).settle
  | .rinvoke _ => (h.issue (fun _ => Keeping.iRinvoke)).settle
  | .rsend _ => (h.issue (fun _ => Keeping.iRsend)).settle
  | .scanstack _ => h.issue fun _ => .iScanstack
  | .barrier _ => h.issue fun _ => .iBarrier
  | .card _ => h.issue fun _ => .iCard
  | .pace _ => h.issue fun _ => .iPace
  | .unify _ => h.issue fun _ => .iUnify
  | .matchI _ => h.issue fun _ => .iMatch
  | .trailmark _ => h.issue fun _ => .iTrailmark
  | .untrail _ => h.issue fun _ => .iUntrail
  | .bind _ => h.issue fun _ => .iBind
  | .deref _ => h.issue fun _ => .iDeref
  | .lprobe _ => h.issue fun _ => .iLprobe
  | .linsert _ => h.issue fun _ => .iLinsert
  | .ldelete _ => h.issue fun _ => .iLdelete
  | .coprocessorTurn _ _ => h.execCoprocessorTurn
  | .coprocessorResponse _ => h.execCoprocessorResponse
  | .missDataArrives _ => h.modCore
  | .storeQueueDrain _ _ => h.drainAt
  | .usherRequest _ _ _ _ => iteInduction (motive := AnsKeeps s₀) (fun _ => h.usherUpset) fun _ => h.usherUpset.atHome
  | .ccCtlWaydis _ _ => .ite h h.ccWaydis
  | .ccCtlFlush _ => .ite h h.ccFlush
  | .interruptTaken _ => .ite h h.takeInterrupt
  | .nmiTaken _ => .ite h h.takeNmi
  | .asyncMachineCheck _ => .ite h h.takeMc
  | .singleStepTrap _ => h.takeStep
  | .cueRouterEvent _ => .ite h.cueEvent h
  | .localTimerFire _ _ => h.fireTimer
  | .cueIpi _ _ => h.cueIpi
  | .cueNmi _ => h.cueNmi
  | .cueSrcWrite _ _ _ => h.cueSrcWrite
  | .cueLctlWrite _ _ _ => h.cueLctlWrite
  | .debugHaltRequest _ => .ite h.abortScene.modCore h
  | .controlStoreLoad => h.loadStep
  | .controlStoreRefresh => (h.foldl fun _ _ h => .ite h.wantRefresh h).refreshWanted
  | .mcsRfctlRfnow _ => h.rfNow
  | .colHeapbaseWrite _ => h.colHeapbase
  | .colRset _ => h.colRset
  | .colRootq _ => h.colRootq
  | .markFull => h.colMark
  | .markYoung => h.colMark
  | .evacuate _ => h.colEvacuate
  | .finish => h.colFinish
  | .colIdle => h.colIdle
  | .colAbort => h.colAbort
  | .stagehandStep _ => h.engineStep
  | .sthErrResume _ => .ite h h.engineResume
  | .barrierCopyDone _ => h.barrierCopy
  | .pacingGrant _ => h.pacingGrant
  | .pacelimExpiry _ => h.execPacelimExpiry
  | .rdreq _ _ _ _ => h.execArrival
  | .rdrsp _ _ _ _ => h.execArrival
  | .wrreq _ _ _ _ => h.execArrival
  | .wrrsp _ _ _ _ => h.execArrival
  | .invoke _ _ _ _ => h.execArrival
  | .send _ _ _ _ => h.execArrival
  | .result _ _ _ _ => h.execArrival
  | .wret _ _ _ _ => h.execArrival
  | .eack _ _ _ _ => h.execArrival
  | .prepare _ _ _ _ => h.execArrival
  | .vote _ _ _ _ => h.execArrival
  | .commit _ _ _ _ => h.execArrival
  | .abort _ _ _ _ => h.execArrival
  | .notice _ _ _ _ => h.execArrival
  | .oquery _ _ _ _ => h.execArrival
  | .oreply _ _ _ _ => h.execArrival
  | .mgmt _ _ _ _ => h.execArrival
  | .prepareTimeout _ => .ite h.abortScene h
  | .oqueryTimer _ => h.execOqueryTimer
  | .originUnreachable _ => h.execOriginUnreachable
  | .retransmitTimeout _ => h.retransmit
  | .requestTimeout _ => h.requestTimeout
  | .portSignalDetect _ _ => .ite h.portEnter.setFld h
  | .linkTrainingDone _ _ => .ite h.portEnter.setFld h
  | .trainTimeout _ => .ite h.portDown h
  | .flitLockDone _ => .ite h.portEnter.upd h
  | .lockTimeout _ => .ite h.portDown h
  | .hello _ _ _ _ _ _ _ _ _ => h.execHello
  | .flitNak _ _ => .ite h (.ite h.portAck (.ite h.portAck.portDown (h.portAck.modPort.foldl fun _ _ h => h.upd)))
  | .flitIdle _ _ _ _ => .ite h (h.portAck.foldl fun _ _ h => .ite h h.modPort).pumpPort
  | .flitTsync _ _ _ _ _ _ => .ite h.modPort h
  | .flitError _ _ => .ite h (.ite h.bump.modPort.portDown h.bump.modPort.upd)
  | .ackTimeout _ => .ite h.portDown h
  | .keyRollover _ => .ite h.portDown h
  | .creditStall _ => .ite h.portDown h
  | .tsyncExchange => h.execTsyncExchange
  | .tourPctlRetrain _ => .ite h.retrain h
  | .tourPctlEn _ _ => .ite h.portEnable h
  | .tourScres _ => h.scres
  | .tourInqhWrite _ => h.inqhWrite
  | .sqTailDoorbell _ _ => h.doorbell (fun _ h => h.sqTail)
  | .cqHeadDoorbell _ _ => h.doorbell (fun _ h => h.cqHead)
  | .hostCqtWrite _ _ => .ite h.bump h.cqTail
  | .msixTableWrite _ _ _ _ => .ite h (.ite h.modHost.upd h.modHost)
  | .mailboxGetstatus => .ite h.mbEnd h
  | .mailboxProfsel _ => .ite h (.ite h.mbEnd (.ite h.mbEnd h.setFld.selectNext.mbEnd))
  | .mailboxFlashwr _ _ => .ite h (.ite h.mbEnd (.ite h.mbEnd h.flashWrite.mbEnd))
  | .mailboxFlashchk _ => .ite h (.ite h.mbEnd h.mbEnd)
  | .mailboxBbread _ => .ite h (.ite h.mbEnd h.mbEnd)
  | .bar2Access _ _ _ => h.execBar2Access
  | .hdm0Write _ _ _ _ => h.execHdm0Write
  | .hdm1Write _ _ _ => h.execHdm1Write
  | .hostMemRead _ => h.execHostMemRead
  | .hostSnoop _ _ => .ite h (.ite h.upd h.atHome)
  | .hdmDecoderCommit _ _ => .ite h.modHost h
  | .hostReadCompletion _ _ _ _ => h.execHostReadCompletion
  | .hostBiascmd _ => h.biasStart
  | .hostBiascmdAbort => h.biasAbort
  | .hostCtlViral => h.viral
  | .viralReceived => .ite h.modHost.setFld.failWindows.cueEvent h
  | .linkDown => .ite h.linkLost.setFld.cueEvent h
  | .perstNAssert => .ite h h.perstAssert
  | .flr => .ite h.clearQueues.modHost h
  | .cxlReset => .ite h.cxlReset h
  | .cxlResetMemClr => .ite h.cxlReset.clearLocal h
  | .ideIntegrityFailure _ => .ite h.modIde.setFld.setFld.bump.cueEvent h
  | .getVersion => h.spdmAt (fun _ h => h.modSpdm.spdmAnswer)
  | .getCapabilities => h.execGetCapabilities
  | .negotiateAlgorithms _ => h.execNegotiateAlgorithms
  | .getDigests => h.spdmAt (fun _ h => h.spdmAnswer)
  | .getCertificate _ _ _ => h.spdmAt (fun _ h => .ite h.spdmAnswer h.spdmError)
  | .challenge _ _ => h.execChallenge
  | .getMeasurements _ _ => h.execGetMeasurements
  | .keyExchange _ _ => h.execKeyExchange
  | .spdmFinish _ => h.spdmAt (fun _ h => .ite h.spdmError (.ite h.modSpdm.spdmAnswer h.modSpdm.spdmError))
  | .keyProg _ _ => .ite h.modIde h
  | .kSetGo _ => .ite h.modIde.setFld h
  | .kSetStop _ => .ite h.modIde.setFld h
  | .spdmUnsupportedRequest => h.spdmAt (fun _ h => h.spdmError)
  | .cdatRead => .ite h.upd h
  | .patrolScrub _ _ _ _ => h.execPatrolScrub
  | .hbmRefresh _ => h
  | .hbmTemperatureRead _ _ => .ite (.ite h.setFld.alert h.setFld) h
  | .periodicCalibration _ _ => h
  | .mcCalcmd _ _ => h.calRequest
  | .forcedRecalComplete _ _ => h.execForcedRecalComplete
  | .devModeWrite _ => h.devModeWrite
  | .cluModeWrite _ _ => .ite h h.cluModeWrite
  | .modeChange => h.modeChange
  | .lockstepDivergence _ => .ite h.diverge h
  | .selftestWayRotation _ _ => h.execSelftestWayRotation
  | .selftestIdleCore _ _ => .ite h.backFail h
  | .devStreq _ _ => h.testRequest
  | .selftestStart => h.execSelftestStart
  | .selftestDeadline => h.execSelftestDeadline
  | .selftestResult _ => h.execSelftestResult
  | .devStreqAbort => h.testAbort
  | .chunkEnd _ => h.execChunkEnd
  | .chunkCommit => h.commitChunk
  | .snapshotComplete => .ite h.upd.setFld.retryHeld h
  | .hostpushDrain => .ite h.pushWords.setFld.rheadWrite h
  | .rehCtlAbort => h.sessionAbort
  | .rehMark _ _ => .ite h.bump h.mark
  | .rehRheadWrite _ => h.rheadWrite
  | .rehHheadWrite _ => h.setFld
  | .replayPrep _ _ _ => h.execReplayPrep
  | .replayReady => .ite h.setFld h
  | .replayChunk => h.execReplayChunk
  | .replayResume => h.replayResume
  | .replayAbort => h.replayAbort
  | .traceLossEntry => h.traceLoss
  | .rehTctlFrozenClear => h.frozenClear
  | .porNAssert => .ite h h.logBb.coldReset.modClk
  | .porNRelease _ _ _ => .ite h.modClk.setFld h
  | .aonrcOk => .ite h (.ite h.modClk.upd (.ite h.modClk.fallback h.modClk))
  | .greenRoomClockSwitch => .ite (.ite h.upd.modClk.upd.setFld h.upd.modClk) h
  | .aon32Good => .ite h h.modClk.setFld
  | .aon32Timeout => .ite h h.setFld
  | .pllLoss _ => .ite h.pllLose h
  | .pllRelock _ => h.pllBack
  | .sysrefLost => h.sysrefLost
  | .sysrefRestored => .ite h.setFld.setFld.setFld h
  | .fallbackSlow => .ite h.modClk.setFld.setFld.setFld.setFld.upd.logClock h
  | .clkTpllWrite _ _ _ => h.tpllWrite
  | .tpllChangeDone _ => .ite h.tpllDone.modeDone h.tpllDone
  | .clkGreqGate _ _ => h.gateRequest
  | .clkGreqUngate _ _ => h.ungateRequest
  | .gateAck => h.execGateAck
  | .gateTimeout => h.execGateTimeout
  | .pwrCmdDark => h.darkRequest
  | .pwrCmdAbort => h.darkAbort
  | .darkCommit => .ite h.powerDown.setSref.modClk.upd.setFld.setFld h
  | .darkWake => .ite h.darkWake.serveWait h.darkWake
  | .avsFailure _ => .ite h.bump.setFld.setFld.modClk.tpllTouch.alert.cueEvent h
  | .powerEstimate _ => h.execPowerEstimate
  | .thermalThrottle _ _ => h.execThermalThrottle
  | .thermtrip _ _ => .ite h.modClk.setSref.upd.logBb h
  | .timeAdjStep _ => h.timeAdj
  | .timeAdjSlew _ => h.timeAdj
  | .tsyncInEdge => .ite h (.ite h.setReg.setFld.align h.setReg)
  | .tsyncOutPulse => h.execTsyncOutPulse
  | .loadIn _ _ _ => h.execLoadIn
  | .hbmTrainingDone _ => .ite (.ite h.upd.loadStop h.upd) h
  | .memoryClearingDone => h.execMemoryClearingDone
  | .loadinNextWrite _ _ _ => h.selectNext
  | .loadinCmdWarm => h.wantWarm
  | .loadinCmdCreset _ => h.wantCluster
  | .loadinStart _ _ => h.loadinStart
  | .warmNEdge => h.wantWarm
  | .warmReset => h.execWarmReset
  | .clusterReset _ => h.execClusterReset
  | .vddAonLoss => ⟨h.pending, fun _ => reset_wf⟩
  | .ksuFuse _ _ => h.ksuFuse
  | .ksuRevoke _ _ => h.ksuRevoke
  | .ksuProvlock _ _ => h.ksuProvlock
  | .ksuZeroize => .ite h.zeroize.logBb.coldReset h
  | .ksuReseed _ => .ite h.ksuReseed h
  | .drbgAutoReseed => .ite h.upd h
  | .entropyHealthFailure => .ite h.setFld.bump.platform h
  | .prompterStatus => h.request (fun _ h => h.pmEnd)
  | .telem => h.request (fun _ h => h.pmEnd)
  | .prompterBbread _ _ => h.request (fun _ h => .ite h.pmEnd h.pmEnd)
  | .bbclear => h.request (fun _ h => h.bbClear.pmEnd)
  | .prompterProfsel _ => h.request (fun _ h => (h.setFld.ite h.selectNext).pmEnd)
  | .modeset _ => h.request (fun _ h => h.wakeEvent.pmMode)
  | .prompterReset _ _ => h.execPrompterReset
  | .calib _ => h.request (fun _ h => .ite h.pmEnd (.ite h.calRequest.pmEnd h.calRequest.modPm))
  | .prompterWake => h.request (fun _ h => h.wakeEvent.pmEnd)
  | .prompterDark => h.request (fun _ h => h.pmDark)
  | .chal => h.execChal
  | .pauth _ => h.execPauth
  | .pend => h.request (fun _ h => h.setFld.pmEnd)
  | .dbgunlock _ _ => h.execDbgunlock
  | .attest _ _ => h.execAttest
  | .prompterZeroize _ => h.request (fun _ h => .ite h.pmEnd h.zeroize.modPm.pmEnd)
  | .prompterFlashwr _ _ => h.request (fun _ h => .ite h.pmEnd h.flashWrite.pmEnd)
  | .prompterFlashchk _ => h.request (fun _ h => .ite h.pmEnd h.pmEnd)
  | .mbwrite _ => .ite (h.request (fun _ h => h.pmEnd)) (h.request (fun _ h => h.wakeEvent.mbWrite))
  | .mbread => h.request (fun _ h => .ite h.setFld.pmEnd h.pmEnd)
  | .responseRead => .ite h h.pmSettle.upd
  | .alertResponse => .ite h.upd h
  | .smbusTimeout => h
  | .sessionTimeout => .ite h.setFld h
  | .lockoutExpiry => .ite h.setFld h
  | .prompterMbctlWrite _ _ _ => h.execPrompterMbctlWrite
  | .perstNDeassert => .ite h.modHost h
  | .hostLinkUp _ _ _ => .ite h h.setReg.modHost
  | .configurationRequest _ _ _ => .ite h (.ite h.answerHost (.ite (h.ite h.modHost).answerHost h.answerHost))
  | .prompterRejectedRequest _ _ => h.execPrompterRejectedRequest
  | .mailboxUnknownOpcode _ => .ite h.mbEnd h
  | .tourReservedMessage _ _ _ _ => .ite h h.portArrive
  | .debugResume _ _ => .ite h.modCore h
  | .drbgInstantiated => .ite h.setFld h
  | .hostWriteRefused => h.bump

/-! ### Machine/Tick -/

theorem Keeps.advance (h : Keeps s₀ s) : Keeps s₀ s.advance := .ite h h.upd.stepTime

theorem Keeps.countNs (h : Keeps s₀ s) : Keeps s₀ s.countNs := by
  unfold State.countNs
  extract_lets s1 s2 s3
  have h1 : Keeps s₀ s1 := .ite h.bump h
  have h2 : Keeps s₀ s2 := h1.foldl fun _ _ h => .ite h.bump h
  have h3 : Keeps s₀ s3 := .ite h2.bump h2
  exact .ite h3.bump h3

theorem Keeps.background (h : Keeps s₀ s) : Keeps s₀ s.background :=
  h.serveParked.settle.retryHeld.retryWaiting.commitAll.biasStep.coldDue

theorem Keeps.tick (h : Keeps s₀ s) : Keeps s₀ s.tick := .ite h h.advance.countNs.background

/-! ### Machine/Step -/

theorem step_keeps {t : State} (e : step s = .next t) (w : Memory.wf s = true) : Memory.wf t = true := by
  unfold step at e
  split at e
  · cases e
    exact (Keeps.refl s).tick.wf w
  next c rest _ =>
    have h := (Keeps.refl { s with pending := rest }).exec c
    rw [e] at h
    exact h.wf w

end Sys2Proof.Machine
end

section
/-! PROOFS. The statement O59. -/

namespace Sys2Proof.Machine

open Sys2Proof

/-- Settles O59: every function that a step runs keeps what `Keeps` says, and so do `exec` and the tick. -/
theorem memoryStaysCanonical : Obligations.MemoryStaysCanonical := by
  unfold Obligations.MemoryStaysCanonical
  intro s t w e
  exact step_keeps e w

end Sys2Proof.Machine
end

section
/-! PROOFS. Customer opcodes (R72, R168): an entry that the image defines with its V bit clear, and the statement O20. -/

namespace Sys2Proof.Machine

open Sys2Proof Sys2Proof.Safety

/-- A core that runs at PC 0x100 with translation off and the line of its PC in an I-frame. -/
def invalidEntryCore : Core :=
  { run := .run, psw := { w := true, l := true }, pc := 0x100
    stk := { sp := 0x800, sbase := 0x880, slim := 0x700, csp := 0x900, clim := 0x880 }
    mem := { iframes := [{ idx := 0, base := 2, sect := [List.replicate 8 wRAW0] }] } }

/-- The device in Run with that core as core 0 and a customer image loaded in its cluster. The image defines opcode 5 with an entry
whose V bit is clear; the routine is one micro-word that only ends. -/
def invalidEntry : State :=
  (({ State.reset with status := 4, cores := State.reset.cores.set 0 invalidEntryCore } : State).setFld f_MCS_STAT_CUST 0 1).modCluster 0
    fun k => k.modBanks fun _ => { dstore := [(0x805, 0x0003)], ustore := [(0x3003, 0xA09 * 2 ^ 12 + 0x900)]
                                   nstore := [(0xA09, 7 * 2 ^ 105 + 6 * 2 ^ 118 + 6 * 2 ^ 114)] }

/-- How many free values have been drawn in the next state of an answer. -/
def drawnIn : Ans → Nat
  | .next t => t.free
  | _ => 0

theorem invalidEntry_quiet : Quiet invalidEntry 0 where
  issues := by decide
  remote := rfl
  noParked := rfl
  noReplay := by decide
  noRecord := by decide
  noTrace := by decide
  noStrict := by decide
  noScene := rfl
  noSlot := rfl
  noLoop := rfl
  noStep := rfl
  noRep := rfl
  noPend := rfl
  noWins := rfl
  noNewWins := rfl
  noSpills := rfl
  noBuf := rfl
  noShadow := rfl
  noMicro := rfl
  noMiss := rfl
  noSingle := rfl
  noTrap := by decide
  fetch := ⟨{ pa := 64, mt := 0, tte := none }, by decide, by decide, by decide⟩

/-- The model runs the routine: as it starts, it draws the free value of its registers. -/
theorem invalidEntry_runs : drawnIn (exec (.customerOpcode 0 5) invalidEntry) = 1 := by decide

set_option maxRecDepth 2000 in
theorem invalidEntry_refused : ((invalidEntry.ready 0 0xE005).takeTrap 0 (tIllegal 0) 0xE005).free = 0 := by decide

/-- Refutes O20: with a customer image loaded, the sixth clause has illegal opcode 0 raised wherever the entry's V bit reads 0. The model
asks whether the image defines the entry, never for V, and runs the routine of a defined entry with V clear; R168 gives such an entry no
exception either. (The clause also reads the entry of core c / 8 where R168 means that of core c; at core 0 the two are one.) -/
theorem not_undefinedAndCustomer : ¬ Obligations.UndefinedAndCustomer := by
  unfold Obligations.UndefinedAndCustomer
  rintro ⟨h, -⟩
  obtain ⟨-, -, -, -, -, hclear, -⟩ := h invalidEntry 0 wRAW0 5 invalidEntry_quiet (by decide)
  have hraised := hclear (by decide) (by decide)
  have hdrawn : drawnIn (exec (.customerOpcode 0 5) invalidEntry) = 0 := by
    rw [hraised]
    exact invalidEntry_refused
  rw [invalidEntry_runs] at hdrawn
  exact absurd hdrawn (by decide)

end Sys2Proof.Machine
end

section
/-! PROOFS. A syllable whose program changes more than its core, or that goes on elsewhere than at the next syllable: what its retirement
makes of the core, and what it needs of the state that the program leaves (R137). -/

namespace Sys2Proof.Machine

open Sys2Proof Sys2Proof.Safety

/-! ### What follows a retirement -/

/-- The registers that decide whether anything follows a retirement. -/
def watchRegs : List Reg := [.CLU_MODE, .DEV_MODE, .REH_STAT, .CORE_DBG]

/-- Nothing follows a retirement of core c that issued with the status `p`: no trace, replay, recording or single step (R191, R434,
R454). -/
structure Unwatched (t : State) (c : Nat) (p : Psw) : Prop where
  noTrace : t.tracing c = false
  noReplay : t.mode mREPLAY = false
  noRecord : t.recording = false
  noTrap : t.stepDue c (!p.l) p.w = false

theorem unwatched_of_quiet {s : State} {c : Nat} (q : Quiet s c) : Unwatched s c (s.core c).psw :=
  ⟨q.noTrace, q.noReplay, q.noRecord, q.noTrap⟩

/-- Only `watchRegs` are looked at. -/
theorem Unwatched.of_same {t u : State} {c : Nat} {p : Psw} (h : Unwatched t c p) (hr : ∀ r ∈ watchRegs, ∀ j, u.reg r j = t.reg r j) :
    Unwatched u c p := by
  have hm : ∀ k, u.mode k = t.mode k := fun k => congrArg (bit · k) (hr .DEV_MODE (by decide) 0)
  have hf : ∀ f : Fld, f.reg ∈ watchRegs → ∀ j, u.fld f j = t.fld f j := fun f hf j => congrArg (bits · f.hi f.lo) (hr f.reg hf j)
  have hg : ∀ f : Fld, f.reg ∈ watchRegs → ∀ j, u.flag f j = t.flag f j := fun f h j => congrArg (· == 1) (hf f h j)
  refine ⟨?_, (hm _).trans h.noReplay, ?_, ?_⟩
  · rw [← h.noTrace]
    simp only [State.tracing, State.effMode, hm, hf f_CLU_MODE_TRACE (by decide)]
  · rw [← h.noRecord]
    simp only [State.recording, hm, hg f_REH_STAT_ACTIVE (by decide), hg f_REH_STAT_STOPPED (by decide)]
  · rw [← h.noTrap]
    simp only [State.stepDue, hm, hg f_CORE_DBG_BSS (by decide), hg f_CORE_DBG_HSS (by decide)]

theorem Unwatched.modCore {t : State} {c : Nat} {p : Psw} (h : Unwatched t c p) (d : Nat) (f : Core → Core) : Unwatched (t.modCore d f) c p :=
  h.of_same fun _ _ _ => rfl

theorem Unwatched.ready {t : State} {c : Nat} {p : Psw} (h : Unwatched t c p) (n : Nat) : Unwatched (t.ready c n) c p := h.modCore c _

theorem Unwatched.setReg {t : State} {c : Nat} {p : Psw} (h : Unwatched t c p) {r : Reg} (hr : r ∉ watchRegs) (i : Nat) (v : W64) :
    Unwatched (t.setReg r i v) c p :=
  h.of_same fun _ hq _ => reg_setReg_ne _ _ _ _ _ _ fun e => hr (e.1 ▸ hq)

theorem Unwatched.setFld {t : State} {c : Nat} {p : Psw} (h : Unwatched t c p) {f : Fld} (hf : f.reg ∉ watchRegs) (i v : Nat) :
    Unwatched (t.setFld f i v) c p := h.setReg hf i _

/-! ### The core that a retirement leaves -/

/-- A core as a syllable's own program finds it, with nothing pending that its retirement would have to settle. -/
structure Fresh (k : Core) (syl : Nat) : Prop where
  plain : PlainCore k
  counted : k.traceN = 0
  noted : k.syl = syl

theorem ready_fresh {s : State} {c : Nat} (q : Quiet s c) (syl : Nat) : Fresh ((s.ready c syl).core c) syl := by
  refine ⟨ready_plain q syl, ?_, ?_⟩ <;> rw [quiet_ready_core q]

/-- Retirement looks at nothing of a fresh core's chunk, its special registers or PSW.REPP. -/
theorem Fresh.update {k : Core} {n : Nat} (h : Fresh k n) (x : Chunk) (r : Sregs) (b : Bool) :
    Fresh { k with chunk := x, sr := r, psw := { k.psw with repp := b } } n :=
  ⟨⟨h.1.1, h.1.2, h.1.3, h.1.4, h.1.5, h.1.6, h.1.7, h.1.8, h.1.9, h.1.10, h.1.11, h.1.12⟩, h.2, h.3⟩

/-- Where execution goes after a syllable outside a delay slot and a loop. -/
def Flow.target (f : Flow) (pc : Nat) : Nat :=
  match f with
  | .next => va48 ((pc : Int) + 1)
  | .jump t => t
  | _ => pc

/-- The flows of a syllable that neither waits at a step boundary, branches, halts nor has already moved its core. -/
def Flow.simple (f : Flow) : Bool :=
  match f with
  | .next => true
  | .jump _ => true
  | .rep => true
  | .again => true
  | _ => false

/-- The core that the retirement of a syllable with results of distance 1 leaves. -/
def Core.retiredBy (k : Core) (g : Sig) (o : Out) : Core :=
  { retired k g.syl g.takes o.push with
    pc := o.flow.target k.pc
    traceN := b2n !(o.flow == .rep)
    shadow := (o.shadow.map fun u => { remain := 2, sa := k.pc, syl := g.syl, upd := u }).or k.shadow }

theorem advance_simple (k : Core) (f : Flow) (h : f.simple = true) (hs : k.psw.ds = false) (hl : k.psw.lp = false) :
    k.advance f = { k with pc := f.target k.pc } := by
  have hp : { k.psw with ds := false } = k.psw := by rw [← hs]
  cases f with
  | next => exact plain_advance k hs hl
  | jump t => simp only [Core.advance, Flow.target, hp]
  | rep => rfl
  | again => rfl
  | _ => cases h

/-- Results of distance 1 are pushed at once (R49). -/
theorem pushOut_now (k : Core) (g : Sig) (o : Out) (n : Nat) (h : o.flow.simple = true) (hd : o.delay ≤ 1) (hp : o.keepPg = false) :
    k.pushOut g o n = { k with stk := { k.stk with sp := va48 ((k.stk.sp + g.takes : Nat) - (o.push.length : Int))
                                                   regs := o.push.reverse ++ k.stk.regs.drop g.takes } } := by
  have hs : (o.flow == .stay) = false ∧ (o.flow == .done) = false := by
    cases hf : o.flow <;> first | exact ⟨rfl, rfl⟩ | (rw [hf] at h; cases h)
  simp only [Core.pushOut, hs, hd, hp, if_true, Bool.or_false, Bool.false_eq_true, if_false]

/-- A plain core's retirement, once the results are pushed and the PC has moved, has its wait, its trace count and its shadow left to
set. -/
theorem retireStep_settled {k m l : Core} {g : Sig} {o : Out} (hm : k.pushOut g o g.syl = m) (hl : m.advance o.flow = l) (p : PlainCore l)
    (hn : l.traceN = 0) (hf : o.flow.simple = true) :
    k.retireStep g o (o.flow == .rep) =
      { l with wait := none, traceN := b2n !(o.flow == .rep)
               shadow := (o.shadow.map fun u => { remain := 2, sa := k.pc, syl := g.syl, upd := u }).or l.shadow } := by
  obtain ⟨-, -, -, noWins, noNewWins, noSpills, noBuf, noShadow, -, noMiss, noSingle, noDebug⟩ := p
  obtain ⟨⟩ := l
  rename_i mem _ _ _ _ _ _ _
  obtain ⟨⟩ := mem
  dsimp only at noWins noNewWins noSpills noBuf noShadow noMiss noSingle noDebug hn
  subst noWins noNewWins noSpills noBuf noShadow noMiss noSingle noDebug hn
  have hh : (o.flow == .halt) = false := by
    cases e : o.flow <;> first | rfl | (rw [e] at hf; cases hf)
  cases hs : o.shadow <;> cases o.flow == .rep <;> cases ha : o.flow == .again <;>
    simp [Core.retireStep, hm, hl, hs, ha, hh, Core.winStep, Core.shadowStep]

/-- What the retirement of a fresh core amounts to. -/
theorem retireStep_fresh {k : Core} {g : Sig} {o : Out} (h : Fresh k g.syl) (hf : o.flow.simple = true) (hd : o.delay ≤ 1)
    (hp : o.keepPg = false) : k.retireStep g o (o.flow == .rep) = k.retiredBy g o := by
  obtain ⟨p, hn, hs⟩ := h
  rw [retireStep_settled (pushOut_now k g o g.syl hf hd hp) (advance_simple _ o.flow hf p.noSlot p.noLoop)
    ⟨p.1, p.2, p.3, p.4, p.5, p.6, p.7, p.8, p.9, p.10, p.11, p.12⟩ hn hf]
  unfold Core.retiredBy retired
  rw [← hs]

/-! ### The state that a retirement leaves -/

/-- A syllable that retires (R137): its core's own part, and the count of retired syllables. -/
theorem retire_fresh {u : State} {c : Nat} {g : Sig} {o : Out} {p : Psw} (w : Unwatched u c p) (hlt : c < u.cores.length)
    (h : Fresh (u.core c) g.syl) (hf : o.flow.simple = true) (hr : o.flow ≠ .rep) (hd : o.delay ≤ 1) (hp : o.keepPg = false)
    (hl : o.late = none) : u.retire c g o (!p.l) p.w = changed u c (fun k => k.retiredBy g o) := by
  have hrep : (o.flow == .rep) = false := by simpa using hr
  have hk : (u.core c).retireStep g o false = (u.core c).retiredBy g o := hrep ▸ retireStep_fresh h hf hd hp
  have hgo : o.flow ≠ .stay ∧ o.flow ≠ .rep ∧ o.flow ≠ .done := by
    cases e : o.flow <;> simp_all [Flow.simple]
  rw [retire_gen u c g o _ _ hlt hgo hl (by simp [Core.timerShadow, h.plain.noShadow]) w.noTrace w.noReplay w.noRecord w.noTrap
    (by rw [hk]; exact h.plain.noStep) (by rw [hk]; exact h.plain.noMicro)]
  unfold changed
  rw [modCore_congr u c _ (fun k => k.retiredBy g o) hk]

/-- The first issue of a REP does not retire (R122): no count rises. -/
theorem retire_rep {u : State} {c : Nat} {g : Sig} {o : Out} {p : Psw} (w : Unwatched u c p)
    (h : Fresh (u.core c) g.syl) (hr : o.flow = .rep) (hd : o.delay ≤ 1) (hp : o.keepPg = false) (hl : o.late = none) :
    u.retire c g o (!p.l) p.w = u.modCore c (fun k => k.retiredBy g o) := by
  have hk := retireStep_fresh h (by rw [hr]; rfl) hd hp
  have hflow : (o.flow == .stay || o.flow == .rep) = true ∧ (o.flow == .stay) = false ∧ (o.flow == .rep) = true := by
    rw [hr]; exact ⟨rfl, rfl, rfl⟩
  have htim : (u.core c).timerShadow = false := by simp [Core.timerShadow, h.plain.noShadow]
  rw [hflow.2.2] at hk
  have hu := modCore_congr u c (fun k => k.retireStep g o true) (fun k => k.retiredBy g o) hk
  have htr : (u.modCore c (fun k => k.retiredBy g o)).traceRetire c g.syl o.taken = u.modCore c (fun k => k.retiredBy g o) := by
    simp [State.traceRetire, State.traceI, (w.modCore c _).noTrace]
  simp only [State.retire, hflow, hl, htim, hu, htr, Bool.false_or, Bool.false_and, Bool.false_eq_true, if_false, if_true,
    Bool.not_true, Bool.and_false]

/-! ### The issue of a syllable -/

/-- A syllable whose program leaves `u`, in a core that stays fresh, retires there (R137). -/
theorem issue_retires {s u : State} {c : Nat} {i : Ins} {o : Out} (q : Quiet s c)
    (hp : placeCheck (s.core c) i.sig (s.portOk c i.sig.port) = none) (f : Fits (s.core c) i.sig)
    (hb : (i.body ((s.core c).opsOf i.sig)).run c (s.ready c i.sig.syl) = .ok o u) (w : Unwatched u c (s.core c).psw)
    (hlt : c < u.cores.length) (h : Fresh (u.core c) i.sig.syl) (hf : o.flow.simple = true) (hr : o.flow ≠ .rep) (hd : o.delay ≤ 1)
    (hk : o.keepPg = false) (hl : o.late = none) : issue c i s = changed u c (fun k => k.retiredBy i.sig o) := by
  rw [issue_runs s c i q u o hp f hb]
  exact retire_fresh w hlt h hf hr hd hk hl

theorem changed_modCore (s : State) (c : Nat) (h f : Core → Core) : changed (s.modCore c h) c f = changed s c (fun k => f (h k)) := by
  unfold changed
  rw [modCore_modCore]

theorem changed_congr {s : State} {c : Nat} {f g : Core → Core} (h : f (s.core c) = g (s.core c)) : changed s c f = changed s c g := by
  unfold changed
  rw [modCore_congr s c f g h]

theorem quiet_run {s : State} {c : Nat} (q : Quiet s c) : (s.core c).run = .run := by
  have h := q.issues
  simp only [State.canIssue, Bool.and_eq_true, beq_iff_eq] at h
  simp_all

/-- Retirement sets again what issuing a syllable has noted in its core. -/
theorem changed_ready (u : State) (c : Nat) (g : Sig) (o : Out) :
    changed (u.ready c g.syl) c (fun k => k.retiredBy g o) = changed u c (fun k => k.retiredBy g o) := by
  rw [State.ready, changed_modCore]
  rfl

/-- A syllable whose program leaves its core alone but for its chunk, and goes on to the next syllable: `u` is the state that the program
leaves, without what issuing has noted in the core. -/
theorem issue_ready {s u : State} {c : Nat} {i : Ins} {o : Out} (q : Quiet s c)
    (hp : placeCheck (s.core c) i.sig (s.portOk c i.sig.port) = none) (f : Fits (s.core c) i.sig)
    (hb : (i.body ((s.core c).opsOf i.sig)).run c (s.ready c i.sig.syl) = .ok o (u.ready c i.sig.syl)) (w : Unwatched u c (s.core c).psw)
    (hk : ∃ x, (u.ready c i.sig.syl).core c = { (s.ready c i.sig.syl).core c with chunk := x }) (hf : o.flow = .next) (hd : o.delay ≤ 1)
    (hpg : o.keepPg = false) (hl : o.late = none) : issue c i s = changed u c (fun k => k.retiredBy i.sig o) := by
  obtain ⟨x, hx⟩ := hk
  have hfresh : Fresh ((u.ready c i.sig.syl).core c) i.sig.syl := by
    rw [hx]
    exact (ready_fresh q i.sig.syl).update x _ _
  have hrun : ((u.ready c i.sig.syl).core c).run = .run := by
    rw [hx, quiet_ready_core q]
    exact quiet_run q
  rw [issue_retires q hp f hb (w.ready _) (core_lt _ _ (by rw [hrun]; decide)) hfresh (by rw [hf]; rfl) (by rw [hf]; simp) hd hpg hl,
    changed_ready]

/-- The results of a syllable that goes on to the next one and opens no shadow. -/
theorem changed_retiredBy (u : State) (c : Nat) (g : Sig) (push : List TWord) :
    changed u c (fun k => k.retiredBy g { push := push }) = after u c g.syl g.takes push := rfl

/-- The same where the program only pushes words beside what it does to the rest of the state. -/
theorem issue_leaves {s u : State} {c : Nat} {i : Ins} {push : List TWord} (q : Quiet s c)
    (hp : placeCheck (s.core c) i.sig (s.portOk c i.sig.port) = none) (f : Fits (s.core c) i.sig)
    (hb : (i.body ((s.core c).opsOf i.sig)).run c (s.ready c i.sig.syl) = .ok { push := push } (u.ready c i.sig.syl))
    (w : Unwatched u c (s.core c).psw) (hk : ∃ x, (u.ready c i.sig.syl).core c = { (s.ready c i.sig.syl).core c with chunk := x }) :
    issue c i s = after u c i.sig.syl i.sig.takes push :=
  (issue_ready q hp f hb w hk rfl le_rfl rfl rfl).trans (changed_retiredBy u c i.sig push)

/-! ### FIX operands -/

/-- No check of R40 refuses a FIX word where a FIX is accepted. -/
theorem passes_fix {o : Opd} (h : ty o.w = tFIX) (hok : o.ok = true) (cust : Bool) (cuptr : Nat) (user : Bool) :
    o.passes cust cuptr user = true := by
  have hp : isPtr cuptr tFIX = false := by simp [isPtr, isCustom, tFIX, tVAR, tCONS, tLOC, tSTRUCT, tPROXY, tFWD, tFUTURE]
  have hx : (tFIX == tPOISON) = false ∧ isReserved tFIX = false ∧ isCustom tFIX = false ∧ (tFIX == tCODE) = false ∧
      (tFIX == tRREF) = false ∧ (tFIX == tCONS) = false ∧ (tFIX == tLOC) = false ∧ (tFIX == tHDR) = false ∧ (tFIX == tFWD) = false := by decide
  simp [Opd.passes, Opd.malformed, Opd.odd, Opd.refused, h, hok, hp, hx]

/-- A FIX operand passes the checks. -/
theorem run_check_fix {w : TWord} (h : ty w = tFIX) (c : Nat) (s : State) :
    (check [{ w := w, pos := 0, ok := ty w == tFIX }]).run c s = .ok () s :=
  run_check _ c s fun o ho => by
    rw [List.mem_singleton.1 ho]
    exact passes_fix h (by simp [h]) _ _ _

end Sys2Proof.Machine
end

section
/-! PROOFS. REP (R76, R122): the issue of a syllable in a core that repeats one, or that a decode check refuses, and the statement O15. -/

namespace Sys2Proof.Machine

open Sys2Proof Sys2Proof.Safety

/-! ### The issue of a syllable in a core that may repeat one -/

/-- The core outside a repeated syllable. -/
def Core.unrepeated (k : Core) : Core := { k with psw := { k.psw with repp := false } }

theorem quiet_unrepeated {s : State} {c : Nat} (q : Quiet s c) : Quiet (s.modCore c Core.unrepeated) c := by
  rwa [modCore_id]
  unfold Core.unrepeated
  rw [← q.noRep]

theorem unrepeated_lt {s : State} {c : Nat} (q : Quiet (s.modCore c Core.unrepeated) c) : c < s.cores.length := by
  simpa using quiet_core_lt q

theorem unrepeated_core {s : State} {c : Nat} (q : Quiet (s.modCore c Core.unrepeated) c) :
    (s.modCore c Core.unrepeated).core c = (s.core c).unrepeated := core_modCore s c _ (unrepeated_lt q)

/-- A core without pending results issues whether or not it repeats a syllable. -/
theorem unrepeated_issues {s : State} {c : Nat} (q : Quiet (s.modCore c Core.unrepeated) c) : s.canIssue c = true := by
  have h := q.issues
  have hk := unrepeated_core q
  have hp : (s.core c).pend = [] := by have := q.noPend; rwa [hk] at this
  have hl : ∀ k : Core, k.pend = [] → k.landReady = true := fun k e => by simp [Core.landReady, e]
  have hm : (s.modCore c Core.unrepeated).mcsHeld c = s.mcsHeld c := by
    simp only [State.mcsHeld, State.atHold, hk]; rfl
  have hf : (s.modCore c Core.unrepeated).chunkFree c = s.chunkFree c := by
    simp only [State.chunkFree, State.chunkOf, hk]; rfl
  have he : (s.modCore c Core.unrepeated).eventDue c = s.eventDue c := by
    simp only [State.eventDue, State.nmiReady, hk]; rfl
  simp only [State.canIssue, hm, hf, he, hk] at h
  rw [hl (s.core c).unrepeated hp] at h
  simp only [State.canIssue, hl _ hp]
  exact h

/-- The issue of a syllable in a core that is quiet except that it may be repeating one: its decode checks, then its
program, then its end. -/
theorem issue_unrepeated {s : State} {c : Nat} (q : Quiet (s.modCore c Core.unrepeated) c) (i : Ins) :
    issue c i s = (placeCheck (s.core c) i.sig (s.portOk c i.sig.port)).elim
      (((s.ready c i.sig.syl).runIns c i).elim
        (fun r => r.1.retire c i.sig r.2 (!(s.core c).psw.l) (s.core c).psw.w)
        (fun r => r.1.stopped c i.sig r.2 (s.modCore c (fun k => { k with traceN := 0 })) (s.core c).scene.count))
      (fun t => (s.ready c i.sig.syl).takeTrap c t i.sig.syl) := by
  have hlt := unrepeated_lt q
  have hk := unrepeated_core q
  have hissues := unrepeated_issues q
  obtain ⟨-, remote, noParked, noReplay, -, noTrace, noStrict, noScene, -, -, noStep, -, noPend, -, -, -, -, -, noMicro, -, -, -,
    lf, hf, hl, hpo⟩ := q
  rw [hk] at remote noScene noStep noPend noMicro hf hl hpo
  have hrem : (s.core c).ev.remote = [] := remote
  have hfetch : fetchOk (s.core c) = .inr lf := hf
  have hts : s.traceSync c = s.modCore c (fun k => { k with traceN := 0 }) := by
    have : s.tracing c = false := noTrace
    simp [State.traceSync, this]
  have hc1 : (s.traceSync c).core c = { s.core c with traceN := 0 } := by rw [hts, core_modCore _ _ _ hlt]
  have hif : (s.traceSync c).ifill c lf = s.traceSync c := by
    have : ((s.traceSync c).core c).hasLine (lineOf lf.pa) = true := by rw [hc1]; exact hl
    simp [State.ifill, this]
  have hready : (s.ready c i.sig.syl).core c = { s.core c with wait := none, traceN := 0, syl := i.sig.syl } := core_modCore s c _ hlt
  have hlost : ∀ t u : State, (u.core c).psw = (s.core c).psw → t.lostScene u c = false := by
    intro t u h
    have : (s.core c).psw.sc = false := noScene
    simp [State.lostScene, h, this]
  have hst : (s.traceSync c).modCore c (fun k => { (if k.midway then k else k.landDue) with wait := none, syl := i.sig.syl })
      = s.ready c i.sig.syl := by
    rw [hts, modCore_modCore, State.ready]
    apply modCore_congr
    rw [landDue_nil { s.core c with traceN := 0 } noPend, ite_self]
  have hland : ((s.ready c i.sig.syl).core c).landable = true := by
    rw [hready]
    have : (s.core c).pend = [] := noPend
    simp [Core.landable, this]
  have hpc : placeCheck ((s.ready c i.sig.syl).core c) i.sig ((s.ready c i.sig.syl).portOk c i.sig.port) =
      placeCheck (s.core c) i.sig (s.portOk c i.sig.port) := by rw [hready]; rfl
  have hstrict : (s.ready c i.sig.syl).strict c = false := noStrict
  have hban : sceneBan ((s.ready c i.sig.syl).core c) i.sig = none := by
    have : (s.core c).psw.sc = false := noScene
    rw [hready]; simp [sceneBan, this]
  have hparked : s.serveParked = s := by
    have : s.parked = [] := noParked
    simp [State.serveParked, this]
  have hsound : ((s.traceSync c).core c).poisoned lf.pa = false := by rw [hc1]; exact hpo
  unfold issue
  simp only [hparked, hissues, Bool.not_true, Bool.false_eq_true, if_false, first_quiet s c hrem noReplay, shortCount_quiet s c noScene,
    hfetch, hif, hlost _ s rfl, hsound, hst, hpc]
  cases placeCheck (s.core c) i.sig (s.portOk c i.sig.port) with
  | some t => simp only [State.trapOr, hland, Bool.true_or, if_true, Option.elim]
  | none =>
    simp only [hstrict, Bool.false_eq_true, if_false, hban, hlost _ (s.ready c i.sig.syl) (by rw [hready]), Option.elim]
    cases (s.ready c i.sig.syl).runIns c i with
    | inl r => rw [hready]; rfl
    | inr r => rw [hready, hts]; rfl

/-- A syllable that a decode check refuses raises that check's fault. -/
theorem issue_refused {s : State} {c : Nat} {i : Ins} {t : Trap} (q : Quiet s c)
    (hp : placeCheck (s.core c) i.sig (s.portOk c i.sig.port) = some t) :
    issue c i s = (s.ready c i.sig.syl).takeTrap c t i.sig.syl := by
  rw [issue_unrepeated (quiet_unrepeated q), hp]
  rfl

/-- A syllable that fits runs its program on its operands. -/
theorem runIns_ok {t u : State} {c : Nat} {i : Ins} {o : Out} (hm : (t.core c).micro = none) (f : Fits (t.core c) i.sig)
    (hb : (i.body ((t.core c).opsOf i.sig)).run c t = .ok o u) : t.runIns c i = .inl (u, o) := by
  unfold State.runIns
  simp only [hm, Option.isSome_none, Bool.false_eq_true, if_false, run_prepare i.sig c t f, hb]

/-! ### The first issue of a REP -/

/-- REP looks at PSW.REPP: clear, it starts. -/
theorem exec_rep_start {s : State} {c : Fin 256} (q : Quiet s c) (n : BitVec 16) (steps : Nat) :
    exec (.rep c n steps) s = .next (issue c (iRep (s.insOf c n.toNat steps)) s) := by
  change Host.Outcome.next (s.repStep c n.toNat steps) = _
  simp only [State.repStep, q.noRep, Bool.false_eq_true, if_false]

/-- REP takes its operand as count: it begins to repeat the syllable, or skips it. -/
def startRep (d : W64) (k : Core) : Core :=
  { k with sr := { k.sr with lc := d }, psw := { k.psw with repp := if d.toInt ≤ 0 then k.psw.repp else true } }

theorem run_iRep {w : TWord} (hw : ty w = tFIX) (i : Ins) (c : Nat) (s : State) :
    ((iRep i).body [w]).run c s =
      .ok { flow := if w.datum.toInt ≤ 0 then .jump (va48 (((s.core c).pc : Int) + 2)) else .rep } (s.modCore c (startRep w.datum)) := by
  have ho : opd [w] 0 = w := rfl
  simp only [iRep, run_bind, ho, run_check_fix hw, run_getCore, run_modMe, fixVal, run_ite, run_pure, modCore_modCore]
  split
  · next h => exact congrArg _ (modCore_congr _ _ _ _ (by simp only [startRep, if_pos h]))
  · next h => exact congrArg _ (modCore_congr _ _ _ _ (by simp only [startRep, if_neg h]))

/-- What REP reads and removes fits where its count lies in a register. -/
theorem fits_iRep {s : State} {c : Nat} {w : TWord} (st : Stacked s c [w] 1 0) (i : Ins) : Fits (s.core c) (iRep i).sig := by
  obtain ⟨top, room, deep⟩ := st
  have hl : 1 ≤ (s.core c).stk.regs.length := by
    have := congrArg List.length top
    simp at this
    omega
  exact ⟨hl, nofun, room, deep⟩

theorem opsOf_iRep {s : State} {c : Nat} {w : TWord} (st : Stacked s c [w] 1 0) (i : Ins) : (s.core c).opsOf (iRep i).sig = [w] := by
  simpa [Core.opsOf, iRep] using st.top

theorem startRep_fresh {k : Core} {n : Nat} (h : Fresh k n) (d : W64) : Fresh (startRep d k) n := h.update k.chunk _ _

/-- The decode checks that REP and the syllable after it pass together (R76). -/
def RepAllowed (s : State) (c : Nat) (i : Ins) : Prop :=
  repBad i = none ∧ (i.sig.priv = 0 ∨ (s.core c).psw.l = true ∧ (i.sig.priv = 1 ∨ (s.core c).psw.w = true)) ∧ s.portOk c i.sig.port = true

/-- REP with an allowed syllable after it runs to its retirement. -/
theorem issue_iRep {s : State} {c : Nat} {w : TWord} {i : Ins} (q : Quiet s c) (st : Stacked s c [w] 1 0) (hw : ty w = tFIX)
    (h : RepAllowed s c i) :
    issue c (iRep i) s = ((s.ready c 0xA000).modCore c (startRep w.datum)).retire c (iRep i).sig
      { flow := if w.datum.toInt ≤ 0 then .jump (va48 (((s.core c).pc : Int) + 2)) else .rep } (!(s.core c).psw.l) (s.core c).psw.w := by
  obtain ⟨hbad, hpriv, hport⟩ := h
  refine issue_runs s c (iRep i) q _ _ (placeCheck_quiet q _ _ hbad (.inr hport) hpriv) (fits_iRep st i) ?_
  have hpc : ((s.ready c 0xA000).core c).pc = (s.core c).pc := by rw [quiet_ready_core q]
  rw [opsOf_iRep st, ← hpc]
  exact run_iRep hw i c _

/-- The core that starts a REP is fresh for its retirement. -/
theorem started_fresh {s : State} {c : Nat} (q : Quiet s c) (d : W64) : c < ((s.ready c 0xA000).modCore c (startRep d)).cores.length ∧
    Fresh (((s.ready c 0xA000).modCore c (startRep d)).core c) 0xA000 := by
  have hlt : c < (s.ready c 0xA000).cores.length := by rw [State.ready, modCore_cores_length]; exact quiet_core_lt q
  refine ⟨by rwa [modCore_cores_length], ?_⟩
  rw [core_modCore _ _ _ hlt]
  exact startRep_fresh (ready_fresh q _) _

section start
variable {s : State} {c : Nat} {w : TWord} {i : Ins} (q : Quiet s c) (st : Stacked s c [w] 1 0) (hw : ty w = tFIX) (h : RepAllowed s c i)
include q st hw h

/-- A positive count goes to LC, and the core begins to repeat (R122). -/
theorem issue_iRep_pos (hn : 1 ≤ w.datum.toInt) : issue c (iRep i) s = s.modCore c (fun k =>
    { retired k 0xA000 1 [] with pc := k.pc, traceN := 0, sr := { k.sr with lc := w.datum }, psw := { k.psw with repp := true } }) := by
  have hd : ¬ w.datum.toInt ≤ 0 := by omega
  rw [issue_iRep q st hw h, if_neg hd, retire_rep (((unwatched_of_quiet q).ready _).modCore _ _) (started_fresh q _).2 rfl le_rfl rfl rfl,
    State.ready, modCore_modCore, modCore_modCore]
  apply modCore_congr
  simp only [startRep, if_neg hd]
  rfl

/-- Any other count goes to LC, and the syllable is skipped (R122). -/
theorem issue_iRep_skips (hn : w.datum.toInt ≤ 0) : issue c (iRep i) s = changed s c (fun k =>
    { retired k 0xA000 1 [] with pc := va48 ((k.pc : Int) + 2), sr := { k.sr with lc := w.datum } }) := by
  obtain ⟨hlt, hf⟩ := started_fresh q w.datum
  rw [issue_iRep q st hw h, if_pos hn, retire_fresh (((unwatched_of_quiet q).ready _).modCore _ _) hlt hf rfl (by simp) le_rfl rfl rfl,
    changed_modCore, State.ready, changed_modCore]
  apply changed_congr
  simp only [startRep, if_pos hn]
  rfl

end start

/-! ### One iteration -/

/-- The iteration that the core is about to count down is the last one (R122). -/
def Core.lastIteration (k : Core) : Bool := decide ((k.sr.lc - 1).toInt ≤ 0)

/-- LC has counted one iteration down, and REPP falls with the last one (R122). -/
def countDown (last : Bool) (k : Core) : Core :=
  { k with sr := { k.sr with lc := k.sr.lc - 1 }, psw := { k.psw with repp := !last } }

/-- Where execution goes after an iteration (R122): past the repeated syllable, or to it again. -/
def iterationFlow (k : Core) : Flow := if k.lastIteration then .jump (va48 ((k.pc : Int) + 2)) else .again

/-- The core after one iteration of a syllable that takes and pushes words (R122). -/
def Core.iterated (k : Core) (last : Bool) (syl takes : Nat) (push : List TWord) : Core :=
  { retired k syl takes push with pc := if last then va48 ((k.pc : Int) + 2) else k.pc
                                  sr := { k.sr with lc := k.sr.lc - 1 }, psw := { k.psw with repp := !last } }

theorem run_iIteration (g : Sig) (f : List TWord → List TWord) (l : List TWord) (c : Nat) (s : State) :
    ((iIteration (pureIns g 1 f)).body l).run c s =
      .ok { push := f l, flow := iterationFlow (s.core c) } (s.modCore c (countDown (s.core c).lastIteration)) := by
  simp only [iIteration, pureIns, run_bind, run_pure, run_getCore, run_modMe]
  exact congrArg _ (modCore_congr _ _ _ _ rfl)

theorem iterationFlow_simple (k : Core) : (iterationFlow k).simple = true ∧ iterationFlow k ≠ .rep := by
  unfold iterationFlow
  split <;> simp [Flow.simple]

/-- A core whose results and windows have all ended has none of an earlier iteration's to settle (R83). -/
theorem landRep_nil (k : Core) (hp : k.pend = []) (hw : k.wins = []) : k.landRep = k := by
  cases k
  simp_all [Core.landRep, Core.landList]

section iteration
variable {s : State} {c : Nat} {g : Sig} {f : List TWord → List TWord} (q : Quiet (s.modCore c Core.unrepeated) c)
include q

theorem repeating_fresh : Fresh ((s.ready c g.syl).core c) g.syl := by
  have hlt := unrepeated_lt q
  have h := ready_fresh q g.syl
  rw [quiet_ready_core q, unrepeated_core q] at h
  have e : (s.ready c g.syl).core c = _ := core_modCore s c _ hlt
  rw [e]
  exact h.update (s.core c).chunk (s.core c).sr (s.core c).psw.repp

/-- One iteration of a syllable whose program only pushes words (R122). -/
theorem issue_iIteration (hfit : Fits (s.core c) g) (hbad : repBad (pureIns g 1 f) = none) (hpriv : g.priv = 0) (hport : g.port = none) :
    issue c (iIteration (pureIns g 1 f)) s =
      changed s c (fun k => k.iterated k.lastIteration g.syl g.takes (f (k.opsOf g))) := by
  have hlt := unrepeated_lt q
  have hplace : placeCheck (s.core c) (iIteration (pureIns g 1 f)).sig (s.portOk c (iIteration (pureIns g 1 f)).sig.port) = none := by
    have h := placeCheck_quiet q (iIteration (pureIns g 1 f)).sig (s.portOk c g.port) hbad (.inl hport) (.inl hpriv)
    rwa [unrepeated_core q] at h
  have hready : (s.ready c g.syl).core c = { s.core c with wait := none, traceN := 0, syl := g.syl } := core_modCore s c _ hlt
  have hmicro : (s.core c).micro = none := by have h := q.noMicro; rwa [unrepeated_core q] at h
  have hrun : (s.ready c g.syl).runIns c (iIteration (pureIns g 1 f)) =
      .inl ((s.ready c g.syl).modCore c (countDown (s.core c).lastIteration),
        { push := f ((s.core c).opsOf g), flow := iterationFlow (s.core c) }) := by
    refine runIns_ok (by rw [hready]; exact hmicro) (by rw [hready]; exact ⟨hfit.read, hfit.deep, hfit.room, hfit.held⟩) ?_
    rw [run_iIteration, hready]
    rfl
  have hw : Unwatched s c (s.core c).psw := by
    have h := (unwatched_of_quiet q).of_same (u := s) fun _ _ _ => rfl
    rw [unrepeated_core q] at h
    exact ⟨h.noTrace, h.noReplay, h.noRecord, h.noTrap⟩
  have hlt2 : c < (s.ready c g.syl).cores.length := by rwa [State.ready, modCore_cores_length]
  obtain ⟨hsimple, hrep⟩ := iterationFlow_simple (s.core c)
  rw [issue_unrepeated q, hplace]
  change ((s.ready c g.syl).runIns c (iIteration (pureIns g 1 f))).elim _ _ = _
  rw [hrun]
  refine (retire_fresh (o := { push := f ((s.core c).opsOf g), flow := iterationFlow (s.core c) })
    ((hw.ready _).modCore c (countDown (s.core c).lastIteration))
    (by rwa [modCore_cores_length]) ?_ hsimple hrep le_rfl rfl rfl).trans ?_
  · rw [core_modCore _ _ _ hlt2]
    exact (repeating_fresh q).update _ _ _
  · rw [changed_modCore, State.ready, changed_modCore]
    refine changed_congr ?_
    unfold iterationFlow Core.iterated
    cases (s.core c).lastIteration <;> rfl

end iteration

/-! ### The statement -/

/-- A syllable whose program only pushes words is one that REP may precede. -/
def repeatable (g : Sig) : Bool := g.easy && g.priv == 0 && !g.micro && !repRefused (pureIns g 1 id)

theorem repeatable_iff (g : Sig) : repeatable g = true ↔
    (g.bad = none ∧ g.port = none ∧ g.deep = none ∧ g.ovr = []) ∧ g.priv = 0 ∧ g.micro = false ∧ repRefused (pureIns g 1 id) = false := by
  simp [repeatable, Sig.easy, and_assoc]

/-- Operands in registers fit a syllable that reads no more of them than there are. -/
theorem stacked_fits_pure {s : State} {c : Nat} {ops : List TWord} {takes grow : Nat} {g : Sig} (st : Stacked s c ops takes grow)
    (hg : repeatable g = true) (hrd : g.rd ≤ ops.length) (ht : g.takes = takes) (hgrow : g.leaves - g.takes ≤ grow) :
    Fits (s.core c) g ∧ (s.core c).opsOf g = ops.take g.rd := by
  obtain ⟨⟨-, -, hdeep, hovr⟩, -, hmicro, -⟩ := (repeatable_iff g).1 hg
  obtain ⟨top, room, deep⟩ := st
  have hl := congrArg List.length top
  rw [List.length_take] at hl
  have hreach : g.reach ≤ Nat.max ops.length takes := by
    simp only [Sig.reach, hdeep, hovr, ht, List.foldl_nil]
    exact Nat.max_le.2 ⟨Nat.max_le.2 ⟨hrd.trans (Nat.le_max_left _ _), Nat.zero_le _⟩, Nat.le_max_right _ _⟩
  refine ⟨⟨by omega, by simp [hdeep], by simp only [hmicro]; simp; omega, ?_⟩, ?_⟩
  · rcases deep with h | h
    · exact .inl (by omega)
    · exact (Nat.eq_zero_or_pos g.reach).imp_right fun _ => by omega
  · rw [← top, List.take_take, Nat.min_eq_left hrd]
    simp [Core.opsOf, hmicro, hdeep]

/-- REP, while it repeats a syllable whose program only pushes words, runs it and counts LC down; the last iteration ends the
repetition (R122). -/
theorem iterates_pure {g : Sig} {f : List TWord → List TWord} {n : BitVec 16} {steps : Nat} {ops push : List TWord} {takes : Nat}
    (hi : ∀ s c, State.insOf s c n.toNat steps = pureIns g 1 f) (hg : repeatable g = true) (hrd : g.rd ≤ ops.length) (ht : g.takes = takes)
    (hgrow : g.leaves - g.takes ≤ push.length) (hpush : f (ops.take g.rd) = push) (s : State) (c : Fin 256)
    (q : Quiet (s.modCore c Core.unrepeated) c) (hrep : (s.core c).psw.repp = true) (st : Stacked s c ops takes push.length) :
    (2 ≤ (s.core c).sr.lc.toInt → exec (.rep c n steps) s = .next (changed s c (fun k =>
      { retired k g.syl takes push with pc := k.pc, sr := { k.sr with lc := k.sr.lc - 1 } }))) ∧
    ((s.core c).sr.lc.toInt = 1 → exec (.rep c n steps) s = .next (changed s c (fun k =>
      { retired k g.syl takes push with
        pc := va48 ((k.pc : Int) + 2), sr := { k.sr with lc := 0 }, psw := { k.psw with repp := false } }))) := by
  obtain ⟨⟨hbad, hport, -, -⟩, hpriv, -, hmay⟩ := (repeatable_iff g).1 hg
  obtain ⟨hfit, hops⟩ := stacked_fits_pure st hg hrd ht hgrow
  have hrb : repBad (pureIns g 1 f) = none := by
    have h1 : repRefused (pureIns g 1 f) = false := hmay
    have h2 : (pureIns g 1 f).sig.bad = none := hbad
    simp [repBad, h1, h2]
  have hland : (s.core c).landRep = s.core c := by
    have hp := q.noPend
    have hw := q.noWins
    rw [unrepeated_core q] at hp hw
    exact landRep_nil _ hp hw
  have hexec : exec (.rep c n steps) s = .next (changed s c (fun k => k.iterated k.lastIteration g.syl takes push)) := by
    change Host.Outcome.next (s.repStep c n.toNat steps) = _
    simp only [State.repStep, hrep, if_true, unrepeated_issues q, modCore_id s c _ hland, hi, issue_iIteration q hfit hrb hpriv hport]
    exact congrArg _ (changed_congr (by rw [hops, hpush, ht]))
  rw [hexec]
  refine ⟨fun h => congrArg _ (changed_congr ?_), fun h => congrArg _ (changed_congr ?_)⟩
  · have hlast : (s.core c).lastIteration = false := by
      have hlt := BitVec.toInt_lt (x := (s.core c).sr.lc)
      rw [Core.lastIteration, decide_eq_false_iff_not, BitVec.toInt_sub, Int.bmod_eq_of_le] <;> simp <;> omega
    have hpsw : { (s.core c).psw with repp := true } = (s.core c).psw := by rw [← hrep]
    simp only [hlast, Core.iterated, Bool.not_false, hpsw]
    rfl
  · have hlc : (s.core c).sr.lc = 1 := BitVec.eq_of_toInt_eq h
    have hlast : (s.core c).lastIteration = true := by rw [Core.lastIteration, hlc]; rfl
    simp only [hlast, Core.iterated, hlc]
    rfl

/-- The codes of some syllables that REP may not precede (R76, R123), one of each kind. -/
def refusedCodes : List Nat := [0x9000, 0x9002, 0xA000, 0xC000, 0xC103, 0x1002, 0x1205, 0x3020, 0x4080, 0xD010, 0xE800]

theorem repBad_refused (s : State) (c steps syl : Nat) (h : syl ∈ refusedCodes) :
    repBad (s.insOf c syl steps) = some { tIllegal 3 with own := some syl } := by
  simp only [refusedCodes, List.mem_cons, List.not_mem_nil, or_false] at h
  rcases h with rfl | rfl | rfl | rfl | rfl | rfl | rfl | rfl | rfl | rfl | rfl <;> rfl

/-- Settles O15: the first issue of REP by `issue_iRep`, a refused syllable by the decode check of REP, an iteration by `iterates_pure`. -/
theorem repeatInstruction : Obligations.Repeat := by
  unfold Obligations.Repeat
  intro w a b n steps hw
  refine ⟨fun hn s c q st h => ?_, fun hn s c q st h => ?_, fun syl hs s c q _ _ => ?_, ?_, ?_, ?_, ?_, ?_⟩
  · rw [exec_rep_start q, issue_iRep_pos q st hw h hn]
  · rw [exec_rep_start q, issue_iRep_skips q st hw h hn]
  · have hlt : syl < 2 ^ 16 := (by decide : ∀ x ∈ refusedCodes, x < 2 ^ 16) syl hs
    have hbad := repBad_refused s c steps syl hs
    rw [exec_rep_start q, BitVec.toNat_ofNat, Nat.mod_eq_of_lt hlt]
    exact congrArg _ (issue_refused q (by simp only [placeCheck, iRep, hbad, Option.isSome_some, if_true]))
  · exact iterates_pure (g := iNop.sig) (f := fun _ => []) (fun _ _ => rfl) (by decide) (by decide) rfl (by decide) rfl
  · exact iterates_pure (g := iDup.sig) (fun _ _ => rfl) (by decide) (by simp [iDup, pureIns]) rfl (by simp [iDup, pureIns]) rfl
  · exact iterates_pure (g := iDrop.sig) (fun _ _ => rfl) (by decide) (by simp [iDrop, pureIns]) rfl (by simp [iDrop, pureIns]) rfl
  · exact iterates_pure (g := iSwap.sig) (fun _ _ => rfl) (by decide) (by simp [iSwap, pureIns]) rfl (by simp [iSwap, pureIns]) rfl
  · exact iterates_pure (g := iNip.sig) (fun _ _ => rfl) (by decide) (by simp [iNip, pureIns]) rfl (by simp [iNip, pureIns]) rfl

end Sys2Proof.Machine
end

section
/-! PROOFS. The special registers (R54-R56, R147, R188): what MFSR reads, the shadow that MTSR opens, and the statement O18. -/

namespace Sys2Proof.Machine

open Sys2Proof Sys2Proof.Safety

/-! ### Indices and operands -/

theorem fixVal_fixN {n : Nat} (h : n < 64) : fixVal (fixN n) = n := by
  change (BitVec.ofNat 64 n).toInt = n
  rw [BitVec.toInt_ofNat', Int.bmod_eq_of_le] <;> omega

theorem ty_fixN (n : Nat) : ty (fixN n) = tFIX := rfl

theorem run_check_srIndex (n c : Nat) (s : State) : (check [srIndex (fixN n)]).run c s = .ok () s :=
  run_check _ c s fun o ho => by
    rw [List.mem_singleton.1 ho]
    exact passes_fix (ty_fixN n) rfl _ _ _

/-- Outside a shadow no special register is read too soon (R148). -/
theorem run_shadowTrap {s : State} {c : Nat} (h : (s.core c).shadow = none) (dep : ShadowUpd → Bool) :
    (shadowTrap dep).run c s = .ok () s := by
  simp only [shadowTrap, run_bind, run_getCore, run_askS, h, run_pure]

theorem srReserved_false {i : Nat} (h : i < 36) : srReserved (i : Int) = false := by
  simp only [srReserved, Bool.or_eq_false_iff, decide_eq_false_iff_not]
  omega

theorem srReserved_true {i : Nat} (h : 36 ≤ i) : srReserved (i : Int) = true := by
  simp only [srReserved, Bool.or_eq_true, decide_eq_true_eq]
  omega

/-! ### MFSR -/

/-- A register that may be read (R55). -/
theorem run_srRead {s : State} {c i : Nat} {k : Core} (hi : i < 36) (hl : k.psw.holds (srReadLevel i) = true) :
    (srRead (i : Int) k).run c s = .ok (s.srWord c k i) s := by
  simp only [srRead, srReserved_false hi, Int.toNat_natCast, hl, Bool.not_true, Bool.false_eq_true, if_false, run_askS]

/-- A register that the current level may not read (R56). -/
theorem run_srRead_refused {s : State} {c i : Nat} {k : Core} (hi : i < 36) (hl : k.psw.holds (srReadLevel i) = false) :
    (srRead (i : Int) k).run c s = .error (.trap (tIllegal 2)) s := by
  simp only [srRead, srReserved_false hi, Int.toNat_natCast, hl, Bool.not_false, Bool.false_eq_true, if_false, if_true, run_raise]

/-- The reserved index `i` has been noted (R56). -/
def State.noteReserved (s : State) (c i : Nat) : State := (s.setFld f_CORE_ERR_RSVSR c 1).setFld f_CORE_ERR_RSVIDX c i

/-- A reserved index reads 0 and is noted (R56). -/
theorem run_srRead_reserved {s : State} {c i : Nat} {k : Core} (h1 : 36 ≤ i) (h2 : i < 64) :
    (srRead (i : Int) k).run c s = .ok (fixN 0) (s.noteReserved c i) := by
  have hx : (BitVec.ofInt 64 (i : Int)).toNat % 64 = i := by simp; omega
  simp only [srRead, srReserved_true h1, if_true, srNote, run_bind, run_updS, run_pure, hx]
  rfl

/-- The core as MFSR reads it: its index has been popped. -/
def Core.popped (k : Core) : Core := { k with stk := { k.stk with sp := va48 ((k.stk.sp : Int) + 1), regs := k.stk.regs.drop 1 } }

theorem run_iMfsr {s : State} {c i : Nat} (hs : (s.core c).shadow = none) (hi : i < 64) :
    (iMfsr.body [fixN i]).run c s =
      (srRead (i : Int) (s.core c).popped >>= fun v => pure { push := [v] } : M Out).run c s := by
  have ho : opd [fixN i] 0 = fixN i := rfl
  simp only [iMfsr, run_bind, ho, run_shadowTrap hs, run_check_srIndex, run_getCore, fixVal_fixN hi]
  rfl

section mfsr
variable {s : State} {c : Fin 256} {i : Nat} (q : Quiet s c) (st : Stacked s c [fixN i] 1 4)
include q

theorem ready_popped_psw : ((s.ready c iMfsr.sig.syl).core c).popped.psw = (s.core c).psw := by
  rw [quiet_ready_core q]
  rfl

theorem mfsr_passes : placeCheck (s.core c) iMfsr.sig (s.portOk c iMfsr.sig.port) = none :=
  placeCheck_quiet q _ _ rfl (.inl rfl) (.inl rfl)

include st

/-- What MFSR does with the index on the stack (R54). -/
theorem mfsr_program (hi : i < 64) : (iMfsr.body ((s.core c).opsOf iMfsr.sig)).run c (s.ready c iMfsr.sig.syl) =
    (srRead (i : Int) ((s.ready c iMfsr.sig.syl).core c).popped >>= fun v => pure { push := [v] } : M Out).run c
      (s.ready c iMfsr.sig.syl) := by
  rw [stacked_ops st _ rfl rfl]
  exact run_iMfsr (by rw [quiet_ready_core q]; exact q.noShadow) hi

/-- MFSR delivers a register that the core may read (R54, R55). -/
theorem mfsr_reads {w : TWord} (hi : i < 36) (hl : (s.core c).psw.holds (srReadLevel i) = true)
    (hw : s.srWord c (s.core c).popped i = w) : exec (.mfsr c) s = .next (after s c 0xC102 1 [w]) := by
  refine congrArg _ (issue_after s c iMfsr q [w] (mfsr_passes q) (stacked_fits st _ rfl rfl rfl rfl) ?_)
  rw [mfsr_program q st (by omega), run_bind_ok _ _ _ _ _ _ (run_srRead hi (by rwa [ready_popped_psw q])), run_pure, quiet_ready_core q, ← hw]
  rfl

/-- MFSR of a register that the core's level may not read is refused (R56). -/
theorem mfsr_refused (hi : i < 36) (hl : (s.core c).psw.holds (srReadLevel i) = false) :
    exec (.mfsr c) s = .next ((s.ready c 0xC102).takeTrap c (tIllegal 2) 0xC102) := by
  refine congrArg _ (issue_traps s c iMfsr q _ (mfsr_passes q) (stacked_fits st _ rfl rfl rfl rfl) ?_)
  rw [mfsr_program q st (by omega), run_bind_error _ _ _ _ _ _ (run_srRead_refused hi (by rwa [ready_popped_psw q]))]

/-- MFSR of a reserved index delivers 0 and notes it (R56). -/
theorem mfsr_reserved (h1 : 36 ≤ i) (h2 : i < 64) :
    exec (.mfsr c) s = .next (after (s.noteReserved c i) c 0xC102 1 [fixN 0]) := by
  refine congrArg _ (issue_leaves (u := s.noteReserved c i) (push := [fixN 0]) q (mfsr_passes q) (stacked_fits st _ rfl rfl rfl rfl) ?_ ?_ ?_)
  · rw [mfsr_program q st (by omega), run_bind_ok _ _ _ _ _ _ (run_srRead_reserved h1 h2)]
    rfl
  · exact ((unwatched_of_quiet q).setFld (by decide) _ _).setFld (by decide) _ _
  · exact ⟨_, rfl⟩

end mfsr

/-! ### MTSR -/

/-- What an MTSR of a register of any word prepares (R55). -/
theorem run_srPrepare_any {s : State} {c i : Nat} {v : TWord} (hi : i ∈ [20, 21, 22, 23]) :
    (srPrepare (i : Int) v 1).run c s = .ok (some (.sr (s.core c).psw.w i v)) s := by
  obtain ⟨hlt, hany, hlv⟩ :=
    (by decide : ∀ i ∈ [20, 21, 22, 23], i < 34 ∧ srAny i = true ∧ srWriteLevel i = 0) i hi
  have hn : ¬ ((i : Int) = 34 ∨ (i : Int) = 35) := by omega
  simp only [srPrepare, run_bind, run_getCore, srReserved_false (by omega : i < 36), hn, Int.toNat_natCast, hany, hlv, Psw.holds,
    beq_self_eq_true, Bool.true_or, Bool.not_true, Bool.false_eq_true, if_false, if_true, run_pure]

/-- What an MTSR of a FIX register prepares, or the trap that it raises (R55, R56). -/
theorem run_srPrepare_fix {s : State} {c i : Nat} {v : TWord} (hi : i < 34) (hany : srAny i = false)
    (hlv : (s.core c).psw.holds (srWriteLevel i) = true) (hv : ty v = tFIX) :
    (∀ d, srAccept (s.core c) i v.datum = .inr (some d, false) →
      (srPrepare (i : Int) v 1).run c s = .ok (some (.sr (s.core c).psw.w i (fixW d))) s) ∧
    (∀ t, srAccept (s.core c) i v.datum = .inl t → (srPrepare (i : Int) v 1).run c s = .error (.trap t) s) := by
  have hn : ¬ ((i : Int) = 34 ∨ (i : Int) = 35) := by omega
  have hc : (check [{ w := v, pos := 1, ok := ty v == tFIX }]).run c s = .ok () s := run_check _ c s fun o ho => by
    rw [List.mem_singleton.1 ho]
    exact passes_fix hv (by simp [hv]) _ _ _
  constructor <;> intro x hx <;>
    simp only [srPrepare, run_bind, run_getCore, srReserved_false (by omega : i < 36), hn, Int.toNat_natCast, hany, hlv, Bool.not_true,
      Bool.false_eq_true, if_false, hc, hx, run_pure, run_raise, Option.map]

/-- What an MTSR of a read-only register prepares: nothing, and it is noted (R56). -/
theorem run_srPrepare_readOnly {s : State} {c i : Nat} {v : TWord} (hi : i = 34 ∨ i = 35) :
    (srPrepare (i : Int) v 1).run c s = .ok none (s.setFld f_CORE_ERR_RSVSR c 1) := by
  have hn : (i : Int) = 34 ∨ (i : Int) = 35 := by omega
  simp only [srPrepare, run_bind, run_getCore, srReserved_false (by omega : i < 36), hn, srNote, run_updS, Bool.false_eq_true, if_false, if_true,
    run_pure]

/-- What MTSR does before its shadow opens: it empties the registers of a stack whose pointer changes, and the walk latch where
translation changes (R54, R229). -/
def mtsrFirst (u : Option ShadowUpd) : M Unit :=
  match u with
  | some (.sr _ 1 _) => spillAll
  | some (.sr _ 4 _) => cSpillFor 4 4
  | some (.sr _ i _) => if 13 ≤ i && i ≤ 17 then modMe Core.noLatch else pure ()
  | _ => pure ()

theorem iMtsr_body (l : List TWord) : iMtsr.body l = (do
    check [srIndex (opd l 0)]
    let u ← srPrepare (fixVal (opd l 0)) (opd l 1) 1
    mtsrFirst u
    pure { shadow := some (u.getD .none) }) := rfl

/-- The registers for which it does nothing. -/
theorem mtsrFirst_nothing (w : Bool) {i : Nat} (v : TWord) (h1 : i ≠ 1) (h4 : i ≠ 4) (ht : ¬ (13 ≤ i ∧ i ≤ 17)) :
    mtsrFirst (some (.sr w i v)) = pure () := by
  unfold mtsrFirst
  split <;> simp_all

theorem run_iMtsr {s t : State} {c i : Nat} {v : TWord} {u : Option ShadowUpd} (hi : i < 64)
    (h : (srPrepare (i : Int) v 1).run c s = .ok u t) (hu : mtsrFirst u = pure ()) :
    (iMtsr.body [fixN i, v]).run c s = .ok { shadow := some (u.getD .none) } t := by
  have ho : opd [fixN i, v] 0 = fixN i ∧ opd [fixN i, v] 1 = v := ⟨rfl, rfl⟩
  simp only [iMtsr_body, run_bind, ho, run_check_srIndex, fixVal_fixN hi, h, hu, run_pure]

theorem run_iMtsr_refused {s t : State} {c i : Nat} {v : TWord} {x : Stop} (hi : i < 64)
    (h : (srPrepare (i : Int) v 1).run c s = .error x t) : (iMtsr.body [fixN i, v]).run c s = .error x t := by
  have ho : opd [fixN i, v] 0 = fixN i ∧ opd [fixN i, v] 1 = v := ⟨rfl, rfl⟩
  simp only [iMtsr_body, run_bind, ho, run_check_srIndex, fixVal_fixN hi, h]

/-- The state of a core after an MTSR that opens a shadow with the change `u` (R147). -/
def shadowOpened (u : Core → ShadowUpd) (k : Core) : Core :=
  { retired k 0xC103 2 [] with shadow := some { remain := 2, sa := k.pc, syl := 0xC103, upd := u k } }

section mtsr
variable {s : State} {c : Fin 256} {i : Nat} {v : TWord} (q : Quiet s c) (st : Stacked s c [fixN i, v] 2 4)
include q

theorem mtsr_passes : placeCheck (s.core c) iMtsr.sig (s.portOk c iMtsr.sig.port) = none :=
  placeCheck_quiet q _ _ rfl (.inl rfl) (.inl rfl)

include st

/-- MTSR opens a shadow with the change that it has prepared, leaving `t` otherwise. -/
theorem mtsr_opens {t : State} {u : Option ShadowUpd} (hi : i < 64)
    (h : (srPrepare (i : Int) v 1).run c (s.ready c 0xC103) = .ok u (t.ready c 0xC103)) (hu : mtsrFirst u = pure ())
    (w : Unwatched t c (s.core c).psw) (hk : t.cores = s.cores) :
    exec (.mtsr c) s = .next (changed t c (shadowOpened fun _ => u.getD .none)) := by
  refine congrArg _ (issue_ready (u := t) (o := { shadow := some (u.getD .none) }) q (mtsr_passes q)
    (stacked_fits st _ rfl rfl rfl rfl) ?_ w ?_ rfl le_rfl rfl rfl)
  · rw [stacked_ops st _ rfl rfl]
    exact run_iMtsr hi h hu
  · have hc : (t.ready c iMtsr.sig.syl).core c = (s.ready c iMtsr.sig.syl).core c := by
      simp only [State.core, State.ready, State.modCore, hk]
    exact ⟨_, hc⟩

/-- MTSR raises what the check of its operand has found. -/
theorem mtsr_refused {x : Trap} (hi : i < 64)
    (h : (srPrepare (i : Int) v 1).run c (s.ready c 0xC103) = .error (.trap x) (s.ready c 0xC103)) :
    exec (.mtsr c) s = .next ((s.ready c 0xC103).takeTrap c x 0xC103) := by
  refine congrArg _ (issue_traps s c iMtsr q x (mtsr_passes q) (stacked_fits st _ rfl rfl rfl rfl) ?_)
  rw [stacked_ops st _ rfl rfl]
  exact run_iMtsr_refused hi h

end mtsr

/-- The core after an MTSR of register `i` with the word `x` (R147). -/
def mtsrOpened (i : Nat) (x : TWord) : Core → Core := shadowOpened fun k => .sr k.psw.w i x

/-- MTSR of a register that holds any word (R55). -/
theorem leads_mtsr_any {i : Nat} (v : TWord) (hi : i ∈ [20, 21, 22, 23]) :
    Leads .mtsr [fixN i, v] 2 4 (fun _ _ => True) (fun s c => changed s c (mtsrOpened i v)) := by
  intro s c q st _
  have hlt : i < 64 ∧ i ≠ 1 ∧ i ≠ 4 ∧ ¬ (13 ≤ i ∧ i ≤ 17) :=
    (by decide : ∀ i ∈ [20, 21, 22, 23], i < 64 ∧ i ≠ 1 ∧ i ≠ 4 ∧ ¬ (13 ≤ i ∧ i ≤ 17)) i hi
  obtain ⟨h64, h1, h4, ht⟩ := hlt
  rw [mtsr_opens q st h64 (run_srPrepare_any hi) (mtsrFirst_nothing _ _ h1 h4 ht) (unwatched_of_quiet q) rfl, quiet_ready_core q]
  exact congrArg _ (changed_congr rfl)

/-- A FIX register whose write is only checked before its shadow opens, at a level that `ok` gives. -/
structure FixReg (i : Nat) (ok : State → Nat → Prop) : Prop where
  lt : i < 34
  fix : srAny i = false
  level : ∀ (s : State) (c : Nat), ok s c → (s.core c).psw.holds (srWriteLevel i) = true
  sp : i ≠ 1
  csp : i ≠ 4
  walk : ¬ (13 ≤ i ∧ i ≤ 17)

/-- MTSR of a FIX register with a value that it accepts (R55, R56). -/
theorem leads_mtsr_fix {i : Nat} {v : TWord} {d : W64} {ok : State → Nat → Prop} (r : FixReg i ok) (hv : ty v = tFIX)
    (ha : ∀ k, srAccept k i v.datum = .inr (some d, false)) :
    Leads .mtsr [fixN i, v] 2 4 ok (fun s c => changed s c (mtsrOpened i (fixW d))) := by
  intro s c q st h
  have hp := (run_srPrepare_fix (s := s.ready c 0xC103) (c := c) r.lt r.fix
    (by rw [quiet_ready_core q]; exact r.level s c h) hv).1 d (ha _)
  rw [mtsr_opens q st (by have := r.lt; omega) hp (mtsrFirst_nothing _ _ r.sp r.csp r.walk) (unwatched_of_quiet q) rfl, quiet_ready_core q]
  exact congrArg _ (changed_congr rfl)

/-- MTSR of a FIX register with a value that it refuses (R188). -/
theorem raises_mtsr {i : Nat} {v : TWord} {x : Trap} {ok : State → Nat → Prop} (r : FixReg i ok) (hv : ty v = tFIX)
    (ha : ∀ k, srAccept k i v.datum = .inl x) : Raises .mtsr 0xC103 [fixN i, v] 2 4 ok x := by
  intro s c q st h
  exact mtsr_refused q st (by have := r.lt; omega) ((run_srPrepare_fix r.lt r.fix
    (by rw [quiet_ready_core q]; exact r.level s c h) hv).2 x (ha _))

/-- MTSR of a read-only register is noted and discarded (R56). -/
theorem leads_mtsr_readOnly {i : Nat} (v : TWord) (hi : i = 34 ∨ i = 35) :
    Leads .mtsr [fixN i, v] 2 4 (fun _ _ => True)
      (fun s c => changed (s.setFld f_CORE_ERR_RSVSR c 1) c (shadowOpened fun _ => .none)) := by
  intro s c q st _
  exact mtsr_opens (t := s.setFld f_CORE_ERR_RSVSR c 1) q st (by omega) (run_srPrepare_readOnly hi) rfl
    ((unwatched_of_quiet q).setFld (by decide) _ _) rfl

/-! ### The statement -/

theorem bits_low (d : W64) (n : Nat) : bits d n 0 = d.toNat % 2 ^ (n + 1) := by simp [bits]

theorem w64_bits_31 (d : W64) : w64 (bits d 31 0) = d &&& 0xFFFFFFFF := by
  apply BitVec.eq_of_toNat_eq
  rw [bits_low, w64, BitVec.toNat_ofNat, BitVec.toNat_and]
  have h : ((0xFFFFFFFF : W64)).toNat = 2 ^ 32 - 1 := rfl
  rw [h, Nat.and_two_pow_sub_one_eq_mod]
  omega

theorem w64_bits_47 {d : W64} (h : d.toNat < 2 ^ 48) : w64 (bits d 47 0) = d := by
  apply BitVec.eq_of_toNat_eq
  rw [bits_low, w64, BitVec.toNat_ofNat, Nat.mod_eq_of_lt (h : _ < 2 ^ (47 + 1))]
  omega

/-- SP counts the index that MFSR has popped no more (R54). -/
theorem srWord_sp (s : State) (c : Nat) (k : Core) :
    s.srWord c k.popped 1 = fixN (va48 ((k.stk.sp : Int) + 1) + (k.stk.regs.length - 1) * 2 ^ 48) := by
  simp only [State.srWord, Core.popped, Core.occN, List.length_drop]

theorem holds_supervisor {p : Psw} (hl : p.l = true) : p.holds 1 = true := by simp [Psw.holds, hl]

theorem holds_backstage {p : Psw} (hl : p.l = true) (hw : p.w = true) : p.holds 2 = true := by simp [Psw.holds, hl, hw]

theorem holds_user {p : Psw} {lv : Nat} (hl : p.l = false) (h : lv ≠ 0) : p.holds lv = false := by simp [Psw.holds, hl, h]

theorem fixReg_any {i : Nat} (h : i ∈ [2, 3, 5, 6, 7, 8, 12, 18, 19, 24, 25, 26]) : FixReg i (fun _ _ => True) := by
  obtain ⟨h1, h2, h3, h4, h5, h6⟩ := (by decide : ∀ i ∈ [2, 3, 5, 6, 7, 8, 12, 18, 19, 24, 25, 26],
    i < 34 ∧ srAny i = false ∧ srWriteLevel i = 0 ∧ i ≠ 1 ∧ i ≠ 4 ∧ ¬ (13 ≤ i ∧ i ≤ 17)) i h
  exact ⟨h1, h2, fun _ _ _ => by rw [h3]; rfl, h4, h5, h6⟩

theorem fixReg_supervisor {i : Nat} (h : i ∈ [9, 10, 11]) : FixReg i (fun s c => (s.core c).psw.l = true) := by
  obtain ⟨h1, h2, h3, h4, h5, h6⟩ := (by decide : ∀ i ∈ [9, 10, 11],
    i < 34 ∧ srAny i = false ∧ srWriteLevel i = 1 ∧ i ≠ 1 ∧ i ≠ 4 ∧ ¬ (13 ≤ i ∧ i ≤ 17)) i h
  exact ⟨h1, h2, fun _ _ hl => by rw [h3]; exact holds_supervisor hl, h4, h5, h6⟩

/-- Settles O18: MFSR by `mfsr_reads`, `mfsr_reserved` and `mfsr_refused`, MTSR by `leads_mtsr_any`, `leads_mtsr_fix`, `raises_mtsr` and
`leads_mtsr_readOnly`; what is left is the table of the registers. -/
theorem specialRegisters : Obligations.SpecialRegisters := by
  unfold Obligations.SpecialRegisters
  refine ⟨fun s c i w q st => ⟨fun h => ?_, fun hl h => ?_, fun hl hw h => ?_, fun h1 h2 => mfsr_reserved q st h1 h2, fun hl h => ?_⟩,
    fun i v hv => ⟨fun h => ?_, fun h => leads_mtsr_any v h, fun h => ?_, fun h h8 h48 => ?_, fun h h8 => ?_, fun h h6 => ?_,
      fun h => leads_mtsr_readOnly v h⟩⟩
  · simp only [List.mem_cons, Prod.mk.injEq, List.not_mem_nil, or_false] at h
    repeat
      obtain ⟨rfl, rfl⟩ | h := h
      · exact mfsr_reads q st (by decide) rfl rfl
    obtain ⟨rfl, rfl⟩ := h
    exact mfsr_reads q st (by decide) rfl (srWord_sp s c _)
  · simp only [List.mem_cons, Prod.mk.injEq, List.not_mem_nil, or_false] at h
    repeat
      obtain ⟨rfl, rfl⟩ | h := h
      · exact mfsr_reads q st (by decide) (holds_supervisor hl) rfl
    obtain ⟨rfl, rfl⟩ := h
    exact mfsr_reads q st (by decide) (holds_supervisor hl) rfl
  · simp only [List.mem_cons, Prod.mk.injEq, List.not_mem_nil, or_false] at h
    rcases h with ⟨rfl, rfl⟩ | ⟨rfl, rfl⟩ <;> exact mfsr_reads q st (by decide) (holds_backstage hl hw) rfl
  · have hlv : srReadLevel i ≠ 0 := by
      unfold srReadLevel
      split
      · decide
      · next h16 =>
        rw [if_pos (by simp at h16 ⊢; omega)]
        decide
    exact mfsr_refused q st (by omega) (holds_user hl hlv)
  · have ha : ∀ k, srAccept k i v.datum = .inr (some v.datum, false) := by
      simp only [List.mem_cons, List.not_mem_nil, or_false] at h
      rcases h with rfl | rfl | rfl | rfl | rfl | rfl | rfl | rfl | rfl | rfl <;> exact fun _ => rfl
    exact leads_mtsr_fix (fixReg_any (List.Sublist.subset (by decide) h)) hv ha
  · have ha : ∀ k, srAccept k i v.datum = .inr (some (v.datum &&& 0xFFFFFFFF), false) := by
      rw [← w64_bits_31]
      rcases h with rfl | rfl <;> exact fun _ => rfl
    exact leads_mtsr_fix (fixReg_any (by rcases h with rfl | rfl <;> decide)) hv ha
  · subst h
    have ha : ∀ k, srAccept k 9 v.datum = .inr (some v.datum, false) := fun k => by
      simp only [srAccept, bits_low _ 7, h8, ne_eq, not_true, if_false, w64_bits_47 h48]
    exact leads_mtsr_fix (fixReg_supervisor (by decide)) hv ha
  · subst h
    have ha : ∀ k, srAccept k 9 v.datum = .inl { vec := 5, sub := 3 } := fun k => by
      simp only [srAccept, bits_low, ne_eq, h8, not_false_eq_true, if_true]
    exact raises_mtsr (fixReg_supervisor (by decide)) hv ha
  · have ha : ∀ k, srAccept k i v.datum = .inl { vec := 5, sub := 2 } := fun k => by
      rcases h with rfl | rfl <;> simp only [srAccept, bits_low, ne_eq, h6, not_false_eq_true, if_true]
    exact raises_mtsr (fixReg_supervisor (by rcases h with rfl | rfl <;> decide)) hv ha

end Sys2Proof.Machine
end

section
/-! PROOFS. I/O (R64, R438, R548): what IN, INB, OUT, OUTB and a register write do at an io address, which they refuse, and the statement
O17. -/

namespace Sys2Proof.Machine

open Sys2Proof Sys2Proof.Safety

/-! ### The access -/

/-- An io address that names a register the core may access (R64). -/
theorem run_ioCheckAt {s : State} {c n : Nat} {a : Int} {write : Bool} {row : RegRow} {i : Nat} (ha : a = n) (hn : n < 2 ^ 32)
    (h : s.ioTarget (some c) (s.core c).psw.w (s.core c).psw.l write n = .inr (row, i)) :
    (ioCheckAt a write).run c s = .ok (row, i) s := by
  subst ha
  have hr : ¬ ((n : Int) < 0 ∨ (2 : Int) ^ 32 ≤ n) := by omega
  simp only [ioCheckAt, hr, if_false, run_bind, run_getCore, run_askS, Int.toNat_natCast, h, run_pure]

/-- An io address that is no 32-bit number (R64). -/
theorem run_ioCheckAt_range {s : State} {c : Nat} {a : Int} {write : Bool} (h : ¬ (0 ≤ a ∧ a < 2 ^ 32)) :
    (ioCheckAt a write).run c s = .error (.trap (tBus 1 (BitVec.ofInt 64 a).toNat)) s := by
  have hr : a < 0 ∨ (2 : Int) ^ 32 ≤ a := by omega
  simp only [ioCheckAt, hr, if_true, run_raise]

/-- An io address that the core may not access, or that names no register (R64). -/
theorem run_ioCheckAt_refused {s : State} {c : Nat} {a : Int} {write : Bool} {e : IoRef} (h0 : 0 ≤ a) (h1 : a < 2 ^ 32)
    (h : s.ioTarget (some c) (s.core c).psw.w (s.core c).psw.l write a.toNat = .inl e) :
    (ioCheckAt a write).run c s = .error (.trap (ioTrap e a.toNat)) s := by
  have hr : ¬ (a < 0 ∨ (2 : Int) ^ 32 ≤ a) := by omega
  simp only [ioCheckAt, hr, if_false, run_bind, run_getCore, run_askS, h, run_raise]

theorem run_ioRead {s : State} {c : Nat} {a : Int} {row : RegRow} {i : Nat} (h : (ioCheckAt a false).run c s = .ok (row, i) s)
    (hf : (s.core c).mem.fence = false) : (ioRead a).run c s = .ok (s.ioValue row i (s.core c).psw.w) s := by
  simp only [ioRead, run_bind, h, run_meetFence hf, run_getCore, run_askS]

theorem run_ioRead_refused {s : State} {c : Nat} {a : Int} {x : Stop} (h : (ioCheckAt a false).run c s = .error x s) :
    (ioRead a).run c s = .error x s := by
  simp only [ioRead, run_bind, h]

/-- A core without queued stores waits for none. -/
theorem run_drainThose {s : State} {c : Nat} (h : (s.core c).mem.sq = []) (p : QStore → Bool) : (drainThose p).run c s = .ok () s := by
  simp only [drainThose, run_bind, run_me, run_get, h, List.any_nil, Bool.false_eq_true, if_false, run_pure]

theorem run_ioWriteAt {s : State} {c : Nat} {a : Int} {row : RegRow} {i : Nat} (v : W64) (h : (ioCheckAt a true).run c s = .ok (row, i) s)
    (hf : (s.core c).mem.fence = false) (hq : (s.core c).mem.sq = []) (hr : s.mode mREPLAY = false) :
    (ioWriteAt a v).run c s = .ok () (s.ioWrite (some c) (s.core c).psw.w row i v) := by
  simp only [ioWriteAt, run_bind, h, run_meetFence hf, run_getCore, run_drainThose hq, run_updS, hr, Bool.false_and, Bool.false_eq_true, if_false]

/-- A value from outside is neither logged nor taken from a log (R438). -/
theorem run_ndval {s : State} {c : Nat} (sub : Nat) (v : W64) (hr : s.mode mREPLAY = false) (hrec : s.recording = false) :
    (ndval sub v []).run c s = .ok (v, []) s := by
  simp only [ndval, run_bind, run_askS, hr, Bool.false_eq_true, if_false, run_pure, run_updS, State.note, hrec]

/-- The state with the chunk of core c marked: it ends as UNSAFE (R434). -/
def State.risky (s : State) (c : Nat) : State := s.modChunk c (fun k => { k with isUnsafe := true })

theorem risky_eq {c : Nat} (hc : c < 256) (s : State) :
    s.risky c = s.modCore c (fun k => { k with chunk := { k.chunk with isUnsafe := true } }) := if_pos hc

theorem run_markUnsafe (c : Nat) (s : State) : markUnsafe.run c s = .ok () (s.risky c) := rfl

theorem risky_ready {c : Nat} (hc : c < 256) (s : State) (n : Nat) : (s.ready c n).risky c = (s.risky c).ready c n := by
  rw [risky_eq hc, risky_eq hc, State.ready, State.ready, modCore_modCore, modCore_modCore]

/-- Marking a chunk changes nothing that follows a retirement. -/
theorem Unwatched.risky {t : State} {c : Nat} {p : Psw} (h : Unwatched t c p) {d : Nat} (hd : d < 256) : Unwatched (t.risky d) c p := by
  rw [risky_eq hd]
  exact h.modCore d _

/-! ### The programs of IN, INB, OUT and OUTB -/

/-- A value read at an io address, as IN and INB end. -/
theorem run_ioEnd {s : State} {c : Nat} {p : Psw} (hc : c < 256) (w : Unwatched s c p) (v : W64) :
    (do markUnsafe
        let (v, _) ← ndval 2 v []
        pure { push := [fixW v] } : M Out).run c s = .ok { push := [fixW v] } (s.risky c) := by
  have h := run_ndval (c := c) 2 v (w.risky hc).noReplay (w.risky hc).noRecord
  simp only [run_bind, run_markUnsafe, h, run_pure]

theorem run_iIn {s : State} {c : Nat} {p : Psw} {a : TWord} {v : W64} (hc : c < 256) (w : Unwatched s c p) (ha : ty a = tFIX)
    (h : (ioRead (fixVal a)).run c s = .ok v s) : (iIn.body [a]).run c s = .ok { push := [fixW v] } (s.risky c) := by
  have ho : opd [a] 0 = a := rfl
  simp only [iIn, run_bind _ _ c s, ho, run_check_fix ha, h]
  exact run_ioEnd hc w v

theorem run_iIn_refused {s : State} {c : Nat} {a : TWord} {x : Stop} (ha : ty a = tFIX) (h : (ioRead (fixVal a)).run c s = .error x s) :
    (iIn.body [a]).run c s = .error x s := by
  have ho : opd [a] 0 = a := rfl
  simp only [iIn, run_bind, ho, run_check_fix ha, h]

theorem run_iInb {s : State} {c : Nat} {p : Psw} {n : Nat} {v : W64} (hc : c < 256) (w : Unwatched s c p)
    (h : (ioRead (ioBased (s.core c) n)).run c s = .ok v s) : ((iInb n).body []).run c s = .ok { push := [fixW v] } (s.risky c) := by
  simp only [iInb, run_bind _ _ c s, run_getCore, h]
  exact run_ioEnd hc w v

theorem run_iOut {s t : State} {c : Nat} {a v : TWord} (ha : ty a = tFIX) (hv : Sound v)
    (h : (ioWriteAt (fixVal a) v.datum).run c s = .ok () t) : (iOut.body [a, v]).run c s = .ok {} (t.risky c) := by
  have ho : opd [a, v] 0 = a ∧ opd [a, v] 1 = v := ⟨rfl, rfl⟩
  have hc : (check [{ w := a, pos := 0, ok := ty a == tFIX }, { w := v, pos := 1 }]).run c s = .ok () s := by
    refine run_check _ c s fun o hm => ?_
    rcases List.mem_cons.1 hm with rfl | hm
    · exact passes_fix ha (by simp [ha]) _ _ _
    · rw [List.mem_singleton.1 hm]
      exact passes_sound hv _ _ _ _ _
  simp only [iOut, run_bind, ho, hc, h, run_markUnsafe, run_pure]

theorem run_iOutb {s t : State} {c n : Nat} {v : TWord} (hv : Sound v)
    (h : (ioWriteAt (ioBased (s.core c) n) v.datum).run c s = .ok () t) : ((iOutb n).body [v]).run c s = .ok {} (t.risky c) := by
  have ho : opd [v] 0 = v := rfl
  have hc : (check (plain 0 [v])).run c s = .ok () s := run_check _ c s fun o hm => by
    rw [List.mem_singleton.1 hm]
    exact passes_sound hv _ _ _ _ _
  simp only [iOutb, run_bind, ho, hc, run_getCore, h, run_markUnsafe, run_pure]

/-! ### The instructions in a quiet core -/

theorem fixVal_small {a : TWord} (h : a.datum.toNat < 2 ^ 32) : fixVal a = (a.datum.toNat : Int) := by
  have h2 : 2 * a.datum.toNat < 2 ^ 64 := by omega
  rw [fixVal, BitVec.toInt_eq_toNat_of_lt h2]

/-- Which register an io address names depends on the part alone (R2). -/
theorem ioTarget_ready (s : State) (c n : Nat) (o : Option Nat) (back sup write : Bool) (x : Nat) :
    (s.ready c n).ioTarget o back sup write x = s.ioTarget o back sup write x := by
  have hc : (s.ready c n).nClusters = s.nClusters := rfl
  have hp : (s.ready c n).nPorts = s.nPorts := rfl
  simp only [State.ioTarget, State.ioFind, hc, hp]

section quiet
variable {s : State} {c : Fin 256} {row : RegRow} {i : Nat} (q : Quiet s c)
include q

/-- A core that has noted its syllable accesses the same addresses. -/
theorem ready_ioCheckAt {n x : Nat} {a : Int} {write : Bool} (ha : a = x) (hx : x < 2 ^ 32)
    (h : s.ioTarget (some c) (s.core c).psw.w (s.core c).psw.l write x = .inr (row, i)) :
    (ioCheckAt a write).run c (s.ready c n) = .ok (row, i) (s.ready c n) :=
  run_ioCheckAt ha hx (by rw [ioTarget_ready, quiet_ready_core q]; exact h)

theorem ready_ioRead {n x : Nat} {a : Int} (hf : (s.core c).mem.fence = false) (ha : a = x) (hx : x < 2 ^ 32)
    (h : s.ioTarget (some c) (s.core c).psw.w (s.core c).psw.l false x = .inr (row, i)) :
    (ioRead a).run c (s.ready c n) = .ok ((s.ready c n).ioValue row i (s.core c).psw.w) (s.ready c n) := by
  rw [run_ioRead (ready_ioCheckAt q ha hx h) (by rw [quiet_ready_core q]; exact hf), quiet_ready_core q]

theorem ready_ioWriteAt {n x : Nat} {a : Int} (v : W64) (hf : (s.core c).mem.fence = false) (hq : (s.core c).mem.sq = []) (ha : a = x)
    (hx : x < 2 ^ 32) (h : s.ioTarget (some c) (s.core c).psw.w (s.core c).psw.l true x = .inr (row, i)) :
    (ioWriteAt a v).run c (s.ready c n) = .ok () ((s.ready c n).ioWrite (some c) (s.core c).psw.w row i v) := by
  rw [run_ioWriteAt v (ready_ioCheckAt q ha hx h) (by rw [quiet_ready_core q]; exact hf) (by rw [quiet_ready_core q]; exact hq) q.noReplay,
    quiet_ready_core q]

/-- A syllable that marks the core's chunk and otherwise leaves `u`: it pushes its words and retires there. -/
theorem issue_risky {I : Ins} {push ops : List TWord} {takes : Nat} {u : State} (st : Stacked s c ops takes 4)
    (he : I.sig.easy = true) (hp : I.sig.priv = 0) (hr : I.sig.rd = ops.length) (ht : I.sig.takes = takes) (hm : I.sig.micro = true)
    (hb : (I.body ops).run c (s.ready c I.sig.syl) = .ok { push := push } ((u.ready c I.sig.syl).risky c))
    (w : Unwatched u c (s.core c).psw) (hk : (u.ready c I.sig.syl).core c = (s.ready c I.sig.syl).core c) :
    issue c I s = after (u.risky c) c I.sig.syl takes push := by
  have hlt : (c : Nat) < (u.ready c I.sig.syl).cores.length :=
    core_lt _ _ (by rw [hk, quiet_ready_core q]; simp [quiet_run q])
  have he' := he
  simp only [Sig.easy, Bool.and_eq_true, Option.isNone_iff_eq_none, List.isEmpty_iff] at he'
  obtain ⟨⟨⟨hbad, hport⟩, -⟩, -⟩ := he'
  subst ht
  refine issue_leaves (u := u.risky c) q (placeCheck_quiet q _ _ hbad (.inl hport) (.inl hp)) (stacked_fits st _ he hr rfl (by rw [hm]; rfl)) ?_
    (w.risky c.isLt) ?_
  · rw [stacked_ops st _ he hr, hb, risky_ready c.isLt]
  · rw [← risky_ready c.isLt, risky_eq c.isLt, core_modCore _ _ _ hlt, hk]
    exact ⟨_, rfl⟩

/-- IN delivers what the register reads as (R64, R438). -/
theorem exec_in {a : TWord} (hf : (s.core c).mem.fence = false) (st : Stacked s c [a] 1 4) (ha : ty a = tFIX) (hx : a.datum.toNat < 2 ^ 32)
    (h : s.ioTarget (some c) (s.core c).psw.w (s.core c).psw.l false a.datum.toNat = .inr (row, i)) :
    exec (.in c) s = .next (after (s.risky c) c 0xB000 1 [fixW ((s.ready c 0xB000).ioValue row i (s.core c).psw.w)]) :=
  congrArg _ (issue_risky (I := iIn) q st rfl rfl rfl rfl rfl
    (run_iIn c.isLt ((unwatched_of_quiet q).ready _) ha (ready_ioRead q hf (fixVal_small hx) hx h)) (unwatched_of_quiet q) rfl)

/-- INB delivers what the register reads as (R64, R438). -/
theorem exec_inb {n : BitVec 10} (hf : (s.core c).mem.fence = false) (st : Stacked s c [] 0 4)
    (hx : bits (s.core c).sr.iob 31 0 + n.toNat < 2 ^ 32)
    (h : s.ioTarget (some c) (s.core c).psw.w (s.core c).psw.l false (bits (s.core c).sr.iob 31 0 + n.toNat) = .inr (row, i)) :
    exec (.inb c n) s = .next (after (s.risky c) c (0xB800 + n.toNat) 0
      [fixW ((s.ready c (0xB800 + n.toNat)).ioValue row i (s.core c).psw.w)]) :=
  congrArg _ (issue_risky (I := iInb n.toNat) q st rfl rfl rfl rfl rfl
    (run_iInb c.isLt ((unwatched_of_quiet q).ready _) (ready_ioRead q hf (by rw [quiet_ready_core q]; rfl) hx h)) (unwatched_of_quiet q) rfl)

/-- A core that has noted its syllable, and that the syllable's program has left alone, has it noted. -/
theorem ready_of_kept {u : State} {n : Nat} (hk : u.core c = (s.ready c n).core c) : u.ready c n = u :=
  modCore_id u c _ (by rw [hk, quiet_ready_core q])

section write
variable {v : TWord} {u : State} (hv : Sound v) (hf : (s.core c).mem.fence = false) (hq : (s.core c).mem.sq = [])
  (w : Unwatched u c (s.core c).psw)
include hv hf hq w

/-- OUT leaves the state `u` that the register's write leaves (R64). -/
theorem exec_out {a : TWord} (hk : (u.ready c 0xB001).core c = (s.ready c 0xB001).core c)
    (hu : (s.ready c 0xB001).ioWrite (some c) (s.core c).psw.w row i v.datum = u.ready c 0xB001)
    (st : Stacked s c [a, v] 2 4) (ha : ty a = tFIX) (hx : a.datum.toNat < 2 ^ 32)
    (h : s.ioTarget (some c) (s.core c).psw.w (s.core c).psw.l true a.datum.toNat = .inr (row, i)) :
    exec (.out c) s = .next (after (u.risky c) c 0xB001 2 []) :=
  congrArg _ (issue_risky (I := iOut) q st rfl rfl rfl rfl rfl
    (run_iOut ha hv ((ready_ioWriteAt q v.datum hf hq (fixVal_small hx) hx h).trans (congrArg _ hu))) w hk)

/-- OUTB leaves the state `u` that the register's write leaves (R64). -/
theorem exec_outb {n : BitVec 10} (hk : (u.ready c (0xBC00 + n.toNat)).core c = (s.ready c (0xBC00 + n.toNat)).core c)
    (hu : (s.ready c (0xBC00 + n.toNat)).ioWrite (some c) (s.core c).psw.w row i v.datum = u.ready c (0xBC00 + n.toNat))
    (st : Stacked s c [v] 1 4) (hx : bits (s.core c).sr.iob 31 0 + n.toNat < 2 ^ 32)
    (h : s.ioTarget (some c) (s.core c).psw.w (s.core c).psw.l true (bits (s.core c).sr.iob 31 0 + n.toNat) = .inr (row, i)) :
    exec (.outb c n) s = .next (after (u.risky c) c (0xBC00 + n.toNat) 1 []) :=
  congrArg _ (issue_risky (I := iOutb n.toNat) q st rfl rfl rfl rfl rfl
    (run_iOutb hv ((ready_ioWriteAt q v.datum hf hq (by rw [quiet_ready_core q]; rfl) hx h).trans (congrArg _ hu))) w hk)

end write

end quiet

/-! ### Register writes -/

/-- A write to an address that names no register, or one that may not be written, changes nothing (R9). -/
theorem exec_registerWrite (c : Fin 256) (w : Bool) (ad : BitVec 32) (x : BitVec 64) (s : State) :
    (∀ row i, s.ioTarget (some c) w true true ad.toNat = .inr (row, i) →
      exec (.registerWrite c w ad x) s = .next (s.ioWrite (some c) w row i x)) ∧
    (∀ e, s.ioTarget (some c) w true true ad.toNat = .inl e → exec (.registerWrite c w ad x) s = .next s) := by
  change (∀ row i, _ → execRegisterWrite c w ad x s = _) ∧ (∀ e, _ → execRegisterWrite c w ad x s = _)
  constructor
  · intro row i h
    simp only [execRegisterWrite, h]
  · intro e h
    simp only [execRegisterWrite, h]

/-- The registers of which the statement gives the value left in full. -/
def plainRegs : List Reg := [.MATCH_CTL, .LOOK_CTL, .TOUR_INQT, .CORE_ERR]

theorem plainRegs_unwatched {r : Reg} (h : r ∈ plainRegs) : r ∉ watchRegs := (by decide : ∀ r ∈ plainRegs, r ∉ watchRegs) r h

/-- They read as they stand. -/
theorem ioValue_plain {row : RegRow} (h : row.reg ∈ plainRegs) (s t : State) (i : Nat) (back : Bool) (he : t.regs = s.regs) :
    t.ioValue row i back = s.ioValue row i back := by
  have hc : ∀ u : State, u.ioComputed back row.reg i = none := by
    intro u
    simp only [plainRegs, List.mem_cons, List.not_mem_nil, or_false] at h
    rcases h with h | h | h | h <;> rw [h] <;> rfl
  simp only [State.ioValue, hc, State.reg, he]

/-- A write of no reserved value has no effect beside the fields (R7, R548). -/
theorem ioWrite_plain {row : RegRow} (h : row.reg ∈ plainRegs) (s : State) (c : Option Nat) (back : Bool) (i : Nat) (v : W64)
    (hv : (rowWrite row back (s.reg row.reg i) v).2 = false) :
    s.ioWrite c back row i v = s.setReg row.reg i (rowWrite row back (s.reg row.reg i) v).1 := by
  have hw : ∀ u : State, u.ioWritten c back row i (s.reg row.reg i) v = u := by
    intro u
    have e : u.coreWritten back row.reg i (s.reg row.reg i) v = u ∧ u.linkWritten c row.reg i (s.reg row.reg i) v = u ∧
        u.devWritten back row.reg i (s.reg row.reg i) v = u := by
      simp only [plainRegs, List.mem_cons, List.not_mem_nil, or_false] at h
      rcases h with h | h | h | h <;> rw [h] <;> exact ⟨rfl, rfl, rfl⟩
    obtain ⟨e1, e2, e3⟩ := e
    unfold State.ioWritten
    cases row.unit <;> simp only [e1, e2, e3, ite_self]
  simp only [State.ioWrite, hv, Bool.false_eq_true, if_false, hw]

/-! ### The statement -/

/-- Settles O17: the accesses by `exec_in`, `exec_inb`, `exec_out`, `exec_outb` and `exec_registerWrite`, the refusals by the check of R64. -/
theorem inputOutput : Obligations.InputOutput := by
  unfold Obligations.InputOutput
  refine ⟨fun s c a v n row i q hv hf hq => ⟨?_, ?_, ?_, ?_, ?_, ?_⟩, fun a e ha => ⟨fun hr => ?_, fun h0 h1 => ?_⟩⟩
  · exact fun ⟨h, hx⟩ ha st => exec_in q hf st ha hx h
  · exact fun ⟨h, hx⟩ st => exec_inb q hf st hx h
  · rintro ⟨h, hx⟩ ha st ⟨hquiet, hcore⟩
    have hr := ready_of_kept q hcore
    have hw := unwatched_of_quiet hquiet
    rw [hcore, quiet_ready_core q] at hw
    exact exec_out q hv hf hq hw (by rw [hr, hcore]) hr.symm st ha hx h
  · rintro ⟨h, hx⟩ st ⟨hquiet, hcore⟩
    have hr := ready_of_kept q hcore
    have hw := unwatched_of_quiet hquiet
    rw [hcore, quiet_ready_core q] at hw
    exact exec_outb q hv hf hq hw (by rw [hr, hcore]) hr.symm st hx h
  · exact fun w ad x e => ⟨(exec_registerWrite c w ad x s).1 row i, (exec_registerWrite c w ad x s).2 e⟩
  · intro hreg
    have hp : row.reg ∈ plainRegs := by simpa [plainRegs] using hreg
    refine ⟨fun syl => ioValue_plain hp s _ i _ rfl, fun hv2 => ?_, fun w ad x h hv2 => ?_⟩
    · have hu : ∀ n, (s.ready c n).ioWrite (some c) (s.core c).psw.w row i v.datum =
          (s.setReg row.reg i (rowWrite row (s.core c).psw.w (s.reg row.reg i) v.datum).1).ready c n :=
        fun n => ioWrite_plain hp (s.ready c n) _ _ _ _ hv2
      have hw := (unwatched_of_quiet q).setReg (plainRegs_unwatched hp) i (rowWrite row (s.core c).psw.w (s.reg row.reg i) v.datum).1
      exact ⟨fun ⟨h, hx⟩ ha st => exec_out q hv hf hq hw rfl (hu _) st ha hx h,
        fun ⟨h, hx⟩ st => exec_outb q hv hf hq hw rfl (hu _) st hx h⟩
    · rw [(exec_registerWrite c w ad x s).1 row i h, ioWrite_plain hp s _ _ _ _ hv2]
  · refine raises_of iIn (fun _ _ => rfl) rfl rfl rfl rfl rfl rfl fun s c _ _ => run_iIn_refused ha ?_
    have h := run_ioRead_refused (run_ioCheckAt_range (s := s.ready c 0xB000) (c := c) (write := false) hr)
    rwa [BitVec.ofInt_toInt] at h
  · refine raises_of iIn (fun _ _ => rfl) rfl rfl rfl rfl rfl rfl fun s c q h => run_iIn_refused ha ?_
    have hx : a.datum.toInt.toNat = a.datum.toNat ∧ a.datum.toNat < 2 ^ 48 := by
      have := BitVec.toInt_eq_toNat_cond a.datum
      split at this <;> omega
    have ht := run_ioRead_refused (run_ioCheckAt_refused (s := s.ready c 0xB000) (c := c) (write := false) (e := e) h0 h1
      (by rw [ioTarget_ready, quiet_ready_core q, hx.1]; exact h))
    rw [hx.1] at ht
    refine ht.trans ?_
    cases e <;> simp only [ioTrap, Nat.mod_eq_of_lt hx.2] <;> rfl

end Sys2Proof.Machine
end

section
/-! PROOFS. Generic operations (R44, R88, R168): a dispatch entry that a loaded image redefines, and the statement O4. -/

namespace Sys2Proof.Machine

open Sys2Proof Sys2Proof.Safety

/-- The core of `invalidEntryCore` with two FLO words on its operand stack. -/
def twoFloCore : Core := { invalidEntryCore with stk := { invalidEntryCore.stk with regs := [floN 0, floN 0] } }

/-- The device in Run with that core as core 0 and an image loaded in its cluster that redefines the entry of ADD for FLO × FLO (R167): it
leads to a routine in patch RAM that is one micro-word and only ends. -/
def redefinedAdd : State :=
  ({ State.reset with status := 4, cores := State.reset.cores.set 0 twoFloCore } : State).modCluster 0
    fun k => k.modBanks fun _ => { dstore := [(9, 0x8000 + 0x2803)], ustore := [(0x2803, 0xA09 * 2 ^ 12 + 0x900)]
                                   nstore := [(0xA09, 7 * 2 ^ 105 + 6 * 2 ^ 118 + 6 * 2 ^ 114)] }

theorem redefinedAdd_quiet : Quiet redefinedAdd 0 where
  issues := by decide
  remote := rfl
  noParked := rfl
  noReplay := by decide
  noRecord := by decide
  noTrace := by decide
  noStrict := by decide
  noScene := rfl
  noSlot := rfl
  noLoop := rfl
  noStep := rfl
  noRep := rfl
  noPend := rfl
  noWins := rfl
  noNewWins := rfl
  noSpills := rfl
  noBuf := rfl
  noShadow := rfl
  noMicro := rfl
  noMiss := rfl
  noSingle := rfl
  noTrap := by decide
  fetch := ⟨{ pa := 64, mt := 0, tte := none }, by decide, by decide, by decide⟩

theorem redefinedAdd_stacked : Stacked redefinedAdd 0 [floN 0, floN 0] 2 0 where
  top := rfl
  room := by decide
  deep := .inr (by decide)

/-- The model runs the image's routine: as it starts, it draws the free value of its registers. -/
theorem redefinedAdd_runs : drawnIn (exec (.add 0) redefinedAdd) = 1 := by decide

/-- Refutes O4: the third part has ADD of two FLO words leave their binary64 sum whatever control store the cluster has loaded. The model
enters the routine of an image that redefines the dispatch entry of FLO × FLO (R44, R168), and ends with what that routine leaves. -/
theorem not_genericArithmetic : ¬ Obligations.GenericArithmetic := by
  unfold Obligations.GenericArithmetic
  rintro ⟨-, -, hflo⟩
  obtain ⟨hadd, -⟩ := hflo (floN 0) (floN 0) (.inl ⟨rfl, .inl rfl⟩)
  have hsum := hadd redefinedAdd 0 redefinedAdd_quiet redefinedAdd_stacked (by unfold MicroRoom; decide)
  have hdrawn : drawnIn (exec (.add 0) redefinedAdd) = 0 := by rw [hsum]; rfl
  rw [redefinedAdd_runs] at hdrawn
  exact absurd hdrawn (by decide)

end Sys2Proof.Machine
end

section
/-! PROOFS. Instructions that only check their operands and compute a word: the fixnum-only and float-only instructions (R93), comparisons
and predicates (R94, R95), and the statements O5 and O6. -/

namespace Sys2Proof.Machine

open Sys2Proof Sys2Proof.Safety

/-! ### Operand checks -/

/-- A sound operand passes where it is consumed and accepted. -/
theorem passes_accepted {w : TWord} (h : Sound w) {ok : Bool} (hok : ok = true) (cust : Bool) (cuptr : Nat) (user : Bool) (pos addr bad : Nat) :
    Opd.passes cust cuptr user { w := w, pos := pos, addr := addr, ok := ok, bad := bad } = true := by
  subst hok
  exact passes_sound h cust cuptr user pos addr

/-- Operands that pass but for being accepted: the first that is not accepted is refused with its own subcode (R40 step 7). -/
theorem tagCheck_refused {cust : Bool} {cuptr : Nat} {user : Bool} {l : List Opd} {o : Opd}
    (h : ∀ o ∈ l, ({ o with ok := true } : Opd).passes cust cuptr user = true) (hf : l.find? (fun o => !o.ok) = some o) :
    tagCheck cust cuptr user l = some (tType o.bad o.w o.pos o.addr) := by
  have hp : ∀ o ∈ l, _ := fun o ho => by
    have := h o ho
    simp only [Opd.passes, Bool.and_eq_true, Bool.not_eq_true', Option.isNone_iff_eq_none] at this
    exact this
  have hstored : ∀ o ∈ l, (o.refused user).isSome = !o.ok := fun o ho => by
    have hr := (hp o ho).2
    unfold Opd.refused at hr ⊢
    cases o.ok <;> simp_all
  have hlast : firstBad (fun o => (o.refused user).isSome) l = some o := by
    rw [← hf, firstBad]
    exact List.find?_congr hstored
  have hbad : (o.refused user).getD sWRONG = o.bad := by
    have hok : o.ok = false := by simpa using List.find?_some hf
    simp [Opd.refused, hok]
  unfold tagCheck
  rw [firstBad_none _ l (fun o ho => (hp o ho).1.1.1.1.1.1), firstBad_none _ l (fun o ho => (hp o ho).1.1.1.1.1.2),
    firstBad_none _ l (fun o ho => (hp o ho).1.1.1.1.2), firstBad_none (Opd.malformed cuptr) l (fun o ho => (hp o ho).1.1.1.2),
    firstBad_none Opd.odd l (fun o ho => (hp o ho).1.1.2), firstBad_none _ l (fun o ho => (hp o ho).1.2), hlast]
  simp only [hbad]

/-- Operands of which the first that is not accepted stops the syllable. -/
theorem run_check_refused {l : List Opd} {o : Opd} {c : Nat} {s : State}
    (h : ∀ o ∈ l, ∀ cust cuptr user, ({ o with ok := true } : Opd).passes cust cuptr user = true) (hf : l.find? (fun o => !o.ok) = some o) :
    (check l).run c s = .error (.trap (tType o.bad o.w o.pos o.addr)) s := by
  simp only [check, run_bind, run_askS, tagCheck_refused (fun o ho => h o ho _ _ _) hf, raiseSome, run_raise]

/-- Sound operands are consumed without further demands. -/
theorem run_check_plain {l : List TWord} (h : ∀ w ∈ l, Sound w) (p c : Nat) (s : State) : (check (plain p l)).run c s = .ok () s := by
  refine run_check _ c s ?_
  induction l generalizing p with
  | nil => nofun
  | cons w l ih =>
    rintro o (_ | ⟨_, ho⟩)
    · exact passes_sound (h w List.mem_cons_self) _ _ _ _ _
    · exact ih (fun v hv => h v (List.mem_cons_of_mem w hv)) (p + 1) o ho

/-- The operands of `sameOpds` differ from those merely consumed in being accepted by type alone. -/
theorem sameOpds_passes {t : Nat} {l : List TWord} (h : ∀ w ∈ l, Sound w) {o : Opd} (ho : o ∈ sameOpds t l) (cust : Bool) (cuptr : Nat)
    (user : Bool) : ({ o with ok := true } : Opd).passes cust cuptr user = true := by
  obtain ⟨x, hx, rfl⟩ := List.mem_map.1 ho
  exact passes_sound (h _ (List.fst_mem_of_mem_zipIdx hx)) _ _ _ _ _

theorem sound_fix {w : TWord} (h : ty w = tFIX) : Sound w := sound_of_ty h (by decide) (by decide)

theorem sound_flo {w : TWord} (h : ty w = tFLO) : Sound w := sound_of_ty h (by decide) (by decide)

/-- Operands that all have the type asked for pass. -/
theorem run_sameOpds {t : Nat} {l : List TWord} (hs : ∀ w ∈ l, Sound w) (ht : ∀ w ∈ l, ty w = t) (c : Nat) (s : State) :
    (check (sameOpds t l)).run c s = .ok () s := by
  refine run_check _ c s fun o ho => ?_
  obtain ⟨x, hx, rfl⟩ := List.mem_map.1 ho
  have hm := List.fst_mem_of_mem_zipIdx hx
  exact passes_accepted (hs _ hm) (by simp [ht _ hm]) _ _ _ _ _ _

/-! ### Instructions of n operands of one type (R93) -/

/-- The instruction `I` of a row first checks that its `n` operands have type `t`. -/
structure TypedRow (i : Fin 256 → Instr) (syl n grow t : Nat) (I : Ins) : Prop where
  exec : ∀ (c : Fin 256) (s : State), Machine.exec (i c) s = .next (issue c I s)
  easy : I.sig.easy = true
  priv : I.sig.priv = 0
  rd : I.sig.rd = n
  takes : I.sig.takes = n
  syl : I.sig.syl = syl
  grow : (if I.sig.micro then 4 else I.sig.leaves - I.sig.takes) = grow
  body : ∀ l, ∃ k : Unit → M Out, I.body l = check (sameOpds t l) >>= k

section typed
variable {i : Fin 256 → Instr} {syl n grow t d : Nat} {micro : Bool} {f : List TWord → TWord} {ops : List TWord}
  {w : TWord}

theorem typedRow_of (hx : ∀ (c : Fin 256) (s : State), exec (i c) s = .next (issue c (typedIns syl n d t micro f) s))
    (hg : (if micro then 4 else 1 - n) = grow) : TypedRow i syl n grow t (typedIns syl n d t micro f) :=
  ⟨hx, rfl, rfl, rfl, rfl, rfl, hg, fun _ => ⟨_, rfl⟩⟩

/-- The first operand of another type raises WRONGTYPE. -/
theorem TypedRow.raises {I : Ins} (R : TypedRow i syl n grow t I) (hn : n = ops.length) (hs : ∀ w ∈ ops, Sound w) {z : TWord} {p : Nat}
    (hf : (sameOpds t ops).find? (fun o => !o.ok) = some { w := z, pos := p, ok := false }) :
    Raises i syl ops n grow (fun _ _ => True) { vec := 7, sub := 0, tag := z.tag.toNat, pos := p } := by
  refine raises_of I R.exec R.easy R.priv (R.rd.trans hn) R.takes R.syl R.grow fun s c _ _ => ?_
  obtain ⟨k, hk⟩ := R.body ops
  rw [hk]
  exact run_bind_error _ _ _ _ _ _ (run_check_refused (fun o ho => sameOpds_passes hs ho) hf)

theorem run_typedIns (hs : ∀ w ∈ ops, Sound w) (ht : ∀ w ∈ ops, ty w = t) (c : Nat) (s : State) :
    ((typedIns syl n d t micro f).body ops).run c s = .ok { push := [f ops], delay := d } s :=
  run_bind_ok _ _ _ _ _ _ (run_sameOpds hs ht c s)

/-- A result of distance 1. -/
theorem gives_typed (hx : ∀ (c : Fin 256) (s : State), exec (i c) s = .next (issue c (typedIns syl n 1 t micro f) s))
    (hg : (if micro then 4 else 1 - n) = grow) (hn : n = ops.length) (hs : ∀ w ∈ ops, Sound w) (ht : ∀ w ∈ ops, ty w = t) (hw : f ops = w) :
    Gives i syl ops n grow [w] :=
  hw ▸ gives_of _ hx rfl rfl hn rfl rfl hg fun s c _ => run_typedIns hs ht c s

/-- A result of a longer distance. -/
theorem givesLate_typed (hx : ∀ (c : Fin 256) (s : State), exec (i c) s = .next (issue c (typedIns syl n d t micro f) s))
    (hg : (if micro then 4 else 1 - n) = grow) (hd : 1 < d) (hn : n = ops.length) (hs : ∀ w ∈ ops, Sound w) (ht : ∀ w ∈ ops, ty w = t)
    (hw : f ops = w) : GivesLate i syl ops n grow d w :=
  hw ▸ gives_late_of _ hx rfl rfl hn rfl rfl hg hd fun s c _ => run_typedIns hs ht c s

end typed

/-! ### The divider (R90, R93) -/

section divider
variable {i : Fin 256 → Instr} {syl : Nat} {f : Int → Int → Int} {x y : TWord} (h0 : ty x = tFIX) (h1 : ty y = tFIX)
  (hx : ∀ (c : Fin 256) (s : State), exec (i c) s = .next (issue c (fixDivIns syl f) s))

include hx in
theorem typedRow_fixDiv : TypedRow i syl 2 4 tFIX (fixDivIns syl f) := ⟨hx, rfl, rfl, rfl, rfl, rfl, rfl, fun _ => ⟨_, rfl⟩⟩

include h0 h1

theorem run_fixDiv (c : Nat) (s : State) : ((fixDivIns syl f).body [y, x]).run c s =
    (if y.datum.toInt = 0 then zeroDiv [y, x] else pure { push := [fixI (f x.datum.toInt y.datum.toInt)] } : M Out).run c s :=
  run_bind_ok _ _ _ _ _ _ (run_sameOpds (by simp [sound_fix, h0, h1]) (by simp [h0, h1]) c s)

include hx

theorem gives_fixDiv (h : y.datum ≠ 0) : Gives i syl [y, x] 2 4 [fixI (f x.datum.toInt y.datum.toInt)] := by
  have hn : y.datum.toInt ≠ 0 := fun e => h (BitVec.eq_of_toInt_eq (e.trans rfl))
  refine gives_of _ hx rfl rfl rfl rfl rfl rfl fun s c _ => ?_
  rw [run_fixDiv h0 h1, if_neg hn, run_pure]

theorem raises_fixDiv (h : y.datum = 0) :
    Raises i syl [y, x] 2 4 (fun _ _ => True) { vec := 7, sub := 0, tag := y.tag.toNat, pos := 0 } := by
  refine raises_of _ hx rfl rfl rfl rfl rfl rfl fun s c _ _ => ?_
  rw [run_fixDiv h0 h1, if_pos (by rw [h]; rfl)]
  exact run_raise _ c _

end divider

/-! ### The rows of R93 -/

theorem typedRow_fix {p : (Fin 256 → Instr) × Nat × Nat}
    (hp : p ∈ [((Instr.fixAdd : Fin 256 → Instr), 0x1100, 0), (.fixSub, 0x1101, 0), (.fixMul, 0x1102, 0), (.fixQuo, 0x1103, 4),
      (.fixRem, 0x1104, 4), (.fixAnd, 0x1105, 0), (.fixOr, 0x1106, 0), (.fixXor, 0x1107, 0), (.fixShl, 0x1108, 0), (.fixShr, 0x1109, 0)]) :
    ∃ I, TypedRow p.1 p.2.1 2 p.2.2 tFIX I := by
  simp only [List.mem_cons, List.not_mem_nil, or_false] at hp
  rcases hp with rfl | rfl | rfl | rfl | rfl | rfl | rfl | rfl | rfl | rfl
  · exact ⟨iFixAdd, typedRow_of (fun _ _ => rfl) rfl⟩
  · exact ⟨iFixSub, typedRow_of (fun _ _ => rfl) rfl⟩
  · exact ⟨iFixMul, typedRow_of (fun _ _ => rfl) rfl⟩
  · exact ⟨iFixQuo, typedRow_fixDiv fun _ _ => rfl⟩
  · exact ⟨iFixRem, typedRow_fixDiv fun _ _ => rfl⟩
  · exact ⟨iFixAnd, typedRow_of (fun _ _ => rfl) rfl⟩
  · exact ⟨iFixOr, typedRow_of (fun _ _ => rfl) rfl⟩
  · exact ⟨iFixXor, typedRow_of (fun _ _ => rfl) rfl⟩
  · exact ⟨iFixShl, typedRow_of (fun _ _ => rfl) rfl⟩
  · exact ⟨iFixShr, typedRow_of (fun _ _ => rfl) rfl⟩

theorem typedRow_flo {p : (Fin 256 → Instr) × Nat × Nat}
    (hp : p ∈ [((Instr.floAdd : Fin 256 → Instr), 0x1200, 0), (.floSub, 0x1201, 0), (.floMul, 0x1202, 0), (.floDiv, 0x1203, 4)]) :
    ∃ I, TypedRow p.1 p.2.1 2 p.2.2 tFLO I := by
  simp only [List.mem_cons, List.not_mem_nil, or_false] at hp
  rcases hp with rfl | rfl | rfl | rfl
  · exact ⟨iFloAdd, typedRow_of (fun _ _ => rfl) rfl⟩
  · exact ⟨iFloSub, typedRow_of (fun _ _ => rfl) rfl⟩
  · exact ⟨iFloMul, typedRow_of (fun _ _ => rfl) rfl⟩
  · exact ⟨iFloDiv, typedRow_of (fun _ _ => rfl) rfl⟩

/-- The results on FIX words. -/
theorem gives_fix {x y : TWord} (hx : ty x = tFIX) (hy : ty y = tFIX) {i : Fin 256 → Instr} {syl : Nat} {f : List TWord → TWord} {w : TWord}
    (he : ∀ (c : Fin 256) (s : State), exec (i c) s = .next (issue c (typedIns syl 2 1 tFIX false f) s)) (hw : f [y, x] = w) :
    Gives i syl [y, x] 2 0 [w] :=
  gives_typed he rfl rfl (by simp [sound_fix, hx, hy]) (by simp [hx, hy]) hw

/-- Settles O5: the results by `gives_typed`, `givesLate_typed` and `gives_fixDiv`, the refusals by `TypedRow.raises` and `raises_fixDiv`. -/
theorem fixFloInstructions : Obligations.FixFloInstructions := by
  unfold Obligations.FixFloInstructions
  refine ⟨fun x y hx hy => ⟨?_, ?_, ?_, ?_, ?_, ?_, ?_, ?_, ?_, ?_, ?_, ?_⟩, fun w x y hw hx hy => ⟨?_, ?_, ?_, ?_, ?_, ?_, ?_, fun z hz => ?_⟩,
    fun x y z hx hz => ⟨fun hne => ⟨fun p hp => ⟨?_, fun hy => ?_⟩, ?_⟩, fun hne => ⟨fun p hp => ⟨?_, fun hy => ?_⟩, ?_, ?_, fun v hv =>
      ⟨?_, fun hy => ?_, fun hy hx2 => ?_⟩⟩⟩⟩
  · exact gives_fix hx hy (fun _ _ => rfl) rfl
  · exact gives_fix hx hy (fun _ _ => rfl) rfl
  · exact givesLate_typed (fun _ _ => rfl) rfl (by decide) rfl (by simp [sound_fix, hx, hy]) (by simp [hx, hy]) rfl
  · exact gives_fixDiv hx hy fun _ _ => rfl
  · exact gives_fixDiv hx hy fun _ _ => rfl
  · exact raises_fixDiv hx hy fun _ _ => rfl
  · exact raises_fixDiv hx hy fun _ _ => rfl
  · exact gives_fix hx hy (fun _ _ => rfl) rfl
  · exact gives_fix hx hy (fun _ _ => rfl) rfl
  · exact gives_fix hx hy (fun _ _ => rfl) rfl
  · exact gives_fix hx hy (fun _ _ => rfl) rfl
  · exact gives_fix hx hy (fun _ _ => rfl) rfl
  · exact givesLate_typed (fun _ _ => rfl) rfl (by decide) rfl (by simp [sound_flo, hx, hy]) (by simp [hx, hy]) rfl
  · exact givesLate_typed (fun _ _ => rfl) rfl (by decide) rfl (by simp [sound_flo, hx, hy]) (by simp [hx, hy]) rfl
  · exact givesLate_typed (fun _ _ => rfl) rfl (by decide) rfl (by simp [sound_flo, hx, hy]) (by simp [hx, hy]) rfl
  · exact gives_typed (fun _ _ => rfl) rfl rfl (by simp [sound_flo, hx, hy]) (by simp [hx, hy]) rfl
  · exact gives_typed (fun _ _ => rfl) rfl rfl (by simp [sound_flo, hy]) (by simp [hy]) rfl
  · exact givesLate_typed (fun _ _ => rfl) rfl (by decide) rfl (by simp [sound_flo, hw, hx, hy]) (by simp [hw, hx, hy]) rfl
  · exact gives_typed (fun _ _ => rfl) rfl rfl (by simp [sound_flo, hy]) (by simp [hy]) rfl
  · exact gives_typed (fun _ _ => rfl) rfl rfl (by simp [sound_fix, hz]) (by simp [hz]) rfl
  · obtain ⟨I, R⟩ := typedRow_fix hp
    exact R.raises rfl (by simp [hx, hz]) (by simp [sameOpds, hne])
  · obtain ⟨I, R⟩ := typedRow_fix hp
    exact R.raises rfl (by simp [sound_fix, hy, hz]) (by simp [sameOpds, hne, hy])
  · exact (typedRow_of (i := .floCvt) (f := _) (fun _ _ => rfl) rfl).raises rfl (by simp [hz]) (by simp [sameOpds, hne])
  · obtain ⟨I, R⟩ := typedRow_flo hp
    exact R.raises rfl (by simp [hx, hz]) (by simp [sameOpds, hne])
  · obtain ⟨I, R⟩ := typedRow_flo hp
    exact R.raises rfl (by simp [sound_flo, hy, hz]) (by simp [sameOpds, hne, hy])
  · exact (typedRow_of (i := .floSqrt) (f := _) (fun _ _ => rfl) rfl).raises rfl (by simp [hz]) (by simp [sameOpds, hne])
  · exact (typedRow_of (i := .floTrunc) (f := _) (fun _ _ => rfl) rfl).raises rfl (by simp [hz]) (by simp [sameOpds, hne])
  · exact (typedRow_of (i := .floFma) (f := _) (fun _ _ => rfl) rfl).raises rfl (by simp [hx, hz, hv]) (by simp [sameOpds, hne])
  · exact (typedRow_of (i := .floFma) (f := _) (fun _ _ => rfl) rfl).raises rfl (by simp [sound_flo, hy, hz, hv]) (by simp [sameOpds, hne, hy])
  · exact (typedRow_of (i := .floFma) (f := _) (fun _ _ => rfl) rfl).raises rfl (by simp [sound_flo, hy, hx, hz])
      (by simp [sameOpds, hne, hy, hx2])

/-! ### Comparisons and predicates -/

section generic
variable {i : Fin 256 → Instr} {g syl n grow : Nat} {accs : List (Nat → Bool)} {fast : List TWord → Option TWord} {slow : List TWord → M TWord}
  {ops : List TWord} {w : TWord}

/-- The fast path of a generic operation on FIX words never reaches the dispatch (R44). -/
theorem gives_generic (hx : ∀ (c : Fin 256) (s : State), exec (i c) s = .next (issue c (genericIns g syl n 1 accs fast slow) s))
    (hn : n = ops.length) (hg : 1 - n = grow) (hfix : ∀ w ∈ ops, ty w = tFIX) (hw : fast ops = some w) : Gives i syl ops n grow [w] := by
  refine gives_of _ hx rfl rfl hn rfl rfl hg fun s c hm => ?_
  have hall : ops.all (fun w => ty w == tFIX) = true := by simpa using hfix
  simp only [genericIns, run_bind, run_getCore, hm, Option.isSome_none, Bool.false_eq_true, if_false, hall, if_true, hw, run_pure]

end generic

theorem eqWord_fix {x y : TWord} (hx : ty x = tFIX) (hy : ty y = tFIX) : eqWord x y = decide (x.datum = y.datum) := by
  simp [eqWord, hx, hy]
  rfl

theorem gives_eq {x y : TWord} (hx : Sound x) (hy : Sound y) : Gives .eq 0x2000 [y, x] 2 0 [wBool (eqWord x y)] :=
  gives_of iEq (fun _ _ => rfl) rfl rfl rfl rfl rfl rfl fun s c _ =>
    run_bind_ok _ _ _ _ _ _ (run_check_plain (by simp [hx, hy]) 0 c s)

/-- A type field that names a type that exists is no reserved one (R71). -/
theorem reservedT6_none {t : Nat} (h : t < 0x30) : reservedT6 t = none := if_neg (by omega)

theorem gives_typep {y : TWord} {t : BitVec 6} (hy : Sound y) (ht : t.toNat < 0x30) :
    Gives (fun c => .typep c t) (0x2040 + t.toNat) [y] 1 0 [wBool (ty y == t.toNat)] :=
  gives_of (iTypep t.toNat) (fun _ _ => rfl) (by simp [Sig.easy, iTypep, reservedT6_none ht]) rfl rfl rfl rfl rfl fun s c _ =>
    run_bind_ok _ _ _ _ _ _ (run_check_plain (by simp [hy]) 0 c s)

theorem gives_classp {y : TWord} (k : Fin 8) (hy : Sound y) :
    Gives (fun c => .classp c k) (0x20C0 + k.val) [y] 1 0 [wBool (dclass (ty y) == k.val)] :=
  gives_of (iClassp k) (fun _ _ => rfl) rfl rfl rfl rfl rfl rfl fun s c _ =>
    run_bind_ok _ _ _ _ _ _ (run_check_plain (by simp [hy]) 0 c s)

section check
variable {y : TWord} {t : BitVec 6} (hy : Sound y) (ht : t.toNat < 0x30)
include hy ht

theorem gives_check (h : ty y = t.toNat) : Gives (fun c => .check c t) (0x2080 + t.toNat) [y] 0 0 [] :=
  gives_of (iCheck t.toNat) (fun _ _ => rfl) (by simp [Sig.easy, iCheck, reservedT6_none ht]) rfl rfl rfl rfl rfl fun s c _ =>
    run_bind_ok _ _ _ _ _ _ (run_check _ c s fun o ho => by
      rw [List.mem_singleton.1 ho]
      exact passes_accepted hy (beq_iff_eq.2 h) _ _ _ _ _ _)

theorem raises_check (h : ty y ≠ t.toNat) : Raises (fun c => .check c t) (0x2080 + t.toNat) [y] 0 0 (fun _ _ => True)
    { vec := 7, sub := 0, tag := y.tag.toNat, pos := 0 } :=
  raises_of (iCheck t.toNat) (fun _ _ => rfl) (by simp [Sig.easy, iCheck, reservedT6_none ht]) rfl rfl rfl rfl rfl fun s c _ _ => by
    have hne : (ty y == t.toNat) = false := beq_eq_false_iff_ne.2 h
    refine run_bind_error _ _ _ _ _ _ (run_check_refused (o := { w := y, pos := 0, ok := false }) (fun o ho => ?_) ?_)
    · rw [List.mem_singleton.1 ho]
      exact fun cust cuptr user => passes_sound hy cust cuptr user 0 0
    · simp [opd, hne]

end check

/-- Settles O6: the comparisons by `gives_generic`, the predicates by their checks. -/
theorem comparisons : Obligations.Comparisons := by
  unfold Obligations.Comparisons
  refine ⟨fun x y hx hy => ⟨?_, ?_, ?_, ?_, ?_, ?_, ?_, ?_⟩, fun x y t k hx hy ht => ⟨?_, ?_, ?_, ?_, ?_⟩⟩
  · rw [← eqWord_fix hx hy]
    exact gives_eq (sound_fix hx) (sound_fix hy)
  · rw [← eqWord_fix hx hy]
    exact gives_generic (fun _ _ => rfl) rfl rfl (by simp [hx, hy]) rfl
  · exact gives_generic (fun _ _ => rfl) rfl rfl (by simp [hx, hy]) rfl
  · exact gives_generic (fun _ _ => rfl) rfl rfl (by simp [hx, hy]) rfl
  · exact gives_generic (fun _ _ => rfl) rfl rfl (by simp [hx, hy]) rfl
  · exact gives_generic (fun _ _ => rfl) rfl rfl (by simp [hx, hy]) rfl
  · exact gives_generic (fun _ _ => rfl) rfl rfl (by simp [hx, hy]) rfl
  · have hz : decide (y.datum.toInt = 0) = (y.datum == 0) := by
      rw [beq_eq_decide, decide_eq_decide]
      exact ⟨fun e => BitVec.eq_of_toInt_eq (e.trans rfl), fun e => by rw [e]; rfl⟩
    rw [hz]
    exact gives_generic (fun _ _ => rfl) rfl rfl (by simp [hy]) rfl
  · have he : decide (ty x = ty y ∧ x.datum = y.datum) = eqWord x y := by simp [eqWord, Bool.decide_and, beq_eq_decide]
    rw [he]
    exact gives_eq hx hy
  · rw [← beq_eq_decide]
    exact gives_typep hy ht
  · exact gives_check hy ht
  · exact raises_check hy ht
  · rw [← beq_eq_decide]
    exact gives_classp k hy

end Sys2Proof.Machine
end

section
/-! PROOFS. A syllable's program in a core that meets nothing else, one rule for each operation (R81, R82, R97, R144, R248): each says what the
operation gives and what it leaves, for a state and for what the syllable has noted in its core; then the syllable's retirement. -/

namespace Sys2Proof.Machine

open Sys2Proof Sys2Proof.Safety

/-! ### What a syllable notes in its core -/

/-- PG0-PG3 of a stepped instruction in progress (R105). -/
structure Pgs where
  pg0 : TWord
  pg1 : TWord
  pg2 : TWord
  pg3 : TWord

/-- What a syllable in progress has noted in its core: its code, PSW.STEP with PG0-PG3, the windows that its stores open and its spills. -/
structure Notes where
  syl : Nat
  step : Option Pgs := none
  wins : List StoreWin := []
  spills : List (Nat × TWord) := []

/-- The core with these notes. -/
def Core.noted (x : Notes) (k : Core) : Core :=
  { k with
    wait := none, traceN := 0, syl := x.syl, newWins := x.wins, spills := x.spills
    psw := { k.psw with step := x.step.isSome }
    sr := { k.sr with pg0 := x.step.elim k.sr.pg0 Pgs.pg0, pg1 := x.step.elim k.sr.pg1 Pgs.pg1
                      pg2 := x.step.elim k.sr.pg2 Pgs.pg2, pg3 := x.step.elim k.sr.pg3 Pgs.pg3 } }

def State.noted (s : State) (c : Nat) (x : Notes) : State := s.modCore c (Core.noted x)

/-- Core c of the state is outside any syllable and has nothing pending, and nothing follows a retirement; `p` is its status. -/
structure Idle (s : State) (c : Nat) (p : Psw) : Prop where
  lt : c < s.cores.length
  plain : PlainCore (s.core c)
  psw : (s.core c).psw = p
  noScene : p.sc = false
  noPend : (s.core c).pend = []
  unwatched : Unwatched s c p

theorem Idle.sc {s : State} {c : Nat} {p : Psw} (h : Idle s c p) : (s.core c).psw.sc = false := h.psw ▸ h.noScene

theorem idle_of_quiet {s : State} {c : Nat} (q : Quiet s c) : Idle s c (s.core c).psw := by
  have h := ready_plain q 0
  rw [quiet_ready_core q] at h
  exact ⟨quiet_core_lt q, ⟨h.1, h.2, h.3, h.4, h.5, h.6, h.7, h.8, h.9, h.10, h.11, h.12⟩, rfl, q.noScene, q.noPend, unwatched_of_quiet q⟩

/-- A change of the core that leaves its status and what is pending alone leaves it as idle. -/
theorem Idle.modCore {s : State} {c : Nat} {p : Psw} (h : Idle s c p) {f : Core → Core} (hp : PlainCore (s.core c) → PlainCore (f (s.core c)))
    (hpsw : (f (s.core c)).psw = (s.core c).psw) (hpend : (f (s.core c)).pend = (s.core c).pend) : Idle (s.modCore c f) c p := by
  obtain ⟨lt, plain, psw, noScene, noPend, unwatched⟩ := h
  have hc := core_modCore s c f lt
  exact ⟨by rwa [modCore_cores_length], hc ▸ hp plain, by rw [hc, hpsw, psw], noScene, by rw [hc, hpend, noPend], unwatched.modCore c f⟩

/-- Outside a syllable there is nothing noted. -/
theorem unnoted_eq {k : Core} (h : PlainCore k) : { k with newWins := [], spills := [], psw := { k.psw with step := false } } = k := by
  obtain ⟨-, -, hstep, -, hwins, hspills, -⟩ := h
  obtain ⟨_, _, _, _, _, _, psw, _⟩ := k
  obtain ⟨⟩ := psw
  simp_all

theorem ready_eq_noted {s : State} {c : Nat} (q : Quiet s c) (n : Nat) : s.ready c n = s.noted c { syl := n } := by
  refine modCore_congr s c _ _ ?_
  conv_lhs => rw [← unnoted_eq (idle_of_quiet q).plain]
  rfl

section rules
variable {s t : State} {c a : Nat} {p : Psw} {x : Notes} {lf : Leaf} {w : TWord} (h : Idle s c p)

/-- A change of the core that does not touch what the syllable has noted. -/
theorem run_modMe_noted {f : Core → Core} (hf : ∀ k, f (k.noted x) = (f k).noted x) :
    (modMe f).run c (s.noted c x) = .ok () ((s.modCore c f).noted c x) := by
  rw [run_modMe, State.noted, State.noted, modCore_modCore, modCore_modCore]
  simp only [hf]

include h in
theorem noted_core : (s.noted c x).core c = (s.core c).noted x := core_modCore _ _ _ h.lt

/-! ### Reads -/

include h in
theorem hit_noted (hh : Hit s c a lf) : Hit (s.noted c x) c a lf := by
  obtain ⟨leaf, wb, here, frame, fence, core, calm⟩ := hh
  have hc := noted_core (x := x) h
  exact ⟨by rw [hc]; exact leaf, wb, here, by rw [hc]; exact frame, by rw [hc]; exact fence, by rw [hc]; exact core, by rw [hc]; exact calm⟩

include h in
theorem coreSees_noted (pa : Nat) : (s.noted c x).coreSees c pa = s.coreSees c pa := by
  simp only [State.coreSees, noted_core h]
  rfl

/-- The frames after an access to a pa that they hold (R247). -/
def Core.reused (pa : Nat) (f : DFrame) (k : Core) : Core :=
  { k with mem := { k.mem with dframes := { f with st := f.st.set (lineOf pa % 4) (f.st.getD (lineOf pa % 4) .inv) } ::
    (k.mem.dframes.filter fun y => y.idx != f.idx) } }

theorem touched_eq {pa : Nat} {f : DFrame} (hf : (s.core c).mem.dframes.find? (fun f => f.base == lineOf pa / 4) = some f) :
    touched s c pa = s.modCore c (Core.reused pa f) := by
  simp only [touched, State.fillFrame, Core.dstate, hf]
  rfl

/-- A frame holds what is not invalid. -/
theorem frame_of_valid {k : Core} {line : Nat} (hd : k.dstate line ≠ .inv) : ∃ f, k.mem.dframes.find? (fun f => f.base == line / 4) = some f := by
  unfold Core.dstate at hd
  split at hd
  · exact ⟨_, ‹_›⟩
  · exact absurd rfl hd

include h in
theorem touched_noted {pa : Nat} (hd : (s.core c).dstate (lineOf pa) ≠ .inv) : touched (s.noted c x) c pa = (touched s c pa).noted c x := by
  obtain ⟨f, hf⟩ := frame_of_valid hd
  rw [touched_eq hf, touched_eq (by rw [noted_core h]; exact hf), State.noted, State.noted, modCore_modCore, modCore_modCore]
  rfl

include h in
theorem run_readWord_noted (hh : Hit s c a lf) (ld al : Bool) :
    (readWord a lf ld al).run c (s.noted c x) = .ok (s.coreSees c lf.pa) ((touched s c lf.pa).noted c x) := by
  have hc := noted_core (x := x) h
  rw [run_readWord (hit_noted h hh) (by rw [State.noted, modCore_cores_length]; exact h.lt) (by rw [hc]; exact h.sc)
    (by rw [hc]; exact h.plain.noWins) h.unwatched.noReplay h.unwatched.noRecord ld al, coreSees_noted h, touched_noted h hh.frame]

include h in
theorem run_xlate_noted {kind : Acc} (hu : (s.core c).unit = false) (hl : xlateCore (s.core c) a kind 7 = .inr lf) :
    (xlate a kind).run c (s.noted c x) = .ok lf (s.noted c x) := by
  have hc := noted_core (x := x) h
  exact run_xlate (by rw [hc]; exact hu) (by rw [hc]; exact h.plain.noShadow) (by rw [hc]; exact hl)

/-- What a read leaves of the core: its frames are used anew. -/
theorem sees_frames (hs : Sees s t c a w) : ∃ df, t = s.modCore c fun k => { k with mem := { k.mem with dframes := df } } := by
  obtain ⟨lf, hh, -, rfl⟩ := hs
  exact touched_hit hh.frame

theorem settled_sees {v : TWord} (hs : Sees s t c a w) (hv : Settled s c v) : Settled t c v := by
  obtain ⟨df, rfl⟩ := sees_frames hs
  exact hv

include h in
/-- A core that has read is as idle as before. -/
theorem Idle.sees (hs : Sees s t c a w) : Idle t c p ∧ (t.core c).stk = (s.core c).stk ∧ (t.core c).pc = (s.core c).pc := by
  obtain ⟨df, rfl⟩ := sees_frames hs
  have hc := core_modCore s c (fun k => { k with mem := { k.mem with dframes := df } }) h.lt
  exact ⟨h.modCore (fun k => ⟨k.1, k.2, k.3, k.4, k.5, k.6, k.7, k.8, k.9, k.10, k.11, k.12⟩) rfl rfl, by rw [hc], by rw [hc]⟩

include h in
/-- A plain read (R81). -/
theorem run_readAt (hs : Sees s t c a w) (ld : Bool) : (readAt a ld).run c (s.noted c x) = .ok w (t.noted c x) := by
  obtain ⟨lf, hh, rfl, rfl⟩ := hs
  simp only [readAt, run_bind, run_xlate_noted h hh.core hh.leaf, run_readWord_noted h hh]

theorem run_barrier_noted (hw : Settled s c w) : (barrier w a).run c (s.noted c x) = .ok w (s.noted c x) := by
  have hst : (isStale w).run c (s.noted c x) = .ok false (s.noted c x) := run_settled hw
  simp only [barrier, run_bind, hst]
  rfl

/-- A pointer that is not stale resolves to itself (R82). -/
theorem run_resolve (hw : Settled s c w) (pos : Nat) : (resolve w pos).run c (s.noted c x) = .ok w (s.noted c x) := by
  have hst : (isStale w).run c (s.noted c x) = .ok false (s.noted c x) := run_settled hw
  simp only [resolve, run_bind, hst]
  rfl

include h in
/-- A load (R81, R322). -/
theorem run_load (hr : Reads s t c a w) (ld : Bool) : (load a ld).run c (s.noted c x) = .ok w (t.noted c x) := by
  obtain ⟨hs, hw⟩ := hr
  have hb := run_barrier_noted (a := a) (x := x) (settled_sees hs hw)
  obtain ⟨lf, hh, rfl, rfl⟩ := hs
  simp only [load, run_bind, run_xlate_noted h hh.core hh.leaf, run_readWord_noted h hh, hb]

/-- A sound word from memory is consumed. -/
theorem run_checkMem (hw : Sound w) (a c : Nat) (u : State) : (checkMem w a).run c u = .ok () u :=
  run_check _ c u fun o ho => by
    rw [List.mem_singleton.1 ho]
    exact passes_sound hw _ _ _ _ _

theorem sound_hdr (hw : ty w = tHDR) : Sound w := sound_of_ty hw (by decide) (by decide)

include h in
/-- The header of an object (R39). -/
theorem run_hdrOf {q : TWord} (hh : HeaderAt s t c (adr q) w) (ld : Bool) : (hdrOf q ld).run c (s.noted c x) = .ok (adr q, w) (t.noted c x) := by
  obtain ⟨hs, hw⟩ := hh
  have hty : (ty w == tHDR) = true := beq_iff_eq.2 hw
  simp only [hdrOf, hdrFrom, run_bind, run_readAt h hs, run_checkMem (sound_hdr hw), hty, if_true, run_pure]

include h in
theorem run_objHdr {q : TWord} (hq : Settled s c q) (hh : HeaderAt s t c (adr q) w) (hf : hdrFits (ty q) w = true) (pos : Nat) (ld : Bool) :
    (objHdr q pos ld).run c (s.noted c x) = .ok (adr q, w) (t.noted c x) := by
  simp only [objHdr, run_bind, run_resolve hq, run_hdrOf h hh, hf, if_true, run_pure]

/-! ### Stores -/

/-- The state with stores queued by core c (R248). -/
def State.queue (s : State) (c : Nat) (l : List QStore) : State := s.modCore c fun k => Core.withQueue k l

include h in
theorem queue_core (l : List QStore) : (s.queue c l).core c = Core.withQueue (s.core c) l := core_modCore _ _ _ h.lt

theorem queue_nil (s : State) (c : Nat) : s.queue c [] = s := modCore_id _ _ _ (by simp [Core.withQueue])

theorem queue_queue (l m : List QStore) : (s.queue c l).queue c m = s.queue c (l ++ m) := by
  rw [State.queue, State.queue, modCore_modCore, State.queue]
  simp only [Core.withQueue, List.append_assoc]

include h in
theorem Idle.queue (l : List QStore) : Idle (s.queue c l) c p :=
  h.modCore (fun k => ⟨k.1, k.2, k.3, k.4, k.5, k.6, k.7, k.8, k.9, k.10, k.11, k.12⟩) rfl rfl

include h in
/-- A store that may enter the queue may do so after others, as long as there is room. -/
theorem Storable.queue (hs : Storable s c a lf) {l : List QStore} (hl : (s.core c).mem.sq.length + l.length < 8) : Storable (s.queue c l) c a lf := by
  have hc := queue_core h l
  obtain ⟨leaf, mt, here, -, fence, core, calm⟩ := hs
  refine ⟨by rw [hc]; exact leaf, mt, here, by rw [hc]; simpa [Core.withQueue] using hl, by rw [hc]; exact fence, by rw [hc]; exact core, ?_⟩
  rw [hc]
  rcases calm with calm | ⟨hm, calm⟩
  · exact .inl calm
  · refine .inr ⟨?_, calm⟩
    simp only [Core.withQueue, List.any_append, Bool.not_or, ← Bool.and_assoc]
    rw [Bool.and_eq_false_iff]
    exact .inl hm

/-- The words of a store and of the one after it in the same access, as the core sees them before (R97, R144). -/
def State.opened (s : State) (c : Nat) (q : QStore) : List StoreWin :=
  q.words.map fun y => { pa := y.1, old := s.wordAt c y.1, remain := 2, sa := (s.core c).pc, syl := 0 }

include h in
theorem wordAt_noted (pa : Nat) : (s.noted c x).wordAt c pa = s.wordAt c pa := by
  simp only [State.wordAt, noted_core h, coreSees_noted h]
  rfl

/-- In memory of the device a core sees what a store overwrites. -/
theorem wordAt_here {pa : Nat} (hp : place pa = .loc ∨ place pa = .priv) : s.wordAt c pa = s.coreSees c pa := by
  unfold State.wordAt
  rcases hp with hp | hp <;> rw [hp] <;> cases (s.core c).wing pa <;> rfl

/-- Outside REPLAY a store has its effect (R451). -/
theorem run_outwardStore (hr : s.mode mREPLAY = false) : (outwardStore lf).run c s = .ok false s := by
  simp only [outwardStore, run_bind, run_askS, hr, Bool.false_and, Bool.false_eq_true, if_false, run_pure]

theorem run_queueRoom (hl : (s.core c).mem.sq.length < 8) : queueRoom.run c s = .ok () s := by
  have : ¬ 8 ≤ (s.core c).mem.sq.length := by omega
  simp only [queueRoom, run_bind, run_getCore, if_neg this, run_pure]

theorem asStored_here {pa : Nat} (hp : place pa = .loc ∨ place pa = .priv) (v : TWord) : asStored pa v = v := by
  rcases hp with hp | hp <;> simp only [asStored, hp]

/-- The core with a store queued and windows opened by the syllable in progress. -/
def Core.queuing (q : QStore) (l : List StoreWin) (k : Core) : Core := { Core.withQueue k [q] with newWins := l ++ k.newWins }

theorem queuing_noted (q : QStore) (l : List StoreWin) : (s.noted c x).modCore c (Core.queuing q l) =
    (s.queue c [q]).noted c { x with wins := l ++ x.wins } := by
  rw [State.queue, State.noted, State.noted, modCore_modCore, modCore_modCore]
  rfl

include h in
/-- What a store in the queue causes to be prefetched: nothing (R258). -/
theorem run_prefetchFor_queued {m : Bool} (hm : Calm (s.core c) a m) (q : QStore) :
    (prefetchFor a lf m).run c ((s.noted c x).modCore c fun k => { k with mem := { k.mem with sq := k.mem.sq ++ [q] } }) =
      .ok () ((s.noted c x).modCore c fun k => { k with mem := { k.mem with sq := k.mem.sq ++ [q] } }) := by
  refine run_prefetchFor lf ?_
  rw [core_modCore _ _ _ (by rw [State.noted, modCore_cores_length]; exact h.lt), noted_core h]
  exact hm

include h in
/-- A store enters the queue (R248), and where `win` says so its windows open (R144). -/
theorem run_writeWord (hs : Storable s c a lf) {v : TWord} {alloc : Bool} {more : List TWord} {q : QStore}
    (hq : { queued (s.core c) lf v alloc with more := more } = q) (win : Bool) :
    (writeWord a lf v alloc win more).run c (s.noted c x) =
      .ok () ((s.queue c [q]).noted c { x with wins := (if win then s.opened c q else []) ++ x.wins }) := by
  obtain ⟨leaf, mt, here, room, fence, core, calm⟩ := hs
  have hc := noted_core (x := x) h
  have hstore : storeOf lf v more ((s.core c).noted x).mem.epoch alloc = q := by
    have h3 : (lf.mt == 3) = false := by simp; omega
    have h2 : decide (2 ≤ lf.mt) = false := by simp; omega
    simp only [← hq, storeOf, queued, asStored_here here, funext (asStored_here here), List.map_id', h3, h2]
    rfl
  have hold : (q.words.map fun y => (y.1, (s.noted c x).wordAt c y.1)) = q.words.map fun y => (y.1, s.wordAt c y.1) := by
    simp only [wordAt_noted h]
  have hscene := run_sceneSafe (s := s.noted c x) lf (by rw [hc]; exact h.sc)
  have htarget := run_target (s := s.noted c x) (c := c) a lf true here
  have hunsafe := run_unsafe (s := s.noted c x) (c := c) lf here mt
  have hfence := run_meetFence (s := s.noted c x) (c := c) (by rw [hc]; exact fence)
  have hout := run_outwardStore (s := s.noted c x) (c := c) (lf := lf) h.unwatched.noReplay
  have hroom := run_queueRoom (s := s.noted c x) (c := c) (by rw [hc]; exact room)
  have hsc : ((s.core c).noted x).psw.sc = false := h.sc
  have hunit : ((s.core c).noted x).unit = false := core
  have hpf := run_prefetchFor_queued (x := x) (lf := lf) (m := ((s.core c).noted x).dstate (lineOf lf.pa) == .inv &&
    !(((s.core c).noted x).mem.sq.any fun x => lineOf x.pa == lineOf lf.pa)) h calm q
  dsimp only at hpf
  rw [← queuing_noted]
  unfold writeWord
  rcases here with hp | hp <;>
    simp only [run_bind, hscene, htarget, hunsafe, hfence, run_getCore, hc, hstore, run_askS, hold, hout, hp, hsc, hunit, hroom, run_modMe,
      Bool.false_eq_true, if_false, hpf] <;>
    cases win <;>
    simp only [if_true, if_false, Bool.false_eq_true, run_pure, run_modMe, modCore_modCore, State.opened, List.map_map] <;>
    refine congrArg (EStateM.Result.ok ()) (modCore_congr _ _ _ _ ?_) <;>
    rw [hc] <;> rfl

end rules

end Sys2Proof.Machine
end

section
/-! PROOFS. The retirement of a syllable whose program has read memory, queued stores or worked in steps, in a core that meets nothing
else (R105, R137, R139, R144). -/

namespace Sys2Proof.Machine

open Sys2Proof Sys2Proof.Safety

/-- The core with PG0-PG3 cleared (R105). -/
def Core.clearPgs (k : Core) : Core := { k with sr := { k.sr with pg0 := fixN 0, pg1 := fixN 0, pg2 := fixN 0, pg3 := fixN 0 } }

/-- The core that the retirement of a syllable with these notes leaves. -/
def Core.finish (x : Notes) (g : Sig) (o : Out) (k : Core) : Core :=
  { k.pushOut g o g.syl with
    wait := none, traceN := 1, syl := x.syl, pc := va48 ((k.pc : Int) + 1), wins := x.wins.map fun w => { w with syl := g.syl }
    sr := if x.step.isSome then k.clearPgs.sr else k.sr }

theorem pushOut_noted (k : Core) (x : Notes) (g : Sig) (o : Out) (n : Nat) : (k.noted x).pushOut g o n = (k.pushOut g o n).noted x := by
  by_cases hd : o.delay ≤ 1
  · simp only [Core.pushOut, hd, if_true]
    rfl
  · simp only [Core.pushOut, hd, if_false]
    rfl

/-- The core's own part of the retirement, but for the end of a stepped instruction. -/
def Core.settleOut (x : Notes) (g : Sig) (o : Out) (k : Core) : Core :=
  { (k.pushOut g o g.syl).noted x with
    traceN := 1, pc := va48 ((k.pc : Int) + 1), wins := x.wins.map fun w => { w with syl := g.syl }, newWins := [], spills := [] }

theorem retireStep_noted {k : Core} (h : PlainCore k) (x : Notes) {g : Sig} {o : Out} (hf : o.flow = .next) (hs : o.shadow = none) :
    (k.noted x).retireStep g o false = k.settleOut x g o := by
  obtain ⟨sp, regs, pend, hpush⟩ := pushOut_frame k g o g.syl
  obtain ⟨noSlot, noLoop, -, noWins, noNewWins, noSpills, noBuf, noShadow, -, noMiss, noSingle, noDebug⟩ := h
  unfold Core.retireStep Core.settleOut
  rw [pushOut_noted, hpush]
  obtain ⟨_, _, _, _, _, _, psw⟩ := k
  rename_i mem _ _ _ _ _ _ _
  obtain ⟨⟩ := mem
  obtain ⟨⟩ := psw
  dsimp only at noSlot noLoop noWins noNewWins noSpills noBuf noShadow noMiss noSingle noDebug
  subst noSlot noLoop noWins noNewWins noSpills noBuf noShadow noMiss noSingle noDebug
  simp [hf, hs, Core.noted, Core.advance, Core.winStep, Core.shadowStep, b2n]

theorem endStep_settleOut {k : Core} (h : PlainCore k) (x : Notes) (g : Sig) (o : Out) :
    (k.settleOut x g o).endStep false = k.finish x g o := by
  obtain ⟨sp, regs, pend, hpush⟩ := pushOut_frame k g o g.syl
  obtain ⟨-, -, noStep, -, noNewWins, noSpills, -, -, noMicro, -⟩ := h
  unfold Core.settleOut Core.finish
  rw [hpush]
  obtain ⟨_, _, _, _, _, _, psw⟩ := k
  obtain ⟨⟩ := psw
  dsimp only at noStep noNewWins noSpills noMicro
  subst noStep noNewWins noSpills noMicro
  cases hx : x.step <;> simp [Core.endStep, Core.noted, Core.clearPgs, hx]

/-- A syllable's retirement with nothing that follows it (R137). -/
theorem retire_noted {t : State} {c : Nat} {p : Psw} (h : Idle t c p) (x : Notes) {g : Sig} {o : Out} (hf : o.flow = .next)
    (hs : o.shadow = none) (hl : o.late = none) (hk : o.keepPg = false) :
    (t.noted c x).retire c g o (!p.l) p.w = changed t c (Core.finish x g o) := by
  have hu : (t.noted c x).modCore c (fun k => k.retireStep g o false) = t.modCore c (Core.settleOut x g o) := by
    rw [State.noted, modCore_modCore]
    exact modCore_congr _ _ _ _ (retireStep_noted h.plain x hf hs)
  have htim : ((t.noted c x).core c).timerShadow = false := by
    rw [noted_core h]
    simp [Core.timerShadow, Core.noted, h.plain.noShadow]
  have hend : (t.modCore c (Core.settleOut x g o)).modCore c (Core.endStep false) = t.modCore c (Core.finish x g o) := by
    rw [modCore_modCore]
    exact modCore_congr _ _ _ _ (endStep_settleOut h.plain x g o)
  have hdue : ((t.modCore c (Core.finish x g o)).bump .CORE_RET c 1).stepDue c (!p.l) p.w = false :=
    ((h.unwatched.modCore c _).setReg (r := .CORE_RET) (by decide) _ _).noTrap
  have w : Unwatched (t.modCore c (Core.settleOut x g o)) c p := h.unwatched.modCore c _
  generalize t.modCore c (Core.settleOut x g o) = u at hu hend w
  have htr : u.traceRetire c g.syl o.taken = u := by simp [State.traceRetire, State.traceI, w.noTrace]
  have hch : ∀ b, u.chunkEvent c b = u := fun b => by simp [State.chunkEvent, w.noReplay, w.noRecord]
  have e1 : (Flow.next == Flow.stay) = false := rfl
  have e2 : (Flow.next == Flow.rep) = false := rfl
  have e3 : (Flow.next == Flow.done) = false := rfl
  unfold State.retire changed
  simp only [hf, hl, hk, e1, e2, e3, htim, hu, Bool.or_false, Bool.false_and, Bool.false_eq_true, if_false, htr, hch, hend, hdue]

/-! ### The issue of a syllable -/

/-- The signature reads `n` operands in registers, removes `takes` and wants `grow` registers free, and has no check of its own. -/
def Sig.asks (g : Sig) (syl n takes grow : Nat) : Bool :=
  g.easy && g.priv == 0 && g.syl == syl && g.rd == n && g.takes == takes && (if g.micro then 4 else g.leaves - g.takes) == grow

section issue
variable {s t : State} {c : Nat} {i : Ins} {ops push : List TWord} {syl takes grow : Nat} {x : Notes} {o : Out}
  (q : Quiet s c) (hst : Stacked s c ops takes grow) (hg : i.sig.asks syl ops.length takes grow = true)

include q hst hg in
/-- A syllable with its operands in registers passes its checks. -/
theorem asks_meets : placeCheck (s.core c) i.sig (s.portOk c i.sig.port) = none ∧ Fits (s.core c) i.sig ∧ (s.core c).opsOf i.sig = ops ∧
    i.sig.syl = syl ∧ i.sig.takes = takes := by
  simp only [Sig.asks, Bool.and_eq_true, beq_iff_eq] at hg
  obtain ⟨⟨⟨⟨⟨he, hp⟩, hs⟩, hr⟩, ht⟩, hgrow⟩ := hg
  have he' := he
  simp only [Sig.easy, Bool.and_eq_true, Option.isNone_iff_eq_none, List.isEmpty_iff] at he'
  exact ⟨placeCheck_quiet q _ _ he'.1.1.1 (.inl he'.1.1.2) (.inl hp), stacked_fits hst _ he hr ht hgrow, stacked_ops hst _ he hr, hs, ht⟩

include q hst hg in
/-- A syllable whose program ends in an idle core retires there. -/
theorem issue_idle (hrun : (i.body ops).run c (s.noted c { syl := syl }) = .ok o (t.noted c x)) (h : Idle t c (s.core c).psw)
    (hf : o.flow = .next) (hs : o.shadow = none) (hl : o.late = none) (hk : o.keepPg = false) :
    issue c i s = changed t c (Core.finish x i.sig o) := by
  obtain ⟨hplace, hfits, hops, hsyl, -⟩ := asks_meets q hst hg
  rw [issue_runs s c i q _ o hplace hfits (by rw [hops, hsyl, ready_eq_noted q]; exact hrun)]
  exact retire_noted h x hf hs hl hk

include q in
/-- A fault undoes what its syllable has done to the stack (R40). -/
theorem ready_backTo (n : Nat) : (s.ready c n).modCore c (fun k => k.backTo ((s.ready c n).core c)) = s.ready c n := by
  have hpend := q.noPend
  have hwins := q.noNewWins
  have hspills := q.noSpills
  rw [quiet_ready_core q]
  refine modCore_id _ _ _ ?_
  rw [quiet_ready_core q]
  simp only [Core.backTo, Core.landList, hpend, List.filter_nil, List.foldl_nil, hwins, hspills]

include q in
/-- A syllable whose run ends in a fault: the exception is taken where the syllable began. -/
theorem issue_trapped {r : Trap} (hplace : placeCheck (s.core c) i.sig (s.portOk c i.sig.port) = none)
    (hins : (s.ready c i.sig.syl).runIns c i = .inr (s.ready c i.sig.syl, .trap r)) :
    issue c i s = (s.ready c i.sig.syl).takeTrap c r i.sig.syl := by
  have hland : ((s.ready c i.sig.syl).core c).landable = true := by
    rw [quiet_ready_core q]
    simp [Core.landable, q.noPend]
  rw [issue_quiet s c i q hplace, hins]
  simp [State.stopped, State.trapOr, hland]

include q in
/-- A syllable whose operands the stack does not hold (R50). -/
theorem issue_underflow (hplace : placeCheck (s.core c) i.sig (s.portOk c i.sig.port) = none) (hd : ¬ Deep s c i.sig.reach) :
    issue c i s = (s.ready c i.sig.syl).takeTrap c { vec := 15 } i.sig.syl := by
  have hm : ((s.ready c i.sig.syl).core c).micro = none := by rw [quiet_ready_core q]; exact q.noMicro
  have hd' : ¬ (i.sig.reach = 0 ∨ ((s.ready c i.sig.syl).core c).stk.sp + (i.sig.reach - 1) < sbaseOf ((s.ready c i.sig.syl).core c)) := by
    rw [quiet_ready_core q]
    exact hd
  have hflow : (underflow i.sig.reach).run c (s.ready c i.sig.syl) = .error (.trap { vec := 15 }) (s.ready c i.sig.syl) := by
    simp only [underflow, run_bind, run_getCore, if_neg hd', run_raise]
  have hprep : (prepare i.sig).run c (s.ready c i.sig.syl) = .error (.trap { vec := 15 }) (s.ready c i.sig.syl) := by
    simp only [prepare, run_bind, hflow]
  have hgone : (Stop.trap { vec := 15 } == Stop.gone) = false := rfl
  refine issue_trapped q hplace ?_
  unfold State.runIns
  simp only [hm, Option.isSome_none, Bool.false_eq_true, if_false, hprep, hgone, ready_backTo q]

include q hst hg in
/-- A syllable that faults outside a stepped instruction leaves nothing but its exception (R40). -/
theorem issue_faults {r : Trap} (hrun : (i.body ops).run c (s.noted c { syl := syl }) = .error (.trap r) (t.noted c x))
    (h : Idle t c (s.core c).psw) (hstep : x.step = none) (hspill : x.spills = []) :
    issue c i s = (s.ready c syl).takeTrap c r syl := by
  obtain ⟨hplace, hfits, hops, rfl, -⟩ := asks_meets q hst hg
  have hm : ((s.ready c i.sig.syl).core c).micro = none := by rw [quiet_ready_core q]; exact q.noMicro
  have hprep : (prepare i.sig).run c (s.ready c i.sig.syl) = .ok ops (s.ready c i.sig.syl) := by
    have h := run_prepare i.sig c (s.ready c i.sig.syl) (by rw [quiet_ready_core q]; exact ⟨hfits.read, hfits.deep, hfits.room, hfits.held⟩)
    rw [h, ← hops, quiet_ready_core q]
    rfl
  have hbody : (i.body ops).run c (s.ready c i.sig.syl) = .error (.trap r) (t.noted c x) := by rw [ready_eq_noted q]; exact hrun
  have hkeep : (Stop.trap r).keeps ((t.noted c x).core c) = false := by
    rw [noted_core h]
    simp [Stop.keeps, Core.noted, hstep, h.plain.noMicro]
  have hnone : ((t.noted c x).core c).spills = [] := by rw [noted_core h]; exact hspill
  refine issue_trapped q hplace ?_
  unfold State.runIns
  simp only [hm, Option.isSome_none, Bool.false_eq_true, if_false, hprep, hbody, hkeep, ready_backTo q, State.respill, hnone, List.drop_nil,
    List.foldl_nil]

/-! ### The retired core, in the forms that the statements use -/

theorem retired_noWins {k : Core} (h : k.wins = []) (syl takes : Nat) (push : List TWord) :
    { retired k syl takes push with wins := [] } = retired k syl takes push := by
  rw [← h]
  rfl

/-- Results of distance 1. -/
theorem finish_push {k : Core} (h : PlainCore k) (g : Sig) (push : List TWord) : k.finish { syl := g.syl } g { push := push } = retired k g.syl g.takes push := by
  rw [← retired_noWins h.noWins]
  rfl

/-- One result of distance d > 1. -/
theorem finish_late {k : Core} (h : PlainCore k) (hp : k.pend = []) (g : Sig) {d : Nat} (hd : 1 < d) (w : TWord) :
    k.finish { syl := g.syl } g { push := [w], delay := d } = k.lateStep g.syl g.takes d w := by
  obtain ⟨-, -, -, noWins, -, -, -, -, -, noMiss, -⟩ := h
  have hnow : ¬ d ≤ 1 := by omega
  have hstay : (Flow.next == .stay) = false := rfl
  have hdone : (Flow.next == .done) = false := rfl
  simp only [Core.finish, Core.pushOut, Core.lateStep, retired, hnow, if_false, hstay, hdone, Bool.or_false, Bool.false_eq_true, hp, noWins, noMiss]
  rcases Nat.eq_zero_or_pos g.takes with h0 | h0
  · simp [h0, List.range_succ]
  · simp [h0, Nat.ne_of_gt h0, List.range_succ]

include q hst hg in
/-- A syllable that pushes its results at once. -/
theorem issue_pushed (h : Idle t c (s.core c).psw) (hrun : (i.body ops).run c (s.noted c { syl := syl }) = .ok { push := push } (t.noted c { syl := syl })) :
    issue c i s = after t c syl takes push := by
  obtain ⟨-, -, -, hsyl, htakes⟩ := asks_meets q hst hg
  rw [issue_idle q hst hg hrun h rfl rfl rfl rfl, ← hsyl, ← htakes]
  exact changed_congr (finish_push h.plain _ _)

include q hst hg in
/-- A syllable that changes its core and pushes its results at once. -/
theorem issue_core {f : Core → Core} (h : Idle (s.modCore c f) c (s.core c).psw)
    (hrun : (i.body ops).run c (s.noted c { syl := syl }) = .ok { push := push } ((s.modCore c f).noted c { syl := syl })) :
    issue c i s = changed s c (fun k => retired (f k) syl takes push) := by
  rw [issue_pushed q hst hg h hrun]
  exact changed_modCore s c f fun k => retired k syl takes push

include q hst hg in
/-- A syllable with one result of distance d > 1. -/
theorem issue_late (h : Idle t c (s.core c).psw) {w : TWord} {d : Nat} (hd : 1 < d)
    (hrun : (i.body ops).run c (s.noted c { syl := syl }) = .ok { push := [w], delay := d } (t.noted c { syl := syl })) :
    issue c i s = afterLate t c syl takes d w := by
  obtain ⟨-, -, -, hsyl, htakes⟩ := asks_meets q hst hg
  rw [issue_idle q hst hg hrun h rfl rfl rfl rfl, afterLate_eq, ← hsyl, ← htakes]
  exact changed_congr (finish_late h.plain h.noPend _ hd w)

include q hst hg in
/-- A syllable that queues stores. -/
theorem issue_stored (h : Idle t c (s.core c).psw) {l : Core → List QStore} {w : Core → List StoreWin} {wins : List StoreWin}
    (hw : (wins.map fun x => { x with syl := syl }) = w (t.core c))
    (hrun : (i.body ops).run c (s.noted c { syl := syl }) = .ok { push := push } ((t.queue c (l (t.core c))).noted c { syl := syl, wins := wins })) :
    issue c i s = afterStores t c syl takes push l w := by
  obtain ⟨-, -, -, hsyl, htakes⟩ := asks_meets q hst hg
  rw [issue_idle q hst hg hrun (h.queue _) rfl rfl rfl rfl, State.queue, changed_modCore, afterStores]
  subst hsyl htakes
  refine changed_congr ?_
  rw [← hw]
  rfl

/-- The last step of a stepped instruction (R105), at its retirement. -/
theorem retire_stepped {p : Psw} (h : Idle t c p) {g : Sig} {l : Core → List QStore} {pg : Pgs} {spills : List (Nat × TWord)} :
    ((t.queue c (l (t.core c))).noted c { syl := g.syl, step := some pg, spills := spills }).retire c g { push := push } (!p.l) p.w =
      afterSteps t c g.syl g.takes push l := by
  rw [retire_noted (h.queue _) _ rfl rfl rfl rfl, State.queue, changed_modCore, afterSteps]
  refine changed_congr ?_
  rw [← retired_noWins h.plain.noWins]
  rfl

include q in
/-- A syllable whose preparation and program run: its retirement. -/
theorem issue_prepared {u : State} {l : List TWord} (hplace : placeCheck (s.core c) i.sig (s.portOk c i.sig.port) = none)
    (hprep : (prepare i.sig).run c (s.noted c { syl := i.sig.syl }) = .ok l t) (hrun : (i.body l).run c t = .ok o u) :
    issue c i s = u.retire c i.sig o (!(s.core c).psw.l) (s.core c).psw.w := by
  have hm : ((s.ready c i.sig.syl).core c).micro = none := by rw [quiet_ready_core q]; exact q.noMicro
  rw [← ready_eq_noted q] at hprep
  have hins : (s.ready c i.sig.syl).runIns c i = .inl (u, o) := by
    unfold State.runIns
    simp only [hm, Option.isSome_none, Bool.false_eq_true, if_false, hprep, hrun]
  rw [issue_quiet s c i q hplace, hins]

include q hst hg in
/-- A stepped instruction that ends in one step (R105). -/
theorem issue_stepped (h : Idle t c (s.core c).psw) {l : Core → List QStore} {pg : Pgs}
    (hrun : (i.body ops).run c (s.noted c { syl := syl }) =
      .ok { push := push } ((t.queue c (l (t.core c))).noted c { syl := syl, step := some pg })) :
    issue c i s = afterSteps t c syl takes push l := by
  obtain ⟨hplace, hfits, hops, rfl, rfl⟩ := asks_meets q hst hg
  rw [issue_runs s c i q _ _ hplace hfits (by rw [hops, ready_eq_noted q]; exact hrun)]
  exact retire_stepped h

end issue

end Sys2Proof.Machine
end

section
/-! PROOFS. The load class on words that the core's D-frames hold (R97, R98, R102, R118), and the statement O7. -/

namespace Sys2Proof.Machine

open Sys2Proof Sys2Proof.Safety

/-! ### Operands that are addresses -/

/-- A sound pointer passes where one is dereferenced (R26, R40). -/
theorem passes_pointer {o : Opd} (h : Sound o.w) (hz : hiZero o.w = true) (hodd : o.even = true ∨ ty o.w = tCONS → adr o.w % 2 = 0)
    (hk : o.store = true → kBit o.w = false) (hok : o.ok = true) (cust : Bool) (cuptr : Nat) (user : Bool) (hm : o.moved = false := by rfl)
    (hcode : o.code = false := by rfl) (hrref : o.rref = false := by rfl) : o.passes cust cuptr user = true := by
  obtain ⟨h1, h2⟩ := h
  have h3 : isReserved (ty o.w) = false := by simp [isReserved]; omega
  have h4 : isCustom (ty o.w) = false := by simp [isCustom]; omega
  have h5 : o.odd = false := by
    by_cases hc : o.even = true ∨ ty o.w = tCONS
    · simp [Opd.odd, hodd hc]
    · rw [not_or, Bool.not_eq_true] at hc
      simp [Opd.odd, hc]
  have h6 : (o.store && isPtr cuptr (ty o.w) && kBit o.w) = false := by
    cases hst : o.store
    · rfl
    · simp [hk hst]
  simp [Opd.passes, Opd.malformed, Opd.refused, h1, h3, h4, h5, h6, hz, hok, hm, hcode, hrref]

/-- A word that the core may store passes (R37). -/
theorem passes_moved {s : State} {c : Nat} {v : TWord} (h : MayStore s c v) (cust : Bool) (cuptr : Nat) (pos : Nat) :
    (movedOpd v pos).passes cust cuptr (!(s.core c).psw.l) = true := by
  rcases h with h | ⟨h1, h2⟩ <;> simp [Opd.passes, Opd.malformed, Opd.odd, Opd.refused, movedOpd, *]

/-- An operand that passes raises nothing. -/
theorem run_check_one {o : Opd} (u : State) (ho : ∀ cust cuptr user, o.passes cust cuptr user = true) : (check [o]).run c u = .ok () u :=
  run_check _ c u (List.forall_mem_cons.2 ⟨ho _ _ _, nofun⟩)

/-! ### Loads -/

section loads
variable {s t u : State} {c : Nat} {q : Psw} {x : Notes} {p v w : TWord} (h : Idle s c q)

theorem run_getCore_noted (h : Idle s c q) : getCore.run c (s.noted c x) = .ok ((s.core c).noted x) (s.noted c x) := by
  rw [run_getCore, noted_core h]

include h in
theorem run_fetchIns (hty : ty p = tLOC ∨ ty p = tVAR) (hp : Pointer s c p (ty p)) (hr : Reads s t c (adr p) w) (syl : Nat) (alloc : Bool) :
    ((fetchIns syl alloc).body [p]).run c (s.noted c x) = .ok { push := [w], delay := 3 } (t.noted c x) := by
  obtain ⟨-, hz, hodd, hset⟩ := hp
  have hs : Sound p := by rcases hty with hty | hty <;> exact sound_of_ty hty (by decide) (by decide)
  have hcheck : (check [locOpd p 0 false]).run c (s.noted c x) = .ok () (s.noted c x) :=
    run_check_one _ (passes_pointer (o := locOpd p 0 false) hs hz (fun h => hodd (h.resolve_left nofun)) nofun (by simpa [locOpd] using hty))
  obtain ⟨⟨lf, hh, rfl, rfl⟩, hw⟩ := hr
  have hb := run_barrier_noted (a := adr p) (x := x) (settled_sees ⟨lf, hh, rfl, rfl⟩ hw)
  simp only [fetchIns, opd, List.getD_cons_zero, run_bind, hcheck, run_resolve hset, run_getCore, run_xlate_noted h hh.core hh.leaf,
    run_readWord_noted h hh, hb, run_pure]

include h in
theorem run_pairIns (hp : Pointer s c p tCONS) {off : Nat} (hr : Reads s t c (adr p + off) w) (syl : Nat) :
    ((pairIns syl off).body [p]).run c (s.noted c x) = .ok { push := [w], delay := 3 } (t.noted c x) := by
  obtain ⟨hty, hz, hodd, hset⟩ := hp
  have hcheck : (check [listOpd p 0]).run c (s.noted c x) = .ok () (s.noted c x) :=
    run_check_one _ (passes_pointer (o := listOpd p 0) (sound_of_ty hty (by decide) (by decide)) hz (fun _ => hodd hty) nofun (by simp [listOpd, hty]))
  have hnil : (ty p == tNIL) = false := by rw [hty]; rfl
  simp only [pairIns, opd, List.getD_cons_zero, run_bind, hcheck, hnil, Bool.false_eq_true, if_false, run_resolve hset, run_load h hr, run_pure]

/-- CAR and CDR of NIL are NIL (R102). -/
theorem run_pairIns_nil (hty : ty p = tNIL) (syl off c : Nat) (s : State) :
    ((pairIns syl off).body [p]).run c s = .ok { push := [wNIL], delay := 3 } s := by
  have hcheck : (check [listOpd p 0]).run c s = .ok () s := run_check_one _ fun cust cuptr user => by
    have hp : isPtr cuptr tNIL = false := by simp [isPtr, isCustom, tNIL, tVAR, tCONS, tFUN, tLOC, tSTRUCT, tPROXY, tFWD, tFUTURE]
    simp [Opd.passes, Opd.malformed, Opd.odd, Opd.refused, listOpd, hty, hp, show (tNIL == tPOISON) = false from rfl,
      show (tNIL == tCONS) = false from rfl, show isReserved tNIL = false from rfl, show isCustom tNIL = false from rfl]
  have hnil : (ty p == tNIL) = true := by rw [hty]; rfl
  simp only [pairIns, opd, List.getD_cons_zero, run_bind, hcheck, hnil, if_true, run_pure]

include h in
theorem run_arg {n : Nat} (hr : Reads s t c (va48 ((sbaseOf (s.core c) : Int) - 1 - n)) w) (ops : List TWord) :
    ((iArg n).body ops).run c (s.noted c x) = .ok { push := [w], delay := 3 } (t.noted c x) := by
  have hb : sbaseOf ((s.core c).noted x) = sbaseOf (s.core c) := rfl
  simp only [iArg, run_bind, run_getCore_noted h, hb, run_load h hr, run_pure]

include h in
theorem run_fetch2 (hty : ty p = tLOC ∨ ty p = tCONS) (hp : Pointer s c p (ty p)) (heven : adr p % 2 = 0) (hv : Reads s t c (adr p) v)
    (hw : Reads t u c (adr p + 1) w) : (iFetch2.body [p]).run c (s.noted c x) = .ok { push := [v, w], delay := 3 } (u.noted c x) := by
  obtain ⟨-, hz, -, hset⟩ := hp
  have hs : Sound p := by rcases hty with hty | hty <;> exact sound_of_ty hty (by decide) (by decide)
  have hcheck : (check [loc2Opd p 0 false]).run c (s.noted c x) = .ok () (s.noted c x) :=
    run_check_one _ (passes_pointer (o := loc2Opd p 0 false) hs hz (fun _ => heven) nofun (by simpa [loc2Opd] using hty))
  simp only [iFetch2, opd, List.getD_cons_zero, run_bind, hcheck, run_resolve hset, run_load h hv, run_load (h.sees hv.1).1 hw, run_pure]

end loads

/-! ### The load class -/

/-- No upset strikes the core's frames. -/
theorem meets_none (s : State) (c : Nat) : s.meets c .none = s := by
  unfold State.meets
  split <;> rfl

theorem next_eq {s t : State} (h : s = t) : (.next s : Ans) = .next t := by rw [h]

section issue
variable {s t u : State} {c : Fin 256} {p w : TWord} (q : Quiet s c)

theorem Idle.reads {s t : State} {c a : Nat} {w : TWord} {r : Psw} (h : Idle s c r) (hr : Reads s t c a w) : Idle t c r := (h.sees hr.1).1

theorem exec_fetch (hst : Stacked s c [p] 1 0) (hty : ty p = tLOC ∨ ty p = tVAR) (hp : Pointer s c p (ty p)) (hr : Reads s t c (adr p) w)
     (q : Quiet s c) :
    exec (.fetch c .none) s = .next (afterLate t c 0x4000 1 3 w) ∧ exec (.pfetch c) s = .next (afterLate t c 0x4020 1 3 w) := by
  have h := idle_of_quiet q
  constructor
  · change (.next (issue c iFetch (s.meets c .none)) : Ans) = _
    rw [meets_none]
    exact next_eq (issue_late (i := iFetch) q hst rfl (h.reads hr) (by decide) (run_fetchIns h hty hp hr _ _))
  · exact next_eq (issue_late (i := iPfetch) q hst rfl (h.reads hr) (by decide) (run_fetchIns h hty hp hr _ _))

end issue

/-- The core that a FETCH2 leaves: both results are pending (R97). -/
def Core.fetched (v w : TWord) (p : TWord) (k : Core) : Core :=
  let r := retired k 0x4002 1 [p, wEMPTY]
  let slot (i : Nat) : Nat := va48 ((k.stk.sp + 1 : Nat) - 2) + i
  { r with pend := [{ slot := slot 1, val := v, arrived := true, remain := 3, gone := 0, sa := k.pc, syl := 0x4002 },
                    { slot := slot 0, val := w, arrived := true, remain := 3, gone := 0, sa := k.pc, syl := 0x4002 }] }

theorem finish_fetch2 {k : Core} (h : PlainCore k) (hp : k.pend = []) {p : TWord} (htop : k.stk.regs.take 1 = [p]) (v w : TWord) :
    k.finish { syl := 0x4002 } iFetch2.sig { push := [v, w], delay := 3 } = k.fetched v w p := by
  have hget : k.stk.regs[0]?.getD wEMPTY = p := by
    cases hr : k.stk.regs with
    | nil => rw [hr] at htop; cases htop
    | cons a l => rw [hr] at htop; simpa using htop
  have hnow : ¬ (3 : Nat) ≤ 1 := by decide
  have hstay : (Flow.next == .stay) = false := rfl
  have hdone : (Flow.next == .done) = false := rfl
  unfold Core.fetched
  rw [← retired_noWins h.noWins]
  simp [Core.finish, Core.pushOut, hp, h.noMiss, iFetch2, retired, List.range_succ, hget, hstay, hdone]

/-- Settles O7: one access, or two, of a core that meets nothing else, then the retirement of late results. -/
theorem loads : Obligations.Loads := by
  unfold Obligations.Loads
  refine ⟨fun s t c p w n q => ?_, fun s t u c p v w q hst hty hp heven hv hw => ?_⟩
  · have h := idle_of_quiet q
    refine ⟨fun hst hty hp hr => exec_fetch hst hty hp hr q, fun hst hp => ⟨fun hr => ?_, fun hr => ?_⟩, fun hst hty => ⟨?_, ?_⟩, fun hst hr => ?_⟩
    · exact next_eq (issue_late (i := iCar) q hst rfl (h.reads hr) (by decide) (run_pairIns h hp hr _))
    · exact next_eq (issue_late (i := iCdr) q hst rfl (h.reads hr) (by decide) (run_pairIns h hp hr _))
    · exact next_eq (issue_late (i := iCar) q hst rfl h (by decide) (run_pairIns_nil hty _ _ _ _))
    · exact next_eq (issue_late (i := iCdr) q hst rfl h (by decide) (run_pairIns_nil hty _ _ _ _))
    · exact next_eq (issue_late (i := iArg n.toNat) q hst (by simp [Sig.asks, iArg, Sig.easy]) (h.reads hr) (by decide) (run_arg h hr _))
  · have h := idle_of_quiet q
    obtain ⟨ht, hstk, -⟩ := h.sees hv.1
    obtain ⟨hu, hstk', -⟩ := ht.sees hw.1
    refine next_eq ((issue_idle (i := iFetch2) (syl := 0x4002) q hst rfl (run_fetch2 h hty hp heven hv hw) hu rfl rfl rfl rfl).trans ?_)
    exact changed_congr (finish_fetch2 hu.plain hu.noPend (by rw [hstk', hstk]; exact hst.top) v w)

end Sys2Proof.Machine
end

section
/-! PROOFS. Reads of headed objects by an index within LENGTH, BOUNDS outside it (R39, R41, R98, R102), and the statement O8. -/

namespace Sys2Proof.Machine

open Sys2Proof Sys2Proof.Safety

theorem pointer_settled {s : State} {c t : Nat} {p : TWord} (h : Pointer s c p t) : Settled s c p := h.2.2.2

theorem toNat_toInt_nonneg {v : W64} (h : 0 ≤ v.toInt) : v.toInt.toNat = v.toNat := by
  have hv := v.toInt_eq_toNat_cond
  split at hv <;> omega

theorem run_indexIn {i h : TWord} (h0 : 0 ≤ i.datum.toInt) (h1 : i.datum.toInt < hdrLen h) (pos c : Nat) (s : State) :
    (indexIn i pos h).run c s = .ok i.datum.toNat s := by
  rw [← toNat_toInt_nonneg h0, indexIn, fixVal, if_pos ⟨h0, h1⟩, run_pure]

/-- An index outside LENGTH (R98). -/
theorem run_indexIn_bounds {i h : TWord} (hout : ¬ (0 ≤ i.datum.toInt ∧ i.datum.toInt < hdrLen h)) (pos c : Nat) (s : State) :
    (indexIn i pos h).run c s = .error (.trap (tType sBOUNDS i pos 0)) s := by
  rw [indexIn, fixVal, if_neg hout, typeFault, run_raise]

theorem passes_fixOpd {w : TWord} (h : ty w = tFIX) (pos : Nat) (cust : Bool) (cuptr : Nat) (user : Bool) :
    (fixOpd w pos).passes cust cuptr user = true :=
  passes_fix h (by simpa [fixOpd] using h) _ _ _

section reads
variable {s t u : State} {c : Nat} {r : Psw} {x : Notes} {p i h w : TWord} (hi : Idle s c r) (hs : Sound p) (hp : Pointer s c p (ty p))

include hs hp in
/-- A pointer to an object of an accepted type passes. -/
theorem passes_object {ok : Bool} (hok : ok = true) (pos : Nat) (cust : Bool) (cuptr : Nat) (user : Bool) :
    Opd.passes cust cuptr user { w := p, pos := pos, deref := true, ok := ok } = true := by
  obtain ⟨-, hz, hodd, -⟩ := hp
  exact passes_pointer (o := { w := p, pos := pos, deref := true, ok := ok }) hs hz (fun h => hodd (h.resolve_left nofun)) nofun hok _ _ _

include hs hp in
/-- The operands of an access by index to an object. -/
theorem run_check_indexed (hty : ty i = tFIX) {ok : Bool} (hok : ok = true) (u : State) :
    (check [fixOpd i 0, { w := p, pos := 1, deref := true, ok := ok }]).run c u = .ok () u :=
  run_check _ _ _ (List.forall_mem_cons.2 ⟨passes_fixOpd hty _ _ _ _, List.forall_mem_cons.2 ⟨passes_object hs hp hok _ _ _ _, nofun⟩⟩)

include hi hs hp in
theorem run_vref (hty : ty i = tFIX) (hhead : isHeaded (s.cuptr c) (ty p) = true) (hh : HeaderAt s t c (adr p) h) (hf : hdrFits (ty p) h = true)
    (h0 : 0 ≤ i.datum.toInt) (h1 : i.datum.toInt < hdrLen h) (hr : Reads t u c (adr p + 1 + i.datum.toNat) w) :
    (iVref.body [i, p]).run c (s.noted c x) = .ok { push := [w], delay := 3 } (u.noted c x) := by
  have hcheck := run_check_indexed (c := c) hs hp hty (ok := isHeaded ((s.noted c x).cuptr c) (ty p)) hhead (s.noted c x)
  simp only [iVref, opd, List.getD_cons_zero, List.getD_cons_succ, headedOpd, run_bind, run_askS, hcheck, run_objHdr hi (pointer_settled hp) hh hf,
    run_indexIn h0 h1, run_load (hi.sees hh.1).1 hr, run_pure]

include hi hs hp in
theorem run_vref_bounds (hty : ty i = tFIX) (hhead : isHeaded (s.cuptr c) (ty p) = true) (hh : HeaderAt s t c (adr p) h)
    (hf : hdrFits (ty p) h = true) (hout : ¬ (0 ≤ i.datum.toInt ∧ i.datum.toInt < hdrLen h)) :
    (iVref.body [i, p]).run c (s.noted c x) = .error (.trap (tType sBOUNDS i 0 0)) (t.noted c x) := by
  have hcheck := run_check_indexed (c := c) hs hp hty (ok := isHeaded ((s.noted c x).cuptr c) (ty p)) hhead (s.noted c x)
  simp only [iVref, opd, List.getD_cons_zero, List.getD_cons_succ, headedOpd, run_bind, run_askS, hcheck, run_objHdr hi (pointer_settled hp) hh hf,
    run_indexIn_bounds hout]

include hi hs hp in
theorem run_loc (hty : ty i = tFIX) (hhead : isHeaded (s.cuptr c) (ty p) = true) (hh : HeaderAt s t c (adr p) h) (hf : hdrFits (ty p) h = true)
    (h0 : 0 ≤ i.datum.toInt) (h1 : i.datum.toInt < hdrLen h) :
    (iLoc.body [i, p]).run c (s.noted c x) =
      .ok { push := [⟨mkTag (kBit p) (eBit p) tLOC, w64 (adr p + 1 + i.datum.toNat)⟩], delay := 3 } (t.noted c x) := by
  have hhead' : isHeaded ((s.noted c x).cuptr c) (ty p) = true := hhead
  have hcheck := run_check_indexed (c := c) hs hp hty (ok := ty p == tCONS || (ty p == tVAR || ty p == tLOC) || true) (by simp) (s.noted c x)
  simp only [iLoc, opd, List.getD_cons_zero, List.getD_cons_succ, run_bind, run_askS, hhead', hcheck, run_resolve (pointer_settled hp), if_true,
    run_objHdr hi (pointer_settled hp) hh hf, run_indexIn h0 h1, run_pure]

/-- A LOC of a pair takes 0 and 1 only (R98). -/
theorem run_loc_pair_bounds (hp : Pointer s c p tCONS) (hty : ty i = tFIX) (h0 : i.datum.toInt ≠ 0) (h1 : i.datum.toInt ≠ 1) :
    (iLoc.body [i, p]).run c (s.noted c x) = .error (.trap (tType sBOUNDS i 0 0)) (s.noted c x) := by
  have hc : ty p = tCONS := hp.1
  have hhead : isHeaded ((s.noted c x).cuptr c) tCONS = false := by
    simp [isHeaded, isCustom, tCONS, tSYM, tFUN, tSTRUCT, tPROXY, tFUTURE]
  have hcheck := run_check_indexed (c := c) (sound_of_ty hc (by decide) (by decide)) (hc.symm ▸ hp) hty (ok := true) rfl (s.noted c x)
  have hcell : (tCONS == tVAR || tCONS == tLOC) = false := rfl
  simp [iLoc, opd, run_bind, run_askS, hc, hhead, hcheck, hcell, run_resolve (pointer_settled hp), fixVal, h0, h1, typeFault, run_raise]

include hi hs hp in
theorem run_vlen (hhead : isHeaded (s.cuptr c) (ty p) = true) (hh : HeaderAt s t c (adr p) h) (hf : hdrFits (ty p) h = true) :
    (iVlen.body [p]).run c (s.noted c x) = .ok { push := [fixN (vlenOf (ty p) h)], delay := 3 } (t.noted c x) := by
  have hcheck : (check [headedOpd ((s.noted c x).cuptr c) p 0 false]).run c (s.noted c x) = .ok () (s.noted c x) :=
    run_check_one _ (passes_object hs hp hhead _)
  simp only [iVlen, opd, List.getD_cons_zero, run_bind, run_askS, hcheck, run_objHdr hi (pointer_settled hp) hh hf, run_pure]

include hi hp in
theorem run_symIns (hty : ty p = tSYM) (hh : HeaderAt s t c (adr p) h) (hf : hdrFits (ty p) h = true) {off : Nat} (hr : Reads t u c (adr p + off) w)
    (syl : Nat) : ((symIns syl off).body [p]).run c (s.noted c x) = .ok { push := [w], delay := 3 } (u.noted c x) := by
  have hcheck : (check [symOpd p 0 false]).run c (s.noted c x) = .ok () (s.noted c x) :=
    run_check_one _ (passes_object (sound_of_ty hty (by decide) (by decide)) hp (by simp [hty]) _)
  simp only [symIns, opd, List.getD_cons_zero, run_bind, hcheck, run_objHdr hi (pointer_settled hp) hh hf, run_load (hi.sees hh.1).1 hr, run_pure]

end reads

/-- VLEN as the statement has it. -/
theorem vlenOf_eq (t : Nat) (h : TWord) : vlenOf t h = if t = tSTR ∨ t = tBVEC then 8 * hdrLen h - hdrSub h % 8 else hdrLen h := by
  simp [vlenOf]

/-- Settles O8: the header is read, then the index is held against it; a fault undoes what the header's read has left. -/
theorem objectReads : Obligations.ObjectReads := by
  unfold Obligations.ObjectReads
  refine ⟨fun s t u c p i h w q hp hh hf => ?_, fun s t c p i h q hst hty hs hp => ⟨fun hhead hh hf hout => ?_, fun hc h0 h1 => ?_⟩⟩
  · have hi := idle_of_quiet q
    have ht := (hi.sees hh.1).1
    refine ⟨fun hst hhead hs hty h0 h1 => ⟨fun hr => ?_, ?_⟩, fun hst hhead hs => ?_, fun hst hty => ⟨fun hr => ?_, fun hr => ?_⟩⟩
    · exact next_eq (issue_late (i := iVref) q hst rfl (ht.reads hr) (by decide) (run_vref hi hs hp hty hhead hh hf h0 h1 hr))
    · exact next_eq (issue_late (i := iLoc) q hst rfl ht (by decide) (run_loc hi hs hp hty hhead hh hf h0 h1))
    · rw [← vlenOf_eq]
      exact next_eq (issue_late (i := iVlen) q hst rfl ht (by decide) (run_vlen hi hs hp hhead hh hf))
    · exact next_eq (issue_late (i := iSymval) q hst rfl (ht.reads hr) (by decide) (run_symIns hi hp hty hh hf hr _))
    · exact next_eq (issue_late (i := iSymfn) q hst rfl (ht.reads hr) (by decide) (run_symIns hi hp hty hh hf hr _))
  · have hi := idle_of_quiet q
    exact next_eq (issue_faults (i := iVref) q hst rfl (run_vref_bounds hi hs hp hty hhead hh hf hout) (hi.sees hh.1).1 rfl rfl)
  · exact next_eq (issue_faults (i := iLoc) q hst rfl (run_loc_pair_bounds (hc ▸ hp) hty h0 h1) (idle_of_quiet q) rfl rfl)

end Sys2Proof.Machine
end

section
/-! PROOFS. Stores into the store queue without card mark or SATB entry, with the windows they open (R97, R102, R144, R248), and the
statement O9. -/

namespace Sys2Proof.Machine

open Sys2Proof Sys2Proof.Safety

section rules
variable {s t : State} {c a : Nat} {r : Psw} {x : Notes} {lf : Leaf} {v w : TWord} (h : Idle s c r)

/-- The word after one of the device's memory is no slot of the wings. -/
theorem place_succ {pa : Nat} (hp : place pa = .loc ∨ place pa = .priv) : place (pa + 1) ≠ .wings := by
  unfold place at *
  split_ifs at * <;> simp_all <;> omega

/-- What a store overwrites outside the wings. -/
theorem wordAt_outside {pa : Nat} (hp : place pa ≠ .wings) : s.wordAt c pa = s.coreSees c pa := by
  unfold State.wordAt
  split
  · exact absurd ‹place pa = .wings› hp
  · rfl

/-- A store that neither marks a card nor logs the old word (R319, R320). -/
theorem run_writeBarrier {old : TWord} (hb : NoBarrier s c old v) (a : Nat) :
    (writeBarrier a v old).run c (s.noted c x) = .ok () (s.noted c x) := by
  have hcol : (s.noted c x).colOn = s.colOn := rfl
  have hheap : ∀ w, (s.noted c x).heapPtr c w = s.heapPtr c w := fun _ => rfl
  have hlog : (satbLog old).run c (s.noted c x) = .ok () (s.noted c x) := by
    rcases hb with hb | ⟨hb, -⟩ <;> simp [satbLog, run_bind, run_askS, hcol, hheap, hb, run_pure]
  have hcard : (cardMark a v).run c (s.noted c x) = .ok () (s.noted c x) := by
    have hon : (s.colOn && s.heapPtr c v) = false := by rcases hb with hb | ⟨-, hb⟩ <;> simp [hb]
    simp only [cardMark, run_bind, run_askS, hcol, hheap, hon, run_pure]
  simp only [writeBarrier, run_bind, hlog, hcard]

include h in
theorem run_xlate_write (hs : Storable s c a lf) : (xlate a .write).run c (s.noted c x) = .ok lf (s.noted c x) :=
  run_xlate_noted h hs.core hs.leaf

include h in
theorem run_overwritten {old : TWord} (hold : s.coreSees c lf.pa = old) (hp : place lf.pa ≠ .wings) :
    (overwritten lf).run c (s.noted c x) = .ok old (s.noted c x) := by
  rw [overwritten, run_askS, wordAt_noted h, wordAt_outside hp, hold]

/-- The window of one store. -/
theorem opened_one (hs : Storable s c a lf) (v : TWord) (alloc : Bool) :
    s.opened c (queued (s.core c) lf v alloc) = [window (s.core c) 0 lf (s.coreSees c lf.pa)] := by
  simp only [State.opened, QStore.words, queued, List.map_nil, List.map_cons, wordAt_here hs.here]
  rfl

include h in
/-- An ordinary store (R81, R97). -/
theorem run_store (hs : Storable s c a lf) (hb : NoBarrier s c (s.coreSees c lf.pa) v) (alloc win : Bool) :
    (store a v alloc win).run c (s.noted c x) = .ok () ((s.queue c [queued (s.core c) lf v alloc]).noted c
      { x with wins := (if win then [window (s.core c) 0 lf (s.coreSees c lf.pa)] else []) ++ x.wins }) := by
  have hw : place lf.pa ≠ .wings := by rcases hs.here with hp | hp <;> rw [hp] <;> nofun
  rw [← opened_one hs v alloc]
  simp only [store, run_bind, run_xlate_write h hs, run_sceneSafe lf (s := s.noted c x) (by rw [noted_core h]; exact h.sc), run_target a lf true hs.here,
    run_overwritten h rfl hw, run_writeBarrier hb, 
    run_writeWord h hs (q := queued (s.core c) lf v alloc) rfl win]

include h in
/-- An initialising store (R81). -/
theorem run_initStore (hs : Storable s c a lf) (win : Bool) :
    (initStore a v win).run c (s.noted c x) = .ok () ((s.queue c [queued (s.core c) lf v true]).noted c
      { x with wins := (if win then [window (s.core c) 0 lf (s.coreSees c lf.pa)] else []) ++ x.wins }) := by
  rw [← opened_one hs v true]
  simp only [initStore, run_bind, run_xlate_write h hs, run_writeWord h hs (q := queued (s.core c) lf v true) rfl win]

include h in
/-- Two words stored as one access (R97). -/
theorem run_storePair (hs : Storable s c a lf) (hv : NoBarrier s c (s.coreSees c lf.pa) v) (hw : NoBarrier s c (s.coreSees c (lf.pa + 1)) w) :
    (storePair a v w true).run c (s.noted c x) = .ok () ((s.queue c [{ queued (s.core c) lf v true with more := [w] }]).noted c
      { x with wins := [window (s.core c) 0 lf (s.coreSees c lf.pa),
          window (s.core c) 0 { lf with pa := lf.pa + 1 } (s.coreSees c (lf.pa + 1))] ++ x.wins }) := by
  have hp : place lf.pa ≠ .wings := by rcases hs.here with hp | hp <;> rw [hp] <;> nofun
  have hopen : s.opened c { queued (s.core c) lf v true with more := [w] } = [window (s.core c) 0 lf (s.coreSees c lf.pa),
      window (s.core c) 0 { lf with pa := lf.pa + 1 } (s.coreSees c (lf.pa + 1))] := by
    simp only [State.opened, QStore.words, queued, List.map_nil, List.map_cons, wordAt_outside hp, wordAt_outside (place_succ hs.here)]
    rfl
  rw [← hopen]
  simp only [storePair, run_bind, run_xlate_write h hs, run_sceneSafe lf (s := s.noted c x) (by rw [noted_core h]; exact h.sc),
    run_target a lf true hs.here, run_overwritten h rfl hp, run_overwritten (lf := { lf with pa := lf.pa + 1 }) h rfl (place_succ hs.here),
    run_writeBarrier hv, run_writeBarrier hw, run_writeWord h hs rfl true, if_true]

/-! ### The store instructions -/

/-- The words that the core may store, as its checks see them while a syllable is in progress. -/
theorem mayStore_noted (h : Idle s c r) (hm : MayStore s c v) : MayStore (s.noted c x) c v := by
  unfold MayStore
  rw [noted_core h]
  exact hm

/-- A pointer to what may be written passes (R82). -/
theorem passes_written {p : TWord} (hs : Sound p) (hp : Pointer s c p (ty p)) (hk : kBit p = false) {ok : Bool} (hok : ok = true) (pos : Nat)
    (cust : Bool) (cuptr : Nat) (user : Bool) : Opd.passes cust cuptr user { w := p, pos := pos, deref := true, store := true, ok := ok } = true := by
  obtain ⟨-, hz, hodd, -⟩ := hp
  exact passes_pointer (o := { w := p, pos := pos, deref := true, store := true, ok := ok }) hs hz (fun h => hodd (h.resolve_left nofun))
    (fun _ => hk) hok _ _ _

section stores
variable {p : TWord} (h : Idle s c r) (hp : Pointer s c p (ty p)) (hk : kBit p = false) (hm : MayStore s c v)

include h hp hk hm in
theorem run_storeIns (hty : ty p = tLOC ∨ ty p = tVAR) (hs : Storable s c (adr p) lf) (hb : NoBarrier s c (s.coreSees c lf.pa) v)
    (syl : Nat) (alloc : Bool) :
    ((storeIns syl alloc).body [p, v]).run c (s.noted c x) = .ok { push := [] } ((s.queue c [queued (s.core c) lf v alloc]).noted c
      { x with wins := window (s.core c) 0 lf (s.coreSees c lf.pa) :: x.wins }) := by
  have hsound : Sound p := by rcases hty with hty | hty <;> exact sound_of_ty hty (by decide) (by decide)
  have hcheck : (check [locOpd p 0 true, movedOpd v 1]).run c (s.noted c x) = .ok () (s.noted c x) :=
    run_check _ _ _ (List.forall_mem_cons.2 ⟨passes_written hsound hp hk (by simpa using hty) _ _ _ _,
      List.forall_mem_cons.2 ⟨passes_moved (mayStore_noted h hm) _ _ _, nofun⟩⟩)
  have hsc : ((s.core c).noted x).psw.sc = false := h.sc
  simp only [storeIns, opd, List.getD_cons_zero, List.getD_cons_succ, run_bind, hcheck, run_resolve (pointer_settled hp), run_getCore_noted h, hsc,
    Bool.or_false, run_store h hs hb, if_true, List.cons_append, List.nil_append, run_pure]

include h hp hk hm in
theorem run_rplacIns (hty : ty p = tCONS) {off : Nat} (hs : Storable s c (adr p + off) lf) (hb : NoBarrier s c (s.coreSees c lf.pa) v) (syl : Nat) :
    ((rplacIns syl off).body [v, p]).run c (s.noted c x) = .ok { push := [] } ((s.queue c [queued (s.core c) lf v true]).noted c
      { x with wins := window (s.core c) 0 lf (s.coreSees c lf.pa) :: x.wins }) := by
  have hcheck : (check [movedOpd v 0, consOpd p 1]).run c (s.noted c x) = .ok () (s.noted c x) :=
    run_check _ _ _ (List.forall_mem_cons.2 ⟨passes_moved (mayStore_noted h hm) _ _ _,
      List.forall_mem_cons.2 ⟨passes_written (sound_of_ty hty (by decide) (by decide)) hp hk (by simp [hty]) _ _ _ _, nofun⟩⟩)
  simp only [rplacIns, opd, List.getD_cons_zero, List.getD_cons_succ, run_bind, hcheck, run_resolve (pointer_settled hp), run_store h hs hb,
    if_true, List.cons_append, List.nil_append, run_pure]

include h hp hk hm in
theorem run_store2 (hty : ty p = tLOC ∨ ty p = tCONS) (heven : adr p % 2 = 0) (hmw : MayStore s c w) (hs : Storable s c (adr p) lf)
    (hv : NoBarrier s c (s.coreSees c lf.pa) v) (hw : NoBarrier s c (s.coreSees c (lf.pa + 1)) w) :
    (iStore2.body [p, w, v]).run c (s.noted c x) = .ok { push := [] } ((s.queue c [{ queued (s.core c) lf v true with more := [w] }]).noted c
      { x with wins := [window (s.core c) 0 lf (s.coreSees c lf.pa),
          window (s.core c) 0 { lf with pa := lf.pa + 1 } (s.coreSees c (lf.pa + 1))] ++ x.wins }) := by
  have hsound : Sound p := by rcases hty with hty | hty <;> exact sound_of_ty hty (by decide) (by decide)
  obtain ⟨-, hz, -, hset⟩ := hp
  have hcheck : (check [loc2Opd p 0 true, movedOpd w 1, movedOpd v 2]).run c (s.noted c x) = .ok () (s.noted c x) :=
    run_check _ _ _ (List.forall_mem_cons.2 ⟨passes_pointer (o := loc2Opd p 0 true) hsound hz (fun _ => heven) (fun _ => hk) (by simpa [loc2Opd] using hty) _ _ _,
      List.forall_mem_cons.2 ⟨passes_moved (mayStore_noted h hmw) _ _ _, List.forall_mem_cons.2 ⟨passes_moved (mayStore_noted h hm) _ _ _, nofun⟩⟩⟩)
  simp only [iStore2, opd, List.getD_cons_zero, List.getD_cons_succ, run_bind, hcheck, run_resolve hset, run_storePair h hs hv hw, run_pure]

/-! Stores into an object. -/

variable {i hd : TWord} (hh : HeaderAt s t c (adr p) hd) (hf : hdrFits (ty p) hd = true)

include h hp hk hm hh hf in
theorem run_vset (hhead : isHeaded (s.cuptr c) (ty p) = true) (hsound : Sound p) (hi : ty i = tFIX) (h0 : 0 ≤ i.datum.toInt)
    (h1 : i.datum.toInt < hdrLen hd) (hraw : ty p = tSTR ∨ ty p = tBVEC ∨ ty p = tBIG → ty v = tRAW)
    (hs : Storable t c (adr p + 1 + i.datum.toNat) lf) (hb : NoBarrier t c (t.coreSees c lf.pa) v) :
    (iVset.body [v, i, p]).run c (s.noted c x) = .ok { push := [] } ((t.queue c [queued (t.core c) lf v true]).noted c
      { x with wins := window (t.core c) 0 lf (t.coreSees c lf.pa) :: x.wins }) := by
  have hvals : ∀ o ∈ (if rawBody (ty p) then [({ w := v, pos := 0, ok := ty v == tRAW } : Opd)] else []),
      o.passes ((s.noted c x).custLoaded c) ((s.noted c x).cuptr c) (!((s.noted c x).core c).psw.l) = true := by
    cases hr : rawBody (ty p)
    · nofun
    · have hv : ty v = tRAW := hraw (by simpa [rawBody, or_assoc] using hr)
      rintro o ho
      rw [if_pos rfl, List.mem_singleton] at ho
      rw [ho]
      exact passes_accepted (sound_of_ty hv (by decide) (by decide)) (by simp [hv]) _ _ _ _ _ _
  have hcheck : (check ((if rawBody (ty p) then [({ w := v, pos := 0, ok := ty v == tRAW } : Opd)] else []) ++
      [movedOpd v 0, fixOpd i 1, headedOpd ((s.noted c x).cuptr c) p 2 true])).run c (s.noted c x) = .ok () (s.noted c x) := by
    refine run_check _ _ _ (List.forall_mem_append.2 ⟨hvals, List.forall_mem_cons.2 ⟨passes_moved (mayStore_noted h hm) _ _ _,
      List.forall_mem_cons.2 ⟨passes_fixOpd hi _ _ _ _, List.forall_mem_cons.2 ⟨passes_written hsound hp hk hhead _ _ _ _, nofun⟩⟩⟩⟩)
  simp only [iVset, opd, List.getD_cons_zero, List.getD_cons_succ, run_bind, run_askS, hcheck, run_objHdr h (pointer_settled hp) hh hf,
    run_indexIn h0 h1, run_store (h.sees hh.1).1 hs hb, if_true, List.cons_append, List.nil_append, run_pure]

include h hp hk hm hh hf in
theorem run_symset (hty : ty p = tSYM) (hs : Storable t c (adr p + 2) lf) (hb : NoBarrier t c (t.coreSees c lf.pa) v) :
    (iSymset.body [v, p]).run c (s.noted c x) = .ok { push := [] } ((t.queue c [queued (t.core c) lf v true]).noted c
      { x with wins := window (t.core c) 0 lf (t.coreSees c lf.pa) :: x.wins }) := by
  have hcheck : (check [movedOpd v 0, symOpd p 1 true]).run c (s.noted c x) = .ok () (s.noted c x) :=
    run_check _ _ _ (List.forall_mem_cons.2 ⟨passes_moved (mayStore_noted h hm) _ _ _,
      List.forall_mem_cons.2 ⟨passes_written (sound_of_ty hty (by decide) (by decide)) hp hk (by simp [hty]) _ _ _ _, nofun⟩⟩)
  simp only [iSymset, opd, List.getD_cons_zero, List.getD_cons_succ, run_bind, hcheck, run_objHdr h (pointer_settled hp) hh hf,
    run_store (h.sees hh.1).1 hs hb, if_true, List.cons_append, List.nil_append, run_pure]

end stores
end rules

/-- Settles O9: each store enters the queue of an idle core, and its retirement ages no window and opens its own. -/
theorem stores : Obligations.Stores := by
  unfold Obligations.Stores
  refine ⟨fun s c p v lf q hm hb hk hp => ?_, fun s c p v w lf q hst hty hp hk heven hm hmw hs hv hw => ?_,
    fun s t c p i v hd lf q hm hp hk hh hf hb => ?_⟩
  · have h := idle_of_quiet q
    refine ⟨fun hst hty hs => ⟨?_, ?_⟩, fun hst hty => ⟨fun hs => ?_, fun hs => ?_⟩⟩
    · change (.next (issue c iStore (s.meets c .none)) : Ans) = _
      rw [meets_none]
      exact next_eq (issue_stored (i := iStore) q hst rfl h rfl (run_storeIns h hp hk hm hty hs hb _ _))
    · exact next_eq (issue_stored (i := iPstore) q hst rfl h rfl (run_storeIns h hp hk hm hty hs hb _ _))
    · exact next_eq (issue_stored (i := iRplaca) q hst rfl h rfl (run_rplacIns h hp hk hm hty hs hb _))
    · exact next_eq (issue_stored (i := iRplacd) q hst rfl h rfl (run_rplacIns h hp hk hm hty hs hb _))
  · have h := idle_of_quiet q
    exact next_eq (issue_stored (i := iStore2) q hst rfl h rfl (run_store2 h hp hk hm hty heven hmw hs hv hw))
  · have h := idle_of_quiet q
    have ht := (h.sees hh.1).1
    refine ⟨fun hst hhead hsound hi h0 h1 hraw hs => ?_, fun hst hty hs => ?_⟩
    · exact next_eq (issue_stored (i := iVset) q hst rfl ht rfl (run_vset h hp hk hm hh hf hhead hsound hi h0 h1 hraw hs hb))
    · exact next_eq (issue_stored (i := iSymset) q hst rfl ht rfl (run_symset h hp hk hm hh hf hty hs hb))

end Sys2Proof.Machine
end

section
/-! PROOFS. Allocation from a buffer that holds the object (R103, R104, R316), fences, GETTAG and SETTAG (R45, R47, R97, R101), and the
statement O11. -/

namespace Sys2Proof.Machine

open Sys2Proof Sys2Proof.Safety

/-! ### Initialising stores one after another -/

section rules
variable {s : State} {c a : Nat} {r : Psw} {x : Notes} {lf : Leaf} {v w : TWord}

/-- A queued store of another word leaves what the core sees at a pa (R276). -/
theorem coreSees_queue (h : Idle s c r) {q : QStore} {pa : Nat} (hq : q.word? pa = none) : (s.queue c [q]).coreSees c pa = s.coreSees c pa := by
  unfold State.coreSees
  rw [queue_core h]
  simp only [Core.withQueue, List.reverse_append, List.reverse_singleton, List.findSome?_append, List.findSome?_cons, hq, List.findSome?_nil,
    Option.none_or]
  rfl

/-- A store is queued in the same way after others. -/
theorem queued_queue (h : Idle s c r) (l : List QStore) (lf : Leaf) (v : TWord) (alloc : Bool) :
    queued ((s.queue c l).core c) lf v alloc = queued (s.core c) lf v alloc := by
  rw [queue_core h]
  rfl

theorem window_queue (h : Idle s c r) (l : List QStore) (lf : Leaf) (old : TWord) (syl : Nat) :
    window ((s.queue c l).core c) syl lf old = window (s.core c) syl lf old := by
  rw [queue_core h]
  rfl

/-- Words initialised to one value: one queued store each. -/
theorem run_initFill (n : Nat) : ∀ {s : State} {a : Nat} {lf : Nat → Leaf}, Idle s c r → (∀ i, i < n → Storable s c (a + i) (lf i)) →
    (s.core c).mem.sq.length + n ≤ 8 → (initFill n a v).run c (s.noted c x) =
      .ok () ((s.queue c ((List.range n).map fun i => queued (s.core c) (lf i) v true)).noted c x) := by
  induction n with
  | zero =>
    intro s a lf h _ _
    simp only [initFill, run_pure, List.range_zero, List.map_nil, queue_nil]
  | succ n ih =>
    intro s a lf h hs hroom
    have hfirst := run_initStore (v := v) (x := x) h (hs 0 (by omega)) false
    have hcore := queue_core h [queued (s.core c) (lf 0) v true]
    have hrest := ih (s := s.queue c [queued (s.core c) (lf 0) v true]) (a := a + 1) (lf := fun i => lf (i + 1)) (h.queue _)
      (fun i hi => by
        have hstep := Storable.queue h (hs (i + 1) (by omega)) (l := [queued (s.core c) (lf 0) v true]) (by simp; omega)
        rwa [show a + (i + 1) = a + 1 + i by omega] at hstep)
      (by rw [hcore]; simp [Core.withQueue]; omega)
    simp only [Nat.add_zero, Bool.false_eq_true, if_false, List.nil_append] at hfirst
    simp only [initFill, run_bind, hfirst, hrest, queued_queue h, queue_queue, List.range_succ_eq_map, List.map_cons, List.map_map,
      List.singleton_append, Function.comp_def, Nat.succ_eq_add_one]

/-- The core with AB past an object of n words (R104). -/
def Core.allocated (n : Nat) (k : Core) : Core := { k with sr := { k.sr with ab := k.sr.ab + w64 n } }

theorem Idle.allocated (h : Idle s c r) (n : Nat) : Idle (s.modCore c (Core.allocated n)) c r :=
  h.modCore (fun k => ⟨k.1, k.2, k.3, k.4, k.5, k.6, k.7, k.8, k.9, k.10, k.11, k.12⟩) rfl rfl

theorem run_allocDone (n : Nat) : (allocDone n).run c (s.noted c x) = .ok () ((s.modCore c (Core.allocated n)).noted c x) :=
  run_modMe_noted (f := Core.allocated n) fun _ => rfl

theorem run_allocRoom (h : Idle s c r) {n : Nat} (hb : bufferHolds (s.core c) n = true) :
    (allocRoom n).run c (s.noted c x) = .ok (s.core c).sr.ab.toNat (s.noted c x) := by
  have hb' : bufferHolds ((s.core c).noted x) n = true := hb
  simp only [allocRoom, run_bind, run_getCore_noted h, hb', if_true, run_pure]
  rfl

/-- The E bit of an object at a va (R316). -/
def State.newEpoch (s : State) (a : Nat) : Bool := (s.regionOf a).elim false fun n => rEpoch (s.region0 n)

theorem regionOf_modCore (f : Core → Core) (a : Nat) : (s.modCore c f).regionOf a = s.regionOf a := by
  have hbase : (s.modCore c f).fld f_COL_HEAPBASE_BASE 0 = s.fld f_COL_HEAPBASE_BASE 0 := rfl
  simp only [State.regionOf, hbase]

theorem rd_modCore (f : Core → Core) (pa : Nat) : (s.modCore c f).rd pa = s.rd pa := rfl

theorem region0_modCore (f : Core → Core) (n : Nat) : (s.modCore c f).region0 n = s.region0 n := congrArg TWord.datum (rd_modCore f _)

theorem newEpoch_modCore (f : Core → Core) (a : Nat) : (s.modCore c f).newEpoch a = s.newEpoch a := by
  rw [State.newEpoch, State.newEpoch, regionOf_modCore]
  simp only [region0_modCore]

theorem newEpoch_noted (a : Nat) : (s.noted c x).newEpoch a = s.newEpoch a := newEpoch_modCore _ _

theorem newEpoch_queue (l : List QStore) (a : Nat) : (s.queue c l).newEpoch a = s.newEpoch a := newEpoch_modCore _ _

theorem run_epochAt (a c : Nat) (s : State) : (epochAt a).run c s = .ok (s.newEpoch a) s := by
  rw [epochAt, run_askS, State.newEpoch]
  cases s.regionOf a <;> rfl

/-- CONS (R104). -/
theorem run_cons (h : Idle s c r) {lf : Nat → Leaf} {pa : Nat} (hpa : ∀ i, (lf i).pa = pa + i) (hv : MayStore s c v) (hw : MayStore s c w)
    (hb : bufferHolds (s.core c) 2 = true) (hroom : (s.core c).mem.sq.length < 7)
    (hs : ∀ i, i < 2 → Storable s c ((s.core c).sr.ab.toNat + i) (lf i)) :
    (iCons.body [w, v]).run c (s.noted c x) = .ok { push := [⟨mkTag false (s.newEpoch (s.core c).sr.ab.toNat) tCONS, w64 (s.core c).sr.ab.toNat⟩] }
      (((s.queue c [queued (s.core c) (lf 0) v true, queued (s.core c) (lf 1) w true]).modCore c (Core.allocated 2)).noted c
        { x with wins := window (s.core c) 0 (lf 1) (s.coreSees c (pa + 1)) :: window (s.core c) 0 (lf 0) (s.coreSees c pa) :: x.wins }) := by
  have hcheck : (check [movedOpd w 0, movedOpd v 1]).run c (s.noted c x) = .ok () (s.noted c x) :=
    run_check _ _ _ (List.forall_mem_cons.2 ⟨passes_moved (mayStore_noted h hw) _ _ _,
      List.forall_mem_cons.2 ⟨passes_moved (mayStore_noted h hv) _ _ _, nofun⟩⟩)
  have hfirst := run_initStore (v := v) (x := x) h (hs 0 (by omega)) true
  have hsecond := run_initStore (v := w) (x := { x with wins := window (s.core c) 0 (lf 0) (s.coreSees c pa) :: x.wins }) (h.queue _)
    (Storable.queue h (hs 1 (by omega)) (l := [queued (s.core c) (lf 0) v true]) (by simp; omega)) true
  have hold : (s.queue c [queued (s.core c) (lf 0) v true]).coreSees c (pa + 1) = s.coreSees c (pa + 1) :=
    coreSees_queue h (by simp [QStore.word?, queued, hpa])
  simp only [hpa 0, hpa 1, Nat.add_zero, hold, queued_queue h, window_queue h, queue_queue, if_true, List.singleton_append] at hfirst hsecond
  simp only [iCons, opd, List.getD_cons_zero, List.getD_cons_succ, run_bind, hcheck, allocPair, run_allocRoom h hb, hfirst, hsecond, run_allocDone,
    run_epochAt, newEpoch_noted, newEpoch_modCore,
    newEpoch_queue, run_pure]

/-- What ALLOC takes from a fix2 that names VEC: the type and SUBTYPE 0; a VEC is no PROXY, and its words are EMPTY. -/
theorem vecDatum : bits (fixN tVEC).datum 5 0 = tVEC ∧ bits (fixN tVEC).datum 15 8 = 0 ∧ (tVEC == tPROXY) = false ∧
    (tVEC == tSTR || tVEC == tBVEC || tVEC == tBIG) = false := by decide

/-- A VEC of at most six words passes ALLOC's checks (R103). -/
theorem allocBad_vec (cu : Nat) {len : Nat} (hlen : len ≤ 6) : allocBad cu len (fixN tVEC).datum = none := by
  have hhead : isHeaded cu tVEC = true := by simp [isHeaded, tVEC, tSYM, tFUN]
  have hd : bits (fixN tVEC).datum 63 16 = 0 ∧ bits (fixN tVEC).datum 7 6 = 0 ∧ bits (fixN tVEC).datum 5 0 = tVEC := by decide
  have ht : (tVEC == tRAT) = false ∧ (tVEC == tCPX) = false ∧ (tVEC == tPROXY) = false ∧ (tVEC == tFUTURE) = false ∧ (tVEC == tSTR) = false ∧
    (tVEC == tBVEC) = false ∧ (tVEC == tSYM) = false ∧ (tVEC == tBIG) = false ∧ (tVEC == tFUN) = false := by decide
  have h0 : ¬ ((len : Int) < 0) := by omega
  simp [allocBad, hd, ht, hhead, h0]
  omega

/-- ALLOC of a short VEC (R103). -/
theorem run_alloc (h : Idle s c r) {lf : Nat → Leaf} {len : Nat} (hlen : len ≤ 6) (hb : bufferHolds (s.core c) (objSize len) = true)
    (hroom : (s.core c).mem.sq.length + len < 8) (hs : ∀ i, i ≤ len → Storable s c ((s.core c).sr.ab.toNat + i) (lf i)) :
    (iAlloc.body [fixN tVEC, fixN len]).run c (s.noted c x) =
      .ok { push := [⟨mkTag false (s.newEpoch (s.core c).sr.ab.toNat) tVEC, w64 (s.core c).sr.ab.toNat⟩] }
      (((s.queue c (queued (s.core c) (lf 0) (mkHdr 0 len) true :: (List.range len).map fun i => queued (s.core c) (lf (i + 1)) wEMPTY true)).modCore c
        (Core.allocated (objSize len))).noted c x) := by
  have hcheck : (check [{ w := fixN tVEC, pos := 0, ok := ty (fixN tVEC) == tFIX }, { w := fixN len, pos := 1, ok := ty (fixN len) == tFIX }]).run c
      (s.noted c x) = .ok () (s.noted c x) :=
    run_check _ _ _ (List.forall_mem_cons.2 ⟨passes_fix rfl rfl _ _ _, List.forall_mem_cons.2 ⟨passes_fix rfl rfl _ _ _, nofun⟩⟩)
  have hbad : ∀ cu, allocBad cu (fixVal (fixN len)) (fixN tVEC).datum = none := fun cu => by
    rw [fixVal_fixN (by omega)]
    exact allocBad_vec cu hlen
  have hcore := queue_core h [queued (s.core c) (lf 0) (mkHdr 0 len) true]
  have hfirst := run_initStore (v := mkHdr 0 len) (x := x) h (hs 0 (by omega)) false
  have hrest := run_initFill (v := wEMPTY) (x := x) len (s := s.queue c [queued (s.core c) (lf 0) (mkHdr 0 len) true])
    (a := (s.core c).sr.ab.toNat + 1) (lf := fun i => lf (i + 1)) (h.queue _)
    (fun i hi => by
      have hstep := Storable.queue h (hs (i + 1) (by omega)) (l := [queued (s.core c) (lf 0) (mkHdr 0 len) true]) (by simp; omega)
      rwa [show (s.core c).sr.ab.toNat + (i + 1) = (s.core c).sr.ab.toNat + 1 + i by omega] at hstep)
    (by rw [hcore]; simp [Core.withQueue]; omega)
  have hsize : ¬ 32768 < objSize len := by unfold objSize; omega
  have hdatum : (fixN len).datum.toNat = len := by
    rw [fixN, word, w64, BitVec.toNat_ofNat, Nat.mod_eq_of_lt (by omega)]
  obtain ⟨htype, hsub, hproxy, hraw⟩ := vecDatum
  simp only [Nat.add_zero, Bool.false_eq_true, if_false, List.nil_append] at hfirst
  simp only [queued_queue h, queue_queue, List.singleton_append] at hrest
  simp only [iAlloc, opd, List.getD_cons_zero, List.getD_cons_succ, run_bind, hcheck, allocate, run_askS, hbad, hdatum, hsize, htype, hsub, hproxy,
    hraw, Bool.false_and, Bool.false_eq_true, if_false, run_allocRoom h hb, hfirst, hrest, run_allocDone, run_epochAt, newEpoch_noted, newEpoch_modCore,
    newEpoch_queue, run_pure]

end rules

/-! ### SETTAG -/

section tags
variable {w f : TWord}

/-- The tag byte that SETTAG makes of its control word. -/
theorem tagByte_eq (d : W64) : BitVec.ofNat 8 (bits d 7 0) = d.setWidth 8 := by
  apply BitVec.eq_of_toNat_eq
  rw [bits_low, BitVec.toNat_ofNat, BitVec.toNat_setWidth, Nat.mod_mod]

theorem ty_mkTag {t : Nat} (ht : t < 64) (k e : Bool) : (mkTag k e t).toNat % 64 = t := by
  rw [mkTag, BitVec.toNat_ofNat]
  cases k <;> cases e <;> simp [b2n] <;> omega

/-- A type that has a datum keeps it (R47). -/
theorem retag_keeps {tag : BitVec 8} {t : Nat} (ht : tag.toNat % 64 = t) (h : ¬ (t = tNIL ∨ t = tTRUE ∨ t = tUNB ∨ t = tEMPTY)) (d : W64) :
    retag tag d = ⟨tag, d⟩ := by
  simp only [not_or] at h
  simp [retag, ht, h]

variable (hw : Sound w) (hf : ty f = tFIX) (ht : f.datum.toNat % 64 < 0x20)

/-- Whether a SETTAG makes a read-only view at user level (R46). -/
def viewed (p : Psw) (w f : TWord) : Bool := !p.l && f.datum.toNat % 64 == ty w && bit f.datum 7

include hw hf ht in
/-- A SETTAG that is permitted: a view, or a type that this level may make. -/
theorem run_settag (hd : ¬ (f.datum.toNat % 64 = tNIL ∨ f.datum.toNat % 64 = tTRUE ∨ f.datum.toNat % 64 = tUNB ∨ f.datum.toNat % 64 = tEMPTY))
    (hc : f.datum.toNat % 64 ≠ tCHR) (s : State) (c : Nat) {v : Bool} (hv : viewed (s.core c).psw w f = v)
    (hp : v = true ∨ tagPermit (s.core c).psw (f.datum.toNat % 64) w.datum = true) :
    (iSettag.body [f, w]).run c s =
      .ok { push := [⟨if v then mkTag true (eBit w) (f.datum.toNat % 64) else f.datum.setWidth 8, w.datum⟩] } s := by
  have hcheck : (check [fixOpd f 0]).run c s = .ok () s := run_check_one _ (passes_fixOpd hf 0)
  have hcheckw : (check [{ w := w, pos := 1 }]).run c s = .ok () s := run_check_one _ (passes_sound hw · · · 1 0)
  have hres : isReserved (f.datum.toNat % 64) = false := by simp [isReserved]; omega
  have hcust : isCustom (f.datum.toNat % 64) = false := by simp [isCustom]; omega
  have hchr : (f.datum.toNat % 64 == tCHR) = false := by simpa using hc
  have htag : (f.datum.setWidth 8).toNat % 64 = f.datum.toNat % 64 := by rw [BitVec.toNat_setWidth]; omega
  have hty : bits f.datum 5 0 = f.datum.toNat % 64 := bits_low _ 5
  have hdenied : (!v && !tagPermit (s.core c).psw (f.datum.toNat % 64) w.datum) = false := by rcases hp with hp | hp <;> simp [hp]
  unfold viewed at hv
  simp only [iSettag, opd, List.getD_cons_zero, List.getD_cons_succ, run_bind, hcheck, run_askS, hty, hres, hcust, Bool.false_and, Bool.false_eq_true,
    if_false, hcheckw, run_getCore, hv, hdenied, hchr, run_pure, tagByte_eq]
  cases v
  · simp only [Bool.false_eq_true, if_false, retag_keeps htag hd]
  · simp only [if_true, retag_keeps (ty_mkTag (by omega) _ _) hd]

include hw hf ht in
/-- A SETTAG that is denied (R45). -/
theorem run_settag_denied (s : State) (c : Nat) (hv : viewed (s.core c).psw w f = false)
    (hp : tagPermit (s.core c).psw (f.datum.toNat % 64) w.datum = false) :
    (iSettag.body [f, w]).run c s = .error (.trap { vec := 8, sub := 6, tag := (f.datum.setWidth 8).toNat }) s := by
  have hcheck : (check [fixOpd f 0]).run c s = .ok () s := run_check_one _ (passes_fixOpd hf 0)
  have hcheckw : (check [{ w := w, pos := 1 }]).run c s = .ok () s := run_check_one _ (passes_sound hw · · · 1 0)
  have hres : isReserved (f.datum.toNat % 64) = false := by simp [isReserved]; omega
  have hcust : isCustom (f.datum.toNat % 64) = false := by simp [isCustom]; omega
  have hty : bits f.datum 5 0 = f.datum.toNat % 64 := bits_low _ 5
  unfold viewed at hv
  simp only [iSettag, opd, List.getD_cons_zero, List.getD_cons_succ, run_bind, hcheck, run_askS, hty, hres, hcust, Bool.false_and, Bool.false_eq_true,
    if_false, hcheckw, run_getCore, hv, hp, Bool.not_false, Bool.and_self, if_true, run_raise, tagByte_eq]

end tags

/-- A SETTAG's view is one at user level. -/
theorem viewed_iff (p : Psw) (w f : TWord) : viewed p w f = true ↔ p.l = false ∧ f.datum.toNat % 64 = ty w ∧ bit f.datum 7 = true := by
  simp [viewed, and_assoc]

theorem settags {w f : TWord} (hw : Sound w) (hf : ty f = tFIX)
    (hd : ¬ (f.datum.toNat % 64 = tNIL ∨ f.datum.toNat % 64 = tTRUE ∨ f.datum.toNat % 64 = tUNB ∨ f.datum.toNat % 64 = tEMPTY))
    (ht : f.datum.toNat % 64 < 0x20) :
    let tag : BitVec 8 := f.datum.setWidth 8
    let t := f.datum.toNat % 64
    let view : Prop := t = ty w ∧ bit f.datum 7 = true
    (t = tRAW ∨ t = tFIX ∨ t = tFLO → ¬ view → Gives .settag 0x4031 [f, w] 2 0 [⟨tag, w.datum⟩]) ∧
    (t ≠ tCHR → view → Leads .settag [f, w] 2 0 (fun s c => (s.core c).psw.l = false)
      (fun s c => after s c 0x4031 2 [⟨mkTag true (eBit w) t, w.datum⟩])) ∧
    (t ≠ tCHR → t ≠ tCAP → Leads .settag [f, w] 2 0 (fun s c => (s.core c).psw.l = true)
      (fun s c => after s c 0x4031 2 [⟨tag, w.datum⟩])) ∧
    (openType t = false → ¬ view →
      Raises .settag 0x4031 [f, w] 2 0 (fun s c => (s.core c).psw.l = false) { vec := 8, sub := 6, tag := tag.toNat }) := by
  intro tag t view
  have hpsw : ∀ {s : State} {c : Nat}, Quiet s c → ((s.noted c { syl := 0x4031 }).core c).psw.l = (s.core c).psw.l := fun q => by
    rw [noted_core (idle_of_quiet q)]
    rfl
  have hgives : ∀ {s : State} {c : Fin 256} {v : Bool}, Quiet s c → Stacked s c [f, w] 2 0 → t ≠ tCHR →
      viewed ((s.noted c { syl := 0x4031 }).core c).psw w f = v →
      (v = true ∨ tagPermit ((s.noted c { syl := 0x4031 }).core c).psw t w.datum = true) →
      exec (.settag c) s = .next (after s c 0x4031 2 [⟨if v then mkTag true (eBit w) t else tag, w.datum⟩]) :=
    fun q hst hc hv hp => next_eq (issue_pushed (i := iSettag) q hst rfl (idle_of_quiet q) (run_settag hw hf ht hd hc _ _ hv hp))
  refine ⟨fun hopen hno s c q hst _ => ?_, fun hc hyes s c q hst hl => ?_, fun hc hcap s c q hst hl => ?_, fun hopen hno s c q hst hl => ?_⟩
  · refine hgives (v := false) q hst ?_ ?_ (.inr ?_)
    · rcases hopen with h | h | h <;> rw [h] <;> decide
    · rw [← Bool.not_eq_true, viewed_iff]
      exact fun h => hno h.2
    · rcases hopen with h | h | h <;> simp [tagPermit, openType, h]
  · exact hgives (v := true) q hst hc ((viewed_iff _ _ _).2 ⟨by rw [hpsw q]; exact hl, hyes⟩) (.inl rfl)
  · refine hgives (v := false) q hst hc ?_ (.inr ?_)
    · rw [← Bool.not_eq_true, viewed_iff, hpsw q, hl]
      exact fun h => absurd h.1 (by decide)
    · have hcap' : (t == tCAP) = false := by simpa using hcap
      simp [tagPermit, hpsw q, hl, hcap']
  · refine next_eq (issue_faults (i := iSettag) q hst rfl (run_settag_denied hw hf ht _ _ ?_ ?_) (idle_of_quiet q) rfl rfl)
    · rw [← Bool.not_eq_true, viewed_iff]
      exact fun h => hno h.2
    · simp [tagPermit, hpsw q, hl, show openType (f.datum.toNat % 64) = false from hopen]

/-! ### Fences -/

/-- The core after a fence that orders later stores (R276, R279), and where `full`, later accesses. -/
def Core.fenced (full : Bool) (k : Core) : Core := { k with mem := { k.mem with epoch := k.mem.epoch + 1, fence := full || k.mem.fence } }

theorem exec_fence {s : State} {c : Nat} (q : Quiet s c) (hst : Stacked s c [] 0 0) {i : Ins} {syl : Nat} (hg : i.sig.asks syl 0 0 0 = true)
    (full : Bool) (hrun : ∀ ops u, (i.body ops).run c u = .ok { push := [] } (u.modCore c (Core.fenced full))) :
    issue c i s = changed s c (fun k => retired (k.fenced full) syl 0 []) := by
  refine issue_core q hst hg ((idle_of_quiet q).modCore (fun k => ⟨k.1, k.2, k.3, k.4, k.5, k.6, k.7, k.8, k.9, k.10, k.11, k.12⟩) rfl rfl) ?_
  rw [hrun, State.noted, State.noted, modCore_modCore, modCore_modCore]
  rfl

section buffer
variable {s : State} {c : Fin 256} {v w : TWord} {lf : Nat → Leaf} {pa : Nat} (q : Quiet s c)

include q in
/-- CONS from the buffer. -/
theorem exec_cons (hst : Stacked s c [w, v] 2 0) (hpa : ∀ i, (lf i).pa = pa + i) (hv : MayStore s c v) (hw : MayStore s c w)
    (hb : bufferHolds (s.core c) 2 = true) (hroom : (s.core c).mem.sq.length < 7)
    (hs : ∀ i, i < 2 → Storable s c ((s.core c).sr.ab.toNat + i) (lf i)) {e : Bool} (he : s.newEpoch (s.core c).sr.ab.toNat = e) :
    exec (.cons c) s = .next (changed s c fun k =>
      let r := Core.withQueue (retired k 0x3002 2 [⟨mkTag false e tCONS, w64 (s.core c).sr.ab.toNat⟩])
        [queued k (lf 0) v true, queued k (lf 1) w true]
      { r with sr := { r.sr with ab := k.sr.ab + 2 }
               wins := [window k 0x3002 (lf 1) (s.coreSees c (pa + 1)), window k 0x3002 (lf 0) (s.coreSees c pa)] }) := by
  have h := idle_of_quiet q
  refine next_eq ((issue_idle (i := iCons) (syl := 0x3002) q hst rfl (run_cons h hpa hv hw hb hroom hs) ((h.queue _).allocated 2)
    rfl rfl rfl rfl).trans ?_)
  rw [State.queue, changed_modCore, changed_modCore, he]
  exact changed_congr rfl

include q in
/-- ALLOC of a short VEC from the buffer. -/
theorem exec_alloc {len : Nat} (hst : Stacked s c [fixN tVEC, fixN len] 2 4) (hlen : len ≤ 6) (hb : bufferHolds (s.core c) (objSize len) = true)
    (hroom : (s.core c).mem.sq.length + len < 8) (hs : ∀ i, i ≤ len → Storable s c ((s.core c).sr.ab.toNat + i) (lf i)) {e : Bool}
    (he : s.newEpoch (s.core c).sr.ab.toNat = e) :
    exec (.alloc c) s = .next (changed s c fun k =>
      let r := Core.withQueue (retired k 0x3010 2 [⟨mkTag false e tVEC, w64 (s.core c).sr.ab.toNat⟩])
        (queued k (lf 0) (mkHdr 0 len) true :: (List.range len).map fun i => queued k (lf (i + 1)) wEMPTY true)
      { r with sr := { r.sr with ab := k.sr.ab + w64 (objSize len) } }) := by
  have h := idle_of_quiet q
  refine next_eq ((issue_idle (i := iAlloc) (syl := 0x3010) q hst rfl (run_alloc h hlen hb hroom hs) ((h.queue _).allocated _) rfl rfl rfl rfl).trans ?_)
  rw [State.queue, changed_modCore, changed_modCore, he]
  refine changed_congr ?_
  rw [← retired_noWins h.plain.noWins]
  rfl

end buffer

/-- Settles O11: the words of a new object are queued one by one, then AB passes it; fences change the core alone, and SETTAG is decided by its
control word. -/
theorem allocationFencesTags : Obligations.AllocationFencesTags := by
  unfold Obligations.AllocationFencesTags
  refine ⟨fun s c v w pa mt tte q => ⟨fun hst hv hw hb hroom hs => ?_, fun len hst hlen h6 htype hb hroom hs => ?_⟩, ?_, ?_, ?_, fun w f hw hf => ⟨?_, ?_⟩⟩
  · refine exec_cons q hst (fun _ => rfl) hv hw hb hroom hs ?_
    rw [State.newEpoch]
    cases s.regionOf (s.core c).sr.ab.toNat <;> rfl
  · subst hlen htype
    refine exec_alloc q hst h6 hb hroom hs ?_
    rw [State.newEpoch]
    cases s.regionOf (s.core c).sr.ab.toNat <;> rfl
  · exact gives_of iFenceAcq (fun _ _ => rfl) rfl rfl rfl rfl rfl rfl fun _ _ _ => rfl
  · exact fun s c q hst _ => next_eq (exec_fence (i := iFenceRel) q hst rfl false fun _ _ => rfl)
  · exact fun s c q hst _ => next_eq (exec_fence (i := iFenceFull) q hst rfl true fun _ _ => rfl)
  · refine gives_of iGettag (fun _ _ => rfl) rfl rfl rfl rfl rfl rfl fun s c _ => ?_
    have hcheck := run_check_plain (l := [w]) (by simpa using hw) 0 c s
    simp only [iGettag, run_bind, hcheck, run_pure]
    rfl
  · exact settags hw hf

end Sys2Proof.Machine
end

section
/-! PROOFS. The atomics on a line that the core holds modified: one indivisible access that nobody contends for (R97, R99, R280), and the
statement O10. -/

namespace Sys2Proof.Machine

open Sys2Proof Sys2Proof.Safety

/-! ### A line that nobody contends for -/

/-- A change of one core that puts it in no Scene and leaves its microcode alone brings no contention. -/
theorem uncontested_modCore {s : State} {c : Nat} {f : Core → Core} (h : Uncontested s) (hc : c < s.cores.length)
    (hsc : (f (s.core c)).psw.sc = (s.core c).psw.sc) (hm : (f (s.core c)).micro = (s.core c).micro) : Uncontested (s.modCore c f) := by
  have hcore := core_modCore s c f hc
  refine ⟨fun d => ?_, h.slots, fun d => ?_⟩ <;> rcases eq_or_ne c d with rfl | hd
  · rw [hcore, hsc, h.scenes]
  · rw [core_modCore_ne _ _ _ _ hd, h.scenes]
  · rw [hcore, hm, h.micro]
  · rw [core_modCore_ne _ _ _ _ hd, h.micro]

theorem microHeld_uncontested {s : State} (h : Uncontested s) (a : Agent) (line : Nat) : s.microHeld a line = false := by
  have hnone : (s.cores.any fun k => k.micro.any fun u => u.hold == some line) = false := by
    rw [List.any_eq_false]
    intro k hk
    obtain ⟨d, hd, rfl⟩ := List.getElem_of_mem hk
    have hm := h.micro d
    rw [State.core, List.getD_eq_getElem _ _ hd] at hm
    simp [hm]
  simp [State.microHeld, hnone]

theorem conflicting_uncontested {s : State} (h : Uncontested s) (me : Option Holder) (line : Nat) (write : Bool) : s.conflicting me line write = [] := by
  simp [State.conflicting, h.scenes, h.slots]

/-- A core's request for the line is granted, and dooms no Scene (R293). -/
theorem arbitrate_uncontested {s : State} (h : Uncontested s) (c line : Nat) (write : Bool) : s.arbitrate (.core c) line write = .go s := by
  have hin : s.inScene (.core c) = none := by simp [State.inScene, h.scenes]
  have hs : (if s.mode mREPLAY then [] else s.conflicting none line write) = [] := by rw [conflicting_uncontested h, ite_self]
  unfold State.arbitrate
  simp only [hin, hs, microHeld_uncontested h, Bool.and_false]
  rfl

theorem noteChunk_unrecorded {s : State} (h : s.recording = false) (a line : Nat) (write : Bool) : s.noteChunk a line write = s := by
  simp [State.noteChunk, h]

/-- A line that the core holds modified stays as it is. -/
theorem lineOwn_modified {s : State} {c line : Nat} (h : (s.core c).dstate line = .mod) (alloc : Bool) (age : Option Nat) :
    s.lineOwn c line alloc age = (s, false) := by
  simp [State.lineOwn, h]

theorem dirOf_modCore (s : State) (c : Nat) (f : Core → Core) (line : Nat) : (s.modCore c f).dirOf line = s.dirOf line := rfl

theorem hostBias_modCore (s : State) (c : Nat) (f : Core → Core) (page : Nat) : (s.modCore c f).hostBias page = s.hostBias page := by
  unfold State.hostBias
  rw [rd_modCore]

theorem needsHost_modCore (s : State) (c : Nat) (f : Core → Core) (line : Nat) : (s.modCore c f).needsHost line = s.needsHost line := by
  have hheld : (s.modCore c f).held = s.held := rfl
  unfold State.needsHost
  rw [dirOf_modCore, hostBias_modCore, hheld]

/-! ### The write -/

/-- The home values while a word is dirty (R245). -/
def State.homeWith (s : State) (pa : Nat) : List (Nat × TWord) := if s.home.any (fun x => x.1 == pa) then s.home else (pa, s.rd pa) :: s.home

/-- What a store to a dirty line leaves (R272). -/
theorem storeWord_dirty (s : State) (pa : Nat) (w : TWord) :
    s.storeWord pa w true = { s with mem := smapPut (dfltIn s.emptied pa) s.mem pa w, home := s.homeWith pa } := by
  unfold State.storeWord State.homeWith
  cases s.home.any (fun x => x.1 == pa) <;> rfl

section rules
variable {s t : State} {c a : Nat} {r : Psw} {x : Notes} {lf : Leaf} {p v w : TWord}

theorem storeWord_noted (pa : Nat) (w : TWord) : (s.noted c x).storeWord pa w true = (s.storeWord pa w true).noted c x := by
  have hhome : (s.noted c x).homeWith pa = s.homeWith pa := by
    have hrd : (s.noted c x).rd pa = s.rd pa := rd_modCore _ _
    unfold State.homeWith
    rw [hrd]
    rfl
  rw [storeWord_dirty, storeWord_dirty, hhome]
  rfl

theorem Idle.storeWord (h : Idle s c r) (pa : Nat) (w : TWord) : Idle (s.storeWord pa w true) c r := by
  rw [storeWord_dirty]
  exact ⟨h.lt, h.plain, h.psw, h.noScene, h.noPend, h.unwatched.of_same fun _ _ _ => rfl⟩

/-- What an atomic of core c through `lf` meets: a line that the core holds modified and nobody contends for (R99, R280). -/
structure Atomic (s : State) (c a : Nat) (lf : Leaf) : Prop where
  write : Storable s c a lf
  wb : lf.mt = 0
  owned : (s.core c).dstate (lineOf lf.pa) = .mod
  empty : (s.core c).mem.sq = []
  alone : Uncontested s
  here : s.needsHost (lineOf lf.pa) = false

theorem Atomic.outside (h : Atomic s c a lf) : place lf.pa ≠ .wings := by
  rcases h.write.here with hp | hp <;> rw [hp] <;> nofun

theorem Atomic.noted (ha : Atomic s c a lf) (h : Idle s c r) : Uncontested (s.noted c x) ∧ ((s.noted c x).core c).dstate (lineOf lf.pa) = .mod ∧
    (s.noted c x).needsHost (lineOf lf.pa) = false := by
  refine ⟨uncontested_modCore ha.alone h.lt rfl rfl, ?_, (needsHost_modCore _ _ _ _).trans ha.here⟩
  rw [noted_core h]
  exact ha.owned

theorem run_ownWord (h : Idle s c r) (ha : Atomic s c a lf) : (ownWord lf).run c (s.noted c x) = .ok () (s.noted c x) := by
  obtain ⟨halone, howned, hhere⟩ := ha.noted (x := x) h
  have hsc : ((s.core c).noted x).psw.sc = false := h.sc
  have hw : (place lf.pa == .wings) = false := by simpa using ha.outside
  have hown : (s.noted c x).ownLine c (lineOf lf.pa) = some (s.noted c x) := by
    simp only [State.ownLine, hhere, Bool.false_eq_true, if_false, arbitrate_uncontested halone, lineOwn_modified howned,
      noteChunk_unrecorded (s := s.noted c x) h.unwatched.noRecord]
  simp only [ownWord, run_bind, run_getCore_noted h, hsc, hw, Bool.or_self, Bool.false_eq_true, if_false, run_askS, hown, run_set]

/-- The word of an atomic (R99). -/
theorem run_atomicRead (h : Idle s c r) (ha : Atomic s c a lf) (hh : Hit s c a lf) (hw : Settled s c (s.coreSees c lf.pa)) :
    (atomicRead a).run c (s.noted c x) = .ok (s.coreSees c lf.pa) ((touched s c lf.pa).noted c x) := by
  have hmt : ¬ lf.mt ≠ 0 := not_not.2 ha.wb
  have hb := run_barrier_noted (a := a) (x := x) (settled_sees ⟨lf, hh, rfl, rfl⟩ hw)
  simp only [atomicRead, atomicWord, run_bind, run_xlate_write h ha.write, run_xlate_noted h hh.core hh.leaf,
    run_sceneSafe lf (s := s.noted c x) (by rw [noted_core h]; exact h.sc), hmt, if_false, run_target a lf true ha.write.here,
    run_meetFence (s := s.noted c x) (c := c) (by rw [noted_core h]; exact ha.write.fence), run_ownWord h ha, run_readWord_noted h hh, hb]

/-- The write of an atomic (R99, R280). -/
theorem run_atomicWrite (h : Idle s c r) (ha : Atomic s c a lf) {old : TWord} (hold : s.coreSees c lf.pa = old) (hb : NoBarrier s c old v) :
    (atomicWrite a v).run c (s.noted c x) = .ok () ((s.storeWord lf.pa v true).noted c x) := by
  obtain ⟨halone, howned, hhere⟩ := ha.noted (x := x) h
  have hc := noted_core (x := x) h
  have hsc : ((s.core c).noted x).psw.sc = false := h.sc
  have hw : (place lf.pa == .wings) = false := by simpa using ha.outside
  have hunit : ((s.noted c x).core c).unit = false := by rw [hc]; exact ha.write.core
  have hout := run_outwardStore (s := s.noted c x) (c := c) (lf := lf) h.unwatched.noReplay
  have hempty : ((s.noted c x).core c).mem.sq = [] := by rw [hc]; exact ha.empty
  have hdirty : (s.noted c x).dirtyFor c (lineOf lf.pa) = true := by simp [State.dirtyFor, howned]
  have hstore : (s.noted c x).performStore c (storeOf lf v [] ((s.core c).noted x).mem.epoch true) = some ((s.storeWord lf.pa v true).noted c x) := by
    have hq : storeOf lf v [] ((s.core c).noted x).mem.epoch true = queued (s.core c) lf v true := by
      simp only [storeOf, queued, asStored_here ha.write.here, ha.wb]
      rfl
    have hnc : (lf.mt != 0) = false := by rw [ha.wb]; rfl
    rw [← storeWord_noted, hq]
    unfold State.performStore
    rcases ha.write.here with hp | hp <;>
      simp [queued, hp, hnc, hunit, hhere, arbitrate_uncontested halone, lineOwn_modified howned,
        noteChunk_unrecorded (s := s.noted c x) h.unwatched.noRecord, QStore.words, hdirty]
  simp only [atomicWrite, run_bind, run_xlate_write h ha.write, run_sceneSafe lf (s := s.noted c x) (by rw [noted_core h]; exact h.sc),
    run_overwritten h hold ha.outside, run_writeBarrier hb, writeNow, run_getCore_noted h, hsc, hw, Bool.or_self, Bool.false_eq_true, if_false,
    run_target a lf true ha.write.here, run_unsafe lf ha.write.here ha.write.mt, run_drainThose hempty, hout, run_askS, hstore, run_set]

/-- A frame that is used anew holds its line as before. -/
theorem dstate_reused {k : Core} {pa : Nat} {f : DFrame} (hf : k.mem.dframes.find? (fun f => f.base == lineOf pa / 4) = some f)
    (hd : k.dstate (lineOf pa) ≠ .inv) : (k.reused pa f).dstate (lineOf pa) = k.dstate (lineOf pa) := by
  have hbase : (f.base == lineOf pa / 4) = true := List.find?_some (p := fun f : DFrame => f.base == lineOf pa / 4) hf
  have hold : k.dstate (lineOf pa) = f.st.getD (lineOf pa % 4) .inv := by simp only [Core.dstate, hf]
  have hlt : lineOf pa % 4 < f.st.length := by
    by_contra hge
    rw [hold, List.getD_eq_default _ _ (by omega)] at hd
    exact hd rfl
  rw [hold]
  simp [Core.dstate, Core.reused, hbase, hlt]

/-- After the read the atomic meets the same. -/
theorem Atomic.touched (ha : Atomic s c a lf) (h : Idle s c r) : Atomic (touched s c lf.pa) c a lf ∧
    (touched s c lf.pa).coreSees c lf.pa = s.coreSees c lf.pa := by
  have hd : (s.core c).dstate (lineOf lf.pa) ≠ .inv := by rw [ha.owned]; nofun
  obtain ⟨f, hf⟩ := frame_of_valid hd
  have hc := core_modCore s c (Core.reused lf.pa f) h.lt
  have hsame : ((s.core c).reused lf.pa f).dstate (lineOf lf.pa) = (s.core c).dstate (lineOf lf.pa) := dstate_reused hf hd
  obtain ⟨⟨leaf, mt, here, room, fence, core, calm⟩, wb, owned, empty, alone, nohost⟩ := ha
  rw [touched_eq hf]
  refine ⟨⟨⟨?_, mt, here, ?_, ?_, ?_, ?_⟩, wb, ?_, ?_, uncontested_modCore alone h.lt rfl rfl, (needsHost_modCore _ _ _ _).trans nohost⟩, ?_⟩
  · rw [hc]; exact leaf
  · rw [hc]; exact room
  · rw [hc]; exact fence
  · rw [hc]; exact core
  · rw [hc, hsame]; exact calm
  · rw [hc, hsame]; exact owned
  · rw [hc]; exact empty
  · unfold State.coreSees
    rw [hc]
    rfl

end rules

/-! ### The instructions -/

/-- What the statement supposes of an atomic's access: it reads w, which may be consumed, and may write. -/
structure Swaps (s t : State) (c : Nat) (p w : TWord) (lf : Leaf) : Prop where
  ptr : Pointer s c p (ty p)
  cell : ty p = tLOC ∨ ty p = tVAR
  owned : kBit p = false
  reads : Reads s t c (adr p) w
  leaf : xlateCore (s.core c) (adr p) .read 7 = .inr lf
  write : Storable s c (adr p) lf
  dirty : (s.core c).dstate (lineOf lf.pa) = .mod
  empty : (s.core c).mem.sq = []
  alone : Uncontested s
  here : s.needsHost (lineOf lf.pa) = false
  sound : Sound w

section swaps
variable {s t : State} {c : Nat} {r : Psw} {x : Notes} {lf : Leaf} {p v w n : TWord} (h : Idle s c r) (sw : Swaps s t c p w lf)

include sw in
/-- The read is a hit through the same translation. -/
theorem Swaps.atomic : Hit s c (adr p) lf ∧ Atomic s c (adr p) lf ∧ w = s.coreSees c lf.pa ∧ t = touched s c lf.pa ∧ Settled s c w := by
  obtain ⟨ptr, cell, owned, ⟨⟨lf', hit, hw, ht⟩, settled⟩, leaf, write, dirty, empty, alone, here, sound⟩ := sw
  have hlf : lf' = lf := Sum.inr.inj (hit.leaf.symm.trans leaf)
  subst hlf
  exact ⟨hit, ⟨write, hit.wb, dirty, empty, alone, here⟩, hw, ht, settled⟩

include h sw in
theorem run_swapRead : (atomicRead (adr p)).run c (s.noted c x) = .ok w (t.noted c x) := by
  obtain ⟨hit, atomic, rfl, rfl, settled⟩ := sw.atomic
  exact run_atomicRead h atomic hit settled

include h sw in
theorem run_swapWrite (hb : NoBarrier s c w n) : (atomicWrite (adr p) n).run c (t.noted c x) = .ok () ((t.storeWord lf.pa n true).noted c x) := by
  obtain ⟨hit, atomic, rfl, rfl, settled⟩ := sw.atomic
  obtain ⟨ht, hsees⟩ := atomic.touched h
  have hidle : Idle (touched s c lf.pa) c r := (h.sees ⟨lf, hit, rfl, rfl⟩).1
  obtain ⟨df, hdf⟩ := touched_hit hit.frame
  have hb' : NoBarrier (touched s c lf.pa) c (s.coreSees c lf.pa) n := by
    rw [hdf]
    unfold NoBarrier State.heapPtr
    rw [regionOf_modCore, regionOf_modCore]
    exact hb
  exact run_atomicWrite hidle ht hsees hb'

include sw in
theorem passes_swap (pos : Nat) (cust : Bool) (cuptr : Nat) (user : Bool) : (locOpd p pos true).passes cust cuptr user = true := by
  have hsound : Sound p := by rcases sw.cell with hty | hty <;> exact sound_of_ty hty (by decide) (by decide)
  exact passes_written hsound sw.ptr sw.owned (by simpa using sw.cell) _ _ _ _

include h sw in
theorem run_xchg (hm : MayStore s c v) (hb : NoBarrier s c w v) :
    (iXchg.body [v, p]).run c (s.noted c x) = .ok { push := [w] } ((t.storeWord lf.pa v true).noted c x) := by
  have hcheck : (check [movedOpd v 0, locOpd p 1 true]).run c (s.noted c x) = .ok () (s.noted c x) :=
    run_check _ _ _ (List.forall_mem_cons.2 ⟨passes_moved (mayStore_noted h hm) _ _ _, List.forall_mem_cons.2 ⟨passes_swap sw _ _ _ _, nofun⟩⟩)
  simp only [iXchg, opd, List.getD_cons_zero, List.getD_cons_succ, run_bind, hcheck, run_resolve (pointer_settled sw.ptr), run_swapRead h sw,
    run_swapWrite h sw hb, run_pure]

include h sw in
theorem run_fadd (hv : ty v = tFIX) (hw : ty w = tFIX) : (iFadd.body [v, p]).run c (s.noted c x) =
    .ok { push := [w] } ((t.storeWord lf.pa (fixW (w.datum + v.datum)) true).noted c x) := by
  have hcheck : (check [fixOpd v 0, locOpd p 1 true]).run c (s.noted c x) = .ok () (s.noted c x) :=
    run_check _ _ _ (List.forall_mem_cons.2 ⟨passes_fixOpd hv _ _ _ _, List.forall_mem_cons.2 ⟨passes_swap sw _ _ _ _, nofun⟩⟩)
  have hold : (check [{ w := w, pos := 15, addr := adr p, ok := ty w == tFIX }]).run c (t.noted c x) = .ok () (t.noted c x) :=
    run_check_one _ (passes_fix hw (by simp [hw]))
  have hnum : ∀ cu, isPtr cu tFIX = false := fun cu => by simp [isPtr, isCustom, tFIX, tVAR, tCONS, tFUN, tLOC, tSTRUCT, tPROXY, tFWD, tFUTURE]
  have hsum : ty (fixW (w.datum + v.datum)) = tFIX := rfl
  have hb : NoBarrier s c w (fixW (w.datum + v.datum)) := .inr ⟨by simp [State.heapPtr, hw, hnum], by simp [State.heapPtr, hsum, hnum]⟩
  simp only [iFadd, opd, List.getD_cons_zero, List.getD_cons_succ, run_bind, hcheck, run_resolve (pointer_settled sw.ptr), run_swapRead h sw, hold,
    run_swapWrite h sw hb, run_pure]

/-- What CAS leaves: the new word where the old one is as expected (R99). -/
def casLeaves (t : State) (pa : Nat) (w y v : TWord) : State := if w = y then t.storeWord pa v true else t

include h sw in
theorem run_cas {y : TWord} (hm : MayStore s c v) (hy : Sound y) (hb : NoBarrier s c w v) :
    (iCas.body [v, y, p]).run c (s.noted c x) = .ok { push := [w] } ((casLeaves t lf.pa w y v).noted c x) := by
  have hcheck : (check [movedOpd v 0, { w := y, pos := 1 }, locOpd p 2 true]).run c (s.noted c x) = .ok () (s.noted c x) :=
    run_check _ _ _ (List.forall_mem_cons.2 ⟨passes_moved (mayStore_noted h hm) _ _ _, List.forall_mem_cons.2 ⟨passes_sound hy _ _ _ _ _,
      List.forall_mem_cons.2 ⟨passes_swap sw _ _ _ _, nofun⟩⟩⟩)
  simp only [iCas, opd, List.getD_cons_zero, List.getD_cons_succ, run_bind, hcheck, run_resolve (pointer_settled sw.ptr), run_swapRead h sw,
    run_checkMem sw.sound]
  by_cases he : w = y
  · simp only [casLeaves, if_pos he, run_bind, run_swapWrite h sw hb, run_pure]
  · simp only [casLeaves, if_neg he, run_pure]

end swaps

/-- Settles O10: the line stays with the core through the read, so that the write needs nothing of any other agent. -/
theorem atomics : Obligations.Atomics := by
  unfold Obligations.Atomics
  intro s t c p v w y lf q cell ptr owned reads leaf write dirty empty alone here sound
  have h := idle_of_quiet q
  have sw : Swaps s t c p w lf := ⟨ptr, cell, owned, reads, leaf, write, dirty, empty, alone, here, sound⟩
  have ht : Idle t c (s.core c).psw := h.reads reads
  refine ⟨fun hst hm hb => ?_, fun hst hv hw => ?_, fun hst hm hy hb => ?_⟩
  · exact next_eq (issue_pushed (i := iXchg) q hst rfl (ht.storeWord _ _) (run_xchg h sw hm hb))
  · exact next_eq (issue_pushed (i := iFadd) q hst rfl (ht.storeWord _ _) (run_fadd h sw hv hw))
  · have hrun := run_cas (x := { syl := 0x4008 }) h sw hm hy hb
    refine ⟨fun he => ?_, fun hne => ?_⟩
    · rw [casLeaves, if_pos he] at hrun
      exact next_eq (issue_pushed (i := iCas) q hst rfl (ht.storeWord _ _) hrun)
    · rw [casLeaves, if_neg hne] at hrun
      exact next_eq (issue_pushed (i := iCas) q hst rfl ht hrun)

end Sys2Proof.Machine
end

section
/-! PROOFS. Literals, and the moves between the operand stack and the registers of the control stack (R52, R86, R87, R119), and the statement
O3. -/

namespace Sys2Proof.Machine

open Sys2Proof Sys2Proof.Safety

/-! ### Literals -/

theorem sext_eq_toInt (imm : BitVec 12) : sext 12 imm.toNat = imm.toInt := by
  have hlt := imm.isLt
  have hint := imm.toInt_eq_toNat_cond
  unfold sext
  split_ifs at hint ⊢ <;> omega

theorem w64_eq_setWidth {n : Nat} (v : BitVec n) : w64 v.toNat = v.setWidth 64 := by
  apply BitVec.eq_of_toNat_eq
  rw [w64, BitVec.toNat_ofNat, BitVec.toNat_setWidth]

/-! ### The control stack in its registers -/

section rules
variable {s : State} {c : Nat} {r : Psw} {x : Notes} {a : TWord} (h : Idle s c r)

/-- The core with a word pushed onto the control stack (R52). -/
def Core.cpushed (a : TWord) (k : Core) : Core := { k with stk := { k.stk with csp := va48 ((k.stk.csp : Int) - 1), cregs := a :: k.stk.cregs } }

/-- The core with n entries removed from the control stack. -/
def Core.cdropped (n : Nat) (k : Core) : Core := { k with stk := { k.stk with csp := va48 (k.stk.csp + n), cregs := k.stk.cregs.drop n } }

/-- The core with a register of the control stack written (R119). -/
def Core.cset (n : Nat) (a : TWord) (k : Core) : Core := { k with stk := { k.stk with cregs := k.stk.cregs.set n a } }

include h in
/-- A change of the stacks alone leaves the core as idle. -/
theorem Idle.stacks {f : Core → Core} (hf : f (s.core c) = { s.core c with stk := (f (s.core c)).stk }) : Idle (s.modCore c f) c r := by
  refine h.modCore (fun k => ?_) (by rw [hf]) (by rw [hf])
  rw [hf]
  exact ⟨k.1, k.2, k.3, k.4, k.5, k.6, k.7, k.8, k.9, k.10, k.11, k.12⟩

include h in
theorem run_cPush (hroom : (s.core c).stk.cregs.length ≤ 3) (a : TWord) :
    (cPush a).run c (s.noted c x) = .ok () ((s.modCore c (Core.cpushed a)).noted c x) := by
  have hfits : ((s.core c).noted x).stk.cregs.length + 1 ≤ 4 := by
    change (s.core c).stk.cregs.length + 1 ≤ 4
    omega
  have hspill : (cSpillFor 4 1).run c (s.noted c x) = .ok () (s.noted c x) := by
    simp only [cSpillFor, run_bind, run_getCore_noted h, if_pos hfits, run_pure]
  rw [cPush, run_bind, hspill]
  exact run_modMe_noted (f := Core.cpushed a) fun _ => rfl

theorem run_cDrop (n : Nat) : (cDrop n).run c (s.noted c x) = .ok () ((s.modCore c (Core.cdropped n)).noted c x) :=
  run_modMe_noted (f := Core.cdropped n) fun _ => rfl

include h in
theorem run_cWrite {n : Nat} (hn : n < (s.core c).stk.cregs.length) (a : TWord) :
    (cWrite n a).run c (s.noted c x) = .ok () ((s.modCore c (Core.cset n a)).noted c x) := by
  have hn' : n < ((s.core c).noted x).stk.cregs.length := hn
  simp only [cWrite, run_bind, run_getCore_noted h, if_pos hn']
  exact run_modMe_noted (f := Core.cset n a) fun _ => rfl

include h in
/-- A control-stack position that lies in a register. -/
theorem run_cReadAs {n : Nat} (ha : (s.core c).stk.cregs[n]? = some a) (m : Nat) (ld : Bool) :
    (cReadAs n m ld).run c (s.noted c x) = .ok a (s.noted c x) := by
  have ha' : ((s.core c).noted x).stk.cregs[n]? = some a := ha
  have hn : n < ((s.core c).noted x).stk.cregs.length := (List.getElem?_eq_some_iff.1 ha').1
  have hfill : (cFillTo 4 n).run c (s.noted c x) = .ok () (s.noted c x) := by
    simp only [cFillTo, run_bind, run_getCore_noted h, if_pos hn, run_pure]
  unfold cReadAs
  split <;> simp only [run_bind, hfill, run_getCore_noted h, ha', run_pure]

end rules

section issue
variable {a : TWord}

theorem leads_toControl : Leads .toControl [a] 1 0 (fun s c => (s.core c).stk.cregs.length ≤ 3) (fun s c => changed s c (fun k =>
    let r := retired k 0x0040 1 []
    { r with stk := { r.stk with csp := va48 ((k.stk.csp : Int) - 1), cregs := a :: k.stk.cregs } })) := by
  intro s c q hst hroom
  have h := idle_of_quiet q
  have hrun : (iToControl.body [a]).run c (s.noted c { syl := 0x0040 }) =
      .ok { push := [] } ((s.modCore c (Core.cpushed a)).noted c { syl := 0x0040 }) := by
    simp only [iToControl, opd, List.getD_cons_zero, run_bind, run_cPush h hroom, run_pure]
  exact next_eq (issue_core (i := iToControl) (f := Core.cpushed a) q hst rfl (h.stacks rfl) hrun)

theorem leads_fromControl : Leads .fromControl [] 0 1 (fun s c => (s.core c).stk.cregs.head? = some a) (fun s c => changed s c (fun k =>
    let r := retired k 0x0041 0 [a]
    { r with stk := { r.stk with csp := va48 ((k.stk.csp : Int) + 1), cregs := k.stk.cregs.tail } })) := by
  intro s c q hst ha
  have h := idle_of_quiet q
  have hrun : (iFromControl.body []).run c (s.noted c { syl := 0x0041 }) =
      .ok { push := [a] } ((s.modCore c (Core.cdropped 1)).noted c { syl := 0x0041 }) := by
    simp only [iFromControl, cRead, run_bind, run_cReadAs h (n := 0) (by rwa [← List.head?_eq_getElem?]) 0 false, run_cDrop, run_pure]
  refine next_eq ((issue_core (i := iFromControl) (f := Core.cdropped 1) q hst rfl (h.stacks rfl) hrun).trans (changed_congr ?_))
  simp only [Core.cdropped, List.drop_one]
  rfl

theorem leads_copyControl : Leads .copyControl [] 0 1 (fun s c => (s.core c).stk.cregs.head? = some a) (fun s c => after s c 0x0042 0 [a]) := by
  intro s c q hst ha
  have h := idle_of_quiet q
  refine next_eq (issue_pushed (i := iCopyControl) q hst rfl h ?_)
  simp only [iCopyControl, cRead, run_bind, run_cReadAs h (n := 0) (by rwa [← List.head?_eq_getElem?]) 0 false, run_pure]

theorem leads_local (n : BitVec 8) : Leads (fun c => .localI c n) [] 0 1 (fun s c => (s.core c).stk.cregs[n.toNat]? = some a)
    (fun s c => afterLate s c (0x9200 + n.toNat) 0 3 a) := by
  intro s c q hst ha
  have h := idle_of_quiet q
  refine next_eq (issue_late (i := iLocal n.toNat) q hst (by simp [Sig.asks, iLocal, Sig.easy]) h (by decide) ?_)
  simp only [iLocal, run_bind, run_cReadAs h ha 0 true, run_pure]

theorem leads_setlocal (n : BitVec 8) : Leads (fun c => .setlocal c n) [a] 1 0 (fun s c => n.toNat < (s.core c).stk.cregs.length)
    (fun s c => changed s c (fun k =>
      let r := retired k (0x9300 + n.toNat) 1 []
      { r with stk := { r.stk with cregs := k.stk.cregs.set n.toNat a } })) := by
  intro s c q hst hn
  have h := idle_of_quiet q
  have hrun : ((iSetlocal n.toNat).body [a]).run c (s.noted c { syl := 0x9300 + n.toNat }) =
      .ok { push := [] } ((s.modCore c (Core.cset n.toNat a)).noted c { syl := 0x9300 + n.toNat }) := by
    simp only [iSetlocal, opd, List.getD_cons_zero, run_bind, run_cWrite h hn, run_pure]
  exact next_eq (issue_core (i := iSetlocal n.toNat) (f := Core.cset n.toNat a) q hst (by simp [Sig.asks, iSetlocal, Sig.easy]) (h.stacks rfl) hrun)

end issue

/-- Settles O3: neither stack needs a spill or a fill. -/
theorem literalsAndControlStack : Obligations.LiteralsAndControlStack := by
  unfold Obligations.LiteralsAndControlStack
  refine fun a imm n => ⟨?_, fun ha => ?_, leads_toControl, leads_fromControl, leads_copyControl, leads_local n, leads_setlocal n⟩
  · refine gives_of (iLit imm.toNat) (fun _ _ => rfl) (by simp [iLit, pureIns, Sig.easy]) rfl rfl rfl rfl rfl fun _ _ _ => ?_
    rw [← sext_eq_toInt]
    rfl
  · refine gives_of (iLitx imm.toNat) (fun _ _ => rfl) (by simp [iLitx, Sig.easy]) rfl rfl rfl rfl rfl fun s c _ => ?_
    simp only [iLitx, opd, List.getD_cons_zero, run_bind, run_check_fix ha, run_pure, w64_eq_setWidth]

end Sys2Proof.Machine
end

section
/-! PROOFS. The stack instructions on operands in registers, stack underflow (R50, R86), and the statement O2. -/

namespace Sys2Proof.Machine

open Sys2Proof Sys2Proof.Safety

section deep
variable {s : State} {c : Nat} {l : List TWord} {n : Nat} (q : Quiet s c)

theorem stacked_length {takes grow : Nat} (h : Stacked s c l takes grow) : l.length ≤ (s.core c).stk.regs.length := by
  have htop := congrArg List.length h.top
  rw [List.length_take] at htop
  omega

/-- A position that lies in a register. -/
theorem stacked_getD {takes grow : Nat} (h : Stacked s c l takes grow) (hn : n < l.length) : (s.core c).stk.regs.getD n wEMPTY = l.getD n wEMPTY := by
  have htop := h.top
  conv_rhs => rw [← htop]
  simp [List.getD_eq_getElem?_getD, hn]

include q in
/-- A copy of a word at a position in registers (R86). -/
theorem issue_copy (hst : Stacked s c l 0 1) (hl : l.length = n + 1) (syl : Nat) :
    issue c (pureIns { syl := syl, deep := some n, leaves := 1 } 1 fun l => [opd l 0]) s = after s c syl 0 [l.getD n wEMPTY] := by
  have hlen := stacked_length hst
  have hreach : Sig.reach { syl := syl, deep := some n, leaves := 1 } = n + 1 := by simp [Sig.reach]
  have hheld : Deep s c (n + 1) := by
    have h := hst.deep
    rwa [hl] at h
  refine issue_after s c _ q _ (placeCheck_quiet q _ _ rfl (.inl rfl) (.inl rfl)) ⟨?_, ?_, hst.room, ?_⟩ ?_
  · exact Nat.zero_le _
  · rintro m ⟨⟩
    omega
  · exact hreach ▸ hheld
  · simp only [pureIns, Core.opsOf, opd, List.take_zero, List.nil_append, Bool.false_eq_true, if_false, List.getD_cons_zero, run_pure,
      stacked_getD hst (show n < l.length by omega)]

/-- The core with a register of the operand stack written (R86). -/
def Core.put (n : Nat) (a : TWord) (k : Core) : Core := { k with stk := { k.stk with regs := k.stk.regs.set n a } }

include q in
/-- PUT to a position in registers (R86). -/
theorem issue_put {a : TWord} (hst : Stacked s c (a :: l) 1 0) (hl : l.length = n + 1) :
    issue c (iPut n) s = changed s c fun k => retired (k.put (n + 1) a) (0x0020 + n) 1 [] := by
  have h := idle_of_quiet q
  have hlen := stacked_length hst
  have hlt : n + 1 < ((s.core c).noted { syl := 0x0020 + n }).stk.regs.length := by
    rw [List.length_cons, hl] at hlen
    exact hlen
  have hreach : (iPut n).sig.reach = n + 2 := by simp [iPut, Sig.reach]
  have hheld : Deep s c (n + 2) := by
    have h := hst.deep
    rwa [List.length_cons, hl, show Nat.max (n + 1 + 1) 1 = n + 2 from Nat.max_eq_left (by omega)] at h
  have hops : (s.core c).opsOf (iPut n).sig = [a] := by
    have htop := hst.top
    cases hr : (s.core c).stk.regs with
    | nil => simp [hr] at htop
    | cons b m =>
      rw [hr, List.length_cons, List.take_succ_cons, List.cons.injEq] at htop
      simp [Core.opsOf, iPut, hr, htop.1]
  have hrun : ((iPut n).body [a]).run c (s.noted c { syl := 0x0020 + n }) =
      .ok { push := [] } ((s.modCore c (Core.put (n + 1) a)).noted c { syl := 0x0020 + n }) := by
    have hput := run_modMe_noted (s := s) (c := c) (x := { syl := 0x0020 + n }) (f := Core.put (n + 1) a) fun _ => rfl
    unfold Core.put at hput
    simp only [iPut, opd, List.getD_cons_zero, run_bind, run_getCore_noted h, if_pos hlt, hput, run_pure]
    rfl
  have hidle : Idle (s.modCore c (Core.put (n + 1) a)) c (s.core c).psw := h.stacks rfl
  have hfits : Fits (s.core c) (iPut n).sig := by
    refine ⟨?_, nofun, hst.room, hreach ▸ hheld⟩
    rw [List.length_cons] at hlen
    exact Nat.le_trans (Nat.le_add_left 1 _) hlen
  rw [issue_runs s c _ q _ _ (placeCheck_quiet q _ _ rfl (.inl rfl) (.inl rfl)) hfits (by rw [hops, ready_eq_noted q]; exact hrun)]
  refine (retire_noted hidle _ rfl rfl rfl rfl).trans ((changed_congr (g := fun k => retired k (0x0020 + n) 1 [])
    (finish_push hidle.plain (iPut n).sig [])).trans ?_)
  exact changed_modCore s c (Core.put (n + 1) a) _

end deep

/-- Settles O2: an operand in a register needs neither a spill nor a fill; an operand that the stack does not hold is missed before anything
else is done. -/
theorem stackInstructions : Obligations.StackInstructions := by
  unfold Obligations.StackInstructions
  refine ⟨fun a b d => ⟨?_, ?_, ?_, ?_, ?_, ?_, ?_, ?_, ?_, ?_, ?_, ?_⟩, fun s c q => ⟨fun h1 => ⟨?_, ?_⟩, fun h2 => ⟨?_, ?_⟩⟩⟩
  · exact gives_of iNop (fun _ _ => rfl) rfl rfl rfl rfl rfl rfl fun _ _ _ => rfl
  · exact gives_of iDup (fun _ _ => rfl) rfl rfl rfl rfl rfl rfl fun _ _ _ => rfl
  · exact gives_of iDrop (fun _ _ => rfl) rfl rfl rfl rfl rfl rfl fun _ _ _ => rfl
  · exact gives_of iSwap (fun _ _ => rfl) rfl rfl rfl rfl rfl rfl fun _ _ _ => rfl
  · exact fun s c q hst _ => next_eq (issue_copy q hst rfl _)
  · exact gives_of iRot (fun _ _ => rfl) rfl rfl rfl rfl rfl rfl fun _ _ _ => rfl
  · exact gives_of iNip (fun _ _ => rfl) rfl rfl rfl rfl rfl rfl fun _ _ _ => rfl
  · exact gives_of iTuck (fun _ _ => rfl) rfl rfl rfl rfl rfl rfl fun _ _ _ => rfl
  · exact gives_of iTwoDup (fun _ _ => rfl) rfl rfl rfl rfl rfl rfl fun _ _ _ => rfl
  · exact gives_of iTwoDrop (fun _ _ => rfl) rfl rfl rfl rfl rfl rfl fun _ _ _ => rfl
  · exact fun n l hl s c q hst _ => next_eq (issue_copy q hst hl _)
  · intro n l hl s c q hst _
    refine next_eq ((issue_put q hst hl).trans (changed_congr ?_))
    simp only [Core.put, retired, List.drop_set, List.reverse_nil, List.nil_append]
    rfl
  · exact next_eq (issue_underflow (i := iDup) q (placeCheck_quiet q _ _ rfl (.inl rfl) (.inl rfl)) h1)
  · exact next_eq (issue_underflow (i := iDrop) q (placeCheck_quiet q _ _ rfl (.inl rfl) (.inl rfl)) h1)
  · exact next_eq (issue_underflow (i := iSwap) q (placeCheck_quiet q _ _ rfl (.inl rfl) (.inl rfl)) h2)
  · exact next_eq (issue_underflow (i := iAdd) q (placeCheck_quiet q _ _ rfl (.inl rfl) (.inl rfl)) h2)

end Sys2Proof.Machine
end

section
/-! PROOFS. The stepped list instructions on inputs whose outcome one step gives (R105, R107-R109, R111). -/

namespace Sys2Proof.Machine

open Sys2Proof Sys2Proof.Safety

/-! ### A stepped instruction in progress -/

section rules
variable {s t u : State} {c : Nat} {r : Psw} {x : Notes} {g : Pgs} {a b d e : TWord} (h : Idle s c r)

theorem modCore_noted (f : Core → Core) {y : Notes} (hf : ∀ k : Core, f (k.noted x) = k.noted y) : (s.noted c x).modCore c f = s.noted c y := by
  rw [State.noted, modCore_modCore]
  exact modCore_congr _ _ _ _ (hf _)

/-- The first issue (R105): PG0-PG3 and PSW.STEP. -/
theorem run_startStep (a b d e : TWord) :
    (startStep a b d e).run c (s.noted c x) = .ok () (s.noted c { x with step := some ⟨a, b, d, e⟩ }) := by
  rw [startStep, setPg, run_bind, run_modMe]
  dsimp only
  rw [run_modMe, State.noted, modCore_modCore, modCore_modCore]
  rfl

theorem run_setPg (hx : x.step = some g) (a b d e : TWord) :
    (setPg a b d e).run c (s.noted c x) = .ok () (s.noted c { x with step := some ⟨a, b, d, e⟩ }) := by
  rw [setPg, run_modMe, modCore_noted]
  intro k
  simp only [Core.noted, hx]
  rfl

/-- The count of elements handled. -/
theorem run_setPg0 (hx : x.step = some g) (a : TWord) :
    (modMe fun k => { k with sr := { k.sr with pg0 := a } }).run c (s.noted c x) = .ok () (s.noted c { x with step := some { g with pg0 := a } }) := by
  rw [run_modMe, modCore_noted]
  intro k
  simp only [Core.noted, hx]
  rfl

/-- An element that gives the result. -/
theorem run_runSteps_one {n : Nat} (hn : 1 ≤ n) {elem : M (Option (List TWord))} {l : List TWord} (he : elem.run c s = .ok (some l) t) :
    (runSteps n elem).run c s = .ok { push := l } t := by
  obtain ⟨n, rfl⟩ := Nat.exists_eq_add_of_le' hn
  simp only [runSteps, run_bind, he, run_pure]

/-- An element after which another gives the result. -/
theorem run_runSteps_two {n : Nat} (hn : 2 ≤ n) {elem : M (Option (List TWord))} {l : List TWord} (he : elem.run c s = .ok none t)
    (hl : elem.run c t = .ok (some l) u) : (runSteps n elem).run c s = .ok { push := l } u := by
  obtain ⟨n, rfl⟩ := Nat.exists_eq_add_of_le' hn
  simp only [runSteps, run_bind, he, hl, run_pure]

include h in
/-- The first issue of a stepped instruction. -/
theorem run_stepped (hx : x.step = none) {syl m out n : Nat} {init : List TWord → M Unit} {elem : List TWord → M (Option (List TWord))}
    {l : List TWord} (hinit : (init l).run c (s.noted c x) = .ok () u) :
    ((steppedIns syl m out n init elem).body l).run c (s.noted c x) = (runSteps n (elem l)).run c u := by
  have hstep : ((s.core c).noted x).psw.step = false := by simp only [Core.noted, hx]; rfl
  simp only [steppedIns, run_bind, run_getCore_noted h, hstep, Bool.false_eq_true, if_false, hinit]

end rules

/-! ### The list instructions -/

section lists
variable {s t u : State} {c : Nat} {r : Psw} {p x e q : TWord} (h : Idle s c r)

/-- NIL is accepted where a list is (R102, R109). -/
theorem passes_nil {o : Opd} (hw : ty o.w = tNIL) (ho : o.ok = true) (hm : o.moved = false := by rfl) (cust : Bool) (cuptr : Nat) (user : Bool) :
    o.passes cust cuptr user = true := by
  have hp : isPtr cuptr tNIL = false := by simp [isPtr, isCustom, tNIL, tVAR, tCONS, tFUN, tLOC, tSTRUCT, tPROXY, tFWD, tFUTURE]
  simp [Opd.passes, Opd.malformed, Opd.odd, Opd.refused, hw, ho, hm, hp, show (tNIL == tPOISON) = false from rfl, show (tNIL == tCODE) = false from rfl,
    show (tNIL == tRREF) = false from rfl, show (tNIL == tLOC) = false from rfl,
    show (tNIL == tCONS) = false from rfl, show isReserved tNIL = false from rfl, show isCustom tNIL = false from rfl]

/-- A list that may be read (R26, R102): NIL, or a CONS on an even address. -/
structure ListWord (p : TWord) : Prop where
  sound : Sound p
  kind : ty p = tCONS ∨ ty p = tNIL
  fits : ty p = tCONS → hiZero p = true ∧ adr p % 2 = 0

theorem listWord_nil (hp : ty p = tNIL) : ListWord p :=
  ⟨sound_of_ty hp (by decide) (by decide), .inr hp, fun h => absurd (hp.symm.trans h) (by decide)⟩

theorem listWord_cons (hp : Pointer s c p tCONS) : ListWord p := by
  obtain ⟨hty, hz, hodd, -⟩ := hp
  exact ⟨sound_of_ty hty (by decide) (by decide), .inl hty, fun _ => ⟨hz, hodd hty⟩⟩

/-- A list passes where one is read. -/
theorem ListWord.passes (hl : ListWord p) {o : Opd} (ho : o.w = p) (hok : o.ok = true)
    (hk : o.store = true → ty p = tCONS → kBit p = false) (hm : o.moved = false := by rfl) (hcode : o.code = false := by rfl)
    (hrref : o.rref = false := by rfl) (cust : Bool) (cuptr : Nat) (user : Bool) : o.passes cust cuptr user = true := by
  subst ho
  rcases hl.kind with hty | hty
  · exact passes_pointer hl.sound (hl.fits hty).1 (fun _ => (hl.fits hty).2) (fun hst => hk hst hty) hok _ _ _ hm hcode hrref
  · exact passes_nil hty hok hm _ _ _

theorem ListWord.accepted (hl : ListWord p) : (ty p == tCONS || ty p == tNIL) = true := by
  rcases hl.kind with hty | hty <;> rw [hty] <;> rfl

/-- The operands of ASSQ and MEMQ. -/
theorem run_check_search (hl : ListWord p) (hx : Sound x) (c : Nat) (u : State) :
    (check [listOpd p 0, { w := x, pos := 1 }]).run c u = .ok () u :=
  run_check _ _ _ (List.forall_mem_cons.2 ⟨hl.passes (o := listOpd p 0) rfl hl.accepted nofun rfl rfl rfl _ _ _,
    List.forall_mem_cons.2 ⟨passes_sound hx _ _ _ _ _, nofun⟩⟩)

/-- The tail in PG0. -/
theorem run_check_tail (hl : ListWord p) (a c : Nat) (u : State) : (check [tailOpd p a]).run c u = .ok () u :=
  run_check_one _ (hl.passes (o := tailOpd p a) rfl hl.accepted nofun rfl rfl rfl)

/-- The notes of a stepped instruction with these registers, and with what has been spilled before it. -/
def stepping (syl : Nat) (a b d e : TWord) (spills : List (Nat × TWord) := []) : Notes := { syl := syl, step := some ⟨a, b, d, e⟩, spills := spills }

theorem run_assq_start (hl : ListWord p) (hx : Sound x) {n : Nat} {v : List TWord}
    (helem : (assqElem [p, x]).run c (s.noted c (stepping 0x3023 p (fixN 0) (fixN 0) (fixN 0))) = .ok (some v) t) (hn : 1 ≤ n) (h : Idle s c r) :
    ((iAssq n).body [p, x]).run c (s.noted c { syl := 0x3023 }) = .ok { push := v } t := by
  have hinit := run_startStep (s := s) (c := c) (x := { syl := 0x3023 }) p (fixN 0) (fixN 0) (fixN 0)
  refine (run_stepped h rfl ?_).trans (run_runSteps_one hn helem)
  simp only [opd, List.getD_cons_zero, List.getD_cons_succ, run_bind, run_check_search hl hx, hinit]
  rfl

theorem run_memq_start (hl : ListWord p) (hx : Sound x) {n : Nat} {v : List TWord}
    (helem : (memqElem [p, x]).run c (s.noted c (stepping 0x3024 p (fixN 0) (fixN 0) (fixN 0))) = .ok (some v) t) (hn : 1 ≤ n) (h : Idle s c r) :
    ((iMemq n).body [p, x]).run c (s.noted c { syl := 0x3024 }) = .ok { push := v } t := by
  have hinit := run_startStep (s := s) (c := c) (x := { syl := 0x3024 }) p (fixN 0) (fixN 0) (fixN 0)
  refine (run_stepped h rfl ?_).trans (run_runSteps_one hn helem)
  simp only [opd, List.getD_cons_zero, List.getD_cons_succ, run_bind, run_check_search hl hx, hinit]
  rfl

section elements
variable {syl : Nat} {b d f : TWord}

include h in
/-- Nothing is found in NIL. -/
theorem run_assqElem_nil (hp : ty p = tNIL) (l : List TWord) :
    (assqElem l).run c (s.noted c (stepping syl p b d f)) = .ok (some [wNIL]) (s.noted c (stepping syl p b d f)) := by
  have hpg : ((s.core c).noted (stepping syl p b d f)).sr.pg0 = p := rfl
  simp only [assqElem, run_bind, run_getCore_noted h, hpg, run_check_tail (listWord_nil hp), hp, beq_self_eq_true, if_true, run_pure]

include h in
theorem run_memqElem_nil (hp : ty p = tNIL) (l : List TWord) :
    (memqElem l).run c (s.noted c (stepping syl p b d f)) = .ok (some [wNIL]) (s.noted c (stepping syl p b d f)) := by
  have hpg : ((s.core c).noted (stepping syl p b d f)).sr.pg0 = p := rfl
  simp only [memqElem, run_bind, run_getCore_noted h, hpg, run_check_tail (listWord_nil hp), hp, beq_self_eq_true, if_true, run_pure]

include h in
/-- The first cell of an association list has the key (R109). -/
theorem run_assqElem_hit (hp : Pointer s c p tCONS) (he : Reads s t c (adr p) e) (hty : ty e = tCONS) (hz : hiZero e = true) (heven : adr e % 2 = 0)
    (hq : Reads t u c (adr e) q) (hs : Sound q) (heq : eqWord q x = true) :
    (assqElem [p, x]).run c (s.noted c (stepping syl p b d f)) = .ok (some [e]) (u.noted c (stepping syl p b d f)) := by
  have hpg : ((s.core c).noted (stepping syl p b d f)).sr.pg0 = p := rfl
  have hcons : (ty p == tNIL) = false := by rw [hp.1]; rfl
  have hcell : (ty e == tNIL) = false := by rw [hty]; rfl
  have hlist : ListWord e := ⟨sound_of_ty hty (by decide) (by decide), .inl hty, fun _ => ⟨hz, heven⟩⟩
  simp only [assqElem, opd, List.getD_cons_zero, List.getD_cons_succ, run_bind, run_getCore_noted h, hpg, run_check_tail (listWord_cons hp), hcons,
    hcell, Bool.false_eq_true, if_false, run_resolve (pointer_settled hp), run_load h he, run_check_tail hlist, run_load (h.reads he) hq,
    run_checkMem hs, heq, run_pure, if_true]

include h in
/-- The first word of a list is the one sought (R109). -/
theorem run_memqElem_hit (hp : Pointer s c p tCONS) (he : Reads s t c (adr p) e) (hs : Sound e) (heq : eqWord e x = true) :
    (memqElem [p, x]).run c (s.noted c (stepping syl p b d f)) = .ok (some [p]) (t.noted c (stepping syl p b d f)) := by
  have hpg : ((s.core c).noted (stepping syl p b d f)).sr.pg0 = p := rfl
  have hcons : (ty p == tNIL) = false := by rw [hp.1]; rfl
  simp only [memqElem, opd, List.getD_cons_zero, List.getD_cons_succ, run_bind, run_getCore_noted h, hpg, run_check_tail (listWord_cons hp), hcons,
    Bool.false_eq_true, if_false, run_resolve (pointer_settled hp), run_load h he, run_checkMem hs, heq, run_pure, if_true]

/-! NREVERSE. -/

/-- The tail that NREVERSE is about to turn round. -/
theorem run_check_turned (hl : ListWord p) (hk : ty p = tCONS → kBit p = false) (a pos c : Nat) (v : State) :
    (check [{ tailOpd p a with store := true, pos := pos }]).run c v = .ok () v :=
  run_check_one _ (hl.passes (o := { tailOpd p a with store := true, pos := pos }) rfl hl.accepted (fun _ => hk) rfl rfl rfl)

include h in
/-- Past the last cell the result is the list turned round (R111). -/
theorem run_nreverseElem_end (hp : ty p = tNIL) (l : List TWord) :
    (nreverseElem l).run c (s.noted c (stepping syl p b d f)) = .ok (some [b]) (s.noted c (stepping syl p b d f)) := by
  have hpg : ((s.core c).noted (stepping syl p b d f)).sr.pg0 = p ∧ ((s.core c).noted (stepping syl p b d f)).sr.pg1 = b := ⟨rfl, rfl⟩
  simp only [nreverseElem, run_bind, run_getCore_noted h, hpg, run_check_turned (listWord_nil hp) (fun h => absurd (hp.symm.trans h) (by decide)), hp,
    beq_self_eq_true, if_true, run_pure]

/-- NIL is no pointer into the heap (R319, R320). -/
theorem noBarrier_nil (s : State) (c : Nat) : NoBarrier s c wNIL wNIL := by
  have hty : ty wNIL = tNIL := rfl
  have hnum : ∀ cu, isPtr cu tNIL = false := fun cu => by simp [isPtr, isCustom, tNIL, tVAR, tCONS, tFUN, tLOC, tSTRUCT, tPROXY, tFWD, tFUTURE]
  exact .inr ⟨by simp [State.heapPtr, hty, hnum], by simp [State.heapPtr, hty, hnum]⟩

include h in
/-- The only cell of a list of one (R111). -/
theorem run_nreverseElem_cell {lf : Leaf} (hp : Pointer s c p tCONS) (hk : kBit p = false) (ht : Reads s t c (adr p + 1) wNIL)
    (hs : Storable t c (adr p + 1) lf) (hold : t.coreSees c lf.pa = wNIL) (l : List TWord) :
    (nreverseElem l).run c (s.noted c (stepping syl p wNIL (fixN 0) f)) =
      .ok none ((t.queue c [queued (t.core c) lf wNIL true]).noted c (stepping syl wNIL p (fixI 1) (fixN 0))) := by
  have hpg : ((s.core c).noted (stepping syl p wNIL (fixN 0) f)).sr.pg0 = p ∧ ((s.core c).noted (stepping syl p wNIL (fixN 0) f)).sr.pg1 = wNIL ∧
    ((s.core c).noted (stepping syl p wNIL (fixN 0) f)).sr.pg2 = fixN 0 := ⟨rfl, rfl, rfl⟩
  have hcons : (ty p == tNIL) = false := by rw [hp.1]; rfl
  have hcount : fixVal (fixN 0) = 0 := fixVal_fixN (by decide)
  have hstore := run_store (x := stepping syl p wNIL (fixN 0) f) (h.reads ht) hs (by rw [hold]; exact noBarrier_nil t c) true false
  have hset := run_setPg (s := t.queue c [queued (t.core c) lf wNIL true]) (c := c) (x := stepping syl p wNIL (fixN 0) f) rfl wNIL p (fixI (0 + 1)) (fixN 0)
  simp only [Bool.false_eq_true, if_false, List.nil_append] at hstore
  simp only [nreverseElem, nextTail, run_bind, run_getCore_noted h, hpg, hcount, beq_self_eq_true, if_true, run_check_turned (listWord_cons hp) (fun _ => hk), hcons,
    Bool.false_eq_true, if_false, run_resolve (pointer_settled hp), run_load h ht, run_check_tail (listWord_nil (p := wNIL) rfl), hstore, hset, run_pure]
  rfl

theorem run_nreverse_start (hl : ListWord p) (n : Nat) (h : Idle s c r) :
    ((iNreverse n).body [p]).run c (s.noted c { syl := 0x3025 }) =
      (runSteps n (nreverseElem [p])).run c (s.noted c (stepping 0x3025 p wNIL (fixN 0) (fixN 0))) := by
  have hinit := run_startStep (s := s) (c := c) (x := { syl := 0x3025 }) p wNIL (fixN 0) (fixN 0)
  have hcheck : (check [listOpd p 0]).run c (s.noted c { syl := 0x3025 }) = .ok () (s.noted c { syl := 0x3025 }) :=
    run_check_one _ (hl.passes (o := listOpd p 0) rfl hl.accepted nofun rfl rfl rfl)
  refine run_stepped h rfl ?_
  simp only [opd, List.getD_cons_zero, run_bind, hcheck, hinit]
  rfl

/-! EQUAL of words that it does not descend into. -/

/-- A word that EQUAL compares by EQL. -/
structure FlatWord (w : TWord) : Prop where
  sound : Sound w
  pair : (ty w == tCONS) = false
  bytes : byteUnit (ty w) = false
  big : (ty w == tBIG) = false
  rat : (ty w == tRAT) = false
  cpx : (ty w == tCPX) = false

theorem flatWord_of {w : TWord} (h : ty w = tFIX ∨ ty w = tCHR ∨ ty w = tSYM ∨ ty w = tNIL) : FlatWord w := by
  rcases h with h | h | h | h <;> exact ⟨sound_of_ty h (by decide) (by decide), by rw [h]; rfl, by rw [h]; rfl, by rw [h]; rfl, by rw [h]; rfl, by rw [h]; rfl⟩

theorem FlatWord.passes (hw : FlatWord p) (pos a : Nat) (cust : Bool) (cuptr : Nat) (user : Bool) :
    (equalOpd p pos a).passes cust cuptr user = true := by
  have ho : equalOpd p pos a = { w := p, pos := pos, addr := a } := by simp only [equalOpd, hw.pair, hw.bytes, Bool.or_self]
  rw [ho]
  exact passes_sound hw.sound _ _ _ _ _

theorem run_check_flat (hp : FlatWord p) (hx : FlatWord x) (a b a' b' c : Nat) (v : State) :
    (check [equalOpd p a b, equalOpd x a' b']).run c v = .ok () v :=
  run_check _ _ _ (List.forall_mem_cons.2 ⟨hp.passes _ _ _ _ _, List.forall_mem_cons.2 ⟨hx.passes _ _ _ _ _, nofun⟩⟩)

/-- EQL of such words is EQ. -/
theorem run_eql_flat (hx : FlatWord x) (hne : eqWord x p = false) (c : Nat) (v : State) : (eql x p).run c v = .ok false v := by
  simp only [eql, eqlRat, eqlFlat, hne, hx.cpx, hx.rat, hx.big, Bool.false_and, Bool.false_eq_true, if_false, run_pure]

/-- The core with n entries of the pending pairs dropped (R108). -/
def Core.unwound (n : Nat) (k : Core) : Core := { k with stk := { k.stk with sp := va48 (k.stk.sp + n), regs := k.stk.regs.drop n } }

include h in
/-- EQUAL of words that are EQ, with no pair pending. -/
theorem run_equalElem_same (hx : FlatWord x) (hp : FlatWord p) (heq : eqWord x p = true) (l : List TWord) :
    (equalElem l).run c (s.noted c (stepping syl x p (fixN 0) (fixN 0))) = .ok (some [wTRUE]) (s.noted c (stepping syl x p (fixN 0) (fixN 0))) := by
  have hpg : ((s.core c).noted (stepping syl x p (fixN 0) (fixN 0))).sr.pg0 = x ∧ ((s.core c).noted (stepping syl x p (fixN 0) (fixN 0))).sr.pg1 = p ∧
    ((s.core c).noted (stepping syl x p (fixN 0) (fixN 0))).sr.pg2 = fixN 0 := ⟨rfl, rfl, rfl⟩
  have hcount : fixVal (fixN 0) = 0 := fixVal_fixN (by decide)
  simp only [equalElem, equalPop, run_bind, run_getCore_noted h, hpg, run_check_flat hp hx, heq, if_true, hcount, le_refl, run_pure]

include h in
/-- EQUAL of words that differ, with no pair pending. -/
theorem run_equalElem_differ (hx : FlatWord x) (hp : FlatWord p) (hne : eqWord x p = false) (l : List TWord) :
    (equalElem l).run c (s.noted c (stepping syl x p (fixN 0) (fixN 0))) =
      .ok (some [wNIL]) ((s.modCore c (Core.unwound 0)).noted c (stepping syl x p (fixN 0) (fixN 0))) := by
  have hpg : ((s.core c).noted (stepping syl x p (fixN 0) (fixN 0))).sr.pg0 = x ∧ ((s.core c).noted (stepping syl x p (fixN 0) (fixN 0))).sr.pg1 = p ∧
    ((s.core c).noted (stepping syl x p (fixN 0) (fixN 0))).sr.pg2 = fixN 0 := ⟨rfl, rfl, rfl⟩
  have hcount : fixVal (fixN 0) = 0 := fixVal_fixN (by decide)
  have hdrop := run_modMe_noted (s := s) (c := c) (x := stepping syl x p (fixN 0) (fixN 0)) (f := Core.unwound 0) fun _ => rfl
  unfold Core.unwound at hdrop
  simp only [equalElem, equalFail, bothDeep, hx.pair, hx.bytes, run_bind, run_getCore_noted h, hpg, run_check_flat hp hx, hne, Bool.false_and,
    Bool.or_self, Bool.and_false, Bool.false_eq_true, if_false, hcount, run_eql_flat hx hne, Int.toNat_zero, Nat.mul_zero, hdrop, run_pure]
  rfl

theorem run_equal_start (hx : FlatWord x) (hp : FlatWord p) {n : Nat} {v : List TWord}
    (helem : (equalElem [p, x]).run c (s.noted c (stepping 0x3022 x p (fixN 0) (fixN 0))) = .ok (some v) t) (hn : 1 ≤ n) (h : Idle s c r) :
    ((iEqual n).body [p, x]).run c (s.noted c { syl := 0x3022 }) = .ok { push := v } t := by
  have hinit := run_startStep (s := s) (c := c) (x := { syl := 0x3022 }) x p (fixN 0) (fixN 0)
  refine (run_stepped h rfl ?_).trans (run_runSteps_one hn helem)
  simp only [opd, List.getD_cons_zero, List.getD_cons_succ, run_bind, run_check_flat hp hx, hinit]
  rfl

end elements

end lists

/-- Dropping nothing leaves the stack pointer as it is, modulo the width of an address (R6). -/
theorem retired_unwound (k : Core) (syl takes : Nat) (push : List TWord) : retired (k.unwound 0) syl takes push = retired k syl takes push := by
  have hsp : va48 ((va48 ((k.stk.sp : Int) + (0 : Nat)) + takes : Nat) - (push.length : Int)) = va48 ((k.stk.sp + takes : Nat) - (push.length : Int)) := by
    unfold va48
    norm_num
    omega
  unfold retired Core.unwound
  simp only [hsp, List.drop_zero]

section issue
variable {s t u : State} {c : Fin 256} {p x e : TWord} {n : Nat} (q : Quiet s c)

include q in
/-- A stepped instruction of the first step's result, with no store. -/
theorem issue_searched {i : Ins} {ops push : List TWord} {syl takes : Nat} (hst : Stacked s c ops takes 4)
    (hg : i.sig.asks syl ops.length takes 4 = true) (h : Idle t c (s.core c).psw) {a b d f : TWord}
    (hrun : (i.body ops).run c (s.noted c { syl := syl }) = .ok { push := push } (t.noted c (stepping syl a b d f))) :
    issue c i s = afterSteps t c syl takes push (fun _ => []) :=
  issue_stepped (l := fun _ => []) q hst hg h (by rw [queue_nil]; exact hrun)

include q in
theorem exec_equal (hst : Stacked s c [p, x] 2 4) (hty : ty x = ty p) (hflat : ty x = tFIX ∨ ty x = tCHR ∨ ty x = tSYM ∨ ty x = tNIL) (hn : 1 ≤ n) :
    exec (.equal c n) s = .next (afterSteps s c 0x3022 2 [wBool (eqWord x p)] (fun _ => [])) := by
  have h := idle_of_quiet q
  have hx := flatWord_of hflat
  have hp := flatWord_of (hty ▸ hflat)
  cases heq : eqWord x p with
  | true => exact next_eq (issue_searched (i := iEqual n) q hst rfl h (run_equal_start hx hp (run_equalElem_same h hx hp heq _) hn h))
  | false =>
    refine next_eq ((issue_searched (i := iEqual n) q hst rfl (h.stacks rfl) (run_equal_start hx hp (run_equalElem_differ h hx hp heq _) hn h)).trans ?_)
    unfold afterSteps
    rw [changed_modCore]
    refine changed_congr ?_
    dsimp only
    rw [retired_unwound]
    rfl

end issue

end Sys2Proof.Machine
end

section
/-! PROOFS. FILLVEC and COPYVEC of one word of VEC objects (R105, R107, R162), and the statement O12. -/

namespace Sys2Proof.Machine

open Sys2Proof Sys2Proof.Safety

section rules
variable {s t u : State} {c : Nat} {r : Psw} {p q v w g h i j : TWord} {lf : Leaf} {syl : Nat}

/-- A VEC may have any header (R39). -/
theorem hdrFits_vec (h : TWord) : hdrFits tVEC h = true := by
  simp [hdrFits, show (tVEC == tSYM) = false from rfl, show (tVEC == tRAT) = false from rfl, show (tVEC == tCPX) = false from rfl,
    show (tVEC == tPROXY) = false from rfl, show (tVEC == tFUTURE) = false from rfl, show (tVEC == tBIG) = false from rfl,
    show (tVEC == tFUN) = false from rfl, show (tVEC == tSTR) = false from rfl, show (tVEC == tBVEC) = false from rfl]

/-- The units of a VEC are its words (R107). -/
theorem unitsOf_vec (h : TWord) : unitsOf tVEC h = hdrLen h := rfl

/-- One unit at an index within LENGTH fits. -/
theorem rangeFits_one {v : W64} {len : Nat} (h0 : 0 ≤ v.toInt) (h1 : v.toInt < len) : rangeFits v.toInt 1 len = true := by
  simp only [rangeFits, Bool.and_eq_true, decide_eq_true_eq]
  omega

theorem isHeaded_vec (cu : Nat) : isHeaded cu tVEC = true := by simp [isHeaded, tVEC, tSYM, tFUN]

theorem fixVal_one : fixVal (fixN 1) = 1 := fixVal_fixN (by decide)

theorem fixVal_zero : fixVal (fixN 0) = 0 := fixVal_fixN (by decide)

section fill
variable (hi : Idle s c r) (hq : Pointer s c q tVEC) (hk : kBit q = false) (hj : ty j = tFIX) (h0 : 0 ≤ j.datum.toInt) (h1 : j.datum.toInt < hdrLen h)

include hi hq hk hj h0 h1 in
/-- The first issue of a FILLVEC of one word (R107). -/
theorem run_fillInit (hm : MayStore s c v) (hh : HeaderAt s t c (adr q) h) :
    (fillInit [v, fixN 1, j, q]).run c (s.noted c { syl := syl }) = .ok () (t.noted c (stepping syl (fixN 0) (fixN 0) (fixN 0) (fixN 0))) := by
  have hty : ty q = tVEC := hq.1
  have hinit := run_startStep (s := t) (c := c) (x := { syl := syl }) (fixN 0) (fixN 0) (fixN 0) (fixN 0)
  have hcheck : (check [movedOpd v 0, fixOpd (fixN 1) 1, fixOpd j 2, headedOpd ((s.noted c { syl := syl }).cuptr c) q 3 true]).run c
      (s.noted c { syl := syl }) = .ok () (s.noted c { syl := syl }) :=
    run_check _ _ _ (List.forall_mem_cons.2 ⟨passes_moved (mayStore_noted hi hm) _ _ _, List.forall_mem_cons.2 ⟨passes_fixOpd rfl _ _ _ _,
      List.forall_mem_cons.2 ⟨passes_fixOpd hj _ _ _ _, List.forall_mem_cons.2 ⟨passes_written (sound_of_ty hty (by decide) (by decide))
        (hty.symm ▸ hq) hk (by rw [hty]; exact isHeaded_vec _) _ _ _ _, nofun⟩⟩⟩⟩)
  have hneg : ¬ (1 : Int) < 0 := by decide
  have hbytes : byteUnit tVEC = false ∧ (tVEC == tBIG) = false := ⟨rfl, rfl⟩
  have hfits := run_objHdr (x := { syl := syl }) hi (pointer_settled hq) hh (by rw [hty]; exact hdrFits_vec h) 3 false
  have hrange : rangeFits (fixVal j) 1 (hdrLen h) = true := rangeFits_one h0 h1
  simp only [fillInit, opd, List.getD_cons_zero, List.getD_cons_succ, run_bind, run_askS, hty, hbytes, Bool.false_eq_true, if_false, List.nil_append,
    hcheck, fixVal_one, hneg, hfits, unitsOf_vec, hrange, Bool.not_true, hinit]
  rfl

include hi hq h0 in
/-- The word of a FILLVEC. -/
theorem run_fillElem_word (hh : HeaderAt s t c (adr q) h) (hs : Storable t c (adr q + 1 + j.datum.toNat) lf)
    (hb : NoBarrier t c (t.coreSees c lf.pa) v) {b d e : TWord} :
    (fillElem [v, fixN 1, j, q]).run c (s.noted c (stepping syl (fixN 0) b d e)) =
      .ok none ((t.queue c [queued (t.core c) lf v true]).noted c (stepping syl (fixI 1) b d e)) := by
  have hpg : ((s.core c).noted (stepping syl (fixN 0) b d e)).sr.pg0 = fixN 0 := rfl
  have hless : ¬ (1 : Int) ≤ 0 := by decide
  have hbytes : byteUnit (ty q) = false := by rw [hq.1]; rfl
  have hindex : (fixVal j + 0).toNat = j.datum.toNat := by rw [Int.add_zero]; exact toNat_toInt_nonneg h0
  have hstore := run_store (x := stepping syl (fixN 0) b d e) (hi.sees hh.1).1 hs hb true false
  have hset := run_setPg0 (s := t.queue c [queued (t.core c) lf v true]) (c := c) (x := stepping syl (fixN 0) b d e) rfl (fixI (0 + 1))
  simp only [Bool.false_eq_true, if_false, List.nil_append] at hstore
  simp only [fillElem, opd, List.getD_cons_zero, List.getD_cons_succ, run_bind, run_getCore_noted hi, hpg, fixVal_one, fixVal_zero, hless, if_false,
    run_resolve (pointer_settled hq), run_hdrOf hi hh, hindex, hbytes, Bool.false_eq_true, hstore, hset, run_pure]
  rfl

end fill

/-- The element after the last one of a FILLVEC. -/
theorem run_fillElem_end (hi : Idle s c r) {b d e : TWord} :
    (fillElem [v, fixN 1, j, q]).run c (s.noted c (stepping syl (fixI 1) b d e)) = .ok (some []) (s.noted c (stepping syl (fixI 1) b d e)) := by
  have hpg : ((s.core c).noted (stepping syl (fixI 1) b d e)).sr.pg0 = fixI 1 := rfl
  have hone : fixVal (fixI 1) = 1 := by decide
  simp only [fillElem, opd, List.getD_cons_zero, List.getD_cons_succ, run_bind, run_getCore_noted hi, hpg, fixVal_one, hone, le_refl, if_true, run_pure]

/-! ### COPYVEC, whose fifth operand is spilled first (R107, R162) -/

section spill

/-- The core after a spill: the deepest operand register's word is in the store queue (R49, R51). -/
def Core.spilled (lf : Leaf) (w : TWord) (l : List TWord) (k : Core) : Core :=
  { Core.withQueue k [queued k lf w true] with stk := { k.stk with regs := l } }

def State.spilled (s : State) (c : Nat) (lf : Leaf) (w : TWord) (l : List TWord) : State := (s.modCore c (Core.spilled lf w l)).bump .CORE_SPILLS c 1

variable {l : List TWord} {x : Notes} (hi : Idle s c r)

include hi in
theorem spilled_core : (s.spilled c lf w l).core c = (s.core c).spilled lf w l := core_modCore _ _ _ hi.lt

include hi in
/-- A spill leaves the core as idle as before. -/
theorem Idle.spilled : Idle (s.spilled c lf w l) c r := by
  have hm : Idle (s.modCore c (Core.spilled lf w l)) c r :=
    hi.modCore (fun k => ⟨k.1, k.2, k.3, k.4, k.5, k.6, k.7, k.8, k.9, k.10, k.11, k.12⟩) rfl rfl
  obtain ⟨lt, plain, psw, noScene, noPend, unwatched⟩ := hm
  exact ⟨lt, plain, psw, noScene, noPend, unwatched.setReg (by decide) _ _⟩

/-- What is settled is so whatever has been spilled. -/
theorem settled_spilled {v : TWord} (hv : Settled s c v) : Settled (s.spilled c lf w l) c v := by
  have hr : ∀ k : Reg, .CORE_SPILLS ≠ k → ∀ j, (s.spilled c lf w l).reg k j = s.reg k j := fun k hk j =>
    reg_setReg_ne _ _ _ _ _ _ fun e => hk e.1
  have hcu : (s.spilled c lf w l).cuptr c = s.cuptr c := congrArg (fun v : W64 => v.toNat % 2 ^ 16) (hr .MCS_CUPTR nofun _)
  have hon : (s.spilled c lf w l).colOn = s.colOn := congrArg (bits · f_COL_CTL_EN.hi f_COL_CTL_EN.lo == 1) (hr .COL_CTL nofun 0)
  have hbase : (s.spilled c lf w l).fld f_COL_HEAPBASE_BASE 0 = s.fld f_COL_HEAPBASE_BASE 0 :=
    congrArg (bits · f_COL_HEAPBASE_BASE.hi f_COL_HEAPBASE_BASE.lo) (hr .COL_HEAPBASE nofun 0)
  simpa only [Settled, hcu, hon, State.regionOf, hbase] using hv

theorem bump_modCore (f : Core → Core) (k : Reg) (i n : Nat) : (s.bump k i n).modCore c f = (s.modCore c f).bump k i n := rfl

include hi in
/-- A spill of the deepest operand register (R49, R51). -/
theorem run_spillOne (hregs : (s.core c).stk.regs = l ++ [w]) (hslim : bits (s.core c).stk.slim 47 0 ≤ (s.core c).stk.sp + l.length)
    (hs : Storable s c ((s.core c).stk.sp + l.length) lf) (hb : NoBarrier s c (s.coreSees c lf.pa) w) :
    spillOne.run c (s.noted c x) =
      .ok () ((s.spilled c lf w l).noted c { x with spills := x.spills ++ [((s.core c).stk.sp + l.length, w)] }) := by
  have hk : ((s.core c).noted x).stk = (s.core c).stk ∧ ((s.core c).noted x).pend = [] := ⟨rfl, hi.noPend⟩
  have hland : (s.noted c x).modCore c (fun k => k.landSlot (k.stk.sp + (k.stk.regs.length - 1))) = s.noted c x := by
    refine modCore_id _ _ _ ?_
    rw [noted_core hi]
    simp only [Core.landSlot, Core.landList, hk.2, List.filter_nil, List.foldl_nil]
    rw [← hk.2]
  have hlen : (s.core c).stk.regs.length - 1 = l.length := by rw [hregs]; simp
  have hlast : (s.core c).stk.regs.getD l.length wEMPTY = w := by rw [hregs]; simp
  have hstore := run_store (x := x) hi hs hb true false
  simp only [Bool.false_eq_true, if_false, List.nil_append] at hstore
  simp only [spillOne, awaitPend, noteSpill, run_bind, run_getCore_noted hi, hk, List.any_nil, Bool.false_eq_true, if_false, run_pure, run_modMe,
    hlen, hland, hlast, if_neg (Nat.not_lt.2 hslim), hstore, run_updS]
  simp only [State.spilled, State.queue, State.noted, bump_modCore, modCore_modCore]
  refine congrArg (fun t : State => EStateM.Result.ok () (t.bump .CORE_SPILLS c 1)) (modCore_congr _ _ _ _ ?_)
  simp only [Core.spilled, Core.withQueue, Core.noted, hregs, List.dropLast_concat]

include hi in
/-- The preparation of a microcoded syllable with five operands in registers: the deepest one is spilled (R162). -/
theorem run_prepare_spilling {g : Sig} {a b d e : TWord} (hm : g.micro = true) (hrd : g.rd = 5) (hd : Deep s c g.reach)
    (hregs : (s.core c).stk.regs = [a, b, d, e, w]) (hslim : bits (s.core c).stk.slim 47 0 ≤ (s.core c).stk.sp + 4)
    (hs : Storable s c ((s.core c).stk.sp + 4) lf) (hb : NoBarrier s c (s.coreSees c lf.pa) w) :
    (prepare g).run c (s.noted c { syl := syl }) = .ok [a, b, d, e, w]
      ((s.spilled c lf w [a, b, d, e]).noted c { syl := syl, spills := [((s.core c).stk.sp + 4, w)] }) := by
  have hk : ((s.noted c { syl := syl }).core c).stk = (s.core c).stk := by rw [noted_core hi]; rfl
  have hlen : ((s.noted c { syl := syl }).core c).stk.regs.length = 5 := by rw [hk, hregs]; rfl
  have hunder := run_underflow g.reach c (s.noted c { syl := syl }) (by rw [noted_core hi]; exact hd)
  have hfill := run_fillTo 8 4 c (s.noted c { syl := syl }) (by omega)
  have hops := run_operands c (s.noted c { syl := syl }) 5 (by omega)
  have hspill := run_spillOne (x := { syl := syl }) (l := [a, b, d, e]) hi hregs hslim hs hb
  have hroom := run_spillFor 7 4 c ((s.spilled c lf w [a, b, d, e]).noted c { syl := syl, spills := [((s.core c).stk.sp + 4, w)] })
    (by rw [noted_core hi.spilled, spilled_core hi]; exact Nat.le_refl 8)
  have hfull : ¬ ((s.noted c { syl := syl }).core c).stk.regs.length + 4 ≤ 8 := by omega
  have hspills : (spillFor 8 4).run c (s.noted c { syl := syl }) =
      .ok () ((s.spilled c lf w [a, b, d, e]).noted c { syl := syl, spills := [((s.core c).stk.sp + 4, w)] }) := by
    rw [spillFor]
    simp only [run_bind, run_getCore, if_neg hfull, hspill, List.nil_append, List.length_cons, List.length_nil, hroom]
  rw [hk, hregs] at hops
  simp only [prepare, run_bind, hunder, hm, if_true, hrd, OfNat.ofNat_ne_zero, if_false, hfill, hops, hspills, run_pure]
  rfl

end spill

section copy
variable {l : List (Nat × TWord)} (hi : Idle s c r) (hp : Pointer s c p tVEC) (hq : Pointer s c q tVEC)
  (hti : ty i = tFIX) (hi0 : 0 ≤ i.datum.toInt) (hi1 : i.datum.toInt < hdrLen g) (hj : ty j = tFIX) (hj0 : 0 ≤ j.datum.toInt) (hj1 : j.datum.toInt < hdrLen h)

include hp hq hti hj in
/-- The operands of COPYVEC. -/
theorem run_check_copy (hk : kBit q = false) (a : Nat) (v : State) :
    (check [fixOpd (fixN 1) 0, fixOpd j 1, headedOpd a q 2 true, fixOpd i 3,
      { headedOpd a p 4 false with ok := (headedOpd a p 4 false).ok && ty q == ty p }]).run c v = .ok () v := by
  have hsource : ∀ cust cu user, { headedOpd a p 4 false with ok := (headedOpd a p 4 false).ok && ty q == ty p }.passes cust cu user = true :=
    fun _ _ _ => passes_pointer (sound_of_ty hp.1 (by decide) (by decide)) hp.2.1
      (fun h => h.elim (absurd · Bool.false_ne_true) fun h => absurd (hp.1.symm.trans h) (by decide)) (absurd · Bool.false_ne_true)
      (by rw [hq.1, hp.1]; simp [headedOpd, hp.1, isHeaded_vec]) _ _ _ rfl rfl rfl
  exact run_check _ _ _ (List.forall_mem_cons.2 ⟨passes_fixOpd rfl _ _ _ _, List.forall_mem_cons.2 ⟨passes_fixOpd hj _ _ _ _,
    List.forall_mem_cons.2 ⟨passes_written (sound_of_ty hq.1 (by decide) (by decide)) (hq.1.symm ▸ hq) hk (by rw [hq.1]; exact isHeaded_vec _) _ _ _ _,
      List.forall_mem_cons.2 ⟨passes_fixOpd hti _ _ _ _, List.forall_mem_cons.2 ⟨hsource _ _ _, nofun⟩⟩⟩⟩⟩)

include hi hp hq hti hi0 hi1 hj hj0 hj1 in
/-- The first issue of a COPYVEC of one word (R107). -/
theorem run_copyInit (hk : kBit q = false) (hg : HeaderAt s t c (adr p) g) (hh : HeaderAt t u c (adr q) h) :
    ∃ way, (copyInit [fixN 1, j, q, i, p]).run c (s.noted c { syl := syl, spills := l }) =
      .ok () (u.noted c (stepping syl (fixN 0) way (fixN 0) (fixN 0) l)) := by
  have hinit := run_startStep (s := u) (c := c) (x := { syl := syl, spills := l }) (fixN 0)
    (fixN (b2n (adr p == adr q && decide (fixVal i < fixVal j)))) (fixN 0) (fixN 0)
  have hsource := run_objHdr (x := { syl := syl, spills := l }) hi (pointer_settled hp) hg (by rw [hp.1]; exact hdrFits_vec g) 4 false
  have htarget := run_objHdr (x := { syl := syl, spills := l }) (hi.sees hg.1).1 (settled_sees hg.1 (pointer_settled hq)) hh
    (by rw [hq.1]; exact hdrFits_vec h) 2 false
  have hneg : ¬ (1 : Int) < 0 := by decide
  have hfrom : rangeFits (fixVal i) 1 (unitsOf (ty p) g) = true := by rw [hp.1]; exact rangeFits_one hi0 hi1
  have hto : rangeFits (fixVal j) 1 (unitsOf (ty p) h) = true := by rw [hp.1]; exact rangeFits_one hj0 hj1
  refine ⟨fixN (b2n (adr p == adr q && decide (fixVal i < fixVal j))), ?_⟩
  simp only [copyInit, opd, List.getD_cons_zero, List.getD_cons_succ, run_bind, run_askS, run_check_copy hp hq hti hj hk, fixVal_one, hneg, if_false,
    hsource, htarget, hfrom, hto, Bool.not_true, Bool.false_eq_true, hinit]
  rfl

/-- The only index of one unit, whichever way the copy goes. -/
theorem copy_index {a : TWord} (b : TWord) (h0 : 0 ≤ a.datum.toInt) : (fixVal a + (if fixVal b = 1 then 1 - 1 - 0 else 0)).toNat = a.datum.toNat := by
  rw [show (if fixVal b = 1 then (1 : Int) - 1 - 0 else 0) = 0 by split <;> rfl, Int.add_zero]
  exact toNat_toInt_nonneg h0

include hi hp hq hi0 hj0 in
/-- The word of a COPYVEC. -/
theorem run_copyElem_word {t' : State} (hg : HeaderAt s t c (adr p) g) (hh : HeaderAt t t' c (adr q) h)
    (hw : Reads t' u c (adr p + 1 + i.datum.toNat) w) (hm : MayStore s c w) (hs : Storable u c (adr q + 1 + j.datum.toNat) lf)
    (hb : NoBarrier u c (u.coreSees c lf.pa) w) {b d e : TWord} :
    (copyElem [fixN 1, j, q, i, p]).run c (s.noted c (stepping syl (fixN 0) b d e l)) =
      .ok none ((u.queue c [queued (u.core c) lf w true]).noted c (stepping syl (fixI 1) b d e l)) := by
  have hpg : ((s.core c).noted (stepping syl (fixN 0) b d e l)).sr.pg0 = fixN 0 ∧
    ((s.core c).noted (stepping syl (fixN 0) b d e l)).sr.pg1 = b ∧
    ((s.core c).noted (stepping syl (fixN 0) b d e l)).psw.l = (s.core c).psw.l := ⟨rfl, rfl, rfl⟩
  have hless : ¬ (1 : Int) ≤ 0 := by decide
  have hbytes : byteUnit (ty p) = false := by rw [hp.1]; rfl
  have hmay : (!(s.core c).psw.l && (ty w == tHDR || ty w == tFWD)) = false := by
    rcases hm with hm | ⟨hm, hm'⟩
    · rw [hm]; rfl
    · rw [beq_eq_false_iff_ne.2 hm, beq_eq_false_iff_ne.2 hm', Bool.or_self, Bool.and_false]
  have ht := (hi.sees hg.1).1
  have ht' := (ht.sees hh.1).1
  have hstore := run_store (x := stepping syl (fixN 0) b d e l) (ht'.reads hw) hs hb true false
  have hset := run_setPg0 (s := u.queue c [queued (u.core c) lf w true]) (c := c) (x := stepping syl (fixN 0) b d e l) rfl (fixI (0 + 1))
  simp only [Bool.false_eq_true, if_false, List.nil_append] at hstore
  simp only [copyElem, opd, List.getD_cons_zero, List.getD_cons_succ, run_bind, run_getCore_noted hi, hpg, fixVal_one, fixVal_zero, hless, if_false,
    run_resolve (pointer_settled hp), run_resolve (pointer_settled hq), run_hdrOf hi hg, run_hdrOf ht hh, copy_index b hi0, copy_index b hj0, hbytes,
    Bool.false_eq_true, run_load ht' hw, hmay, run_pure, hstore, hset]
  rfl

end copy

/-- The element after the last one of a COPYVEC. -/
theorem run_copyElem_end (hi : Idle s c r) {b d e : TWord} {l : List (Nat × TWord)} :
    (copyElem [fixN 1, j, q, i, p]).run c (s.noted c (stepping syl (fixI 1) b d e l)) = .ok (some []) (s.noted c (stepping syl (fixI 1) b d e l)) := by
  have hpg : ((s.core c).noted (stepping syl (fixI 1) b d e l)).sr.pg0 = fixI 1 := rfl
  have hone : fixVal (fixI 1) = 1 := by decide
  simp only [copyElem, opd, List.getD_cons_zero, run_bind, run_getCore_noted hi, hpg, fixVal_one, hone, le_refl, if_true, run_pure]

end rules

section issue
variable {s t u : State} {c : Fin 256} {q v h j : TWord} {lf : Leaf} {n : Nat} (qs : Quiet s c)

include qs in
theorem exec_fillvec (hst : Stacked s c [v, fixN 1, j, q] 4 4) (hn : 2 ≤ n) (hq : Pointer s c q tVEC) (hk : kBit q = false) (hj : ty j = tFIX)
    (h0 : 0 ≤ j.datum.toInt) (h1 : j.datum.toInt < hdrLen h) (hm : MayStore s c v) (hh : HeaderAt s t c (adr q) h) (hh' : HeaderAt t u c (adr q) h)
    (hs : Storable u c (adr q + 1 + j.datum.toNat) lf) (hb : NoBarrier u c (u.coreSees c lf.pa) v) :
    exec (.fillvec c n) s = .next (afterSteps u c 0x3021 4 [] (fun k => [queued k lf v true])) := by
  have hi := idle_of_quiet qs
  have ht := (hi.sees hh.1).1
  have hu := (ht.sees hh'.1).1
  have hq' : Pointer t c q tVEC := ⟨hq.1, hq.2.1, hq.2.2.1, settled_sees hh.1 hq.2.2.2⟩
  have hrun : ((iFillvec n).body [v, fixN 1, j, q]).run c (s.noted c { syl := 0x3021 }) =
      .ok { push := [] } ((u.queue c [queued (u.core c) lf v true]).noted c (stepping 0x3021 (fixI 1) (fixN 0) (fixN 0) (fixN 0))) :=
    (run_stepped hi rfl (run_fillInit hi hq hk hj h0 h1 hm hh)).trans
      (run_runSteps_two hn (run_fillElem_word ht hq' h0 hh' hs hb) (run_fillElem_end (hu.queue _)))
  exact next_eq (issue_stepped (i := iFillvec n) (l := fun k => [queued k lf v true]) qs hst rfl hu hrun)

include qs in
theorem exec_copyvec {s1 t1 t2 t3 t4 t5 : State} {p g i w : TWord} {sp : Leaf} (hn : 2 ≤ n) (hq : Pointer s c q tVEC) (hk : kBit q = false)
    (hj : ty j = tFIX) (hj0 : 0 ≤ j.datum.toInt) (hj1 : j.datum.toInt < hdrLen h) (hregs : (s.core c).stk.regs = [fixN 1, j, q, i, p])
    (hd : Deep s c 5) (hp : Pointer s c p tVEC) (hti : ty i = tFIX) (hi0 : 0 ≤ i.datum.toInt) (hi1 : i.datum.toInt < hdrLen g)
    (hslim : bits (s.core c).stk.slim 47 0 ≤ (s.core c).stk.sp + 4) (hsp : Storable s c ((s.core c).stk.sp + 4) sp)
    (hbp : NoBarrier s c (s.coreSees c sp.pa) p) (hs1 : s1 = s.spilled c sp p [fixN 1, j, q, i])
    (hg : HeaderAt s1 t1 c (adr p) g) (hh : HeaderAt t1 t2 c (adr q) h) (hg' : HeaderAt t2 t3 c (adr p) g) (hh' : HeaderAt t3 t4 c (adr q) h)
    (hw : Reads t4 t5 c (adr p + 1 + i.datum.toNat) w) (hm : MayStore s c w) (hs : Storable t5 c (adr q + 1 + j.datum.toNat) lf)
    (hb : NoBarrier t5 c (t5.coreSees c lf.pa) w) :
    exec (.copyvec c n) s = .next (afterSteps t5 c 0x3020 5 [] (fun k => [queued k lf w true])) := by
  have hi := idle_of_quiet qs
  have h1 : Idle s1 c (s.core c).psw := hs1 ▸ hi.spilled
  have h2 := ((h1.sees hg.1).1.sees hh.1).1
  have h5 := (((h2.sees hg'.1).1.sees hh'.1).1.reads hw)
  have along : ∀ {v : TWord}, Pointer s c v tVEC → Pointer s1 c v tVEC ∧ Pointer t2 c v tVEC := fun ⟨hty, hz, hodd, hv⟩ =>
    have hv1 := hs1 ▸ settled_spilled hv
    ⟨⟨hty, hz, hodd, hv1⟩, ⟨hty, hz, hodd, settled_sees hh.1 (settled_sees hg.1 hv1)⟩⟩
  obtain ⟨hp1, hp2⟩ := along hp
  obtain ⟨hq1, hq2⟩ := along hq
  have hprep := run_prepare_spilling (syl := 0x3020) (g := (iCopyvec n).sig) hi rfl rfl hd hregs hslim hsp hbp
  rw [← hs1] at hprep
  obtain ⟨way, hinit⟩ := run_copyInit (syl := 0x3020) (l := [((s.core c).stk.sp + 4, p)]) h1 hp1 hq1 hti hi0 hi1 hj hj0 hj1 hk hg hh
  have hrun : ((iCopyvec n).body [fixN 1, j, q, i, p]).run c (s1.noted c { syl := 0x3020, spills := [((s.core c).stk.sp + 4, p)] }) =
      .ok { push := [] } ((t5.queue c [queued (t5.core c) lf w true]).noted c
        (stepping 0x3020 (fixI 1) way (fixN 0) (fixN 0) [((s.core c).stk.sp + 4, p)])) :=
    (run_stepped h1 rfl hinit).trans (run_runSteps_two hn
      (run_copyElem_word h2 hp2 hq2 hi0 hj0 hg' hh' hw (by unfold MayStore; rw [h2.psw]; exact hm) hs hb) (run_copyElem_end (h5.queue _)))
  have hplace := placeCheck_quiet qs (iCopyvec n).sig (s.portOk c (iCopyvec n).sig.port) rfl (.inl rfl) (.inl rfl)
  exact next_eq ((issue_prepared qs hplace hprep hrun).trans (retire_stepped (l := fun k => [queued k lf w true]) h5))

end issue

section lists
variable {s t u : State} {c : Fin 256} {p x e q : TWord} {lf : Leaf} {n : Nat} (qs : Quiet s c) (hn : 1 ≤ n)

include qs hn in
/-- ASSQ and MEMQ find nothing in NIL (R109). -/
theorem exec_search_nil (hx : Sound x) (hst : Stacked s c [p, x] 2 4) (hp : ty p = tNIL) :
    exec (.assq c n) s = .next (afterSteps s c 0x3023 2 [wNIL] (fun _ => [])) ∧
    exec (.memq c n) s = .next (afterSteps s c 0x3024 2 [wNIL] (fun _ => [])) := by
  have h := idle_of_quiet qs
  exact ⟨next_eq (issue_searched (i := iAssq n) qs hst rfl h (run_assq_start (listWord_nil hp) hx (run_assqElem_nil h hp _) hn h)),
    next_eq (issue_searched (i := iMemq n) qs hst rfl h (run_memq_start (listWord_nil hp) hx (run_memqElem_nil h hp _) hn h))⟩

include qs hn in
theorem exec_assq_hit (hx : Sound x) (hst : Stacked s c [p, x] 2 4) (hp : Pointer s c p tCONS) (he : Reads s t c (adr p) e) (hty : ty e = tCONS)
    (hz : hiZero e = true) (heven : adr e % 2 = 0) (hq : Reads t u c (adr e) q) (hs : Sound q) (heq : eqWord q x = true) :
    exec (.assq c n) s = .next (afterSteps u c 0x3023 2 [e] (fun _ => [])) := by
  have h := idle_of_quiet qs
  exact next_eq (issue_searched (i := iAssq n) qs hst rfl ((h.reads he).reads hq)
    (run_assq_start (listWord_cons hp) hx (run_assqElem_hit h hp he hty hz heven hq hs heq) hn h))

include qs hn in
theorem exec_memq_hit (hx : Sound x) (hst : Stacked s c [p, x] 2 4) (hp : Pointer s c p tCONS) (he : Reads s t c (adr p) e) (hs : Sound e)
    (heq : eqWord e x = true) : exec (.memq c n) s = .next (afterSteps t c 0x3024 2 [p] (fun _ => [])) := by
  have h := idle_of_quiet qs
  exact next_eq (issue_searched (i := iMemq n) qs hst rfl (h.reads he)
    (run_memq_start (listWord_cons hp) hx (run_memqElem_hit h hp he hs heq) hn h))

include qs hn in
theorem exec_nreverse_nil (hst : Stacked s c [p] 1 4) (hp : ty p = tNIL) :
    exec (.nreverse c n) s = .next (afterSteps s c 0x3025 1 [wNIL] (fun _ => [])) := by
  have h := idle_of_quiet qs
  exact next_eq (issue_searched (i := iNreverse n) qs hst rfl h
    ((run_nreverse_start (listWord_nil hp) n h).trans (run_runSteps_one hn (run_nreverseElem_end h hp _))))

include qs in
theorem exec_nreverse_cell (hn : 2 ≤ n) (hst : Stacked s c [p] 1 4) (hp : Pointer s c p tCONS) (hk : kBit p = false)
    (ht : Reads s t c (adr p + 1) wNIL) (hs : Storable t c (adr p + 1) lf) (hold : t.coreSees c lf.pa = wNIL) :
    exec (.nreverse c n) s = .next (afterSteps t c 0x3025 1 [p] (fun k => [queued k lf wNIL true])) := by
  have h := idle_of_quiet qs
  have ht' := h.reads ht
  exact next_eq (issue_stepped (i := iNreverse n) (l := fun k => [queued k lf wNIL true]) qs hst rfl ht'
    ((run_nreverse_start (listWord_cons hp) n h).trans
      (run_runSteps_two hn (run_nreverseElem_cell h hp hk ht hs hold _) (run_nreverseElem_end (ht'.queue _) rfl _))))

end lists

/-- Settles O12: each stepped instruction runs its first issue and one or two elements, and retires in the state that its reads leave. -/
theorem steppedInstructions : Obligations.SteppedInstructions := by
  unfold Obligations.SteppedInstructions
  refine ⟨fun s t u c p x e q n qs hx hn => ⟨exec_search_nil qs hn hx, fun hst hp he => ⟨?_, ?_⟩, exec_nreverse_nil qs hn, ?_, ?_⟩,
    fun s s1 t1 t2 t3 t4 t5 c p q g h i j v w lf sp n qs hn hq hk hj hj0 hj1 => ⟨?_, ?_⟩⟩
  · exact exec_assq_hit qs hn hx hst hp he
  · exact exec_memq_hit qs hn hx hst hp he
  · exact fun lf hst h2 => exec_nreverse_cell qs h2 hst
  · exact fun hst hty hflat => exec_equal qs hst hty hflat hn
  · exact fun hst hm hh hh' => exec_fillvec qs hst hn hq hk hj hj0 hj1 hm hh hh'
  · exact exec_copyvec qs hn hq hk hj hj0 hj1

end Sys2Proof.Machine
end

section
/-! PROOFS. The issue of a syllable in a core that is quiet but for its delay slot, its loop or an open shadow, and a retirement that need not
go on to the next syllable (R113, R125, R130, R147). -/

namespace Sys2Proof.Machine

open Sys2Proof Sys2Proof.Safety

/-! ### The core's own part of a retirement -/

/-- A core in which nothing is pending for a retirement to settle. It may be in a delay slot, in a loop or in a shadow. -/
structure ClearCore (k : Core) : Prop where
  noStep : k.psw.step = false
  noWins : k.wins = []
  noNewWins : k.newWins = []
  noSpills : k.spills = []
  noBuf : k.hostBuf = []
  noMicro : k.micro = none
  noMiss : k.mem.miss = false
  noSingle : k.stepOnce = false
  noDebug : k.debug = false

theorem PlainCore.clear {k : Core} (h : PlainCore k) : ClearCore k :=
  ⟨h.noStep, h.noWins, h.noNewWins, h.noSpills, h.noBuf, h.noMicro, h.noMiss, h.noSingle, h.noDebug⟩

/-- The core that issues a syllable. -/
def Core.readied (syl : Nat) (k : Core) : Core := { k with wait := none, traceN := 0, syl := syl }

/-- The core with entries removed from its operand stack and words pushed (R49). -/
def Core.pushed (takes : Nat) (push : List TWord) (k : Core) : Core :=
  { k with stk := { k.stk with sp := va48 ((k.stk.sp + takes : Nat) - (push.length : Int)), regs := push.reverse ++ k.stk.regs.drop takes } }

theorem ClearCore.readied {k : Core} (h : ClearCore k) (n : Nat) : ClearCore (k.readied n) := ⟨h.1, h.2, h.3, h.4, h.5, h.6, h.7, h.8, h.9⟩

theorem ClearCore.pushed {k : Core} (h : ClearCore k) (takes : Nat) (push : List TWord) : ClearCore (k.pushed takes push) :=
  ⟨h.1, h.2, h.3, h.4, h.5, h.6, h.7, h.8, h.9⟩

/-- Where execution goes on concerns the PC, DST, PSW.DS and the loop alone (R113, R125). -/
theorem advance_frame (k : Core) (f : Flow) : ∃ pc dst ds lp sr,
    k.advance f = { k with pc := pc, dst := dst, psw := { k.psw with ds := ds, lp := lp }, sr := sr } := by
  unfold Core.advance
  split
  case h_7 => split_ifs <;> exact ⟨_, _, _, _, _, rfl⟩
  all_goals exact ⟨_, _, _, _, _, rfl⟩

theorem ClearCore.advance {k : Core} (h : ClearCore k) (f : Flow) : ClearCore (k.advance f) := by
  obtain ⟨pc, dst, ds, lp, sr, hf⟩ := advance_frame k f
  rw [hf]
  exact ⟨h.1, h.2, h.3, h.4, h.5, h.6, h.7, h.8, h.9⟩

/-- The flows of a syllable that retires by itself (R137): no step boundary, no repeated syllable, no return that has moved its core. -/
def Flow.retires (f : Flow) : Bool :=
  match f with
  | .stay => false
  | .rep => false
  | .done => false
  | .again => false
  | _ => true

theorem Flow.retires_ne {f : Flow} (h : f.retires = true) : f ≠ .stay ∧ f ≠ .rep ∧ f ≠ .done ∧ f ≠ .again := by
  refine ⟨?_, ?_, ?_, ?_⟩ <;> rintro rfl <;> cases h

/-- Results of distance 1 are pushed at once, wherever execution goes on (R49). -/
theorem pushOut_pushed (k : Core) (g : Sig) {o : Out} (n : Nat) (hf : o.flow.retires = true) (hd : o.delay ≤ 1) (hp : o.keepPg = false) :
    k.pushOut g o n = k.pushed g.takes o.push := by
  obtain ⟨hstay, -, hdone, -⟩ := Flow.retires_ne hf
  simp only [Core.pushOut, beq_eq_false_iff_ne.2 hstay, beq_eq_false_iff_ne.2 hdone, hp, hd, Bool.or_self, Bool.false_eq_true, if_false, if_true,
    Core.pushed]

/-- A clear core's retirement: once the results are pushed, the PC has moved and the shadow has counted (`l`), its wait, its trace count and
a HALT are left to set. -/
theorem retireStep_clear {k l : Core} {g : Sig} {o : Out} (h : ClearCore k) (hf : o.flow.retires = true) (hd : o.delay ≤ 1)
    (hp : o.keepPg = false) (hs : o.shadow = none)
    (hl : ((k.pushed g.takes o.push).advance o.flow).shadowStep (endsShadow g.syl) = l) (hc : ClearCore l) :
    k.retireStep g o false = { l with wait := none, traceN := l.traceN + 1, run := if o.flow == .halt then .halt else l.run } := by
  have hm := (h.pushed g.takes o.push).advance o.flow
  have hwin := plain_winStep _ g.syl hm.noWins hm.noNewWins
  have hagain := beq_eq_false_iff_ne.2 (Flow.retires_ne hf).2.2.2
  obtain ⟨-, -, -, noSpills, noBuf, -, noMiss, noSingle, noDebug⟩ := hc
  obtain ⟨⟩ := l
  rename_i mem _ _ _ _ _ _ _
  obtain ⟨⟩ := mem
  dsimp only at noSpills noBuf noMiss noSingle noDebug
  subst noSpills noBuf noMiss noSingle noDebug
  simp [Core.retireStep, pushOut_pushed k g g.syl hf hd hp, hwin, hl, hs, hagain, b2n]

/-- The core that the retirement of a syllable outside a shadow leaves. -/
def Core.left (g : Sig) (o : Out) (k : Core) : Core :=
  let m := (k.pushed g.takes o.push).advance o.flow
  { m with wait := none, traceN := m.traceN + 1, run := if o.flow == .halt then .halt else m.run }

theorem retireStep_left {k : Core} {g : Sig} {o : Out} (h : ClearCore k) (hf : o.flow.retires = true) (hd : o.delay ≤ 1)
    (hp : o.keepPg = false) (hs : o.shadow = none) (hsh : k.shadow = none) : k.retireStep g o false = k.left g o := by
  obtain ⟨_, _, _, _, _, hadv⟩ := advance_frame (k.pushed g.takes o.push) o.flow
  exact retireStep_clear h hf hd hp hs (plain_shadowStep _ _ (by rw [hadv]; exact hsh)) ((h.pushed _ _).advance _)

theorem left_clear {k : Core} (h : ClearCore k) (g : Sig) (o : Out) : ClearCore (k.left g o) := by
  obtain ⟨h1, h2, h3, h4, h5, h6, h7, h8, h9⟩ := (h.pushed g.takes o.push).advance o.flow
  exact ⟨h1, h2, h3, h4, h5, h6, h7, h8, h9⟩

/-! ### A core that issues -/

/-- The core outside a delay slot, a loop and a shadow. -/
def Core.calmed (k : Core) : Core := { k with psw := { k.psw with ds := false, lp := false }, shadow := none }

/-- A core that is quiet but for some of these is quiet outside them all. -/
theorem quiet_calmed {s : State} {c : Nat} {f : Core → Core} (q : Quiet (s.modCore c f) c) (hf : ∀ k, (f k).calmed = k.calmed) :
    Quiet (s.modCore c Core.calmed) c := by
  have hk := core_modCore s c f (by simpa using quiet_core_lt q)
  have hid : (f (s.core c)).calmed = f (s.core c) := by
    have hslot := q.noSlot
    have hloop := q.noLoop
    have hshadow := q.noShadow
    rw [hk] at hslot hloop hshadow
    generalize f (s.core c) = k at hslot hloop hshadow
    obtain ⟨_, _, _, _, _, _, psw⟩ := k
    obtain ⟨⟩ := psw
    simp_all [Core.calmed]
  rwa [modCore_congr s c Core.calmed f (by rw [← hf, hid])]

/-- Core c comes to the decode checks of the syllable at its PC, with no event to take and none that its retirement would raise. -/
structure Issuing (s : State) (c : Nat) : Prop where
  lt : c < s.cores.length
  issues : s.canIssue c = true
  remote : (s.core c).ev.remote = []
  noParked : s.parked = []
  noScene : (s.core c).psw.sc = false
  noPend : (s.core c).pend = []
  noStrict : s.strict c = false
  unwatched : Unwatched s c (s.core c).psw
  fetch : ∃ lf, fetchOk (s.core c) = .inr lf ∧ (s.core c).hasLine (lineOf lf.pa) = true ∧ (s.core c).poisoned lf.pa = false

section calmed
variable {s : State} {c : Nat} (q : Quiet (s.modCore c Core.calmed) c)
include q

theorem calmed_lt : c < s.cores.length := by simpa using quiet_core_lt q

theorem calmed_core : (s.modCore c Core.calmed).core c = (s.core c).calmed := core_modCore s c _ (calmed_lt q)

/-- A delay slot, a loop and a shadow hold back events and the hold of a control-store load, never the core (R179, R191). -/
theorem calmed_issues : s.canIssue c = true := by
  have h := q.issues
  have hk := calmed_core q
  have hpend : (s.core c).pend = [] := by have := q.noPend; rwa [hk] at this
  have hland : ∀ k : Core, k.pend = [] → k.landReady = true := fun k e => by simp [Core.landReady, e]
  have hfree : (s.modCore c Core.calmed).chunkFree c = s.chunkFree c := by
    simp only [State.chunkFree, State.chunkOf, hk]; rfl
  have hbound : (s.core c).boundary = true → (s.core c).calmed.boundary = true := by simp +contextual [Core.boundary, Core.calmed]
  have hheld : s.mcsHeld c = true → (s.modCore c Core.calmed).mcsHeld c = true := by
    simp only [State.mcsHeld, State.atHold, hk, Bool.and_eq_true]
    refine fun hh => ⟨hh.1, ?_⟩
    have hat := hh.2
    change (match (s.core c).run with | .run => _ | _ => _) = true
    revert hat
    cases (s.core c).run <;> simp only [Bool.and_eq_true, imp_self]
    exact fun hat => ⟨⟨rfl, hbound hat.1.2⟩, hat.2⟩
  have hevent : s.eventDue c = true → (s.modCore c Core.calmed).eventDue c = true := by
    simp only [State.eventDue, State.nmiReady, hk, Bool.and_eq_true]
    exact fun he => ⟨hbound he.1, he.2⟩
  simp only [State.canIssue, Bool.and_eq_true, Bool.not_eq_true', hk, hland _ hpend, hland (s.core c).calmed hpend, hfree, ← Bool.not_eq_true]
    at h ⊢
  obtain ⟨⟨⟨⟨h1, h2⟩, h3⟩, h4⟩, h5⟩ := h
  exact ⟨⟨⟨⟨h1, fun hh => h2 (hheld hh)⟩, h3⟩, h4⟩, fun he => h5 (hevent he)⟩

theorem issuing_of_calmed : Issuing s c ∧ ClearCore (s.core c) := by
  have hk := calmed_core q
  have hp := (ready_plain q 0).clear
  have hw := (unwatched_of_quiet q).of_same (u := s) fun _ _ _ => rfl
  have hremote := q.remote
  have hscene := q.noScene
  have hpend := q.noPend
  obtain ⟨lf, hf, hl, hpo⟩ := q.fetch
  rw [quiet_ready_core q] at hp
  rw [hk] at hp hw hremote hscene hpend hf hl hpo
  exact ⟨⟨calmed_lt q, calmed_issues q, hremote, q.noParked, hscene, hpend, q.noStrict, ⟨hw.1, hw.2, hw.3, hw.4⟩, lf, hf, hl, hpo⟩,
    ⟨hp.1, hp.2, hp.3, hp.4, hp.5, hp.6, hp.7, hp.8, hp.9⟩⟩

end calmed

theorem issuing_of_quiet {s : State} {c : Nat} (q : Quiet s c) : Issuing s c ∧ ClearCore (s.core c) :=
  issuing_of_calmed (quiet_calmed (f := id) (by rwa [modCore_id _ _ id rfl]) fun _ => rfl)

section issue
variable {s u : State} {c : Nat} {i : Ins} {o : Out} (h : Issuing s c)
include h

theorem Issuing.ready_core (n : Nat) : (s.ready c n).core c = (s.core c).readied n := core_modCore s c _ h.lt

/-- The issue of a syllable: its decode checks, then its program, then its end. -/
theorem Issuing.issue_eq (i : Ins) :
    issue c i s = (placeCheck (s.core c) i.sig (s.portOk c i.sig.port)).elim
      (((s.ready c i.sig.syl).runIns c i).elim
        (fun r => r.1.retire c i.sig r.2 (!(s.core c).psw.l) (s.core c).psw.w)
        (fun r => r.1.stopped c i.sig r.2 (s.modCore c (fun k => { k with traceN := 0 })) (s.core c).scene.count))
      (fun t => (s.ready c i.sig.syl).takeTrap c t i.sig.syl) := by
  have hready := h.ready_core i.sig.syl
  obtain ⟨lt, issues, remote, noParked, noScene, noPend, noStrict, unwatched, lf, hf, hl, hpo⟩ := h
  have hparked : s.serveParked = s := by simp [State.serveParked, noParked]
  have hts : s.traceSync c = s.modCore c (fun k => { k with traceN := 0 }) := by simp [State.traceSync, unwatched.noTrace]
  have hc1 : (s.traceSync c).core c = { s.core c with traceN := 0 } := by rw [hts, core_modCore _ _ _ lt]
  have hif : (s.traceSync c).ifill c lf = s.traceSync c := by
    have : ((s.traceSync c).core c).hasLine (lineOf lf.pa) = true := by rw [hc1]; exact hl
    simp [State.ifill, this]
  have hsound : ((s.traceSync c).core c).poisoned lf.pa = false := by rw [hc1]; exact hpo
  have hlost : ∀ t u : State, (u.core c).psw = (s.core c).psw → t.lostScene u c = false := fun t u e => by simp [State.lostScene, e, noScene]
  have hst : (s.traceSync c).modCore c (fun k => { (if k.midway then k else k.landDue) with wait := none, syl := i.sig.syl })
      = s.ready c i.sig.syl := by
    rw [hts, modCore_modCore, State.ready]
    apply modCore_congr
    rw [landDue_nil { s.core c with traceN := 0 } noPend, ite_self]
  have hland : ((s.ready c i.sig.syl).core c).landable = true := by
    rw [hready]
    simp [Core.landable, Core.readied, noPend]
  have hpc : placeCheck ((s.ready c i.sig.syl).core c) i.sig ((s.ready c i.sig.syl).portOk c i.sig.port) =
      placeCheck (s.core c) i.sig (s.portOk c i.sig.port) := by rw [hready]; rfl
  have hstrict : (s.ready c i.sig.syl).strict c = false := noStrict
  have hban : sceneBan ((s.ready c i.sig.syl).core c) i.sig = none := by rw [hready]; simp [sceneBan, Core.readied, noScene]
  unfold issue
  simp only [hparked, issues, Bool.not_true, Bool.false_eq_true, if_false, first_quiet s c remote unwatched.noReplay, shortCount_quiet s c noScene,
    hf, hif, hlost _ s rfl, hsound, hst, hpc]
  cases placeCheck (s.core c) i.sig (s.portOk c i.sig.port) with
  | some t => simp only [State.trapOr, hland, Bool.true_or, if_true, Option.elim]
  | none =>
    simp only [hstrict, Bool.false_eq_true, if_false, hban, hlost _ (s.ready c i.sig.syl) (by rw [hready]; rfl), Option.elim]
    cases (s.ready c i.sig.syl).runIns c i with
    | inl r => rw [hready]; rfl
    | inr r => rw [hready, hts]; rfl

/-- A decode check that refuses the syllable. -/
theorem Issuing.refused {t : Trap} (hp : placeCheck (s.core c) i.sig (s.portOk c i.sig.port) = some t) :
    issue c i s = (s.ready c i.sig.syl).takeTrap c t i.sig.syl := by
  rw [h.issue_eq, hp]
  rfl

/-- A syllable that fits, and whose program runs. -/
theorem Issuing.runs (hm : (s.core c).micro = none) (hp : placeCheck (s.core c) i.sig (s.portOk c i.sig.port) = none)
    (f : Fits (s.core c) i.sig) (hb : (i.body ((s.core c).opsOf i.sig)).run c (s.ready c i.sig.syl) = .ok o u) :
    issue c i s = u.retire c i.sig o (!(s.core c).psw.l) (s.core c).psw.w := by
  have hready := h.ready_core i.sig.syl
  have hins : (s.ready c i.sig.syl).runIns c i = .inl (u, o) :=
    runIns_ok (by rw [hready]; exact hm) (by rw [hready]; exact ⟨f.read, f.deep, f.room, f.held⟩) (by rw [hready]; exact hb)
  rw [h.issue_eq, hp, hins]
  rfl

end issue

/-! ### The state that a retirement leaves -/

/-- A retirement that nothing follows (R137): the core's own part, and the count of retired syllables. -/
theorem retire_clear {u : State} {c : Nat} {g : Sig} {o : Out} {p : Psw} {l : Core} (w : Unwatched u c p) (hlt : c < u.cores.length)
    (hf : o.flow.retires = true) (hla : o.late = none) (htim : (u.core c).timerShadow = false)
    (hk : (u.core c).retireStep g o false = l) (hl : ClearCore l) :
    u.retire c g o (!p.l) p.w = changed u c (fun k => k.retireStep g o false) := by
  obtain ⟨hstay, hrep, hdone, -⟩ := Flow.retires_ne hf
  exact retire_gen u c g o _ _ hlt ⟨hstay, hrep, hdone⟩ hla htim w.noTrace w.noReplay w.noRecord w.noTrap
    (by rw [hk]; exact hl.noStep) (by rw [hk]; exact hl.noMicro)

/-- The same outside a shadow. -/
theorem retire_left {u : State} {c : Nat} {g : Sig} {o : Out} {p : Psw} (w : Unwatched u c p) (hlt : c < u.cores.length)
    (h : ClearCore (u.core c)) (hsh : (u.core c).shadow = none) (hf : o.flow.retires = true) (hd : o.delay ≤ 1) (hp : o.keepPg = false)
    (hs : o.shadow = none) (hla : o.late = none) : u.retire c g o (!p.l) p.w = changed u c (Core.left g o) := by
  have hk := retireStep_left (g := g) h hf hd hp hs hsh
  rw [retire_clear w hlt hf hla (by simp [Core.timerShadow, hsh]) hk (left_clear h g o)]
  exact changed_congr hk

/-- A syllable outside a shadow whose program changes its core alone, by `f`, and that may branch, jump or end a loop. -/
theorem Issuing.leaves {s : State} {c : Nat} {i : Ins} {o : Out} {f : Core → Core} (h : Issuing s c) (hc : ClearCore (s.core c))
    (hp : placeCheck (s.core c) i.sig (s.portOk c i.sig.port) = none) (hfit : Fits (s.core c) i.sig)
    (hb : (i.body ((s.core c).opsOf i.sig)).run c (s.ready c i.sig.syl) = .ok o ((s.ready c i.sig.syl).modCore c f))
    (hfc : ClearCore (f ((s.core c).readied i.sig.syl))) (hsh : (f ((s.core c).readied i.sig.syl)).shadow = none)
    (hf : o.flow.retires = true) (hd : o.delay ≤ 1) (hk : o.keepPg = false) (hs : o.shadow = none) (hl : o.late = none) :
    issue c i s = changed s c (fun k => (f (k.readied i.sig.syl)).left i.sig o) := by
  have hlt : c < (s.ready c i.sig.syl).cores.length := by rw [State.ready, modCore_cores_length]; exact h.lt
  have hcore : ((s.ready c i.sig.syl).modCore c f).core c = f ((s.core c).readied i.sig.syl) := by
    rw [core_modCore _ _ _ hlt, h.ready_core]
  rw [h.runs hc.noMicro hp hfit hb, retire_left ((h.unwatched.ready _).modCore c f) (by rwa [modCore_cores_length]) (by rwa [hcore])
    (by rwa [hcore]) hf hd hk hs hl, changed_modCore, State.ready, changed_modCore]
  rfl

end Sys2Proof.Machine
end

section
/-! PROOFS. Branches through their delay slot (R65, R112, R113), and the statement O13. -/

namespace Sys2Proof.Machine

open Sys2Proof Sys2Proof.Safety

/-- The offset of a branch is the number that its field spells in two's complement (R65). -/
theorem sext_toInt {n : Nat} (hn : 0 < n) (b : BitVec n) : sext n b.toNat = b.toInt := by
  obtain ⟨m, rfl⟩ := Nat.exists_eq_add_of_le' hn
  have hmod : (b.toNat : Int) % 2 ^ (m + 1) = b.toNat := Int.emod_eq_of_lt (Int.natCast_nonneg _) (by exact_mod_cast b.isLt)
  have hpow : 2 ^ (m + 1) = 2 * 2 ^ m := pow_succ' 2 m
  rw [BitVec.toInt_eq_toNat_cond, sext, Nat.mod_eq_of_lt b.isLt, hmod, Nat.add_sub_cancel]
  push_cast
  split_ifs <;> omega

/-- A sound operand that is not accepted is refused with WRONGTYPE. -/
theorem run_check_unaccepted {w : TWord} (h : Sound w) {ok : Bool} (hok : ok = false) (pos c : Nat) (s : State) :
    (check [{ w := w, pos := pos, ok := ok }]).run c s = .error (.trap (tType sWRONG w pos 0)) s := by
  rw [hok]
  exact run_check_wrong h pos c s

/-- The core after a branch: in its delay slot, with DST at `d` (R113). -/
def Core.branched (syl takes : Nat) (d : Core → Int) (k : Core) : Core :=
  { retired k syl takes [] with dst := va48 (d k), psw := { k.psw with ds := true } }

/-- A syllable whose program only branches. -/
theorem leads_branch {i : Fin 256 → Instr} {ops : List TWord} {takes : Nat} {d : Core → Int} {b : Bool} (I : Ins)
    (hx : ∀ (c : Fin 256) (s : State), exec (i c) s = .next (issue c I s)) (hg : I.sig.asks I.sig.syl ops.length takes 0 = true)
    (hb : ∀ (s : State) (c : Nat), (I.body ops).run c s = .ok { flow := .branch (va48 (d (s.core c))), taken := b } s)
    (hd : ∀ k : Core, d (k.readied I.sig.syl) = d k) :
    Leads i ops takes 0 (fun _ _ => True) (fun s c => changed s c (Core.branched I.sig.syl takes d)) := by
  intro s c q st _
  obtain ⟨h, hc⟩ := issuing_of_quiet q
  obtain ⟨hplace, hfits, hops, -, htakes⟩ := asks_meets q st hg
  rw [hx, h.leaves (f := id) (o := { flow := .branch (va48 (d (s.core c))), taken := b }) hc hplace hfits ?_ (hc.readied _) q.noShadow rfl le_rfl rfl
    rfl rfl]
  · refine congrArg _ (changed_congr ?_)
    rw [← htakes]
    rfl
  · rw [hops, hb, h.ready_core, hd, modCore_id _ _ id rfl]

section cond
variable {i : Fin 256 → Instr} {w : TWord} {o10 : BitVec 10} {cond : Nat} {ok p : TWord → Bool} (hw : Sound w)
  (hx : ∀ (c : Fin 256) (s : State), exec (i c) s = .next (issue c (condIns cond o10.toNat ok p) s))
include hw hx

/-- A conditional branch on a word that it accepts goes by its offset where the condition holds, else past the delay slot (R112). -/
theorem leads_cond {P : Prop} [Decidable P] (hok : ok w = true) (hp : p w = true ↔ P) :
    Leads i [w] 1 0 (fun _ _ => True) (fun s c => changed s c (Core.branched (0x8000 + cond * 0x400 + o10.toNat) 1
      (if P then fun k => (k.pc : Int) + o10.toInt else fun k => (k.pc : Int) + 2))) := by
  refine leads_branch (b := p w) (condIns cond o10.toNat ok p) hx (by simp [Sig.asks, Sig.easy, condIns]) (fun s c => ?_) (fun _ => by split <;> rfl)
  have hcheck : (check [{ w := w, pos := 0, ok := ok w }]).run c s = .ok () s :=
    run_check_one _ fun cust cuptr user => passes_accepted hw hok cust cuptr user _ _ _
  simp only [condIns, opd, List.getD_cons_zero, run_bind, hcheck, run_getCore, run_pure, hp, branchTo, sext_toInt (n := 10) (by decide)]
  split <;> rfl

/-- A conditional branch on a word that it does not accept (R112). -/
theorem raises_cond (hok : ok w = false) :
    Raises i (0x8000 + cond * 0x400 + o10.toNat) [w] 1 0 (fun _ _ => True) { vec := 7, sub := 0, tag := w.tag.toNat } :=
  raises_of (condIns cond o10.toNat ok p) hx (by simp [Sig.easy, condIns]) rfl rfl rfl rfl rfl fun s c _ _ =>
    run_bind_error _ _ _ _ _ _ (run_check_unaccepted hw hok 0 c _)

end cond

theorem leads_br (o12 : BitVec 12) : Leads (fun c => .br c o12) [] 0 0 (fun _ _ => True) (fun s c =>
    changed s c (Core.branched (0x7000 + o12.toNat) 0 fun k => (k.pc : Int) + o12.toInt)) := by
  refine leads_branch (b := true) (iBr o12.toNat) (fun _ _ => rfl) (by simp [Sig.asks, Sig.easy, iBr]) (fun s c => ?_) fun _ => rfl
  simp only [iBr, run_bind, run_getCore, run_pure, branchTo, sext_toInt (n := 12) (by decide)]

/-- Settles O13: a branch only names its target, and its retirement opens the delay slot. -/
theorem branches : Obligations.Branches := by
  unfold Obligations.Branches
  exact fun w o12 o10 hw => ⟨leads_br o12, leads_cond (cond := 0) hw (fun _ _ => rfl) rfl beq_iff_eq,
    leads_cond (cond := 1) hw (fun _ _ => rfl) rfl bne_iff_ne,
    fun hf => ⟨leads_cond (cond := 2) hw (fun _ _ => rfl) (by simp [hf]) beq_iff_eq,
      leads_cond (cond := 3) hw (fun _ _ => rfl) (by simp [hf]) bne_iff_ne⟩,
    fun hf => raises_cond (cond := 2) hw (fun _ _ => rfl) (by simp [hf])⟩

end Sys2Proof.Machine
end

section
/-! PROOFS. The hardware loop, the delay slot and the shadow of LCSET (R113, R124-R126, R147), and the statement O14. -/

namespace Sys2Proof.Machine

open Sys2Proof Sys2Proof.Safety

/-! ### Where execution goes on -/

/-- The core is at the last syllable of its loop (R125). -/
def Core.atEnd (k : Core) : Bool := k.psw.lp && w64 k.pc == k.sr.le

/-- After a delay slot (R113). -/
theorem advance_slot {k : Core} (h : k.psw.ds = true) : k.advance .next = { k with pc := k.dst, psw := { k.psw with ds := false } } := by
  simp only [Core.advance, h, if_true]

section steps
variable {k : Core} (hd : k.psw.ds = false)
include hd

/-- From the last syllable of a loop back to its first (R125). -/
theorem advance_again (h : k.atEnd = true) (hlc : 1 < k.sr.lc.toInt) :
    k.advance .next = { k with pc := bits k.sr.ls 47 0, sr := { k.sr with lc := k.sr.lc - 1 } } := by
  unfold Core.atEnd at h
  simp only [Core.advance, hd, h, hlc, if_true, Bool.false_eq_true, if_false]

/-- From the last syllable of a loop out of it (R125). -/
theorem advance_out (h : k.atEnd = true) (hlc : k.sr.lc.toInt ≤ 1) :
    k.advance .next = { k with pc := va48 ((k.pc : Int) + 1), sr := { k.sr with lc := 0 }, psw := { k.psw with lp := false } } := by
  unfold Core.atEnd at h
  simp only [Core.advance, hd, h, not_lt.2 hlc, if_true, Bool.false_eq_true, if_false]

/-- To the next syllable. -/
theorem advance_on (h : k.atEnd = false) : k.advance .next = { k with pc := va48 ((k.pc : Int) + 1) } := by
  unfold Core.atEnd at h
  simp only [Core.advance, hd, h, Bool.false_eq_true, if_false]

/-- Outside a delay slot a jump moves the PC alone. -/
theorem advance_jump (t : Nat) : k.advance (.jump t) = { k with pc := t } := by
  have hp : { k.psw with ds := false } = k.psw := by rw [← hd]
  simp only [Core.advance, hp]

end steps

theorem left_jump {k : Core} (hd : k.psw.ds = false) (g : Sig) (t : Nat) (b : Bool) :
    k.left g { flow := .jump t, taken := b } = { k.pushed g.takes [] with wait := none, traceN := k.traceN + 1, pc := t } := by
  have hadv : (k.pushed g.takes []).advance (.jump t) = _ := advance_jump (k := k.pushed g.takes []) hd t
  simp only [Core.left, hadv]
  rfl

/-! ### A syllable in a delay slot or a loop -/

/-- A syllable without decode checks of its own may stand in a delay slot or a loop, and one without a delay slot (a WLC) where neither
ends (R114, R125). -/
theorem placeCheck_free {k : Core} {g : Sig} (hb : g.bad = none) (hport : g.port = none) (hpriv : g.priv = 0) (hs : g.noShadow = false)
    (hn : g.noLp = false) (hslot : k.psw.ds = true → g.wlc = false ∧ k.atEnd = false) (hend : k.atEnd = true → g.wlc = false) (coproc : Bool) :
    placeCheck k g coproc = none := by
  have hplace : ((g.wlc && k.psw.ds) || (k.atEnd && (g.wlc || k.psw.ds))) = false := by
    cases hd : k.psw.ds <;> cases he : k.atEnd <;> simp_all
  unfold Core.atEnd at hplace
  simp only [placeCheck, hb, hport, hpriv, hs, hn, hplace, Option.isSome_none, Bool.and_false, Bool.false_and, Bool.or_false,
    Bool.false_eq_true, if_false, show ((0 : Nat) == 1) = false from rfl, show ((0 : Nat) == 2) = false from rfl]

theorem fits_none {k : Core} (h : k.stk.regs.length ≤ 8) (syl : Nat) (wlc depLoop : Bool) :
    Fits k { syl := syl, wlc := wlc, depLoop := depLoop } :=
  ⟨Nat.zero_le _, nofun, h, .inl rfl⟩

section calmed
variable {s : State} {c : Fin 256} (q : Quiet (s.modCore c Core.calmed) c) (hregs : (s.core c).stk.regs.length ≤ 8)
  (hsh : (s.core c).shadow = none)
include q hregs hsh

/-- NOP, with what its retirement leaves (R137). -/
theorem exec_nop_calmed (hslot : (s.core c).psw.ds = true → (s.core c).atEnd = false) {m : Core}
    (hm : (((s.core c).readied 0).pushed 0 []).advance .next = m) {f : Core → Core}
    (hf : f (s.core c) = { m with wait := none, traceN := m.traceN + 1 }) : exec (.nop c) s = .next (changed s c f) := by
  obtain ⟨h, hc⟩ := issuing_of_calmed q
  refine congrArg _ ((h.leaves (i := iNop) (f := id) (o := { push := [] }) hc
    (placeCheck_free rfl rfl rfl rfl rfl (fun hd => ⟨rfl, hslot hd⟩) (fun _ => rfl) _)
    (fits_none hregs _ _ _) ?_ (hc.readied _) hsh rfl le_rfl rfl rfl rfl).trans (changed_congr ?_))
  · rw [modCore_id _ _ id rfl]
    rfl
  · rw [hf, ← hm]
    rfl

/-- NOP in a delay slot (R113). -/
theorem exec_nop_slot (hd : (s.core c).psw.ds = true) (hl : (s.core c).psw.lp = false) :
    exec (.nop c) s = .next (changed s c (fun k => { retired k 0 0 [] with pc := k.dst, psw := { k.psw with ds := false } })) :=
  exec_nop_calmed q hregs hsh (fun _ => by simp [Core.atEnd, hl]) (advance_slot hd) rfl

section loop
variable (hd : (s.core c).psw.ds = false)
include hd

/-- NOP as the last syllable of a loop (R125). -/
theorem exec_nop_end (he : (s.core c).atEnd = true) :
    (1 < (s.core c).sr.lc.toInt → exec (.nop c) s = .next (changed s c (fun k =>
      { retired k 0 0 [] with pc := bits k.sr.ls 47 0, sr := { k.sr with lc := k.sr.lc - 1 } }))) ∧
    ((s.core c).sr.lc.toInt ≤ 1 → exec (.nop c) s = .next (changed s c (fun k =>
      { retired k 0 0 [] with sr := { k.sr with lc := 0 }, psw := { k.psw with lp := false } }))) :=
  ⟨fun hlc => exec_nop_calmed q hregs hsh (fun h => absurd (h.symm.trans hd) nofun) (advance_again hd he hlc) rfl,
    fun hlc => exec_nop_calmed q hregs hsh (fun h => absurd (h.symm.trans hd) nofun) (advance_out hd he hlc) rfl⟩

/-- NOP elsewhere in a loop. -/
theorem exec_nop_within (he : (s.core c).atEnd = false) : exec (.nop c) s = .next (after s c 0 0 []) :=
  exec_nop_calmed q hregs hsh (fun h => absurd (h.symm.trans hd) nofun) (advance_on hd he) rfl

/-- The core that LEAVE takes out of its loop (R126). -/
def Core.unlooped (k : Core) : Core := { k with sr := { k.sr with lc := 0 }, psw := { k.psw with lp := false } }

/-- LEAVE in a loop, before its last syllable (R126). -/
theorem exec_leave_loop (hl : (s.core c).psw.lp = true) (he : (s.core c).atEnd = false) :
    exec (.leave c) s = .next (changed s c (fun k =>
      { retired k 0xA200 0 [] with
        pc := va48 ((bits k.sr.le 47 0 : Int) + 1), sr := { k.sr with lc := 0 }, psw := { k.psw with lp := false } })) := by
  obtain ⟨h, hc⟩ := issuing_of_calmed q
  have hrun : (iLeave.body []).run c (s.ready c 0xA200) =
      .ok { flow := .jump (va48 ((bits (s.core c).sr.le 47 0 : Int) + 1)), taken := true } ((s.ready c 0xA200).modCore c Core.unlooped) := by
    have hlp : ((s.core c).readied 0xA200).psw.lp = true := hl
    simp only [iLeave, run_bind, run_getCore, h.ready_core, hlp, if_true, run_modMe, run_pure]
    rfl
  have hfc : ClearCore ((s.core c).readied 0xA200).unlooped := by
    obtain ⟨h1, h2, h3, h4, h5, h6, h7, h8, h9⟩ := hc
    exact ⟨h1, h2, h3, h4, h5, h6, h7, h8, h9⟩
  refine congrArg _ ((h.leaves (i := iLeave) hc (placeCheck_free rfl rfl rfl rfl rfl (fun h => absurd (h.symm.trans hd) nofun)
    (fun h => absurd (h.symm.trans he) nofun) _) (fits_none hregs _ _ _) hrun hfc hsh rfl le_rfl rfl rfl rfl).trans
    (changed_congr (left_jump (k := ((s.core c).readied 0xA200).unlooped) hd _ _ _)))

end loop
end calmed

/-! ### LOOP and LCSET -/

section loop
variable {w : TWord} {n : BitVec 8}

/-- The core that LOOP makes enter a loop of n syllables, or pass it by (R124). -/
def Core.looped (w : TWord) (n : Nat) (k : Core) : Core :=
  let r : Core := { k with sr := { k.sr with ls := w64 (va48 ((k.pc : Int) + 1)), le := w64 (va48 ((k.pc : Int) + n)) } }
  if 1 ≤ w.datum.toInt then { r with sr := { r.sr with lc := w.datum }, psw := { r.psw with lp := true } } else r

/-- Where LOOP goes on (R124). -/
def loopPlace (w : TWord) (n pc : Nat) : Nat :=
  if 1 ≤ w.datum.toInt then va48 ((pc : Int) + 1) else va48 ((va48 ((pc : Int) + n) : Int) + 1)

theorem run_iLoop (hw : ty w = tFIX) (n c : Nat) (s : State) :
    ((iLoop n).body [w]).run c s = .ok { flow := .jump (loopPlace w n (s.core c).pc) } (s.modCore c (Core.looped w n)) := by
  have ho : opd [w] 0 = w := rfl
  simp only [iLoop, run_bind, ho, run_check_fix hw, run_getCore, run_modMe, run_ite, fixVal, run_pure, modCore_modCore, loopPlace]
  split
  · next h => exact congrArg _ (modCore_congr _ _ _ _ (by simp only [Core.looped, if_pos h]))
  · next h => exact congrArg _ (modCore_congr _ _ _ _ (by simp only [Core.looped, if_neg h]))

theorem looped_clear {k : Core} (h : ClearCore k) (w : TWord) (n : Nat) : ClearCore (k.looped w n) := by
  obtain ⟨h1, h2, h3, h4, h5, h6, h7, h8, h9⟩ := h
  unfold Core.looped
  dsimp only
  split <;> exact ⟨h1, h2, h3, h4, h5, h6, h7, h8, h9⟩

theorem looped_shadow (k : Core) (w : TWord) (n : Nat) : (k.looped w n).shadow = k.shadow := by
  unfold Core.looped
  dsimp only
  split <;> rfl

theorem looped_slot (k : Core) (w : TWord) (n : Nat) : (k.looped w n).psw.ds = k.psw.ds := by
  unfold Core.looped
  dsimp only
  split <;> rfl

/-- LOOP outside a loop (R124). -/
theorem leads_loop (hw : ty w = tFIX) (hn : n ≠ 0) : Leads (fun c => .loop c n) [w] 1 0 (fun _ _ => True) (fun s c => changed s c (fun k =>
    let r := retired k (0xA100 + n.toNat) 1 []
    let ls := va48 ((k.pc : Int) + 1)
    let le := va48 ((k.pc : Int) + (n.toNat : Int))
    let r := { r with sr := { k.sr with ls := w64 ls, le := w64 le } }
    if 1 ≤ w.datum.toInt then { r with pc := ls, sr := { r.sr with lc := w.datum }, psw := { k.psw with lp := true } }
    else { r with pc := va48 ((le : Int) + 1) })) := by
  intro s c q st _
  obtain ⟨h, hc⟩ := issuing_of_quiet q
  have hn' : n.toNat ≠ 0 := fun e => hn (BitVec.eq_of_toNat_eq e)
  have hask : (iLoop n.toNat).sig.asks (0xA100 + n.toNat) [w].length 1 0 = true := by simp [Sig.asks, Sig.easy, iLoop, hn']
  obtain ⟨hplace, hfits, hops, -⟩ := asks_meets q st hask
  have hrun := run_iLoop hw n.toNat c (s.ready c (0xA100 + n.toNat))
  rw [h.ready_core] at hrun
  refine congrArg _ ((h.leaves (i := iLoop n.toNat) hc hplace hfits (by rw [hops]; exact hrun)
    (looped_clear (hc.readied _) _ _) ((looped_shadow _ _ _).trans q.noShadow) rfl le_rfl rfl rfl rfl).trans (changed_congr
    ((left_jump (k := ((s.core c).readied (0xA100 + n.toNat)).looped w n.toNat) ((looped_slot _ _ _).trans q.noSlot) _ _ _).trans ?_)))
  by_cases hpos : 1 ≤ w.datum.toInt
  · simp only [Core.looped, loopPlace, if_pos hpos]
    rfl
  · simp only [Core.looped, loopPlace, if_neg hpos]
    rfl

/-- LOOP with a reserved field (R71). -/
theorem raises_loop_zero : Raises (fun c => .loop c 0) 0xA100 [] 1 0 (fun _ _ => True) (tIllegal 1) :=
  fun _ _ q _ _ => congrArg _ (issue_refused (i := iLoop 0) q rfl)

/-- LOOP and LCSET refuse a word that is no FIX (R124, R126). -/
theorem raises_loop {z : TWord} (hz : Sound z) (hf : ty z ≠ tFIX) (hn : n ≠ 0) :
    Raises (fun c => .loop c n) (0xA100 + n.toNat) [z] 1 0 (fun _ _ => True) { vec := 7, sub := 0, tag := z.tag.toNat } := by
  have hn' : n.toNat ≠ 0 := fun e => hn (BitVec.eq_of_toNat_eq e)
  refine raises_of (iLoop n.toNat) (fun _ _ => rfl) (by simp [Sig.easy, iLoop, hn']) rfl rfl rfl rfl rfl fun s c _ _ => ?_
  exact run_bind_error _ _ _ _ _ _ (run_check_unaccepted hz (beq_eq_false_iff_ne.2 hf) 0 c _)

theorem raises_lcset {z : TWord} (hz : Sound z) (hf : ty z ≠ tFIX) :
    Raises .lcset 0xA202 [z] 1 0 (fun _ _ => True) { vec := 7, sub := 0, tag := z.tag.toNat } := by
  refine raises_of iLcset (fun _ _ => rfl) rfl rfl rfl rfl rfl rfl fun s c _ _ => ?_
  exact run_bind_error _ _ _ _ _ _ (run_check_unaccepted hz (beq_eq_false_iff_ne.2 hf) 0 c _)

/-- LOOP inside a loop (R124). -/
theorem exec_loop_nested {s : State} {c : Fin 256} (q : Quiet (s.modCore c Core.calmed) c) (hl : (s.core c).psw.lp = true) (hn : n ≠ 0) :
    exec (.loop c n) s = .next ((s.ready c (0xA100 + n.toNat)).takeTrap c (tIllegal 3) (0xA100 + n.toNat)) := by
  have hn' : n.toNat ≠ 0 := fun e => hn (BitVec.eq_of_toNat_eq e)
  exact congrArg _ ((issuing_of_calmed q).1.refused (i := iLoop n.toNat) (by simp [placeCheck, iLoop, hn', hl]))

/-- LEAVE outside a loop does nothing (R126). -/
theorem gives_leave : Gives .leave 0xA200 [] 0 0 [] := by
  intro s c q st _
  refine next_eq (issue_pushed (i := iLeave) q st rfl (idle_of_quiet q) ?_)
  have hl : ((s.core c).noted { syl := 0xA200 }).psw.lp = false := q.noLoop
  simp only [iLeave, run_bind, run_getCore_noted (idle_of_quiet q), hl, Bool.false_eq_true, if_false, run_pure]

theorem leads_lcget (v : W64) : Leads .lcget [] 0 1 (fun s c => (s.core c).sr.lc = v) (fun s c => after s c 0xA201 0 [fixW v]) := by
  rintro s c q st rfl
  refine next_eq (issue_pushed (i := iLcget) q st rfl (idle_of_quiet q) ?_)
  simp only [iLcget, run_bind, run_getCore_noted (idle_of_quiet q), run_pure]
  rfl

/-- LCSET opens a shadow (R126, R147). -/
theorem leads_lcset (hw : ty w = tFIX) : Leads .lcset [w] 1 0 (fun _ _ => True) (fun s c => changed s c (fun k =>
    { retired k 0xA202 1 [] with shadow := some { remain := 2, sa := k.pc, syl := 0xA202, upd := .sr false 6 w } })) := by
  intro s c q st _
  obtain ⟨hplace, hfits, hops, -⟩ := asks_meets (i := iLcset) (syl := 0xA202) q st rfl
  refine next_eq ((issue_ready (u := s) (o := { shadow := some (.sr false 6 w) }) q hplace hfits ?_ (unwatched_of_quiet q) ⟨_, rfl⟩ rfl le_rfl
    rfl rfl).trans (changed_congr rfl))
  rw [hops]
  simp only [iLcset, opd, List.getD_cons_zero, run_bind, run_check_fix hw, run_pure]

end loop

/-! ### The end of the shadow of LCSET -/

/-- The core that NOP leaves as the second syllable after an LCSET, with LC written (R147). -/
def Core.counted (v : W64) (k : Core) : Core :=
  let r := retired k 0 0 []
  { r with shadow := none, sr := { k.sr with lc := v } }

theorem retireStep_counted {k : Core} {w : TWord} {sa : Nat} (hc : ClearCore k) (hd : k.psw.ds = false) (hout : k.atEnd = false)
    (hsh : k.shadow = some { remain := 1, sa := sa, syl := 0xA202, upd := .sr false 6 w }) :
    (k.readied 0).retireStep iNop.sig { push := [] } false = k.counted w.datum := by
  have hm := (hc.readied 0).pushed 0 []
  have hadv : ((k.readied 0).pushed 0 []).advance .next = _ := advance_on (k := (k.readied 0).pushed 0 []) hd hout
  have hsh' : ((k.readied 0).pushed 0 []).shadow = _ := hsh
  exact retireStep_clear (g := iNop.sig) (o := { push := [] })
    (l := { (k.readied 0).pushed 0 [] with pc := va48 ((k.pc : Int) + 1), shadow := none, sr := { k.sr with lc := w.datum } })
    (hc.readied 0) rfl le_rfl rfl rfl
    ((congrArg (Core.shadowStep · false) hadv).trans (by simp only [Core.shadowStep, hsh']; rfl))
    ⟨hm.1, hm.2, hm.3, hm.4, hm.5, hm.6, hm.7, hm.8, hm.9⟩

theorem counted_clear {k : Core} (h : ClearCore k) (v : W64) : ClearCore (k.counted v) := by
  obtain ⟨h1, h2, h3, h4, h5, h6, h7, h8, h9⟩ := h
  exact ⟨h1, h2, h3, h4, h5, h6, h7, h8, h9⟩

/-- The second syllable after an LCSET retires with LC written (R147). -/
theorem exec_nop_shadow {s : State} {c : Fin 256} {w : TWord} {sa : Nat} (q : Quiet (s.modCore c fun k => { k with shadow := none }) c)
    (hregs : (s.core c).stk.regs.length ≤ 8) (hsh : (s.core c).shadow = some { remain := 1, sa := sa, syl := 0xA202, upd := .sr false 6 w }) :
    exec (.nop c) s = .next (changed s c (Core.counted w.datum)) := by
  obtain ⟨h, hc⟩ := issuing_of_calmed (quiet_calmed q fun _ => rfl)
  have hd : (s.core c).psw.ds = false := by have := q.noSlot; rwa [core_modCore _ _ _ h.lt] at this
  have hl : (s.core c).psw.lp = false := by have := q.noLoop; rwa [core_modCore _ _ _ h.lt] at this
  have hout : (s.core c).atEnd = false := by simp [Core.atEnd, hl]
  have hready := h.ready_core 0
  have hlt : (c : Nat) < (s.ready c 0).cores.length := by rw [State.ready, modCore_cores_length]; exact h.lt
  have hplace : placeCheck (s.core c) iNop.sig (s.portOk c iNop.sig.port) = none :=
    placeCheck_free rfl rfl rfl rfl rfl (fun _ => ⟨rfl, hout⟩) (fun _ => rfl) _
  have htim : ((s.ready c 0).core c).timerShadow = false := by
    have hs : ((s.core c).readied 0).shadow = _ := hsh
    rw [hready, Core.timerShadow, hs]
    rfl
  have hk := retireStep_counted hc hd hout hsh
  rw [← hready] at hk
  refine congrArg _ ((h.runs (i := iNop) (o := { push := [] }) hc.noMicro hplace (fits_none hregs _ _ _) rfl).trans
    ((retire_clear (g := iNop.sig) (h.unwatched.ready 0) hlt rfl rfl htim hk (counted_clear hc _)).trans ?_))
  rw [State.ready, changed_modCore]
  exact changed_congr (retireStep_counted hc hd hout hsh)

/-- Settles O14: where execution goes on is read off `Core.advance`, and the shadow of LCSET is applied by the second retirement. -/
theorem hardwareLoops : Obligations.HardwareLoops := by
  unfold Obligations.HardwareLoops
  refine ⟨fun s c q hregs => ?_, fun w n hw hn => ⟨leads_loop hw hn, gives_leave, leads_lcget, leads_lcset hw, raises_loop_zero,
    fun z hz hf => ⟨raises_loop hz hf hn, raises_lcset hz hf⟩, fun s c q hl => exec_loop_nested (quiet_calmed q fun _ => rfl) hl hn,
    fun s c sa q hregs hsh => exec_nop_shadow q hregs hsh⟩⟩
  have hsh : (s.core c).shadow = none := by
    have h := q.noShadow
    rwa [core_modCore _ _ _ (by simpa using quiet_core_lt q)] at h
  have qc := quiet_calmed q fun _ => rfl
  refine ⟨exec_nop_slot qc hregs hsh, fun hl hd he => exec_nop_end qc hregs hsh hd (by simp [Core.atEnd, hl, he]), fun hl hd he => ?_⟩
  have hout : (s.core c).atEnd = false := by simp [Core.atEnd, he]
  exact ⟨exec_nop_within qc hregs hsh hd hout, exec_leave_loop qc hregs hsh hd hl hout⟩

end Sys2Proof.Machine
end

section
/-! PROOFS. Calls and returns with their frames in the control-stack registers (R52, R116-R121), and the statement O16. -/

namespace Sys2Proof.Machine

open Sys2Proof Sys2Proof.Safety

/-! ### Addresses modulo 2^48 -/

theorem coe_va48 (a : Int) : (va48 a : Int) = a % 2 ^ 48 := Int.toNat_of_nonneg (Int.emod_nonneg _ (by decide))

theorem va48_add (a b : Int) : va48 ((va48 a : Int) + b) = va48 (a + b) := by
  rw [coe_va48, va48, Int.emod_add_emod, ← va48]

theorem va48_sub (a b : Int) : va48 ((va48 a : Int) - b) = va48 (a - b) := va48_add a (-b)

theorem va48_again (a : Int) : va48 (va48 a) = va48 a := by simpa using va48_add a 0

/-! ### The end of a syllable that goes elsewhere -/

section issue
variable {s t : State} {c : Nat} {i : Ins} {ops : List TWord} {syl takes grow : Nat} {o : Out}
  (q : Quiet s c) (hst : Stacked s c ops takes grow) (hg : i.sig.asks syl ops.length takes grow = true)
include q hst hg

/-- A syllable that ends in an idle core with its results at distance 1, wherever it goes on. -/
theorem issue_settled (h : Idle t c (s.core c).psw) (hrun : (i.body ops).run c (s.noted c { syl := syl }) = .ok o (t.noted c { syl := syl }))
    (hf : o.flow.simple = true) (hr : o.flow ≠ .rep) (hd : o.delay ≤ 1) (hk : o.keepPg = false) (hl : o.late = none) :
    issue c i s = changed t c (fun k => k.retiredBy i.sig o) := by
  obtain ⟨hplace, hfits, hops, rfl, -⟩ := asks_meets q hst hg
  have hcore := noted_core (x := { syl := i.sig.syl }) h
  have hp := h.plain
  have hfresh : Fresh ((t.noted c { syl := i.sig.syl }).core c) i.sig.syl := by
    rw [hcore]
    exact ⟨⟨hp.1, hp.2, rfl, hp.4, rfl, rfl, hp.7, hp.8, hp.9, hp.10, hp.11, hp.12⟩, rfl, rfl⟩
  have hlt : c < (t.noted c { syl := i.sig.syl }).cores.length := by
    rw [State.noted, modCore_cores_length]
    exact h.lt
  refine (issue_retires q hplace hfits (by rw [hops, ready_eq_noted q]; exact hrun) (h.unwatched.modCore c _) hlt hfresh hf hr hd hk hl).trans
    ((changed_modCore _ _ _ _).trans (changed_congr ?_))
  conv_rhs => rw [← unnoted_eq hp]
  rfl

/-- A syllable that jumps. -/
theorem issue_jumps {f : Core → Core} {sa : Nat} (h : Idle (s.modCore c f) c (s.core c).psw)
    (hrun : (i.body ops).run c (s.noted c { syl := syl }) = .ok { flow := .jump sa } ((s.modCore c f).noted c { syl := syl })) :
    issue c i s = changed s c (fun k => { retired (f k) syl takes [] with pc := sa }) := by
  obtain ⟨-, -, -, hsyl, htakes⟩ := asks_meets q hst hg
  rw [issue_settled q hst hg h hrun rfl nofun le_rfl rfl rfl, changed_modCore, ← hsyl, ← htakes]
  rfl

end issue

/-! ### The target and the count of a call -/

theorem fixVal_fixN_of_lt {n : Nat} (h : n < 2 ^ 63) : fixVal (fixN n) = n := by
  change (BitVec.ofNat 64 n).toInt = n
  rw [BitVec.toInt_ofNat', Int.bmod_eq_of_le] <;> omega

/-- The argument count of a call (R117 check 1). -/
theorem run_callCount {m max : Nat} (hm : m ≤ max) (hmax : max < 2 ^ 63) (c : Nat) (s : State) :
    (callCount (fixN m) max).run c s = .ok m s := by
  have hv := fixVal_fixN_of_lt (hm.trans_lt hmax)
  have hn : (fixN m).datum.toNat = m := Nat.mod_eq_of_lt (by omega)
  simp [callCount, ty_fixN, hv, hm, hn, run_pure]

section rules
variable {s : State} {c : Nat} {r : Psw} {x : Notes} {t w : TWord} {n kind : Nat}

theorem sound_code (ht : ty t = tCODE) : Sound t := sound_of_ty ht (by decide) (by decide)

/-- A sound word that is merely consumed. -/
theorem run_consumed (hw : Sound w) (p c : Nat) (s : State) : (check (plain p [w])).run c s = .ok () s :=
  run_check_one s fun _ _ _ => passes_sound hw _ _ _ _ _

theorem passes_code (ht : ty t = tCODE) (hz : hiZero t = true) (cust : Bool) (cuptr : Nat) (user : Bool) :
    Opd.passes cust cuptr user { w := t, pos := 1, deref := ty t == tFUN, code := true, ok := ty t == tCODE || ty t == tFUN } = true := by
  have hx : (tCODE == tPOISON) = false ∧ isReserved tCODE = false ∧ isCustom tCODE = false ∧ (tCODE == tFUN) = false := by decide
  simp [Opd.passes, Opd.malformed, Opd.odd, Opd.refused, ht, hz, hx]

/-- A call of CODE (R117 checks 2 and 3). -/
theorem run_callTarget (ht : ty t = tCODE) (hz : hiZero t = true) (c : Nat) (s : State) : (callTarget t).run c s = .ok (adr t, none) s := by
  have hty : (ty t == tCODE) = true := beq_iff_eq.2 ht
  rw [callTarget, run_bind, run_check_one _ fun _ _ _ => passes_code ht hz _ _ _]
  simp only [hty, if_true, run_pure]

theorem sound_frame (h : isFrame w kind = true) : Sound w := by
  simp only [isFrame, Bool.and_eq_true, beq_iff_eq] at h
  exact sound_of_ty h.1.1 (by decide) (by decide)

/-- A FRAME in a register of the control stack (R116). -/
theorem run_cFrame (h : Idle s c r) (hw : (s.core c).stk.cregs[n]? = some w) (hf : isFrame w kind = true) :
    (cFrame n kind).run c (s.noted c x) = .ok w (s.noted c x) := by
  simp only [cFrame, cRead, run_bind, run_getCore_noted h, run_cReadAs h hw, run_checkMem (sound_frame hf), hf, if_true, run_pure]

/-- Nothing is pending that a TCALL would have to land (R142). -/
theorem run_landEarly (h : Idle s c r) : landEarly.run c (s.noted c x) = .ok () (s.noted c x) := by
  have hp : ((s.core c).noted x).pend = [] := h.noPend
  have hland : ((s.core c).noted x).landAll = (s.core c).noted x := by
    simp only [Core.landAll, Core.landList, hp, List.foldl_nil]
    rw [← hp]
  simp only [landEarly, awaitPend, run_bind, run_getCore_noted h, hp, List.any_nil, Bool.false_eq_true, if_false, run_pure, run_modMe]
  rw [modCore_id _ _ _ (by rw [noted_core h, hland])]

end rules

/-! ### CALL -/

/-- PSW.LP is clear outside a loop. -/
theorem unlooped_eq {k : Core} (h : k.psw.lp = false) : { k with psw := { k.psw with lp := false } } = k := by
  have hp : { k.psw with lp := false } = k.psw := by rw [← h]
  rw [hp]

/-- The core that CALL of CODE enters its target with: the two operands gone, its frames pushed, SBASE moved (R117). -/
def Core.called (m : Nat) (k : Core) : Core :=
  { k with stk := { k.stk with sp := va48 ((k.stk.sp : Int) + 2), regs := k.stk.regs.drop 2, csp := va48 ((k.stk.csp : Int) - 2)
                               cregs := mkFrame 0 false 0 (va48 ((k.pc : Int) + 1)) :: mkFrame 1 false 0 (bits k.stk.sbase 47 0) :: k.stk.cregs
                               sbase := w64 (va48 ((k.stk.sp : Int) + 2 + m)) } }

/-- The same by the operations of the two stacks. -/
def Core.framed (m : Nat) (k : Core) : Core :=
  let d := ((k.unwound 2).cpushed (mkFrame 1 false 0 (bits k.stk.sbase 47 0))).cpushed (mkFrame 0 false 0 (va48 ((k.pc : Int) + 1)))
  { d with stk := { d.stk with sbase := w64 (va48 ((d.stk.sp : Int) + m + b2n false)) } }

theorem called_eq (m : Nat) (k : Core) : k.called m = k.framed m := by
  have hcsp : va48 ((va48 ((k.stk.csp : Int) - 1) : Int) - 1) = va48 ((k.stk.csp : Int) - 2) := by
    rw [va48_sub]
    congr 1
    ring
  have hsp := va48_add ((k.stk.sp : Int) + 2) m
  unfold Core.called
  rw [← hcsp, ← hsp]
  rfl

section call
variable {s : State} {c : Nat} {r : Psw} {x : Notes} {t : TWord} {m : Nat}

theorem run_dropOps (n : Nat) : (dropOps n).run c (s.noted c x) = .ok () ((s.modCore c (Core.unwound n)).noted c x) :=
  run_modMe_noted (f := Core.unwound n) fun _ => rfl

variable (h : Idle s c r)
include h

/-- No operand register is left to spill. -/
theorem run_spillAll (hregs : (s.core c).stk.regs = []) : spillAll.run c (s.noted c x) = .ok () (s.noted c x) := by
  have hnone : ((s.noted c x).core c).stk.regs = [] := by rw [noted_core h]; exact hregs
  exact run_spillFor 8 8 c _ (by rw [hnone]; exact le_rfl)

/-- Outside a loop CALL saves none (R117). -/
theorem run_pushLoop (hp : r.lp = false) : pushLoop.run c (s.noted c x) = .ok () (s.noted c x) := by
  have hloop : ((s.core c).noted x).psw.lp = false := (congrArg Psw.lp h.psw).trans hp
  simp only [pushLoop, run_bind, run_getCore_noted h, hloop, Bool.false_eq_true, if_false, run_pure]

theorem run_iCall (hp : r.lp = false) (hm : m ≤ 255) (ht : ty t = tCODE) (hz : hiZero t = true) (hregs : (s.core c).stk.regs.length = 2)
    (hd : Deep s c (m + 2)) (hc : (s.core c).stk.cregs.length ≤ 2) :
    (iCall.body [fixN m, t]).run c (s.noted c x) = .ok { flow := .jump (adr t) } ((s.modCore c (Core.called m)).noted c x) := by
  have hloop : (s.core c).psw.lp = false := (congrArg Psw.lp h.psw).trans hp
  have h1 : Idle (s.modCore c (Core.unwound 2)) c r := h.stacks rfl
  have e1 := core_modCore s c (Core.unwound 2) h.lt
  have h2 : Idle ((s.modCore c (Core.unwound 2)).modCore c (Core.cpushed (mkFrame 1 false 0 (bits (s.core c).stk.sbase 47 0)))) c r := h1.stacks rfl
  have e2 := core_modCore _ c (Core.cpushed (mkFrame 1 false 0 (bits (s.core c).stk.sbase 47 0))) h1.lt
  have hunder := run_underflow (m + 2) c (s.noted c x) (by rw [noted_core h]; exact hd)
  have hspill := run_spillAll (x := x) h1 (by rw [e1]; exact List.drop_eq_nil_of_le hregs.le)
  have hbase := run_cPush (x := x) h1 (by rw [e1]; exact hc.trans (by decide)) (mkFrame 1 false 0 (bits (s.core c).stk.sbase 47 0))
  have hret := run_cPush (x := x) h2 (by rw [e2, e1]; exact Nat.succ_le_succ hc) (mkFrame 0 false 0 (va48 ((s.core c).pc + 1)))
  have hk : ((s.modCore c (Core.unwound 2)).core c).noted x = ((s.core c).unwound 2).noted x := by rw [e1]
  have hsbase : (((s.core c).unwound 2).noted x).stk.sbase = (s.core c).stk.sbase := rfl
  have hpc : (((s.core c).unwound 2).noted x).pc = (s.core c).pc := rfl
  have hlp : (((s.core c).unwound 2).noted x).psw.lp = false := hloop
  simp only [iCall, opd, List.getD_cons_zero, List.getD_cons_succ, run_bind, run_consumed (sound_fix (ty_fixN m)), run_consumed (sound_code ht),
    run_callCount hm (by decide), run_callTarget ht hz, hunder, Option.isSome_none, Bool.false_eq_true, if_false, run_dropOps, run_pure, hspill,
    run_getCore_noted h1, run_pushLoop h1 hp, hk, hsbase, hpc, hlp, hbase, hret, run_modMe]
  simp only [State.noted, modCore_modCore]
  refine congrArg _ (modCore_congr _ _ _ _ ?_)
  rw [called_eq, ← unlooped_eq (k := ((s.core c).framed m).noted x) hloop]
  rfl

end call

/-! ### RET and ENTER -/

/-- The core after RET to a caller outside a loop: the frames gone, SBASE as the base frame says (R120). -/
def Core.returned (n base : Nat) (k : Core) : Core :=
  { k with stk := { k.stk with csp := va48 ((k.stk.csp : Int) + n + 2), cregs := k.stk.cregs.drop (n + 2), sbase := w64 base } }

/-- The core with n EMPTY words pushed onto the control stack (R119). -/
def Core.emptied (n : Nat) (k : Core) : Core :=
  { k with stk := { k.stk with csp := va48 ((k.stk.csp : Int) - n), cregs := List.replicate n wEMPTY ++ k.stk.cregs } }

section frames
variable {s : State} {c : Nat} {r : Psw} {x : Notes} {ret base : TWord} {n : Nat} (h : Idle s c r)
include h

theorem run_iRet (hret : (s.core c).stk.cregs[0]? = some ret) (hf : isFrame ret 0 = true) (hl : frameLsv ret = false)
    (hbase : (s.core c).stk.cregs[frameCount ret + 1]? = some base) (hb : isFrame base 1 = true) (ops : List TWord) :
    (iRet.body ops).run c (s.noted c x) =
      .ok { flow := .jump (adr ret) } ((s.modCore c (Core.returned (frameCount ret) (adr base))).noted c x) := by
  simp only [iRet, run_bind, run_getCore_noted h, run_cFrame h hret hf, run_cFrame h hbase hb, hl, Bool.false_eq_true, if_false, run_cDrop, run_modMe,
    run_pure]
  simp only [State.noted, modCore_modCore]
  refine congrArg _ (modCore_congr _ _ _ _ ?_)
  unfold Core.returned
  rw [add_assoc]
  rfl

/-- EMPTY words pushed into the registers, on a control stack whose pointer is an address (R48). -/
theorem run_cPushEmpty (hsp : (s.core c).stk.csp = va48 (s.core c).stk.csp) (hn : (s.core c).stk.cregs.length + n ≤ 4) :
    (cPushEmpty n).run c (s.noted c x) = .ok () ((s.modCore c (Core.emptied n)).noted c x) := by
  induction n generalizing s with
  | zero =>
    rw [modCore_id _ _ _ (by unfold Core.emptied; simp [← hsp])]
    rfl
  | succ n ih =>
    have e1 := core_modCore s c (Core.cpushed wEMPTY) h.lt
    have hrest := ih (s := s.modCore c (Core.cpushed wEMPTY)) (h.stacks rfl)
      (by rw [e1]; exact (va48_again _).symm) (by rw [e1]; simp only [Core.cpushed, List.length_cons]; omega)
    simp only [cPushEmpty, run_bind, run_cPush h (by omega : (s.core c).stk.cregs.length ≤ 3), hrest, modCore_modCore]
    refine congrArg _ (congrArg (State.noted · c x) (modCore_congr _ _ _ _ ?_))
    simp only [Core.emptied, Core.cpushed, va48_sub, List.replicate_succ', List.append_assoc, List.singleton_append]
    congr 3
    push_cast
    ring

/-- The core after ENTER: its return frame `ret` replaced, n EMPTY words below the new one (R119). -/
def Core.entered (n : Nat) (ret : TWord) (k : Core) : Core :=
  { k with stk := { k.stk with
      csp := va48 ((k.stk.csp : Int) - n)
      cregs := mkFrame 0 (frameLsv ret) (frameCount ret + n) (adr ret) :: (List.replicate n wEMPTY ++ k.stk.cregs.tail) } }

theorem run_iEnter (hret : (s.core c).stk.cregs[0]? = some ret) (hf : isFrame ret 0 = true) (hcount : frameCount ret + n ≤ 255)
    (hn : (s.core c).stk.cregs.length + n ≤ 4) (ops : List TWord) :
    ((iEnter n).body ops).run c (s.noted c x) = .ok {} ((s.modCore c (Core.entered n ret)).noted c x) := by
  have hlen : 0 < (s.core c).stk.cregs.length := (List.getElem?_eq_some_iff.1 hret).1
  have h1 : Idle (s.modCore c (Core.cdropped 1)) c r := h.stacks rfl
  have e1 := core_modCore s c (Core.cdropped 1) h.lt
  have hempty := run_cPushEmpty (x := x) (n := n) h1 (by rw [e1]; exact (va48_again ((s.core c).stk.csp + (1 : Nat))).symm)
    (by rw [e1]; simp only [Core.cdropped, List.length_drop]; omega)
  have h2 := h1.stacks (f := Core.emptied n) rfl
  have e2 := core_modCore _ c (Core.emptied n) h1.lt
  have hpush := run_cPush (x := x) h2 (by
    rw [e2, e1]; simp only [Core.emptied, Core.cdropped, List.length_append, List.length_replicate, List.length_drop]; omega)
    (mkFrame 0 (frameLsv ret) (frameCount ret + n) (adr ret))
  simp only [iEnter, run_bind, run_getCore_noted h, run_cFrame h hret hf, not_lt.2 hcount, if_false, run_cDrop, hempty, hpush, run_pure]
  simp only [State.noted, modCore_modCore]
  refine congrArg _ (modCore_congr _ _ _ _ ?_)
  have hcsp : va48 ((va48 ((va48 ((s.core c).stk.csp + 1) : Int) - n) : Int) - 1) = va48 ((s.core c).stk.csp - n) := by
    rw [va48_sub, sub_sub, va48_sub]
    congr 1
    ring
  unfold Core.entered
  rw [← hcsp, ← List.drop_one]
  rfl

end frames

/-! ### TCALL -/

/-- The core after TCALL of CODE with one argument: the frame of the caller's caller renewed, the argument alone on the operand stack (R121). -/
def Core.tailCalled (ret : TWord) (k : Core) : Core :=
  { k with stk := { k.stk with sp := va48 ((sbaseOf k : Int) - 1), regs := [], csp := va48 (k.stk.csp : Int)
                               cregs := mkFrame 0 (frameLsv ret) 0 (adr ret) :: k.stk.cregs.tail } }

/-- The same by the operations of the control stack. -/
def Core.renewed (ret : TWord) (k : Core) : Core :=
  let d := (k.cdropped 1).cpushed (mkFrame 0 (frameLsv ret) 0 (adr ret))
  { d with stk := { d.stk with sp := va48 ((sbaseOf k : Int) - 1), regs := [] } }

theorem tailCalled_eq (ret : TWord) (k : Core) : k.tailCalled ret = k.renewed ret := by
  have hcsp : va48 ((va48 (k.stk.csp + 1) : Int) - 1) = va48 k.stk.csp := by rw [va48_sub, add_sub_cancel_right]
  unfold Core.tailCalled
  rw [← List.drop_one, ← hcsp]
  rfl

section tail
variable {s : State} {c : Nat} {r : Psw} {x : Notes} {t ret w : TWord} {lf : Leaf} (h : Idle s c r)
include h

/-- A home slot that may be written (R121, R204). -/
theorem run_mayWrite {a : Nat} (hs : Storable s c a lf) : (mayWrite a 1).run c (s.noted c x) = .ok () (s.noted c x) := by
  simp only [mayWrite, run_bind, run_xlate_write h hs, run_sceneSafe lf (s := s.noted c x) (by rw [noted_core h]; exact h.sc),
    run_target a lf true hs.here, run_pure]

theorem run_iTcall (hp : r.lp = false) (hregs : (s.core c).stk.regs = [fixN 1, t, w]) (hd : Deep s c 3) (ht : ty t = tCODE)
    (hz : hiZero t = true) (hret : (s.core c).stk.cregs[0]? = some ret) (hf : isFrame ret 0 = true) (hcount : frameCount ret = 0)
    (hlen : (s.core c).stk.cregs.length ≤ 4) (hs : Storable s c (sbaseOf (s.core c) - 1) lf) (hb : NoBarrier s c (s.coreSees c lf.pa) w) :
    (iTcall.body [fixN 1, t]).run c (s.noted c x) = .ok { flow := .jump (adr t) }
      ((s.modCore c fun k => Core.tailCalled ret (Core.withQueue k [queued k lf w true])).noted c x) := by
  have hstore := run_store (x := x) h hs hb true false
  have h1 := h.queue [queued (s.core c) lf w true]
  have e1 := queue_core h [queued (s.core c) lf w true]
  have h2 := h1.stacks (f := Core.cdropped 1) rfl
  have e2 := core_modCore _ c (Core.cdropped 1) h1.lt
  have hpush := run_cPush (x := x) h2 (by
    rw [e2, e1]; simp only [Core.cdropped, Core.withQueue, List.length_drop]; omega) (mkFrame 0 (frameLsv ret) 0 (adr ret))
  have hunder := run_underflow 3 c (s.noted c x) (by rw [noted_core h]; exact hd)
  have harg : (operandAt 2).run c (s.noted c x) = .ok w (s.noted c x) := by
    have e : ((s.noted c x).core c).stk.regs = [fixN 1, t, w] := by rw [noted_core h]; exact hregs
    rw [run_operandAt 2 c _ (by rw [e]; exact Nat.lt_succ_self 2), e]
    rfl
  have hbase : sbaseOf ((s.core c).noted x) = sbaseOf (s.core c) := rfl
  simp only [Bool.false_eq_true, if_false, List.nil_append] at hstore
  simp only [iTcall, opd, List.getD_cons_zero, List.getD_cons_succ, run_bind, run_consumed (sound_fix (ty_fixN 1)), run_consumed (sound_code ht),
    run_callCount (show 1 ≤ 16 by decide) (by decide), run_callTarget ht hz, hunder, run_cFrame h hret hf, run_landEarly h, operandsFrom, harg,
    run_pure, run_getCore_noted h, hbase, Option.toList_none, List.append_nil, List.reverse_singleton, List.length_singleton, run_mayWrite h hs,
    storeDown, hstore, hcount, run_cDrop, Nat.zero_add, hpush, run_modMe]
  simp only [State.noted, State.queue, modCore_modCore]
  refine congrArg _ (modCore_congr _ _ _ _ ?_)
  have hloop : (s.core c).psw.lp = false := (congrArg Psw.lp h.psw).trans hp
  rw [tailCalled_eq, ← unlooped_eq (k := (Core.renewed ret (Core.withQueue (s.core c) [queued (s.core c) lf w true])).noted x) hloop]
  rfl

end tail

/-! ### The statement -/

/-- Two operands on top of at most two more entries in registers. -/
theorem stacked_pair {s : State} {c n : Nat} {a b : TWord} {l : List TWord} (hregs : (s.core c).stk.regs = a :: b :: l) (hl : l.length ≤ 2)
    (hd : Deep s c n) (hn : 2 ≤ n) : Stacked s c [a, b] 0 4 := by
  refine ⟨by rw [hregs]; rfl, by rw [hregs]; simp only [List.length_cons]; omega, .inr ?_⟩
  change (s.core c).stk.sp + 1 < _
  rcases hd with hd | hd <;> omega

section exec
variable {s : State} {c : Fin 256} {t ret base w : TWord} {lf : Leaf} (q : Quiet s c)
include q

theorem exec_call {m : Nat} (hregs : (s.core c).stk.regs = [fixN m, t]) (hm : m ≤ 255) (ht : ty t = tCODE) (hz : hiZero t = true)
    (hd : Deep s c (m + 2)) (hc : (s.core c).stk.cregs.length ≤ 2) :
    exec (.call c) s = .next (changed s c fun k => { retired (k.called m) 0x9000 0 [] with pc := adr t }) := by
  have h := idle_of_quiet q
  have hst : Stacked s c [fixN m, t] 0 4 := stacked_pair hregs (by decide) hd (by omega)
  exact next_eq (issue_jumps (i := iCall) q hst rfl (h.stacks rfl) (run_iCall h q.noLoop hm ht hz (by rw [hregs]; rfl) hd hc))

theorem exec_tcall (hregs : (s.core c).stk.regs = [fixN 1, t, w]) (hd : Deep s c 3) (ht : ty t = tCODE) (hz : hiZero t = true)
    (hret : (s.core c).stk.cregs[0]? = some ret) (hf : isFrame ret 0 = true) (hcount : frameCount ret = 0)
    (hlen : (s.core c).stk.cregs.length ≤ 4) (hs : Storable s c (sbaseOf (s.core c) - 1) lf) (hb : NoBarrier s c (s.coreSees c lf.pa) w) :
    exec (.tcall c) s = .next (changed s c fun k =>
      { retired (Core.tailCalled ret (Core.withQueue k [queued k lf w true])) 0x9001 0 [] with pc := adr t }) := by
  have h := idle_of_quiet q
  have hst : Stacked s c [fixN 1, t] 0 4 := stacked_pair hregs one_le_two hd (by decide)
  have ht' : Idle (s.modCore c fun k => Core.tailCalled ret (Core.withQueue k [queued k lf w true])) c (s.core c).psw :=
    h.modCore (fun k => ⟨k.1, k.2, k.3, k.4, k.5, k.6, k.7, k.8, k.9, k.10, k.11, k.12⟩) rfl rfl
  exact next_eq (issue_jumps (i := iTcall) q hst rfl ht' (run_iTcall h q.noLoop hregs hd ht hz hret hf hcount hlen hs hb))

theorem exec_ret (hret : (s.core c).stk.cregs[0]? = some ret) (hf : isFrame ret 0 = true) (hl : frameLsv ret = false)
    (hbase : (s.core c).stk.cregs[frameCount ret + 1]? = some base) (hb : isFrame base 1 = true) (hregs : (s.core c).stk.regs.length ≤ 4) :
    exec (.ret c) s = .next (changed s c fun k =>
      { retired (k.returned (frameCount ret) (adr base)) 0x9002 0 [] with pc := adr ret }) := by
  have h := idle_of_quiet q
  have hst : Stacked s c [] 0 4 := ⟨rfl, by omega, .inl rfl⟩
  exact next_eq (issue_jumps (i := iRet) q hst rfl (h.stacks rfl) (run_iRet h hret hf hl hbase hb []))

theorem exec_enter {n : BitVec 8} (hret : (s.core c).stk.cregs[0]? = some ret) (hf : isFrame ret 0 = true)
    (hcount : frameCount ret + n.toNat ≤ 255) (hn : (s.core c).stk.cregs.length + n.toNat ≤ 4) (hregs : (s.core c).stk.regs.length ≤ 4) :
    exec (.enter c n) s = .next (changed s c fun k => retired (k.entered n.toNat ret) (0x9100 + n.toNat) 0 []) := by
  have h := idle_of_quiet q
  have hst : Stacked s c [] 0 4 := ⟨rfl, by omega, .inl rfl⟩
  exact next_eq (issue_core (i := iEnter n.toNat) q hst (by simp [Sig.asks, Sig.easy, iEnter]) (h.stacks rfl)
    (run_iEnter h hret hf hcount hn []))

end exec

/-- Settles O16: no frame is spilled or filled, so each syllable moves registers and goes to its target. -/
theorem calls : Obligations.Calls := by
  unfold Obligations.Calls
  refine fun s c t ret base x n lf q => ⟨fun m hregs hm ht hz hd hc => ?_, fun hregs hd ht hz hret hf hcount hlen hs hb _ => ?_,
    fun hret hf hl hregs hbase hb => ?_, fun hret hf hcount hn hregs => ?_⟩
  · rw [exec_call q hregs hm ht hz hd hc]
    refine next_eq (changed_congr ?_)
    simp only [retired, Core.called, va48_again, List.length_nil, Nat.cast_add, Nat.cast_ofNat, Nat.cast_zero, add_zero, sub_zero, List.drop_zero]
  · rw [exec_tcall q hregs hd ht hz (by rwa [← List.head?_eq_getElem?]) hf hcount hlen hs hb]
    refine next_eq (changed_congr ?_)
    simp only [retired, Core.tailCalled, Core.withQueue, hregs, va48_again, List.length_nil, Nat.cast_zero, add_zero, sub_zero, List.drop_zero,
      List.reverse_nil, List.append_nil]
    rfl
  · rw [exec_ret q (by rwa [← List.head?_eq_getElem?]) hf hl hbase hb hregs]
    exact next_eq (changed_congr rfl)
  · rw [exec_enter q (by rwa [← List.head?_eq_getElem?]) hf hcount hn hregs]
    exact next_eq (changed_congr rfl)

end Sys2Proof.Machine
end

section
/-! PROOFS. The system instructions of a quiet core, and the privileged ones at user level (R74, R128-R134, R178), and the statement O19. -/

namespace Sys2Proof.Machine

open Sys2Proof Sys2Proof.Safety

/-! ### The checks of a privileged syllable -/

/-- A privileged syllable of core c: what the statement's lists say of it, with the signature that its decode check reads. -/
def PrivRow (c level : Nat) (p : Instr × Nat) : Prop :=
  ∃ I : Ins, (∀ s, exec p.1 s = .next (issue c I s)) ∧ I.sig.syl = p.2 ∧ I.sig.bad = none ∧ I.sig.unit = none ∧
    (I.sig.priv = 1 ∨ I.sig.priv = 2) ∧ level ≤ I.sig.priv

section refused
variable {s : State} {c level : Nat} {p : Instr × Nat} (q : Quiet s c)
include q

/-- A privileged syllable without its privilege (R74). -/
theorem PrivRow.refused (h : PrivRow c level p) (hl : (s.core c).psw.l = false ∨ level = 2 ∧ (s.core c).psw.w = false) :
    exec p.1 s = .next ((s.ready c p.2).takeTrap c (tIllegal 2) p.2) := by
  obtain ⟨I, hx, hsyl, hbad, hunit, hpriv, hlevel⟩ := h
  have hlow : ((I.sig.priv == 1 && !(s.core c).psw.l) || (I.sig.priv == 2 && !((s.core c).psw.l && (s.core c).psw.w))) = true := by
    rcases hl with hl | ⟨rfl, hw⟩
    · rcases hpriv with hp | hp <;> simp [hp, hl]
    · have hp : I.sig.priv = 2 := by omega
      simp [hp, hw]
  have hplace : placeCheck (s.core c) I.sig (s.portOk c I.sig.port) = some (tIllegal 2) := by
    simp only [placeCheck, hbad, q.noSlot, q.noLoop, q.noShadow, hlow, hunit, Option.isSome_none, Bool.and_false, Bool.false_and, Bool.or_false,
      Bool.false_eq_true, if_false, if_true]
    rfl
  rw [hx, issue_refused q hplace, hsyl]

end refused

section rows
variable (c : Fin 256)

theorem privRow_supervisor {p : Instr × Nat} (hp : p ∈ [(Instr.halt c, 0xC101), (.setipl c, 0xC104), (.rte c, 0xC100), (.rtq c, 0xC10A),
    (.mcload c, 0xC109), (.inval c, 0x4042), (.lock c, 0x4044), (.unlock c, 0x4045), (.cleanAll c, 0x4046), (.flushAll c, 0x4047),
    (.iinvalAll c, 0x4048), (.tlbiVa c, 0x4080), (.tlbiVaw c, 0x4081), (.tlbiAsid c, 0x4082), (.tlbiVmid c, 0x4083), (.tlbiAll c, 0x4084),
    (.tlbw c, 0x4085), (.tlbr c, 0x4086), (.walk c, 0x4087), (.scanstack c, 0xD020)]) : PrivRow c 1 p := by
  simp only [List.mem_cons, List.not_mem_nil, or_false] at hp
  rcases hp with rfl | rfl | rfl | rfl | rfl | rfl | rfl | rfl | rfl | rfl | rfl | rfl | rfl | rfl | rfl | rfl | rfl | rfl | rfl | rfl
  · exact ⟨iHalt, fun _ => rfl, rfl, rfl, rfl, .inl rfl, le_rfl⟩
  · exact ⟨iSetipl, fun _ => rfl, rfl, rfl, rfl, .inl rfl, le_rfl⟩
  · exact ⟨iRte, fun _ => rfl, rfl, rfl, rfl, .inl rfl, le_rfl⟩
  · exact ⟨iRtq, fun _ => rfl, rfl, rfl, rfl, .inl rfl, le_rfl⟩
  · exact ⟨iMcload, fun _ => rfl, rfl, rfl, rfl, .inr rfl, one_le_two⟩
  · exact ⟨iInval, fun _ => rfl, rfl, rfl, rfl, .inl rfl, le_rfl⟩
  · exact ⟨iLock, fun _ => rfl, rfl, rfl, rfl, .inl rfl, le_rfl⟩
  · exact ⟨iUnlock, fun _ => rfl, rfl, rfl, rfl, .inl rfl, le_rfl⟩
  · exact ⟨iCleanAll, fun _ => rfl, rfl, rfl, rfl, .inl rfl, le_rfl⟩
  · exact ⟨iFlushAll, fun _ => rfl, rfl, rfl, rfl, .inl rfl, le_rfl⟩
  · exact ⟨iIinvalAll, fun _ => rfl, rfl, rfl, rfl, .inl rfl, le_rfl⟩
  · exact ⟨iTlbiVa, fun _ => rfl, rfl, rfl, rfl, .inl rfl, le_rfl⟩
  · exact ⟨iTlbiVaw, fun _ => rfl, rfl, rfl, rfl, .inl rfl, le_rfl⟩
  · exact ⟨iTlbiAsid, fun _ => rfl, rfl, rfl, rfl, .inl rfl, le_rfl⟩
  · exact ⟨iTlbiVmid, fun _ => rfl, rfl, rfl, rfl, .inr rfl, one_le_two⟩
  · exact ⟨iTlbiAll, fun _ => rfl, rfl, rfl, rfl, .inl rfl, le_rfl⟩
  · exact ⟨iTlbw, fun _ => rfl, rfl, rfl, rfl, .inl rfl, le_rfl⟩
  · exact ⟨iTlbr, fun _ => rfl, rfl, rfl, rfl, .inl rfl, le_rfl⟩
  · exact ⟨iWalk, fun _ => rfl, rfl, rfl, rfl, .inl rfl, le_rfl⟩
  · exact ⟨iScanstack, fun _ => rfl, rfl, rfl, rfl, .inl rfl, le_rfl⟩

theorem privRow_backstage {p : Instr × Nat} (hp : p ∈ [(Instr.mcload c, 0xC109), (.tlbiVmid c, 0x4083)]) : PrivRow c 2 p := by
  simp only [List.mem_cons, List.not_mem_nil, or_false] at hp
  rcases hp with rfl | rfl
  · exact ⟨iMcload, fun _ => rfl, rfl, rfl, rfl, .inr rfl, le_rfl⟩
  · exact ⟨iTlbiVmid, fun _ => rfl, rfl, rfl, rfl, .inr rfl, le_rfl⟩

end rows

/-- A syllable with its operands in registers, at its level of privilege, passes its checks. -/
theorem privileged_meets {s : State} {c : Nat} {g : Sig} {ops : List TWord} {takes : Nat} (q : Quiet s c) (hst : Stacked s c ops takes 4)
    (he : g.easy = true) (hm : g.micro = true) (hr : g.rd = ops.length) (ht : g.takes = takes) (hl : (s.core c).psw.l = true)
    (hpriv : g.priv = 1 ∨ (s.core c).psw.w = true) :
    placeCheck (s.core c) g (s.portOk c g.port) = none ∧ Fits (s.core c) g ∧ (s.core c).opsOf g = ops := by
  have he' := he
  simp only [Sig.easy, Bool.and_eq_true, Option.isNone_iff_eq_none] at he'
  exact ⟨placeCheck_quiet q _ _ he'.1.1.1 (.inl he'.1.1.2) (.inr ⟨hl, hpriv⟩), stacked_fits hst g he hr ht (by rw [hm]; rfl),
    stacked_ops hst g he hr⟩

/-! ### What the programs use -/

/-- A store queue that is empty has nothing to drain. -/
theorem run_drainMine {s : State} {c : Nat} (h : (s.core c).mem.sq = []) : drainMine.run c s = .ok () s := by
  have hone : s.drainAt c 0 = s := by simp [State.drainAt, h]
  have hall : s.drainAll c = s := List.foldl_fixed' (fun _ => hone) _
  simp only [drainMine, run_bind, run_updS, hall, run_getCore, h, run_pure]

/-- The core without a fence. -/
def Core.unfenced (k : Core) : Core := { k with mem := { k.mem with fence := false } }

/-- The status registers of a load do not depend on the core (R179). -/
theorem ldstat_modCore (s : State) (c : Nat) (f : Core → Core) (busy : Bool) (code op area addr : Nat) :
    (s.modCore c f).ldstat busy code op area addr = (s.ldstat busy code op area addr).modCore c f := by
  unfold State.ldstat
  rw [show (s.modCore c f).enabledClusters = s.enabledClusters from rfl]
  generalize s.enabledClusters = l
  induction l generalizing s with
  | nil => rfl
  | cons cl l ih => exact ih (s.setReg .MCS_LDSTAT cl _)

theorem ldstat_core (s : State) (c : Nat) (busy : Bool) (code op area addr : Nat) : (s.ldstat busy code op area addr).core c = s.core c := by
  unfold State.ldstat
  generalize s.enabledClusters = l
  induction l generalizing s with
  | nil => rfl
  | cons cl l ih => exact ih (s.setReg .MCS_LDSTAT cl _)

/-- A load's status concerns none of the registers that a retirement looks at. -/
theorem Unwatched.ldstat {s : State} {c : Nat} {p : Psw} (h : Unwatched s c p) (busy : Bool) (code op area addr : Nat) :
    Unwatched (s.ldstat busy code op area addr) c p := by
  unfold State.ldstat
  generalize s.enabledClusters = l
  induction l generalizing s with
  | nil => exact h
  | cons cl l ih => exact ih (h.setReg (by decide) cl _)

/-! ### TRAP and HALT -/

/-- A trap after retirement: the syllable retires, then the exception is taken, and no single step is noted (R128). -/
theorem retire_late (u : State) (c : Nat) (g : Sig) (o : Out) (t : Trap) (user back : Bool) :
    u.retire c g { o with late := some t } user back = (u.retire c g { o with late := none } false back).takeTrap c t g.syl := by
  unfold State.retire
  simp only [State.stepDue, Bool.false_and, Bool.false_eq_true, if_false]
  rfl

section system
variable {s : State} {c : Fin 256} (q : Quiet s c)
include q

theorem exec_trap (n : Fin 32) (hst : Stacked s c [] 0 4) :
    exec (.trap c n) s = .next ((after s c (0xC000 + n.val) 0 []).takeTrap c { vec := 32 + n.val } (0xC000 + n.val)) := by
  obtain ⟨hplace, hfits, -⟩ := asks_meets (i := iTrap n) (syl := 0xC000 + n) q hst (by simp [Sig.asks, Sig.easy, iTrap])
  have hlt : (c : Nat) < (s.ready c (0xC000 + n)).cores.length := by rw [State.ready, modCore_cores_length]; exact quiet_core_lt q
  have hw := unwatched_of_quiet q
  have hw' : Unwatched (s.ready c (0xC000 + n)) c { (s.core c).psw with l := true } :=
    Unwatched.ready ⟨hw.noTrace, hw.noReplay, hw.noRecord, rfl⟩ _
  have hret := retire_fresh (g := (iTrap n).sig) (o := {}) hw' hlt (ready_fresh q _) rfl nofun le_rfl rfl rfl
  refine next_eq ((issue_runs s c (iTrap n) q _ { late := some { vec := 32 + n } } hplace hfits rfl).trans ((retire_late _ _ _ {} _ _ _).trans
    (congrArg (State.takeTrap · c { vec := 32 + n.val } (0xC000 + n.val)) (hret.trans (changed_ready s c (iTrap n).sig {})))))

theorem exec_brk (hst : Stacked s c [] 0 4) : exec (.brk c) s = .next ((s.ready c 0xC105).takeTrap c { vec := 17 } 0xC105) := by
  refine raises_of (ok := fun _ _ => True) iBrk (fun _ _ => rfl) rfl rfl rfl rfl rfl rfl (fun s c q _ => ?_) s c q hst trivial
  have hsc : ((s.core c).noted { syl := 0xC105 }).psw.sc = false := q.noScene
  rw [ready_eq_noted q]
  simp only [iBrk, run_bind, run_getCore_noted (idle_of_quiet q), hsc, Bool.false_eq_true, if_false, run_raise]

/-- A quiet core has no event to take, so that only an NMI behind an active one ends its HALT (R130, R191). -/
theorem haltEnds_quiet : s.haltEnds c = (s.core c).ev.nmi := by
  have h := q.issues
  have hbound : (s.core c).boundary = true := by simp [Core.boundary, q.noSlot, q.noShadow, q.noBuf]
  have hsc := q.noScene
  simp only [State.canIssue, Bool.and_eq_true, Bool.not_eq_true'] at h
  have hdue := h.2
  simp only [State.eventDue, hbound, q.noReplay, Core.interruptDue, hsc, Bool.true_and, Bool.not_false, Bool.false_and, Bool.and_true,
    Bool.or_eq_false_iff] at hdue
  simp [State.haltEnds, hdue]

theorem exec_halt_pending (hst : Stacked s c [] 0 4) (hl : (s.core c).psw.l = true) (hn : (s.core c).ev.nmi = true) :
    exec (.halt c) s = .next (after s c 0xC101 0 []) := by
  obtain ⟨hplace, hfits, hops⟩ := privileged_meets (g := iHalt.sig) q hst rfl rfl rfl rfl hl (.inl rfl)
  refine next_eq (issue_after s c iHalt q [] hplace hfits ?_)
  have hends : (s.ready c iHalt.sig.syl).haltEnds c = true := by simp [State.haltEnds, quiet_ready_core q, hn]
  simp only [iHalt, run_bind, run_askS] at hends ⊢
  simp only [hends, if_true, run_pure]

/-- The core that HALT stops. -/
def Core.halted (time : Nat) (k : Core) : Core := { k with haltAt := time }

theorem exec_halt (hst : Stacked s c [] 0 4) (hl : (s.core c).psw.l = true) (hn : (s.core c).ev.nmi = false) :
    exec (.halt c) s = .next (changed (s.bump .CORE_HALTS c 1) c (fun k => { retired k 0xC101 0 [] with run := .halt, haltAt := s.time })) := by
  obtain ⟨h, hc⟩ := issuing_of_quiet q
  obtain ⟨hplace, hfits, hops⟩ := privileged_meets (g := iHalt.sig) q hst rfl rfl rfl rfl hl (.inl rfl)
  have hlt : (c : Nat) < (s.ready c 0xC101).cores.length := by rw [State.ready, modCore_cores_length]; exact h.lt
  have hcore : ((((s.ready c 0xC101).modCore c (Core.halted s.time)).bump .CORE_HALTS c 1).core c) = ((s.core c).readied 0xC101).halted s.time :=
    (core_modCore _ _ _ hlt).trans (congrArg _ (h.ready_core _))
  have hends : (s.ready c 0xC101).haltEnds c = false := by
    rw [← hn, ← haltEnds_quiet q]
    simp only [State.haltEnds, h.ready_core]
    rfl
  have hrun : (iHalt.body ((s.core c).opsOf iHalt.sig)).run c (s.ready c 0xC101) =
      .ok { flow := .halt } (((s.ready c 0xC101).modCore c (Core.halted s.time)).bump .CORE_HALTS c 1) := by
    simp only [iHalt, run_bind, run_askS, hends, Bool.false_eq_true, if_false, run_updS, run_pure]
    rfl
  have hclear : ClearCore (((s.core c).readied 0xC101).halted s.time) := by
    obtain ⟨h1, h2, h3, h4, h5, h6, h7, h8, h9⟩ := hc
    exact ⟨h1, h2, h3, h4, h5, h6, h7, h8, h9⟩
  refine next_eq ((h.runs hc.noMicro hplace hfits hrun).trans ?_)
  have hw : Unwatched (((s.ready c 0xC101).modCore c (Core.halted s.time)).bump .CORE_HALTS c 1) c (s.core c).psw :=
    ((h.unwatched.ready _).modCore c _).setReg (r := .CORE_HALTS) (by decide) _ _
  rw [retire_left hw (by simpa using hlt) (by rw [hcore]; exact hclear) (by rw [hcore]; exact q.noShadow) rfl le_rfl rfl rfl rfl]
  have hu : ((s.ready c 0xC101).modCore c (Core.halted s.time)).bump .CORE_HALTS c 1 =
      (s.bump .CORE_HALTS c 1).modCore c fun k => (k.readied 0xC101).halted s.time := by
    rw [State.ready, modCore_modCore]
    rfl
  rw [hu, changed_modCore]
  refine changed_congr ?_
  have hadv : (((((s.bump .CORE_HALTS c 1).core c).readied 0xC101).halted s.time).pushed iHalt.sig.takes []).advance .halt = _ :=
    plain_advance _ q.noSlot q.noLoop
  simp only [Core.left, hadv]
  rfl

/-! ### SETIPL, SYNC, TIME and RAND -/

theorem exec_setipl {f : TWord} (hst : Stacked s c [f] 1 4) (hl : (s.core c).psw.l = true) (hf : ty f = tFIX) (hn : f.datum.toNat ≤ 15) :
    exec (.setipl c) s = .next (changed s c (fun k => { retired k 0xC104 1 [fixN k.psw.ipl] with
      shadow := some { remain := 2, sa := k.pc, syl := 0xC104, upd := .ipl f.datum.toNat } })) := by
  obtain ⟨hplace, hfits, hops⟩ := privileged_meets (g := iSetipl.sig) q hst rfl rfl rfl rfl hl (.inl rfl)
  have hv : fixVal f = f.datum.toNat := BitVec.toInt_eq_toNat_of_lt (by omega)
  have hok : (ty f == tFIX && decide (0 ≤ fixVal f) && decide (fixVal f ≤ 15)) = true := by
    simp only [hf, hv, BEq.rfl, Bool.and_eq_true, decide_eq_true_eq, true_and]
    omega
  have hcheck := run_check_one (c := c) (s.ready c 0xC104) fun cust cuptr user => passes_accepted (sound_fix hf) hok cust cuptr user 0 0 0
  refine next_eq ((issue_ready (u := s) (i := iSetipl) (o := { push := [fixN (s.core c).psw.ipl], shadow := some (.ipl f.datum.toNat) })
    q hplace hfits ?_ (unwatched_of_quiet q) ⟨_, rfl⟩ rfl le_rfl rfl rfl).trans (changed_congr rfl))
  rw [hops]
  simp only [iSetipl, opd, List.getD_cons_zero, run_bind, hcheck, run_getCore, quiet_ready_core q, run_pure]

theorem exec_sync (hst : Stacked s c [] 0 4) (hq : (s.core c).mem.sq = []) : exec (.sync c) s = .next (changed s c (fun k =>
    let r := retired k 0xC106 0 []
    { r with mem := { r.mem with fence := false } })) := by
  have h := idle_of_quiet q
  have hdrain := run_drainMine (s := s.noted c { syl := 0xC106 }) (c := c) (by rw [noted_core h]; exact hq)
  have hfence : (modMe fun k => { k with mem := { k.mem with fence := false } }).run c (s.noted c { syl := 0xC106 }) = _ :=
    run_modMe_noted (f := Core.unfenced) fun _ => rfl
  refine next_eq ((issue_core (i := iSync) (syl := 0xC106) (push := []) (f := Core.unfenced) q hst rfl
    (h.modCore (fun k => ⟨k.1, k.2, k.3, k.4, k.5, k.6, k.7, k.8, k.9, k.10, k.11, k.12⟩) rfl rfl) ?_).trans (changed_congr rfl))
  simp only [iSync, run_bind, run_landEarly h, hdrain, hfence, run_pure]

theorem exec_time (hst : Stacked s c [] 0 4) : exec (.time c) s = .next (after s c 0xC107 0 [fixW (w64 s.time)]) := by
  have h := idle_of_quiet q
  have hw := h.unwatched.modCore c (Core.noted { syl := 0xC107 })
  have htime : (s.noted c { syl := 0xC107 }).time = s.time := rfl
  refine next_eq (issue_pushed (i := iTime) q hst rfl h ?_)
  simp only [iTime, run_bind, run_askS, htime, run_ndval (s := s.noted c { syl := 0xC107 }) 0 _ hw.noReplay hw.noRecord, run_pure]

theorem exec_rand (hst : Stacked s c [] 0 4) (hd : s.fld f_KSU_DRBG_STATE 0 ≠ 2) :
    exec (.rand c) s = .next (after s.drawDrbg.2 c 0xC108 0 [fixW s.drawDrbg.1]) := by
  obtain ⟨hplace, hfits, hops, -⟩ := asks_meets (i := iRand) (syl := 0xC108) q hst rfl
  have hw : Unwatched s.drawDrbg.2 c (s.core c).psw := (unwatched_of_quiet q).of_same fun _ _ _ => rfl
  have hr := hw.ready 0xC108
  have hbad : ((s.ready c 0xC108).fld f_KSU_DRBG_STATE 0 == 2) = false := beq_eq_false_iff_ne.2 hd
  have hdraw : (s.ready c 0xC108).drawDrbg = (s.drawDrbg.1, s.drawDrbg.2.ready c 0xC108) := rfl
  refine next_eq (issue_leaves (u := s.drawDrbg.2) (i := iRand) q hplace hfits ?_ hw ⟨_, rfl⟩)
  simp only [iRand, run_bind, run_askS, hbad, Bool.false_eq_true, if_false, run_get, hdraw, run_set, run_ndval 1 _ hr.noReplay hr.noRecord, run_pure]

theorem exec_rand_failed (hst : Stacked s c [] 0 4) (hd : s.fld f_KSU_DRBG_STATE 0 = 2) :
    exec (.rand c) s = .next ((s.ready c 0xC108).takeTrap c { vec := 2, sub := 4 } 0xC108) := by
  refine raises_of (ok := fun s _ => s.fld f_KSU_DRBG_STATE 0 = 2) iRand (fun _ _ => rfl) rfl rfl rfl rfl rfl rfl (fun s c _ hs => ?_) s c q hst hd
  have hbad : ((s.ready c 0xC108).fld f_KSU_DRBG_STATE 0 == 2) = true := beq_iff_eq.2 hs
  simp only [iRand, run_bind, run_askS, hbad, if_true, run_raise]

/-! ### MCLOAD -/

/-- The state with the removal of the customer image taken on (R178). -/
def State.removal (s : State) : State := { s with mcs := { s.mcs with job := some { op := 2, image := [] } } }

/-- The same with the status of the load set (R179). -/
def State.removing (s : State) : State := s.removal.ldstat true 1 2 0 0

end system

theorem Unwatched.removing {s : State} {c : Nat} {p : Psw} (h : Unwatched s c p) : Unwatched s.removing c p := by
  unfold State.removing
  exact Unwatched.ldstat (h.of_same (u := s.removal) fun _ _ _ => rfl) _ _ _ _ _

theorem removing_ready (s : State) (c n : Nat) : (s.ready c n).removing = s.removing.ready c n :=
  ldstat_modCore s.removal c _ true 1 2 0 0

theorem removing_core (s : State) (c : Nat) : s.removing.core c = s.core c := ldstat_core s.removal c true 1 2 0 0

/-- MCLOAD 2 where no load is in progress and the device records and replays nothing (R178). -/
theorem mcload_remove {s : State} (pa : Int) (hjob : s.mcs.job = none) (hwant : s.mcs.want = []) (hsealed : s.mode mSEALED = false)
    (hrec : s.mode mRECORD = false) (hreplay : s.mode mREPLAY = false) : s.mcload pa 2 = (0, s.removing) := by
  have hidle : (s.mcs.job.isSome || !s.mcs.want.isEmpty) = false := by rw [hjob, hwant]; rfl
  simp only [State.mcload, hidle, hsealed, hrec, hreplay, Bool.or_self, Bool.false_eq_true, if_false,
    show ¬ ((2 : Int) = 0 ∨ (2 : Int) = 1) by decide, true_or, if_true]
  rfl

/-- MCLOAD on a SEALED device (R178). -/
theorem mcload_sealed {s : State} (pa op : Int) (hjob : s.mcs.job = none) (hwant : s.mcs.want = []) (hsealed : s.mode mSEALED = true) :
    s.mcload pa op = (2, s) := by
  simp [State.mcload, hjob, hwant, hsealed]

section mcload
variable {s u : State} {c : Fin 256} {a : TWord} (q : Quiet s c) (hst : Stacked s c [fixN 2, a] 2 4) (hl : (s.core c).psw.l = true)
  (hw : (s.core c).psw.w = true) (hq : (s.core c).mem.sq = []) (ha : ty a = tFIX)
include q hst hl hw hq ha

/-- MCLOAD 2 that answers `n` and leaves `u`. -/
theorem exec_mcload {n : Nat} (hload : (s.ready c 0xC109).mcload (fixVal a) 2 = (n, u.ready c 0xC109)) (hu : Unwatched u c (s.core c).psw)
    (hcore : (u.ready c 0xC109).core c = (s.ready c 0xC109).core c) : exec (.mcload c) s = .next (after u c 0xC109 2 [fixN n]) := by
  obtain ⟨hplace, hfits, hops⟩ := privileged_meets (g := iMcload.sig) q hst rfl rfl rfl rfl hl (.inr hw)
  have hop : fixVal (fixN 2) = 2 := fixVal_fixN (by decide)
  have hdrain := run_drainMine (s := s.ready c 0xC109) (c := c) (by rw [quiet_ready_core q]; exact hq)
  have hcheck : (check [{ w := fixN 2, pos := 0, ok := ty (fixN 2) == tFIX }, { w := a, pos := 1, ok := ty a == tFIX }]).run c (s.ready c 0xC109) =
      .ok () (s.ready c 0xC109) := run_check _ _ _ (List.forall_mem_cons.2 ⟨passes_fix rfl rfl _ _ _,
        List.forall_mem_cons.2 ⟨passes_fix ha (beq_iff_eq.2 ha) _ _ _, nofun⟩⟩)
  refine next_eq (issue_leaves (u := u) (i := iMcload) q hplace hfits ?_ hu ⟨_, hcore⟩)
  rw [hops]
  simp only [iMcload, opd, List.getD_cons_zero, List.getD_cons_succ, run_bind, hcheck, hdrain, run_askS, run_updS, hop, hload, run_pure]

end mcload

/-- Settles O19: decode checks refuse the privileged syllables, and each program is run on its quiet core. -/
theorem systemInstructions : Obligations.SystemInstructions := by
  unfold Obligations.SystemInstructions
  intro s c f a n q hregs
  have hst : Stacked s c [] 0 4 := ⟨rfl, by omega, .inl rfl⟩
  refine ⟨exec_trap q n hst, exec_brk q hst, exec_halt_pending q hst, exec_halt q hst, fun hl p hp => (privRow_supervisor c hp).refused q (.inl hl),
    fun hw p hp => (privRow_backstage c hp).refused q (.inr ⟨rfl, hw⟩), fun hl hst' => exec_setipl q hst' hl, exec_sync q hst, exec_time q hst,
    exec_rand q hst, exec_rand_failed q hst, fun hl hw hq hst' ha hjob hwant => ⟨fun hsealed hrec => ?_, fun hsealed => ?_⟩⟩
  · exact exec_mcload (u := s.removing) q hst' hl hw hq ha
      ((mcload_remove (s := s.ready c 0xC109) _ hjob hwant hsealed hrec q.noReplay).trans (by rw [removing_ready]))
      (unwatched_of_quiet q).removing (by rw [← removing_ready, removing_core])
  · exact exec_mcload q hst' hl hw hq ha (mcload_sealed _ _ hjob hwant hsealed) (unwatched_of_quiet q) rfl

end Sys2Proof.Machine
end

section
/-! PROOFS. What the memory side does on its own (R140, R248, R261, R264, R320): the side effects that leave the tags of the caches and the
directory alone, and what each unit does itself. -/

namespace Sys2Proof.Machine

open Sys2Proof Sys2Proof.Safety

/-! ### Cache tags and the directory through side effects -/

/-- From `s₀` to `s` the directory, the settings of the cluster caches and the lines that each of them holds, or has lost, are the same. -/
structure KeepsTags (s₀ s : State) : Prop where
  dir : s.dir = s₀.dir
  ctl : ∀ q, s.reg .CC_CTL q = s₀.reg .CC_CTL q
  lines : ∀ q, (s.cluster q).lines = (s₀.cluster q).lines
  lost : ∀ q, (s.cluster q).lost = (s₀.cluster q).lost

section tags
variable {s₀ s t : State} {α : Type}

theorem KeepsTags.refl (s : State) : KeepsTags s s := ⟨rfl, fun _ => rfl, fun _ => rfl, fun _ => rfl⟩

/-- Fields other than the registers, the clusters and the directory may change. -/
theorem KeepsTags.upd (h : KeepsTags s₀ s) {pending free time part mem emptied home held asked parked cores col reh tour host mcs modes test
    recal clk load ksu pm drbg debugScope wire status bb} :
    KeepsTags s₀ ⟨pending, free, time, part, mem, emptied, home, held, asked, parked, s.regs, cores, s.clusters, s.dir, col, reh, tour,
      host, mcs, modes, test, recal, clk, load, ksu, pm, drbg, debugScope, wire, status, bb⟩ := ⟨h.dir, h.ctl, h.lines, h.lost⟩

theorem KeepsTags.ite {p : Prop} [Decidable p] (hs : KeepsTags s₀ s) (ht : KeepsTags s₀ t) : KeepsTags s₀ (if p then s else t) := by
  split
  · exact hs
  · exact ht

theorem KeepsTags.foldl {l : List α} {f : State → α → State} (h : KeepsTags s₀ s) (hf : ∀ ⦃s x⦄, KeepsTags s₀ s → KeepsTags s₀ (f s x)) :
    KeepsTags s₀ (l.foldl f s) := foldl_all h fun _ _ h => hf h

theorem KeepsTags.modCore {c f} (h : KeepsTags s₀ s) : KeepsTags s₀ (s.modCore c f) := h.upd

theorem KeepsTags.setReg {r i v} (h : KeepsTags s₀ s) (hr : r ≠ .CC_CTL := by decide) : KeepsTags s₀ (s.setReg r i v) :=
  ⟨h.dir, fun q => (reg_setReg_ne s r .CC_CTL i q v fun e => hr e.1).trans (h.ctl q), h.lines, h.lost⟩

theorem KeepsTags.setFld {f i v} (h : KeepsTags s₀ s) (hf : f.reg ≠ .CC_CTL := by decide) : KeepsTags s₀ (s.setFld f i v) := h.setReg hf

theorem KeepsTags.bump {r i n} (h : KeepsTags s₀ s) (hr : r ≠ .CC_CTL := by decide) : KeepsTags s₀ (s.bump r i n) := h.setReg hr

theorem KeepsTags.wr {a w} (h : KeepsTags s₀ s) : KeepsTags s₀ (s.wr a w) := h.upd

theorem KeepsTags.putTrace {instr q0 q1} (h : KeepsTags s₀ s) : KeepsTags s₀ (s.putTrace instr q0 q1) :=
  .ite h.wr.wr.setFld (.ite h.bump.upd (.ite h.setReg.setReg.setFld h.setReg.setReg.setFld))

theorem KeepsTags.traceI {c kind a info} (h : KeepsTags s₀ s) : KeepsTags s₀ (s.traceI c kind a info) := .ite h.putTrace h

theorem KeepsTags.modChunk {a f} (h : KeepsTags s₀ s) : KeepsTags s₀ (s.modChunk a f) :=
  .ite h.modCore ⟨h.dir, h.ctl,
    fun q => (modCluster_keeps Cluster.lines s _ q (fun k => { k with chunk := f k.chunk }) fun _ => rfl).trans (h.lines q),
    fun q => (modCluster_keeps Cluster.lost s _ q (fun k => { k with chunk := f k.chunk }) fun _ => rfl).trans (h.lost q)⟩

theorem KeepsTags.note {a r} (h : KeepsTags s₀ s) : KeepsTags s₀ (s.note a r) := .ite h.modChunk h

theorem KeepsTags.endChunk {a cause after} (h : KeepsTags s₀ s) : KeepsTags s₀ (s.endChunk a cause after) := .ite h h.modChunk.upd

theorem KeepsTags.chunkGive {cl line} (h : KeepsTags s₀ s) : KeepsTags s₀ (s.chunkGive cl line) :=
  .ite h (h.foldl fun _ _ h => .ite h.endChunk h)

theorem KeepsTags.noteScene {c stat} (h : KeepsTags s₀ s) : KeepsTags s₀ (s.noteScene c stat) := h.note.traceI

theorem KeepsTags.modPort {p f} (h : KeepsTags s₀ s) : KeepsTags s₀ (s.modPort p f) := h.upd

theorem KeepsTags.putFlits {p m} (h : KeepsTags s₀ s) : KeepsTags s₀ (s.putFlits p m) := h.foldl fun _ _ h => h.modPort.upd

theorem KeepsTags.pumpPort {p} (h : KeepsTags s₀ s) : KeepsTags s₀ (s.pumpPort p) := by
  unfold State.pumpPort
  extract_lets go
  have hgo : ∀ a m, KeepsTags s₀ a.1 → KeepsTags s₀ (go a m).1 := by
    rintro ⟨u, kept, shut⟩ m hu
    unfold go
    dsimp only
    split
    · exact hu
    · exact hu.putFlits
  exact (foldl_all (P := fun a : State × List Msg × List Nat => KeepsTags s₀ a.1) h hgo).modPort

theorem KeepsTags.portSend {p m} (h : KeepsTags s₀ s) : KeepsTags s₀ (s.portSend p m) := .ite h.modPort.pumpPort.bump h.modPort.pumpPort

theorem KeepsTags.forward {inp m} (h : KeepsTags s₀ s) : KeepsTags s₀ (s.forward inp m) := by
  unfold State.forward
  extract_lets _ bad
  have hbad : KeepsTags s₀ (bad s) := by
    unfold bad
    split
    · extract_lets
      split
      · exact h.upd
      · split
        · exact h.portSend
        · exact h.bump
    · exact .ite h h.bump
  split
  · exact hbad
  · split
    · exact h.portSend
    · exact hbad

theorem KeepsTags.peerFor {node} (h : KeepsTags s₀ s) : OptAll (fun p => KeepsTags s₀ p.2) (s.peerFor node) := by
  unfold State.peerFor
  split
  · exact h
  · refine .of_ite h ?_
    split
    · exact h.upd
    · trivial

theorem KeepsTags.sendReliable {m core} (h : KeepsTags s₀ s) : KeepsTags s₀ (s.sendReliable m core) := by
  unfold State.sendReliable
  refine .ite h.bump (.ite h.upd ?_)
  split
  · exact h.upd
  next e => exact ((h.peerFor.some e).upd : KeepsTags s₀ (State.putPeer _ _)).forward

theorem KeepsTags.abandon {id nodes} (h : KeepsTags s₀ s) : KeepsTags s₀ (s.abandon id nodes) := by
  unfold State.abandon
  refine .ite h ?_
  exact (h.foldl fun _ _ h => h.sendReliable).upd

theorem KeepsTags.abortScene {c d forced} (h : KeepsTags s₀ s) : KeepsTags s₀ (s.abortScene c d forced) := by
  unfold State.abortScene
  extract_lets
  split
  · extract_lets _ _ _ named _ counted
    have hnamed : KeepsTags s₀ named := by
      unfold named
      split
      · exact h.modCore.setReg.setReg
      · exact h.modCore.setReg
    have hcounted : KeepsTags s₀ counted := .ite hnamed.bump.bump hnamed.bump
    exact hcounted.abandon.upd.noteScene
  · exact h

theorem KeepsTags.doomHolders {line detail p} (h : KeepsTags s₀ s) : KeepsTags s₀ (s.doomHolders line detail p) :=
  h.foldl fun _ _ h => .ite (.ite h.abortScene (.ite h.abortScene h)) h

theorem KeepsTags.freeMarks {fuel cl l detail} (h : KeepsTags s₀ s) : KeepsTags s₀ (s.freeMarks fuel cl l detail) := by
  induction fuel generalizing s cl l detail with
  | zero => exact h
  | succ fuel ih =>
    rw [State.freeMarks]
    refine .ite ?_ h
    split
    · exact h
    · exact ih h.abortScene

theorem KeepsTags.writeHome {cl line} (h : KeepsTags s₀ s) : KeepsTags s₀ (s.writeHome cl line) := h.upd.bump

theorem KeepsTags.homeAgain {line} (h : KeepsTags s₀ s) : KeepsTags s₀ (s.homeAgain line) := by
  refine .ite ?_ h
  have hold : KeepsTags s₀ ((s.home.filter fun x => lineOf x.1 == line).foldl (fun s x => s.wr x.1 x.2) s) := h.foldl fun _ _ h => h.wr
  exact hold.upd

theorem KeepsTags.hostGives {n a} (h : KeepsTags s₀ s) : KeepsTags s₀ (State.hostGives n s a) := by
  induction n generalizing s a with
  | zero => exact h
  | succ n ih => exact ih (KeepsTags.upd (s := s) h).wr

theorem KeepsTags.obtain {line} (h : KeepsTags s₀ s) : KeepsTags s₀ (s.obtain line) := by
  refine .ite ?_ h
  extract_lets asked given
  have hasked : KeepsTags s₀ asked := .ite h.upd h
  have hgiven : KeepsTags s₀ given := by
    unfold given
    split
    · exact hasked.hostGives
    · exact hasked
  exact hgiven.upd

end tags

/-! ### The home slice's directory (R263, R264) -/

theorem dirOf_of_dir {s t : State} (h : t.dir = s.dir) (line : Nat) : t.dirOf line = s.dirOf line := by rw [State.dirOf, h, State.dirOf]

/-- An entry that names a holder stands in the directory. -/
theorem dirOf_setDir {s : State} {e : DirE} {line : Nat} (hl : e.line = line) (h : (e.owner.isNone && e.sharers.isEmpty) = false) :
    (s.setDir e).dirOf line = some e := by
  unfold State.setDir State.dirOf
  simp only [h, Bool.false_eq_true, if_false]
  exact List.find?_cons_of_pos (beq_iff_eq.2 hl)

theorem line_of_dirOf {s : State} {line : Nat} {e : DirE} (h : s.dirOf line = some e) : e.line = line :=
  beq_iff_eq.1 (List.find?_some h :)

/-- What the entry `e` says after the home slice has served the request of cluster `cl`, `before` being the entry before: the cluster
owns the line that it asked to own, or that nobody held; an owner elsewhere shares it from then on. -/
structure Granted (before : Option DirE) (cl : Nat) (own : Bool) (e : DirE) : Prop where
  owned : own = true ∨ before = none → e.owner = some cl ∧ e.sharers = []
  shared : own = false → ∀ f o, before = some f → f.owner = some o → o ≠ cl → e.owner = none ∧ e.sharers = [o, cl]

/-- The cluster becomes the one owner. -/
theorem setDir_owner (s : State) {before : Option DirE} {cl line : Nat} {own : Bool} (oldest : Option Nat) (h : own = true ∨ before = none) :
    ∃ e, (s.setDir { line := line, owner := some cl, sharers := [], oldest := oldest }).dirOf line = some e ∧ Granted before cl own e := by
  refine ⟨_, dirOf_setDir rfl rfl, fun _ => ⟨rfl, rfl⟩, fun hown f o hf => ?_⟩
  subst hown hf
  simp at h

/-- A line that some cluster held already is read. -/
theorem Granted.read {f e : DirE} {cl : Nat} {own : Bool} (hown : ¬ own = true)
    (h : ∀ o, f.owner = some o → o ≠ cl → e.owner = none ∧ e.sharers = [o, cl]) : Granted (some f) cl own e :=
  ⟨fun h => (h.elim hown nofun).elim, fun _ _ o hf ho hne => h o (Option.some.inj hf ▸ ho) hne⟩

/-- A request for a line that no cluster has lost is counted, and no more (R264, R269). -/
theorem countUreq_dir {s : State} (h : ∀ q, (s.cluster q).lost = []) (line : Nat) : (s.countUreq line).dir = s.dir := by
  have hlost : (s.clusters.any fun k => k.lost.contains line) = false := by
    rw [List.any_eq_false]
    intro k hk
    obtain ⟨q, hq, rfl⟩ := List.getElem_of_mem hk
    have hl := h q
    rw [State.cluster, List.getD_eq_getElem _ _ hq] at hl
    simp [hl]
  have hfound : s.foundLost line = s := if_neg (by simp only [hlost, Bool.false_eq_true, not_false_eq_true])
  unfold State.countUreq
  rw [hfound]
  dsimp only
  split <;> rfl

/-- The directory after a request of a cluster has been served. -/
theorem usher_dirOf {s : State} (hlost : ∀ q, (s.cluster q).lost = []) (cl line : Nat) (own : Bool) (age : Option Nat) :
    ∃ e, (s.usher cl line own age).dirOf line = some e ∧ Granted (s.dirOf line) cl own e := by
  unfold State.usher
  extract_lets u
  have hu : u.dirOf line = s.dirOf line := dirOf_of_dir (countUreq_dir hlost line) line
  rw [← hu]
  clear_value u
  cases hf : u.dirOf line with
  | none => exact setDir_owner _ _ (.inr rfl)
  | some f =>
    have hl := line_of_dirOf hf
    dsimp only
    split
    next hown => exact setDir_owner _ _ (.inl hown)
    next hown =>
      split
      next o ho =>
        split
        next hcl =>
          refine ⟨_, dirOf_setDir hl (by simp [ho]), .read hown fun o' ho' hne => ?_⟩
          exact absurd (Option.some.inj (ho'.symm.trans ho) ▸ beq_iff_eq.1 hcl) hne
        · refine ⟨_, dirOf_setDir rfl rfl, .read hown fun o' ho' _ => ⟨rfl, ?_⟩⟩
          rw [Option.some.inj (ho'.symm.trans ho)]
      next ho =>
        refine ⟨_, dirOf_setDir hl ?_, .read hown fun o ho' => nomatch ho.symm.trans ho'⟩
        dsimp only
        split
        next hmem => cases hs : f.sharers <;> simp_all
        · simp

/-! ### What a cluster cache does with the line (R245, R260) -/

theorem ccAlloc_dir (s : State) (cl line : Nat) (m : Mesi) : (s.ccAlloc cl line m).dir = s.dir := by
  unfold State.ccAlloc
  extract_lets _ _ _ _ _ _ freed
  have hfreed : KeepsTags s freed := .ite (.freeMarks (.refl s)) (.refl s)
  split
  · split <;> rfl
  split
  · rfl
  split
  · rfl
  split
  · exact hfreed.dir
  · extract_lets _ _ given
    have hgiven : KeepsTags s given := .ite hfreed.upd.chunkGive.writeHome hfreed.upd.chunkGive
    split
    · exact hgiven.dir
    · exact (KeepsTags.homeAgain (.refl _)).dir.trans hgiven.dir

theorem clOwned_dir (s : State) (cl line : Nat) : (s.clOwned cl line).dir = (s.usher cl line true none).dir := by
  unfold State.clOwned
  extract_lets _ asked alone placed
  have halone : alone.dir = asked.dir := foldl_all (P := fun t : State => t.dir = asked.dir) rfl fun t x h => by
    split
    · exact h
    · exact h
  have hplaced : placed.dir = (s.usher cl line true none).dir := (ccAlloc_dir _ _ _ _).trans halone
  clear_value placed
  split
  · split
    · exact hplaced
    · exact hplaced
  · exact hplaced

theorem usherLine_dir (s : State) (cl line : Nat) (own : Bool) :
    (s.usherLine cl line own).dir = ((s.obtain line).usher cl line own none).dir := by
  unfold State.usherLine
  extract_lets u held served
  split
  next hown =>
    subst hown
    exact clOwned_dir u cl line
  next hown =>
    obtain rfl := Bool.eq_false_of_not_eq_true hown
    split
    · rfl
    · exact ccAlloc_dir served cl line _

theorem usherLine_dirOf {s : State} (hlost : ∀ q, (s.cluster q).lost = []) (cl line : Nat) (own : Bool) :
    ∃ e, (s.usherLine cl line own).dirOf line = some e ∧ Granted (s.dirOf line) cl own e := by
  have hob : KeepsTags s (s.obtain line) := .obtain (.refl s)
  obtain ⟨e, he, hg⟩ := usher_dirOf (fun q => (hob.lost q).trans (hlost q)) cl line own none
  exact ⟨e, (dirOf_of_dir (usherLine_dir s cl line own) line).trans he, dirOf_of_dir hob.dir line ▸ hg⟩

/-- A Stagehand engine's request for the line is granted, and dooms no Scene (R293). -/
theorem arbitrate_engine_uncontested {s : State} (h : Uncontested s) (cl line : Nat) (write : Bool) :
    s.arbitrate (.engine cl) line write = .go s := by
  have hin : s.inScene (.engine cl) = none := rfl
  have hs : (if s.mode mREPLAY then [] else s.conflicting none line write) = [] := by rw [conflicting_uncontested h, ite_self]
  unfold State.arbitrate
  simp only [hin, hs, microHeld_uncontested h, Bool.and_false]
  rfl

/-- A request that nobody contends for, where none waits, is served at once (R264). -/
theorem atHome_usher {s : State} (hp : s.parked = []) (h : Uncontested s) (cl line : Nat) (own : Bool) :
    s.atHome (.usher cl line own) = s.usherLine cl line own := by
  have hs : ({ s with parked := [] } : State) = s := by rw [← hp]
  have hserve : s.serveOne (.usher cl line own) = some (s.usherLine cl line own) := by
    simp only [State.serveOne, arbitrate_engine_uncontested h]
  simp [State.atHome, State.serveAll, hs, hp, hserve]

theorem exec_usherRequest {s : State} {cl : Fin 32} {pa : BitVec 48} (own : Bool) (hp : s.parked = []) (hcl : cl.val < s.nClusters)
    (hpa : place pa.toNat = .loc) (h : Uncontested s) :
    exec (.usherRequest cl pa own .none) s = .next (s.usherLine cl (lineOf pa.toNat) own) := by
  refine (if_neg ?_).trans (congrArg Host.Outcome.next (atHome_usher hp h cl _ own))
  rw [hpa]
  dsimp only
  rw [Bool.not_true, Bool.or_false, decide_eq_true_eq]
  exact Nat.not_le.2 hcl

/-! ### Ways that are disabled or flushed (R261) -/

/-- The lines `l` are gone from cluster cache `cl`, which holds no line that it did not hold in `s₀`, under the same settings. -/
structure Gone (cl : Nat) (l : List CcLine) (s₀ s : State) : Prop where
  ctl : s.reg .CC_CTL cl = s₀.reg .CC_CTL cl
  lines : ∀ y ∈ (s.cluster cl).lines, y ∈ (s₀.cluster cl).lines ∧ ∀ x ∈ l, y.line ≠ x.line

/-- Lines that go one after the other. -/
theorem gone_foldl {cl : Nat} {f : State → CcLine → State} (hf : ∀ s x, Gone cl [x] s (f s x)) (l : List CcLine) (s : State) :
    Gone cl l s (l.foldl f s) := by
  induction l generalizing s with
  | nil => exact ⟨rfl, fun y hy => ⟨hy, nofun⟩⟩
  | cons x l ih =>
    refine ⟨(ih (f s x)).ctl.trans (hf s x).ctl, fun y hy => ?_⟩
    obtain ⟨hmem, hrest⟩ := (ih (f s x)).lines y hy
    obtain ⟨hold, hfirst⟩ := (hf s x).lines y hmem
    exact ⟨hold, List.forall_mem_cons.2 ⟨hfirst x List.mem_cons_self, hrest⟩⟩

/-- A line's tag is dropped. -/
theorem gone_filter (s : State) (cl : Nat) (x : CcLine) :
    Gone cl [x] s (s.modCluster cl fun k => { k with lines := k.lines.filter fun y => y.line != x.line }) := by
  refine ⟨rfl, fun y hy => ?_⟩
  by_cases hcl : cl < s.clusters.length
  · simp only [State.cluster, State.modCluster, modAt_getD _ _ _ _ hcl, List.mem_filter, bne_iff_ne] at hy
    exact ⟨hy.1, List.forall_mem_singleton.2 hy.2⟩
  · rw [State.cluster, List.getD_eq_default _ _ (by simpa [State.modCluster, modAt_length] using hcl)] at hy
    exact nomatch hy

theorem gone_ccClean (s : State) (cl : Nat) (p : CcLine → Bool) : Gone cl ((s.cluster cl).lines.filter p) s (s.ccClean cl p) := by
  refine gone_foldl (fun s x => ?_) _ s
  extract_lets _ doomed _ given
  have hdoomed : KeepsTags s doomed := .ite (.refl s) (.doomHolders (.refl s))
  have hgiven : KeepsTags s given := .ite hdoomed.chunkGive.writeHome hdoomed.chunkGive
  obtain ⟨hctl, hlines⟩ := gone_filter given cl x
  exact ⟨hctl.trans (hgiven.ctl cl), fun y hy => hgiven.lines cl ▸ hlines y hy⟩

/-- No line is left that the predicate picks. -/
theorem ccClean_lines {s : State} {cl : Nat} {p : CcLine → Bool} {y : CcLine} (hy : y ∈ ((s.ccClean cl p).cluster cl).lines) : p y = false := by
  obtain ⟨hold, hgone⟩ := (gone_ccClean s cl p).lines y hy
  by_contra hp
  exact hgone y (List.mem_filter.2 ⟨hold, by simpa using hp⟩) rfl

/-- A number with its digits between the places `l` and `l * m` replaced. -/
theorem digits_replaced (n v : Nat) {l : Nat} (hl : 0 < l) (m : Nat) : (n - n / l % m * l + v % m * l) / l % m = v % m := by
  have hn : n - n / l % m * l = n % l + l * (m * (n / l / m)) := by
    have h1 := Nat.div_add_mod n l
    have h2 := Nat.div_add_mod (n / l) m
    rw [← h2, Nat.mul_add, Nat.mul_comm l (n / l % m)] at h1
    omega
  rw [hn, Nat.mul_comm (v % m) l, Nat.add_assoc, ← Nat.mul_add, Nat.add_mul_div_left _ _ hl, Nat.div_eq_of_lt (Nat.mod_lt n hl), Nat.zero_add,
    Nat.mul_add_mod, Nat.mod_mod]

/-- Bits of a datum read as what was put there. -/
theorem bits_setBits (w : W64) {hi lo : Nat} (v : Nat) (hlo : lo ≤ hi) (hhi : hi < 64) :
    bits (setBits w hi lo v) hi lo = v % 2 ^ (hi + 1 - lo) := by
  have hwidth : 2 ^ lo * 2 ^ (hi + 1 - lo) ∣ 2 ^ 64 := by
    rw [← Nat.pow_add]
    exact Nat.pow_dvd_pow 2 (by omega)
  simp only [setBits, bits, BitVec.toNat_ofNat, Nat.shiftRight_eq_div_pow]
  rw [← Nat.mod_mul_right_div_self, Nat.mod_mod_of_dvd _ hwidth, Nat.mod_mul_right_div_self]
  exact digits_replaced _ v (Nat.two_pow_pos _) _

theorem fld_setFld (s : State) (f : Fld) (i v : Nat) (hlo : f.lo ≤ f.hi) (hhi : f.hi < 64) :
    (s.setFld f i v).fld f i = v % 2 ^ (f.hi + 1 - f.lo) := by
  rw [State.fld, State.setFld, reg_setReg, bits_setBits _ v hlo hhi]

theorem exec_ccCtlWaydis {s : State} {cl : Fin 32} (hcl : cl.val < s.nClusters) (ways : BitVec 16) :
    ∃ t, exec (.ccCtlWaydis cl ways) s = .next t ∧ t.fld f_CC_CTL_WAYDIS cl = ways.toNat ∧
      ∀ y ∈ (t.cluster cl).lines, ¬ (ways.toNat.testBit y.way = true ∧ (s.fld f_CC_CTL_WAYDIS cl).testBit y.way = false) := by
  refine ⟨_, congrArg Host.Outcome.next (if_neg (Nat.not_le.2 hcl)), ?_, fun y hy hway => ?_⟩
  · have hset : (s.setFld f_CC_CTL_WAYDIS cl ways.toNat).fld f_CC_CTL_WAYDIS cl = ways.toNat :=
      (fld_setFld _ _ _ _ (by decide) (by decide)).trans (Nat.mod_eq_of_lt ways.isLt)
    exact (congrArg (fun w => bits w 15 0) (gone_ccClean (s.setFld f_CC_CTL_WAYDIS cl ways.toNat) cl _).ctl).trans hset
  · have hkept := ccClean_lines hy
    simp [hway.1, hway.2] at hkept

theorem exec_ccCtlFlush {s : State} {cl : Fin 32} (hcl : cl.val < s.nClusters) :
    ∃ t, exec (.ccCtlFlush cl) s = .next t ∧ t.fld f_CC_CTL_FLUSH cl = 0 ∧ (t.cluster cl).lines = [] := by
  refine ⟨_, congrArg Host.Outcome.next (if_neg (Nat.not_le.2 hcl)), fld_setFld _ _ _ 0 (by decide) (by decide), ?_⟩
  exact List.eq_nil_iff_forall_not_mem.2 fun y hy => absurd (ccClean_lines (s := s) (cl := cl) (p := fun _ => true) hy) (by decide)

/-! ### Misses and the store queue (R140, R248) -/

theorem exec_missDataArrives {s : State} {c : Fin 256} (h : (s.core c).wait = some .miss) :
    exec (.missDataArrives c) s = .next (s.modCore c fun k =>
      { k with wait := none, pend := k.pend.map fun p => { p with arrived := true } }) := by
  refine congrArg Host.Outcome.next (modCore_congr s c _ _ ?_)
  simp [Core.missData, h]

section queue
variable {s : State} {c : Nat} {x : QStore}

/-- A store to device memory, on a line that the core holds modified, is performed at once. -/
theorem performStore_modified (hplace : place x.pa = .loc) (hunit : (s.core c).unit = false) (hnc : x.nc = false) (hdev : x.dev = false)
    (hmore : x.more = []) (hhost : s.needsHost (lineOf x.pa) = false) (hmod : (s.core c).dstate (lineOf x.pa) = .mod)
    (hrec : s.recording = false) (hgo : s.arbitrate (.core c) (lineOf x.pa) true = .go s) :
    s.performStore c x = some (s.storeWord x.pa x.val true) := by
  have hdirty : s.dirtyFor c (lineOf x.pa) = true := by simp [State.dirtyFor, hmod]
  unfold State.performStore
  simp only [hplace, hunit, hnc, hdev, hhost, hgo, Bool.not_false, Bool.and_false, Bool.false_eq_true, if_false, lineOwn_modified hmod,
    noteChunk_unrecorded hrec, QStore.words, hmore, List.map_nil, List.foldl_cons, List.foldl_nil, hdirty, Bool.and_self]

/-- The first store of the queue leaves it when it is performed (R248). -/
theorem drainAt_first {l : List QStore} {t : State} (hq : (s.core c).mem.sq = x :: l) (hperf : s.performStore c x = some t)
    (hcore : t.core c = s.core c) : s.drainAt c 0 = t.modCore c fun k => { k with mem := { k.mem with sq := l } } := by
  have hleave : mayLeave (x :: l) 0 = true := rfl
  unfold State.drainAt
  simp only [hq, List.getElem?_cons_zero, hleave, if_true, hperf]
  refine modCore_congr t c _ _ ?_
  rw [hcore, hq]
  rfl

end queue

/-! ### The SATB buffer (R320) -/

/-- Words written at one address after the other. -/
def State.wrWords (s : State) (a : Nat) : List TWord → State
  | [] => s
  | w :: l => (s.wr a w).wrWords (a + 1) l

theorem wrWords_col (s : State) (a : Nat) (l : List TWord) : (s.wrWords a l).col = s.col := by
  induction l generalizing s a with
  | nil => rfl
  | cons w l ih => exact ih (s.wr a w) (a + 1)

theorem wrWords_cores (s : State) (a : Nat) (l : List TWord) : (s.wrWords a l).cores = s.cores := by
  induction l generalizing s a with
  | nil => rfl
  | cons w l ih => exact ih (s.wr a w) (a + 1)

/-- What a word reads as after words have been written. -/
theorem rd_wrWords {s : State} (h : Memory.wf s = true) (a b : Nat) (l : List TWord) (d : TWord) :
    (s.wrWords a l).rd b = if a ≤ b ∧ b < a + l.length then l.getD (b - a) d else s.rd b := by
  induction l generalizing s a with
  | nil => rw [if_neg (by simp)]; rfl
  | cons w l ih =>
    rw [State.wrWords, ih (wr_wf s a w h)]
    rcases Nat.lt_trichotomy b a with hlt | rfl | hgt
    · rw [if_neg (by omega), if_neg (by omega), rd_wr_ne s a b w h (by omega)]
    · rw [if_neg (by omega), if_pos (by simp), rd_wr s b w h, Nat.sub_self, List.getD_cons_zero]
    · obtain ⟨i, rfl⟩ : ∃ i, b = a + 1 + i := ⟨b - (a + 1), by omega⟩
      have hi : a + 1 + i - a = i + 1 := by omega
      have hiff : (a + 1 ≤ a + 1 + i ∧ a + 1 + i < a + 1 + l.length) ↔ (a ≤ a + 1 + i ∧ a + 1 + i < a + (w :: l).length) := by
        rw [List.length_cons]; omega
      rw [rd_wr_ne s a _ w h (by omega), hi, List.getD_cons_succ, Nat.add_sub_cancel_left, if_congr hiff rfl rfl]

/-- The words of a buffer go to the queue's end. -/
theorem satb_wrWords (s : State) (l : List TWord) (n : Nat) :
    (l.zipIdx n).foldl (fun s x => s.wr (0x0004094C0000 + s.col.satbCount + x.2) x.1) s = s.wrWords (0x0004094C0000 + s.col.satbCount + n) l := by
  induction l generalizing s n with
  | nil => rfl
  | cons w l ih => exact ih (s.wr (0x0004094C0000 + s.col.satbCount + n) w) (n + 1)

/-- The state after core c's SATB buffer has gone to the queue. -/
def State.satbQueued (s : State) (c : Nat) : State :=
  let b := (s.core c).mem.satb
  ({ s.wrWords (0x0004094C0000 + s.col.satbCount) b with col := { s.col with satbCount := s.col.satbCount + b.length } } : State).modCore c
    fun k => { k with mem := { k.mem with satb := [] } }

theorem flushSatb_room {s : State} {c : Nat} (h : s.col.satbCount + (s.core c).mem.satb.length ≤ satbMax) : s.flushSatb c = s.satbQueued c := by
  unfold State.flushSatb State.satbQueued
  dsimp only
  rw [if_pos h, satb_wrWords, wrWords_col, Nat.add_zero]

section satb
variable {s : State} {c : Nat}

theorem satbQueued_satb (hc : c < s.cores.length) : ((s.satbQueued c).core c).mem.satb = [] := by
  unfold State.satbQueued
  rw [core_modCore _ _ _ (by rw [wrWords_cores]; exact hc)]

theorem rd_satbQueued (hwf : Memory.wf s = true) (a : Nat) :
    (s.satbQueued c).rd a =
      if 0x0004094C0000 + s.col.satbCount ≤ a ∧ a < 0x0004094C0000 + s.col.satbCount + (s.core c).mem.satb.length
      then (s.core c).mem.satb.getD (a - (0x0004094C0000 + s.col.satbCount)) wRAW0 else s.rd a :=
  (rd_wrWords hwf _ a _ wRAW0 :)

end satb

theorem exec_satbBufferFlush {s : State} {c : Fin 256} (hwf : Memory.wf s = true) (hc : c.val < s.cores.length)
    (hroom : s.col.satbCount + (s.core c).mem.satb.length ≤ satbMax) :
    ∃ t, exec (.satbBufferFlush c) s = .next t ∧ t.col.satbCount = s.col.satbCount + (s.core c).mem.satb.length ∧ (t.core c).mem.satb = [] ∧
      (∀ i, i < (s.core c).mem.satb.length → t.rd (0x0004094C0000 + s.col.satbCount + i) = (s.core c).mem.satb.getD i wRAW0) ∧
      (∀ a, a < 0x0004094C0000 + s.col.satbCount ∨ 0x0004094C0000 + s.col.satbCount + (s.core c).mem.satb.length ≤ a → t.rd a = s.rd a) := by
  have hsatb := satbQueued_satb hc
  have hin : ∀ i, i < (s.core c).mem.satb.length →
      (s.satbQueued c).rd (0x0004094C0000 + s.col.satbCount + i) = (s.core c).mem.satb.getD i wRAW0 := fun i hi => by
    rw [rd_satbQueued hwf, if_pos (by omega), Nat.add_sub_cancel_left]
  have hout : ∀ a, a < 0x0004094C0000 + s.col.satbCount ∨ 0x0004094C0000 + s.col.satbCount + (s.core c).mem.satb.length ≤ a →
      (s.satbQueued c).rd a = s.rd a := fun a ha => by
    rw [rd_satbQueued hwf, if_neg (by omega)]
  refine ⟨_, rfl, ?_⟩
  rw [flushSatb_room hroom]
  split
  · exact ⟨rfl, (modCore_keeps (fun k => k.mem.satb) _ _ _ (fun k => { k with wait := none }) fun _ => rfl).trans hsatb, hin, hout⟩
  · exact ⟨rfl, hsatb, hin, hout⟩

/-- Settles O35: each unit's own step is followed in turn; arbitration, chunk ends and Scene aborts on the way leave the directory and the tags
of the cluster caches alone. -/
theorem memoryAgents : Obligations.MemoryAgents := by
  unfold Obligations.MemoryAgents
  intro s c cl pa own x l ways hp k
  refine ⟨exec_missDataArrives, fun hq _ hplace hunit hnc hdev hmore hhost hmod hrec hgo => ?_, exec_satbBufferFlush, fun hcl hpa halone hlost => ?_,
    fun hcl => ⟨exec_ccCtlWaydis hcl ways, exec_ccCtlFlush hcl⟩⟩
  · have hperf := performStore_modified hplace hunit hnc hdev hmore hhost hmod hrec hgo
    exact congrArg Host.Outcome.next (drainAt_first hq hperf (by rw [storeWord_dirty]; rfl))
  · obtain ⟨e, he, hgrant⟩ := usherLine_dirOf hlost cl (lineOf pa.toNat) own
    exact ⟨_, e, exec_usherRequest own hp hcl hpa halone, he, fun h => hgrant.owned (.inl h), fun _ h => hgrant.owned (.inr h), hgrant.shared⟩

end Sys2Proof.Machine
end
